-- ==== Sys2Proof/Word.lean ====
section
/-! DEFINITION. Sys2Proof/Word.lean: bytes, little-endian fields and the sorted tables in which the model keeps
sparse state. -/

namespace Sys2Proof

/-- One byte. -/
abbrev Byte := BitVec 8

/-- The low `n` bytes of `v`, least significant first (R5). -/
def leBytes : Nat → Nat → List Byte
  | 0, _ => []
  | n + 1, v => BitVec.ofNat 8 v :: leBytes n (v / 256)

/-- The number that little-endian bytes hold (R5). -/
def ofLE : List Byte → Nat
  | [] => 0
  | b :: bs => b.toNat + 256 * ofLE bs

/-- `f` applied `n` times. -/
def iterN {α : Type} (f : α → α) : Nat → α → α
  | 0, x => x
  | n + 1, x => iterN f n (f x)

/-- Bits [lo + w - 1 : lo] of `v`. -/
def fld (v lo w : Nat) : Nat := v / 2 ^ lo % 2 ^ w

/-- Bit `i` of `v`. -/
def bitAt (v i : Nat) : Bool := v / 2 ^ i % 2 == 1

/-- `v` with bits [lo + w - 1 : lo] replaced by the low `w` bits of `x`. -/
def setFld (v lo w x : Nat) : Nat :=
  v % 2 ^ lo + x % 2 ^ w * 2 ^ lo + v / 2 ^ (lo + w) * 2 ^ (lo + w)

/-- The signed reading of the low `w` bits of `v`. -/
def signedOf (w v : Nat) : Int :=
  if v % 2 ^ w < 2 ^ (w - 1) then (v % 2 ^ w : Nat) else ((v % 2 ^ w : Nat) : Int) - (2 ^ w : Nat)

/-- The `w`-bit two's-complement code of `i`. -/
def codeOf (w : Nat) (i : Int) : Nat := (i % ((2 ^ w : Nat) : Int)).toNat

/-- The field of `n` bytes at byte `o` of a structure (R5). -/
def getLE (bs : List Byte) (o n : Nat) : Nat := ofLE ((bs.drop o).take n)

/-- `bs` with the bytes from `o` on replaced by `x`, its length kept. -/
def putBytes (bs : List Byte) (o : Nat) (x : List Byte) : List Byte :=
  bs.take o ++ x.take (bs.length - o) ++ bs.drop (o + x.length)

/-- A sparse table: keys strictly rising. -/
abbrev Tab (α : Type) := List (Nat × α)

namespace Tab

variable {α : Type}

/-- The entry of key `k`, if the table lists one. -/
def get? : Tab α → Nat → Option α
  | [], _ => none
  | (k', v) :: t, k => if k' = k then some v else get? t k

/-- The entry of key `k`, or `d`. -/
def getD (t : Tab α) (k : Nat) (d : α) : α :=
  match get? t k with
  | some v => v
  | none => d

/-- Insert or replace the entry of `k`, keys kept rising. -/
def put : Tab α → Nat → α → Tab α
  | [], k, v => [(k, v)]
  | (k', v') :: t, k, v =>
    if k < k' then (k, v) :: (k', v') :: t
    else if k = k' then (k, v) :: t
    else (k', v') :: put t k v

/-- Remove the entry of `k`. -/
def del : Tab α → Nat → Tab α
  | [], _ => []
  | (k', v') :: t, k => if k = k' then del t k else (k', v') :: del t k

/-- Write `v` at `k` in a table whose unlisted keys read as `d k`: the default removes the entry. -/
def write [DecidableEq α] (d : Nat → α) (t : Tab α) (k : Nat) (v : α) : Tab α :=
  if v = d k then del t k else put t k v

/-- Change the entry of `k` (`d` where none is listed) by `f`. -/
def upd (t : Tab α) (k : Nat) (d : α) (f : α → α) : Tab α := put t k (f (getD t k d))

/-- Keys strictly rising, all at least `lo`. -/
def sortedFrom : Nat → Tab α → Bool
  | _, [] => true
  | lo, (k, _) :: t => decide (lo ≤ k) && sortedFrom (k + 1) t

/-- The canonical form of a table with defaults `d`: keys strictly rising, no entry at its default. -/
def canon [DecidableEq α] (d : Nat → α) (t : Tab α) : Bool :=
  sortedFrom 0 t && t.all fun e => decide (e.2 ≠ d e.1)

end Tab

/-- Insert into a rising list without repeats. -/
def insSorted (k : Nat) : List Nat → List Nat
  | [] => [k]
  | x :: xs => if k < x then k :: x :: xs else if k = x then x :: xs else x :: insSorted k xs

end Sys2Proof
end

