-- ==== Sys2Proof/Syntax.lean ====
section
/-! DEFINITION. Sys2Proof/Syntax.lean: the commands of the block: one constructor per row of opcode_table.json, with the
row's operands. -/

namespace Sys2Proof

/-- The shadowed registers of a stream (R44). -/
inductive ShadowReg where
  | cfg | dt | geom | sealCfg | fnumMax
deriving DecidableEq, Repr

/-- What a receiver finds of a long packet (R54): a start-of-transmission or preamble error, an uncorrectable and a corrected
header, a payload that fails its CRC-16, and a line buffer that overflows (R41). -/
structure PktCheck where
  sot : Bool
  hdrUe : Bool
  hdrCe : Bool
  crc : Bool
  overflow : Bool
deriving DecidableEq, Repr

/-- Where an uncorrectable error of a Frond's memories lies (R234): a 64-byte scratch line, or a 16-element group of a tile
row (tile × 512 + row × 4 + group). -/
inductive ScratchWord where
  | line (k : Fin 20480)
  | group (k : Fin 4096)
deriving DecidableEq, Repr

/-- What the checks of a Frond find while an instruction runs: corrected scratch and accumulator errors, an uncorrectable one
(R234), and a register-file parity error (R469). -/
structure FrondCheck where
  ce : Nat
  ue : Option ScratchWord
  parity : Bool
deriving DecidableEq, Repr

/-- The class of a unit that makes memory requests (R17). -/
inductive AgentClass where
  | frond | channel | engine | pipe | port | crozier | link | host | other
deriving DecidableEq, Repr

/-- What a fill finds beyond the state of the granule (R352, R359, R366 to R368, R468): nothing, a corrected link error, an
uncorrectable link error, a tag that mismatches, a corrected error of cache SRAM, one in a clean line or one in a dirty line that cannot be
corrected, a parity error on the fabric, or an uncorrectable error in a structure whose loss is fatal, with its class and instance. -/
inductive FillCheck where
  | good | corrected | uncorrectable | mismatch | sramCorrected | sramClean | sramDirty | parity
  | fatal (cls inst : Fin 256)
deriving DecidableEq, Repr

/-- A packet of the Silair Link as its destination sees it (R415): header fields, payload, and whether its
authentication tag verifies (R416), which AES-256-GCM decides. -/
structure Packet where
  type : Nat
  poison : Nat
  len : Nat
  hops : Nat
  dst : Nat
  kphase : Bool
  src : Nat
  pt : Nat
  bind : Nat
  tag : Nat
  addr : Nat
  seq : Nat
  authOk : Bool
  payload : List Byte
deriving DecidableEq, Repr

/-- What a receiver finds of a flit (R411, R413): good, corrected by FEC, or failing its CRC after FEC. -/
inductive FlitCheck where
  | good | corrected | crcFail
deriving DecidableEq, Repr

/-- The kind in FHDR[31:30] (R411). -/
inductive FlitKind where
  | data | idle | nak | training
deriving DecidableEq, Repr

/-- The role a strap or a neighbour states (R418). -/
inductive Role where
  | member | master | standby | standalone
deriving DecidableEq, Repr

/-- How a plausibility program ended (R505): a fault of its own (a trap or an access outside its area), or the reason that it
returned, 0 to pass, with the 16-byte RESULT and the persistent state that it left. -/
structure ProgEnd where
  fault : Bool
  reason : BitVec 16
  result : List Byte
  kept : List Byte
deriving DecidableEq, Repr

/-- What starts a host reset (R567): PERST_N, a PCIe hot reset, or loss of the PCIe link. -/
inductive HostResetBy where
  | perst | hot | linkLoss
deriving DecidableEq, Repr

/-- A command: a row of the table of operations and events. A row whose outcome the outside decides (what arrives on a
port, what a check finds) carries that as an operand. -/
inductive Instr where
  /-- REGISTER_WRITE (R7): the function, the offset in its BAR0, whether 64 bits are written, and the value. -/
  | registerWrite (fn : Fin 16) (offset : BitVec 32) (wide : Bool) (value : BitVec 64)
  /-- RC_READ (R9): the function and the offset in its BAR0. -/
  | rcRead (fn : Fin 16) (offset : BitVec 32)
  /-- COUNTER_LOW_READ (R537): the function and the offset in its BAR0: the lower half, or the upper half that is read next. -/
  | counterLowRead (fn : Fin 16) (offset : BitVec 32)
  /-- DT_NOW_LOW_READ (R524): the lower half, or the upper half that is read next. -/
  | dtNowLowRead (hi : Bool)
  /-- CSI_CTRL_WRITE (R56): the port and the value written. -/
  | csiCtrlWrite (n : Fin 12) (value : BitVec 32)
  /-- CSI_CALIBRATION_COMPLETE (R56): the port. -/
  | csiCalibrationComplete (n : Fin 12)
  /-- LANE_LOCK_FAILURE (R54): the port. -/
  | laneLockFailure (n : Fin 12)
  /-- ULPS_TRANSITION (R39): the port, its lane or trio, and whether it enters or leaves. -/
  | ulpsTransition (n : Fin 12) (lane : Fin 4) (enter : Bool)
  /-- STREAM_REG_WRITE (R44): the stream, the register and the value written. -/
  | streamRegWrite (m : Fin 48) (reg : ShadowReg) (value : BitVec 32)
  /-- LONG_PACKET (R42): the port, the header's virtual channel and data type, the payload, and what the receiver finds. -/
  | longPacket (n : Fin 12) (vc : Fin 32) (dt : BitVec 6) (payload : List Byte) (chk : PktCheck)
  /-- FRAME_START (R50): the port, the virtual channel and the frame number. -/
  | frameStart (n : Fin 12) (vc : Fin 32) (fnum : BitVec 16)
  /-- FRAME_END (R51): the port and the virtual channel. -/
  | frameEnd (n : Fin 12) (vc : Fin 32)
  /-- FRAME_TIMEOUT (R54): the stream whose open frame has lasted TIMEOUT µs. -/
  | frameTimeout (m : Fin 48)
  /-- REC_RELEASE (R52): the stream and the slot index written. -/
  | recRelease (m : Fin 48) (value : BitVec 32)
  /-- ISP_CTX_CFG_WRITE (R58): the context 4n + c, whether SRC or CFG is written, and the value. -/
  | ispCtxCfgWrite (u : Fin 48) (src : Bool) (value : BitVec 32)
  /-- PB_POST (R64): the context and the value written to PB_POST. -/
  | pbPost (u : Fin 48) (dva : BitVec 64)
  /-- PB_FETCH_COMPLETE (R64): the context. -/
  | pbFetchComplete (u : Fin 48)
  /-- ISP_ROW_OUTPUT (R63): the context whose next output row this is. -/
  | ispRowOutput (u : Fin 48)
  /-- ISP_STATS_WRITE (R75): the context whose last output row is written. -/
  | ispStatsWrite (u : Fin 48)
  /-- BRACKEN_JOB_ACCEPT (R80): the engine. -/
  | brackenJobAccept (e : Fin 11)
  /-- BRACKEN_ROW_START (R84): the engine. -/
  | brackenRowStart (e : Fin 11)
  /-- BRACKEN_ROW_DONE (R85): the engine. -/
  | brackenRowDone (e : Fin 11)
  /-- BRACKEN_WAIT_TIMEOUT (R84): the engine and the context whose wait has lasted WAIT_US. -/
  | brackenWaitTimeout (e : Fin 11) (k : Fin 4)
  /-- BRACKEN_JOB_COMPLETE (R85): the engine and the context. -/
  | brackenJobComplete (e : Fin 11) (k : Fin 4)
  /-- DESC_REWRITE_COMPLETE (R162). -/
  | descRewriteComplete
  /-- CRZ_LOAD (R132): the graph slot. -/
  | crzLoad (g : Fin 64)
  /-- CRZ_LOAD_COMPLETE (R132): the graph slot. -/
  | crzLoadComplete (g : Fin 64)
  /-- CRZ_UNLOAD (R132): the graph slot. -/
  | crzUnload (g : Fin 64)
  /-- CRZ_ABORT (R151): the graph slot. -/
  | crzAbort (g : Fin 64)
  /-- CRZ_TRIGGER (R134): the graph slot. -/
  | crzTrigger (g : Fin 64)
  /-- CRZ_CFG_WRITE (R154): the graph slot and the value written to CFG. -/
  | crzCfgWrite (g : Fin 64) (value : BitVec 32)
  /-- CRZ_TIMER_TRIGGER (R134): the graph slot, whose timer has reached a trigger time. -/
  | crzTimerTrigger (g : Fin 64)
  /-- CRZ_NODE_START (R144): the node of an instance, and the time of its handoff inside the Crozier. -/
  | crzNodeStart (g : Fin 64) (inst : Nat) (node : Fin 1024) (ns : Nat)
  /-- CRZ_BUDGET_EXPIRY (R136): the graph slot and the instance slot whose budget is spent. -/
  | crzBudgetExpiry (g : Fin 64) (slot : Fin 4)
  /-- DSC_CREATE (R158): the partition and the handle in DSC_PT_p_CMD. -/
  | dscCreate (p : Fin 16) (handle : BitVec 16)
  /-- DSC_REPLACE (R158): the partition and the handle. -/
  | dscReplace (p : Fin 16) (handle : BitVec 16)
  /-- DSC_REPLACE_INV (R158): the partition and the handle. -/
  | dscReplaceInv (p : Fin 16) (handle : BitVec 16)
  /-- DSC_DESTROY (R158): the partition and the handle. -/
  | dscDestroy (p : Fin 16) (handle : BitVec 16)
  /-- DSC_INVAL (R160): the partition and the handle. -/
  | dscInval (p : Fin 16) (handle : BitVec 16)
  /-- DSC_INVAL_ALL (R160): the partition. -/
  | dscInvalAll (p : Fin 16)
  /-- DSC_CMD_COMPLETE (R158): the partition. -/
  | dscCmdComplete (p : Fin 16)
  /-- RGN_WRITE (R164). -/
  | rgnWrite
  /-- RGN_READ (R191). -/
  | rgnRead
  /-- RGN_CLEAR (R164). -/
  | rgnClear
  /-- RGN_CMD_COMPLETE (R165). -/
  | rgnCmdComplete
  /-- FROND_OP_START (R213): the Frond. -/
  | frondOpStart (n : Fin 32)
  /-- FROND_OP_END (R223): the Frond. -/
  | frondOpEnd (n : Fin 32)
  /-- FROND_ABORT_COMPLETE (R232): the Frond. -/
  | frondAbortComplete (n : Fin 32)
  /-- FROND_ZEROING_COMPLETE (R233): the Frond. -/
  | frondZeroingComplete (n : Fin 32)
  /-- MMA (R249): the Frond whose next instruction this is, and what its checks find. -/
  | mma (n : Fin 32) (chk : FrondCheck)
  /-- MMA_COMPLETE (R216): the Frond whose oldest access of the kind is done. -/
  | mmaComplete (n : Fin 32)
  /-- TLOAD (R243): the Frond whose next instruction this is, and what its checks find. -/
  | tload (n : Fin 32) (chk : FrondCheck)
  /-- TLOAD_COMPLETE (R244): the Frond whose oldest access of the kind is done. -/
  | tloadComplete (n : Fin 32)
  /-- TSTORE (R245): the Frond whose next instruction this is, and what its checks find. -/
  | tstore (n : Fin 32) (chk : FrondCheck)
  /-- TSTORE_COMPLETE (R277): the Frond whose oldest access of the kind is done. -/
  | tstoreComplete (n : Fin 32)
  /-- TCLR (R250): the Frond whose next instruction this is, and what its checks find. -/
  | tclr (n : Fin 32) (chk : FrondCheck)
  /-- VADD (R253): the Frond whose next instruction this is, and what its checks find. -/
  | vadd (n : Fin 32) (chk : FrondCheck)
  /-- VSUB (R253): the Frond whose next instruction this is, and what its checks find. -/
  | vsub (n : Fin 32) (chk : FrondCheck)
  /-- VMUL (R253): the Frond whose next instruction this is, and what its checks find. -/
  | vmul (n : Fin 32) (chk : FrondCheck)
  /-- VFMA (R253): the Frond whose next instruction this is, and what its checks find. -/
  | vfma (n : Fin 32) (chk : FrondCheck)
  /-- VMIN (R253): the Frond whose next instruction this is, and what its checks find. -/
  | vmin (n : Fin 32) (chk : FrondCheck)
  /-- VMAX (R253): the Frond whose next instruction this is, and what its checks find. -/
  | vmax (n : Fin 32) (chk : FrondCheck)
  /-- VDIV (R253): the Frond whose next instruction this is, and what its checks find. -/
  | vdiv (n : Fin 32) (chk : FrondCheck)
  /-- VSQRT (R253): the Frond whose next instruction this is, and what its checks find. -/
  | vsqrt (n : Fin 32) (chk : FrondCheck)
  /-- VCMP (R254): the Frond whose next instruction this is, and what its checks find. -/
  | vcmp (n : Fin 32) (chk : FrondCheck)
  /-- VSEL (R253): the Frond whose next instruction this is, and what its checks find. -/
  | vsel (n : Fin 32) (chk : FrondCheck)
  /-- VLOGIC (R253): the Frond whose next instruction this is, and what its checks find. -/
  | vlogic (n : Fin 32) (chk : FrondCheck)
  /-- VSHIFT (R253): the Frond whose next instruction this is, and what its checks find. -/
  | vshift (n : Fin 32) (chk : FrondCheck)
  /-- VSFU (R255): the Frond whose next instruction this is, and what its checks find. -/
  | vsfu (n : Fin 32) (chk : FrondCheck)
  /-- VCVT (R256): the Frond whose next instruction this is, and what its checks find. -/
  | vcvt (n : Fin 32) (chk : FrondCheck)
  /-- VQNT (R257): the Frond whose next instruction this is, and what its checks find. -/
  | vqnt (n : Fin 32) (chk : FrondCheck)
  /-- VRED (R258): the Frond whose next instruction this is, and what its checks find. -/
  | vred (n : Fin 32) (chk : FrondCheck)
  /-- VLD (R259): the Frond whose next instruction this is, and what its checks find. -/
  | vld (n : Fin 32) (chk : FrondCheck)
  /-- VST (R259): the Frond whose next instruction this is, and what its checks find. -/
  | vst (n : Fin 32) (chk : FrondCheck)
  /-- VRDACC (R259): the Frond whose next instruction this is, and what its checks find. -/
  | vrdacc (n : Fin 32) (chk : FrondCheck)
  /-- VWRACC (R259): the Frond whose next instruction this is, and what its checks find. -/
  | vwracc (n : Fin 32) (chk : FrondCheck)
  /-- VBCST (R253): the Frond whose next instruction this is, and what its checks find. -/
  | vbcst (n : Fin 32) (chk : FrondCheck)
  /-- VIOTA (R253): the Frond whose next instruction this is, and what its checks find. -/
  | viota (n : Fin 32) (chk : FrondCheck)
  /-- VLANE (R253): the Frond whose next instruction this is, and what its checks find. -/
  | vlane (n : Fin 32) (chk : FrondCheck)
  /-- VSTAT (R260): the Frond whose next instruction this is, and what its checks find. -/
  | vstat (n : Fin 32) (chk : FrondCheck)
  /-- DQRY (R260): the Frond whose next instruction this is, and what its checks find. -/
  | dqry (n : Fin 32) (chk : FrondCheck)
  /-- SALU (R262): the Frond whose next instruction this is, and what its checks find. -/
  | frondSalu (n : Fin 32) (chk : FrondCheck)
  /-- SLI (R263): the Frond whose next instruction this is, and what its checks find. -/
  | frondSli (n : Fin 32) (chk : FrondCheck)
  /-- BR (R263): the Frond whose next instruction this is, and what its checks find. -/
  | frondBr (n : Fin 32) (chk : FrondCheck)
  /-- END (R263): the Frond whose next instruction this is, and what its checks find. -/
  | endOp (n : Fin 32) (chk : FrondCheck)
  /-- SIGNAL (R276): the Frond whose next instruction this is, and what its checks find. -/
  | frondSignal (n : Fin 32) (chk : FrondCheck)
  /-- WAIT (R275): the Frond whose next instruction this is, and what its checks find. -/
  | frondWait (n : Fin 32) (chk : FrondCheck)
  /-- FSET (R276): the Frond whose next instruction this is, and what its checks find. -/
  | fset (n : Fin 32) (chk : FrondCheck)
  /-- FREAD (R272): the Frond whose next instruction this is, and what its checks find. -/
  | fread (n : Fin 32) (chk : FrondCheck)
  /-- FENCE (R278): the Frond whose next instruction this is, and what its checks find. -/
  | frondFence (n : Fin 32) (chk : FrondCheck)
  /-- FLAG_SIGNAL_APPLY (R270): the flag, whose oldest released operation is a signal, and whether its memory word is uncorrectable. -/
  | flagSignalApply (f : Fin 32768) (ue : Bool)
  /-- FLAG_SET_APPLY (R270): the flag, whose oldest released operation is a set, and whether its memory word is uncorrectable. -/
  | flagSetApply (f : Fin 32768) (ue : Bool)
  /-- FLAG_WAIT_SATISFIED (R283): the flag, whose oldest ended wait is reported to its waiter. -/
  | flagWaitSatisfied (f : Fin 32768)
  /-- WAIT_TIMEOUT (R304): whether a channel or a Frond waits, and its number. -/
  | waitTimeout (channel : Bool) (n : Fin 64)
  /-- FLAG_VALUE_WRITE (R282): function, flag, value written, and whether the word is uncorrectable. -/
  | flagValueWrite (fn : Fin 16) (f : Fin 32768) (value : BitVec 32) (ue : Bool)
  /-- FLAG_ADD_WRITE (R282): function, flag, amount, and whether the word is uncorrectable. -/
  | flagAddWrite (fn : Fin 16) (f : Fin 32768) (value : BitVec 32) (ue : Bool)
  /-- GS_LOAD (R288): the partition whose CMD is written. -/
  | gsLoad (p : Fin 16)
  /-- GS_LOAD_COMPLETE (R288): the partition. -/
  | gsLoadComplete (p : Fin 16)
  /-- GS_UNLOAD (R288): the partition. -/
  | gsUnload (p : Fin 16)
  /-- GS_ABORT (R311): the partition. -/
  | gsAbort (p : Fin 16)
  /-- SETPRIO (R297): the partition. -/
  | setprio (p : Fin 16)
  /-- GS_LAUNCH (R293): the partition and the handle written to LAUNCH. -/
  | gsLaunch (p : Fin 16) (handle : BitVec 32)
  /-- GS_DISPATCH (R295): the partition. -/
  | gsDispatch (p : Fin 16)
  /-- GS_OP_RELEASE (R294): the partition, one of whose ended copies has every store visible. -/
  | gsOpRelease (p : Fin 16)
  /-- GS_DELAY_TICK (R303): the partition. -/
  | gsDelayTick (p : Fin 16)
  /-- GS_BUDGET_EXPIRY (R311): the partition and the graph whose run's budget is spent. -/
  | gsBudgetExpiry (p : Fin 16) (handle : BitVec 32)
  /-- COPY2_REQUEST (R301): what the checker asks for. -/
  | copy2Request (p : Fin 16) (handle : BitVec 32) (run : BitVec 48) (op : BitVec 16)
  /-- DEADLOCK_DECLARE (R305): the partition, whose quiet period is over. -/
  | deadlockDeclare (p : Fin 16)
  /-- MOV_START (R319): the channel whose CMD is written. -/
  | movStart (ch : Fin 64)
  /-- MOV_ABORT (R343): the channel. -/
  | movAbort (ch : Fin 64)
  /-- MOV_RESUME (R345): the channel. -/
  | movResume (ch : Fin 64)
  /-- MOV_RING_RESET (R336): the channel. -/
  | movRingReset (ch : Fin 64)
  /-- MOVE (R324): the channel whose next instruction this is. -/
  | movMove (ch : Fin 64)
  /-- MOVX (R325): the channel. -/
  | movMovx (ch : Fin 64)
  /-- LOOP (R326): the channel. -/
  | chLoop (ch : Fin 64)
  /-- ENDL (R326): the channel. -/
  | chEndl (ch : Fin 64)
  /-- CH_WAIT (R327): the channel. -/
  | chWait (ch : Fin 64)
  /-- CH_SIGNAL (R327): the channel. -/
  | chSignal (ch : Fin 64)
  /-- SETV (R328): the channel. -/
  | chSetv (ch : Fin 64)
  /-- HALT (R339): the channel. -/
  | chHalt (ch : Fin 64)
  /-- MOVER_BEAT_ISSUE (R333): the mover, and its write rather than its read slot. -/
  | moverBeatIssue (m : Fin 4) (write : Bool)
  /-- MOVER_READ_RETURN (R331): the channel whose oldest read returns. -/
  | moverReadReturn (ch : Fin 64)
  /-- MOVER_WRITE_ACK (R331): the channel whose oldest write is acknowledged. -/
  | moverWriteAck (ch : Fin 64)
  /-- MOVER_BUS_ERROR (R344): the channel whose oldest beat of the direction gets an error response. -/
  | moverBusError (ch : Fin 64) (write : Bool)
  /-- MOVER_RUN_COMPLETE (R339): the channel. -/
  | moverRunComplete (ch : Fin 64)
  /-- CH_DONE_SIGNAL (R339): the channel. -/
  | chDoneSignal (ch : Fin 64)
  /-- CH_DRAIN_READ (R341): the channel whose DRAIN is read. -/
  | chDrainRead (ch : Fin 64)
  /-- CH_DRAIN_RETURN (R341): the channel. -/
  | chDrainReturn (ch : Fin 64)
  /-- DRAIN_TIMEOUT (R341): whether a channel's DRAIN or a partition's is late, and its number. -/
  | drainTimeout (channel : Bool) (f : Fin 64)
  /-- SPORE_SUBMIT (R337): the channel and the value written to SPORE_CTL. -/
  | sporeSubmit (ch : Fin 64) (value : BitVec 32)
  /-- SPORE_COMPLETE (R338): the channel. -/
  | sporeComplete (ch : Fin 64)
  /-- CLEAN_RANGE (R365): the partition whose MEM_PT_p_CACHE_CMD is written. -/
  | cleanRange (p : Fin 16)
  /-- FLUSH_RANGE (R365): the partition. -/
  | flushRange (p : Fin 16)
  /-- FLUSH_ALL (R365): the partition. -/
  | flushAll (p : Fin 16)
  /-- RELEASE_RETAINED (R365): the partition. -/
  | releaseRetained (p : Fin 16)
  /-- CACHE_CMD_COMPLETE (R365): the partition. -/
  | cacheCmdComplete (p : Fin 16)
  /-- S1_ALL (R373): the partition. -/
  | s1All (p : Fin 16)
  /-- S1_RANGE (R373): the partition. -/
  | s1Range (p : Fin 16)
  /-- S2_ALL (R373): the function whose view is written (0: the PF) and the partition. -/
  | s2All (fn : Fin 16) (p : Fin 16)
  /-- S2_RANGE (R373): the function and the partition. -/
  | s2Range (fn : Fin 16) (p : Fin 16)
  /-- XLAT_CMD_COMPLETE (R373): the partition. -/
  | xlatCmdComplete (p : Fin 16)
  /-- WAYS_WRITE (R364): the function, the partition and the value written. -/
  | waysWrite (fn : Fin 16) (p : Fin 16) (value : BitVec 32)
  /-- PASR_WRITE (R370): the value written. -/
  | pasrWrite (value : BitVec 32)
  /-- CACHE_FILL (R359): the requester, the address, and what the link ECC and the tag comparison find. -/
  | cacheFill (p : Fin 16) (reader : AgentClass) (inst : Fin 256) (pa : BitVec 48) (check : FillCheck)
  /-- IMBALANCE_WINDOW (R356): the 64-byte accesses of the window in all and of its busiest channel, and the partition with most bytes to it. -/
  | imbalanceWindow (total : Nat) (busiest : Fin 32) (busyCount : Nat) (pt : Fin 16)
  /-- MR4_POLL (R369): the hottest SDRAM temperature and its channel. -/
  | mr4Poll (tempC : Fin 256) (channel : Fin 32)
  /-- QOS_INTERVAL (R405). -/
  | qosInterval
  /-- ASSIGN (R381): the partition in QM_ASSIGN_CMD. -/
  | unitAssign (p : Fin 16)
  /-- UNIT_RELEASE (R381): the partition. -/
  | unitRelease (p : Fin 16)
  /-- GRANT (R382): the partition in QM_GRANT_CMD. -/
  | chunkGrant (p : Fin 16)
  /-- CHUNK_FILL_COMPLETE (R382). -/
  | chunkFillComplete
  /-- CHUNK_RELEASE (R382): the partition. -/
  | chunkRelease (p : Fin 16)
  /-- MODE_WRITE (R384): the function that writes (0: the PF), the partition and the value. -/
  | modeWrite (fn : Fin 16) (p : Fin 16) (value : BitVec 32)
  /-- DOORBELL_TAIL (R388): the page written, whether the write is malformed (R387), and the doorbell's fields. -/
  | doorbellTail (p : Fin 16) (malformed : Bool) (ring : Fin 8192) (epoch : BitVec 16) (value : BitVec 32)
  /-- DOORBELL_HEAD (R388): the page written, whether the write is malformed, and the doorbell's fields. -/
  | doorbellHead (p : Fin 16) (malformed : Bool) (ring : Fin 8192) (epoch : BitVec 16) (value : BitVec 32)
  /-- RING_ENTRIES_ARRIVE (R389): the ring, what host memory returned for entries that lie there, and whether it was poisoned. -/
  | ringEntriesArrive (ring : Fin 8192) (hostData : List Byte) (hostBad : Bool)
  /-- ITEM_LAUNCH (R394): the ring whose next item is handed on. -/
  | itemLaunch (ring : Fin 8192)
  /-- ITEM_SIGNAL (R394): the ring. -/
  | itemSignal (ring : Fin 8192)
  /-- ITEM_SET (R394): the ring. -/
  | itemSet (ring : Fin 8192)
  /-- ITEM_TRIGGER (R394): the ring. -/
  | itemTrigger (ring : Fin 8192)
  /-- ITEM_MSTART (R394): the ring. -/
  | itemMstart (ring : Fin 8192)
  /-- ITEM_DSC (R394): the ring. -/
  | itemDsc (ring : Fin 8192)
  /-- ITEM_NOP (R394): the ring. -/
  | itemNop (ring : Fin 8192)
  /-- COMPLETION_POST (R391): the completion ring. -/
  | completionPost (ring : Fin 8192)
  /-- HOLDOFF_EXPIRY (R400): the ring. -/
  | holdoffExpiry (ring : Fin 8192)
  /-- QM_RING_FLUSH (R390): the ring. -/
  | qmRingFlush (ring : Fin 8192)
  /-- QM_RING_FLUSH_ALL (R390): the ring. -/
  | qmRingFlushAll (ring : Fin 8192)
  /-- QM_RING_RESET (R390): the ring. -/
  | qmRingReset (ring : Fin 8192)
  /-- RING_CFG_WRITE (R385): the ring and the value written. -/
  | ringCfgWrite (ring : Fin 8192) (value : BitVec 32)
  /-- VMAP_WRITE (R398): the function that writes, the partition, the table entry and the value. -/
  | vmapWrite (fn : Fin 16) (p : Fin 16) (f : Fin 256) (value : BitVec 32)
  /-- QOS_MEM_WRITE (R405): the function, the partition and the value. -/
  | qosMemWrite (fn : Fin 16) (p : Fin 16) (value : BitVec 32)
  /-- QOS_LINK_WRITE (R406): the function, the partition and the value. -/
  | qosLinkWrite (fn : Fin 16) (p : Fin 16) (value : BitVec 32)
  /-- PT_DRAIN_READ (R393): the partition. -/
  | ptDrainRead (p : Fin 16)
  /-- PT_DRAIN_RETURN (R393): the partition. -/
  | ptDrainReturn (p : Fin 16)
  /-- PARTITION_RESET (R402): the partition. -/
  | partitionReset (p : Fin 16)
  /-- FLR (R401): the function. -/
  | functionReset (fn : Fin 16)
  /-- VF_ENABLE_CLEAR (R401). -/
  | vfEnableClear
  /-- PT_RESET_ACCESSES_DONE (R402): the partition. -/
  | ptResetAccessesDone (p : Fin 16)
  /-- PT_SCRUB_COMPLETE (R402): the partition. -/
  | ptScrubComplete (p : Fin 16)
  /-- PT_ZEROING_COMPLETE (R402): the partition. -/
  | ptZeroingComplete (p : Fin 16)
  /-- UNEXPECTED_COMPLETION (R402): the partition whose abandoned read it answers. -/
  | unexpectedCompletion (p : Fin 16)
  /-- LNK_CTRL_WRITE (R414): the port and the value written. -/
  | lnkCtrlWrite (n : Fin 8) (value : BitVec 32)
  /-- TRAINING_COMPLETE (R458): the neighbour and its role, whether the mutual authentication of R458 succeeded, whether this device is the one that joins, and the device time it compares with (the master's when it joins, the joining device's otherwise). -/
  | trainingComplete (n : Fin 8) (neighbour : Fin 128) (nrole : Role) (authOk : Bool) (joining : Bool) (peerNow : Nat)
  /-- TRAINING_FAILURE (R414): the port. -/
  | trainingFailure (n : Fin 8)
  /-- TRAINING_RETRY (R414): the port. -/
  | trainingRetry (n : Fin 8)
  /-- FLIT_RECEIVE (R413): the port, what its checks found, FHDR, and the whole packets that end in the flit. -/
  | flitReceive (n : Fin 8) (check : FlitCheck) (kind : FlitKind) (seq : Fin 256) (creditVc : Fin 4) (credits : Fin 4096) (packets : List Packet)
  /-- NAK_RECEIVE (R413): the port and the last sequence the neighbour received correctly. -/
  | nakReceive (n : Fin 8) (lastGood : Fin 256)
  /-- NAK_LIMIT (R414): the port. -/
  | nakLimit (n : Fin 8)
  /-- FLIT_TIMEOUT (R414): the port. -/
  | flitTimeout (n : Fin 8)
  /-- LINK_WRITE (R423): the arriving WRITE. -/
  | linkWrite (pk : Packet)
  /-- LINK_READ (R423): the arriving READ. -/
  | linkRead (pk : Packet)
  /-- READ_RESP (R415): the response's tag, status, poison bits and data. -/
  | readResp (tag : Fin 65536) (status : Fin 65536) (poison : Fin 16) (data : List Byte)
  /-- WRITE_ACK (R417): the acknowledgement's tag and status. -/
  | writeAck (tag : Fin 65536) (status : Fin 65536)
  /-- LINK_SIGNAL (R424): the arriving SIGNAL. -/
  | linkSignal (pk : Packet)
  /-- SIGNAL_ACK (R415): the acknowledgement's tag and status. -/
  | signalAck (tag : Fin 65536) (status : Fin 65536)
  /-- RESP_TIMEOUT (R425): the request whose response is overdue. -/
  | respTimeout (tag : Fin 65536)
  /-- HEARTBEAT_BROADCAST (R428). -/
  | heartbeatBroadcast
  /-- HEARTBEAT (R428): the master's identifier, MEPOCH and SYS_GEN. -/
  | lnkHeartbeat (src : Fin 128) (mepoch : BitVec 32) (sysGen : BitVec 32)
  /-- HEARTBEAT_ANSWER (R428): the device that answered. -/
  | heartbeatAnswer (src : Fin 128)
  /-- LOSS_TIMEOUT (R428): the device that has not answered. -/
  | lossTimeout (dev : Fin 128)
  /-- LOSS_NOTICE (R428): the lost device and the new SYS_GEN. -/
  | lossNotice (dev : Fin 128) (sysGen : BitVec 32)
  /-- MASTER_TIMEOUT (R431). -/
  | masterTimeout
  /-- MASTER_NOTICE (R431): the device that promoted itself and its MEPOCH. -/
  | masterNotice (src : Fin 128) (mepoch : BitVec 32)
  /-- STANDBY_WRITE (R431): the value written to LNK_STANDBY. -/
  | standbyWrite (value : BitVec 32)
  /-- STANDBY_NOTICE (R431): the new LNK_STANDBY. -/
  | standbyNotice (value : BitVec 32)
  /-- TIME_EXCHANGE (R426): the signed error of the exchange in ns (this device minus its upstream estimate). -/
  | timeExchange (errNs : Int)
  /-- TIME_STEP_NOTICE (R426): the amount of the step. -/
  | timeStepNotice (ns : Nat)
  /-- ERROR_REPORT (R432): a report of another device. -/
  | errorReport (src : Fin 128) (code : BitVec 16) (subjClass : Fin 256) (subjInst : Fin 256) (info : BitVec 64) (time : BitVec 64)
  /-- FREEZE_PACKET (R433): the port it arrived on, the originator and its sequence. -/
  | freezePacket (n : Fin 8) (originator : Fin 128) (seq : Fin 65536)
  /-- BIND_WRITE (R422). -/
  | bindWrite
  /-- BIND_READ (R422). -/
  | bindRead
  /-- BIND_CLEAR (R422). -/
  | bindClear
  /-- ALIAS_WRITE (R420): the logical device and the value written. -/
  | aliasWrite (d : Fin 128) (value : BitVec 32)
  /-- CKPT_ENABLE (R434): the value written to LNK_CKPT_CFG. -/
  | ckptEnable (value : BitVec 32)
  /-- CKPT_REQUEST (R436). -/
  | ckptRequest
  /-- CKPT_SNAPSHOT (R435). -/
  | ckptSnapshot
  /-- CKPT_BEGIN (R435): the epoch and its total length. -/
  | ckptBegin (epoch : BitVec 64) (total : BitVec 64)
  /-- CKPT_DATA (R435): the epoch and the bytes that follow those already received. -/
  | ckptData (epoch : BitVec 64) (data : List Byte)
  /-- CKPT_COMMIT (R435): the epoch, the CRC-64 of the bytes sent and the snapshot time. -/
  | ckptCommit (epoch : BitVec 64) (crc : BitVec 64) (snap : BitVec 64)
  /-- CKPT_ACK (R435): the epoch and the outcome code. -/
  | ckptAck (epoch : BitVec 64) (code : BitVec 16)
  /-- ATTEST (R449): the partition in SEC_CMD. -/
  | secAttest (p : Fin 16)
  /-- CHAIN (R449): the partition in SEC_CMD. -/
  | secChain (p : Fin 16)
  /-- SESSION (R451): the partition. -/
  | secSession (p : Fin 16)
  /-- IMPORT (R452): the partition. -/
  | secImport (p : Fin 16)
  /-- EXPORT (R452): the partition. -/
  | secExport (p : Fin 16)
  /-- CONF_ENABLE (R454): the partition. -/
  | confEnable (p : Fin 16)
  /-- CONF_DISABLE (R454): the partition. -/
  | confDisable (p : Fin 16)
  /-- CONF_GRANT (R454): the partition. -/
  | confGrant (p : Fin 16)
  /-- CONF_RELEASE (R454): the partition. -/
  | confRelease (p : Fin 16)
  /-- CONF_MODE (R467): the partition. -/
  | confMode (p : Fin 16)
  /-- UPDATE (R464): the partition in SEC_CMD. -/
  | secUpdate (p : Fin 16)
  /-- SVN_COMMIT (R463): the partition in SEC_CMD. -/
  | svnCommit (p : Fin 16)
  /-- SEC_CMD_COMPLETE (R466). -/
  | secCmdComplete
  /-- DEBUG_CHALLENGE (R461). -/
  | debugChallenge
  /-- DEBUG_RESPONSE (R461): what the debugger answers. -/
  | debugResponse (answer : List Byte)
  /-- DEBUG_LEVEL_LOWER (R461): the level written. -/
  | debugLevelLower (level : Fin 3)
  /-- RNG_HEALTH_FAIL (R443). -/
  | rngHealthFail
  /-- RNG_RETRY (R443): whether the source passes its tests. -/
  | rngRetry (pass : Bool)
  /-- KAK_SLICE_DUE (R472): the Frond. -/
  | kakSliceDue (n : Fin 32)
  /-- KAK_SLICE_START (R473): the Frond. -/
  | kakSliceStart (n : Fin 32)
  /-- KAK_SLICE_END (R474): the Frond. -/
  | kakSliceEnd (n : Fin 32)
  /-- KAK_VERDICT (R474): the Frond and whether every digest agrees with its stored answer. -/
  | kakVerdict (n : Fin 32) (pass : Bool)
  /-- FENCE_CMD (R478): the Frond named in REL_FENCE_CMD. -/
  | fenceCmd (n : Fin 32)
  /-- READMIT (R478): the Frond named in REL_FENCE_CMD. -/
  | readmitFrond (n : Fin 32)
  /-- READMIT_COMPLETE (R478): whether every slice passed. -/
  | readmitComplete (pass : Bool)
  /-- CE_WINDOW_BOUNDARY (R476). -/
  | ceWindowBoundary
  /-- CLOCK_MONITOR_FAULT (R479): the row of the domain in the table of R30. -/
  | clockMonitorFault (row : Fin 10)
  /-- ERR_IRQ_TIMER (R481): the partition and the block. -/
  | errIrqTimer (p : Fin 16) (b : Fin 16)
  /-- LATCH_CLEAR (R480): the partition and the block. -/
  | latchClear (p : Fin 16) (b : Fin 16)
  /-- CHECKER_ITEM (R500): an uncorrectable error lost the entry (R468). -/
  | checkerItem (bad : Bool)
  /-- RUN_JUDGEMENT (R503): the task, what names its run (LARG; HANDLE × 2^64 + RUN under NOFRAME), and how its program ended. -/
  | runJudgement (task : Fin 256) (key : Nat) (ended : Option ProgEnd)
  /-- RECORD_REREAD (R503): the task and what names its run. -/
  | recordReread (task : Fin 256) (key : Nat)
  /-- PROGRAM_READ (R505): the task, what names its run, and the operands of READ. -/
  | programRead (task : Fin 256) (key : Nat) (dva : BitVec 64) (length : BitVec 32)
  /-- PROGRAM_TIMEOUT (R505): the task and what names its run. -/
  | programTimeout (task : Fin 256) (key : Nat)
  /-- COPY_TIMEOUT (R504): the task and what names its run. -/
  | copyTimeout (task : Fin 256) (key : Nat)
  /-- LATENCY_TIMEOUT (R503): the task and what names its run. -/
  | latencyTimeout (task : Fin 256) (key : Nat)
  /-- ARRIVAL_TIMEOUT (R506): the task. -/
  | arrivalTimeout (task : Fin 256)
  /-- RESTART_ACCESSES_DONE (R510): the partition. -/
  | restartAccessesDone (p : Fin 16)
  /-- RESTART_RELOAD_COMPLETE (R510): the partition. -/
  | restartReloadComplete (p : Fin 16)
  /-- DUTY_SWAP (R491): by how many µs the end of a request deferred it. -/
  | dutySwap (deferred : BitVec 32)
  /-- SELFTEST_COMPLETE (R492): whether the off-duty pair passed. -/
  | selftestComplete (pass : Bool)
  /-- LOCKSTEP_MISMATCH (R493): the pair whose comparator found it. -/
  | lockstepMismatch (pairB : Bool)
  /-- WATCHDOG_EXPIRY (R494). -/
  | watchdogExpiry
  /-- CHECKER_RESTART_COMPLETE (R494). -/
  | checkerRestartComplete
  /-- DEGRADED_LIMIT (R495). -/
  | degradedLimit
  /-- HEARTBEAT_TOGGLE (R497). -/
  | heartbeatToggle
  /-- HOLD_TEST (R498). -/
  | holdTest
  /-- HOLD_TEST_END (R498). -/
  | holdTestEnd
  /-- VDD_SAFE_FAULT (R512). -/
  | vddSafeFault
  /-- SAFE_CLOCK_FAULT (R512). -/
  | safeClockFault
  /-- P1_ENTRY (R518). -/
  | p1Entry
  /-- PWR_CMD_P2 (R519). -/
  | pwrCmdP2
  /-- PWR_CMD_P3 (R519). -/
  | pwrCmdP3
  /-- PWR_CMD_P4 (R519). -/
  | pwrCmdP4
  /-- AUTO_P2_REQUEST (R519). -/
  | autoP2Request
  /-- RUNG_ENTRY_COMPLETE (R521). -/
  | rungEntryComplete
  /-- RUNG_EXIT_COMPLETE (R520). -/
  | rungExitComplete
  /-- THERMAL_SAMPLE (R532): the highest reading in °C and its sensor. -/
  | thermalSample (tj : Fin 256) (sensor : Fin 24)
  /-- THROTTLE_STEP (R532): whether the power level's period elapses, or the thermal level's. -/
  | throttleStep (power : Bool)
  /-- POWER_SAMPLE (R533): the 1 ms average in mW. -/
  | powerSample (mw : BitVec 32)
  /-- PPS_EDGE (R525): 4 plus the error of the capture in ns. -/
  | ppsEdge (jitter : Fin 9)
  /-- PPS_TIMEOUT (R525). -/
  | ppsTimeout
  /-- AUDIO_SAMPLE (R526): a sample of each microphone. -/
  | audioSample (samples : List (BitVec 16))
  /-- KWS_FRAME_END (R528). -/
  | kwsFrameEnd
  /-- KWS_EVALUATION_COMPLETE (R529). -/
  | kwsEvaluationComplete
  /-- KWS_POP (R531). -/
  | kwsPop
  /-- KWS_MODEL_DATA (R528): the value written. -/
  | kwsModelData (value : BitVec 32)
  /-- AUD_COPY (R527). -/
  | audCopy
  /-- AUD_COPY_COMPLETE (R527). -/
  | audCopyComplete
  /-- DBG_CLEAR (R538): the groups. -/
  | dbgClear (mask : BitVec 16)
  /-- PT_COUNTER_CLEAR (R538): the partition window. -/
  | ptCounterClear (p : Fin 16)
  /-- FREEZE (R547). -/
  | dbgFreeze
  /-- THAW (R548). -/
  | dbgThaw
  /-- DUMP (R543): the PF registers, or the window of a partition. -/
  | dbgDump (pf : Bool) (p : Fin 16)
  /-- DUMP_COMPLETE (R543): the PF registers, or the window of a partition. -/
  | dumpComplete (pf : Bool) (p : Fin 16)
  /-- FRAME_WRITE (R556): the bytes after the type byte. -/
  | frameWrite (frame : List Byte)
  /-- STATUS_READ (R554). -/
  | statusRead
  /-- RESPONSE_READ (R557): whether the whole frame is read. -/
  | responseRead (whole : Bool)
  /-- GET_INFO (R559). -/
  | getInfo
  /-- GET_STATUS (R560). -/
  | getStatus
  /-- GET_EVENT (R559). -/
  | getEvent
  /-- GET_TIME (R559). -/
  | getTime
  /-- GET_ERRORS (R559). -/
  | getErrors
  /-- GET_ATTEST (R559). -/
  | getAttest
  /-- AUTH_OPEN (R561). -/
  | authOpen
  /-- AUTH_FINISH (R561). -/
  | authFinish
  /-- AUTH_CLOSE (R561). -/
  | authClose
  /-- AUTH_LOCKOUT_END (R561). -/
  | authLockoutEnd
  /-- SET_RUNG (R559). -/
  | setRung
  /-- SET_POWER_LIMIT (R559). -/
  | setPowerLimit
  /-- SET_ALERT_MASK (R559). -/
  | setAlertMask
  /-- MGMT_RESET_PARTITION (R559). -/
  | mgmtResetPartition
  /-- MGMT_RESET_DEVICE (R559): the straps as the restart samples them. -/
  | mgmtResetDevice (straps : BitVec 12)
  /-- MGMT_HOLD_TEST (R559). -/
  | mgmtHoldTest
  /-- COLD_RESET (R567). -/
  | coldReset
  /-- PORST_RELEASE (R574): the straps as sampled, and whether TEST_MODE is high. -/
  | porstRelease (straps : BitVec 12) (testMode : Bool)
  /-- BOOT_IMAGE_LOADED (R572). -/
  | bootImageLoaded
  /-- MEMORY_TRAINING_COMPLETE (R574). -/
  | memoryTrainingComplete
  /-- BOOT_READY (R574): the Fronds that failed the boot suite. -/
  | bootReady (failed : BitVec 32)
  /-- WHOLE_DEVICE_RESTART (R567): the value written, and the straps as the restart samples them. -/
  | wholeDeviceRestart (value : BitVec 32) (straps : BitVec 12)
  /-- FATAL_RESTART_TIMER (R567): the straps as the restart samples them. -/
  | fatalRestartTimer (straps : BitVec 12)
  /-- HOST_RESET (R567): what starts it, and the straps as a restart samples them. -/
  | hostReset (how : HostResetBy) (straps : BitVec 12)
  /-- MAIN_RAIL_FAULT (R590). -/
  | mainRailFault
  /-- VDD_AON_FAULT (R590). -/
  | vddAonFault
  /-- PREFETCH_COMPLETE (R222): the Frond and the slot. -/
  | prefetchComplete (n : Fin 32) (k : Fin 3)
  /-- ASSIGN_COMPLETE (R381). -/
  | assignComplete
  /-- CHUNK_RELEASE_COMPLETE (R382). -/
  | chunkReleaseComplete
  /-- BIND_CMD_COMPLETE (R422). -/
  | bindCmdComplete
  /-- VDD_SAFE_RETURN (R496). -/
  | vddSafeReturn
  /-- SAFE_CLOCK_RECOVERY (R496). -/
  | safeClockRecovery
  /-- PERST_RELEASE (R576). -/
  | perstRelease
  /-- PCIE_LINK_UP (R576). -/
  | pcieLinkUp
  /-- PCIE_L1_EXIT (R520). -/
  | pcieL1Exit
  /-- MSIX_ENABLE_SET (R402): the function. -/
  | msixEnableSet (fn : Fin 16)
  /-- CFW_SWITCH_COMPLETE (R464). -/
  | cfwSwitchComplete
  /-- TEST_MODE_FALL (R586): the straps as sampled. -/
  | testModeFall (straps : BitVec 12)
  /-- EXTEST (R460). -/
  | tapExtest
  /-- AON32K_STABLE (R593). -/
  | aon32kStable
deriving DecidableEq, Repr

end Sys2Proof
end

