-- ==== Sys2Proof/Config.lean ====
section
/-! DEFINITION. Sys2Proof/Config.lean: what the spec leaves open. -/

namespace Sys2Proof

/-- The n-th free value of a run (assumption 2). -/
opaque Config.freeValue : Nat → Nat

/-- The keyed channel hash of R354 and R355: fixed for one key, otherwise free. -/
opaque Config.channelHash : Nat → Nat → BitVec 5

/-- The hash of SRC, source partition and TAG that spreads packets over ports (R419). -/
opaque Config.linkHash : Nat → Nat → Nat → Nat

/-- The special functions of the vector unit by FN and FP32 input code (R221): fixed functions of their input bits, of which
the spec gives only the error bound; `sfu` keeps within it. -/
opaque Config.sfu : Nat → Nat → Nat

/-- The samples of a raw line that never came, by exposure × 65,536 + row and sample (R77). -/
opaque Config.missingSample : Nat → Nat → Nat

/-- What a known-answer slice leaves in scratch, by free value: bytes by scratch address (R472). -/
opaque Config.kakScratch : Nat → List (Nat × BitVec 8)

/-- The task table that a YPR payload holds (R499); the spec gives no place for it. -/
opaque Config.taskTable : List (BitVec 8) → List (List (BitVec 8))

/-- The bytes of which H_CFG is the digest (R442): straps, LCS, REVOKE, key hashes and SVN floors, in an encoding that the spec leaves
open. -/
opaque Config.cfgBytes : Nat → Nat → Nat → List (BitVec 8) → List Nat → List (BitVec 8)

/-- The certificate of a layer (1: L1K, 2: AK) for a public key, a measurement and an SVN (R446): X.509 in DER. -/
opaque Config.certificate : Nat → List (BitVec 8) → List (BitVec 8) → Nat → List (BitVec 8)

/-- The measurement that stands for an image type of which none runs (R442, R573). -/
opaque Config.noImageHash : Nat → List (BitVec 8)

/-- The INT8 code of mel filter `j` for the 400 samples of a frame, of which the spec does not give the arithmetic (R528); a sample
before the first is `none`. -/
opaque Config.kwsFeature : List (Option Int) → Nat → Int

/-- Whether the mean over time of a channel is rounded up (R528). -/
opaque Config.kwsMeanUp : Int → Bool

/-- What an accumulation leaves that leaves the range of INT32 (R528). -/
opaque Config.kwsOverflow : Int → Nat

end Sys2Proof
end

