-- ==== Sys2Proof/Machine/Regs.lean ====
section
/-! DEFINITION. Sys2Proof/Machine/Regs.lean: the register map. One address function for each register the
spec's register maps name (offsets in BAR0 of the physical function, R26), and the table of their widths, access
codes (R7), writable bits (R6) and reset values. Generated from the register maps of spec/. -/

namespace Sys2Proof.Machine

/-- The access codes of R7 (00_scope). -/
inductive Acc where
  | rw | ro | wo | w1c | rc | rws | rwl
deriving DecidableEq, Repr

/-- One row of a register map: the address of its first instance, the stride and count of each index (outermost
first), the size in bytes, the access code, the bits a write can change (a W1C register: the bits a 1 clears), and whether a write of it is a row of the command table of its own. -/
structure RegRow where
  name : String
  base : Nat
  dims : List (Nat × Nat)
  size : Nat
  acc : Acc
  wmask : Nat
  own : Bool
deriving DecidableEq, Repr

namespace Reg

/-- CAP_IDENT, 32 bits, RO, R22 (01_architecture). -/
@[reducible] def CAP_IDENT : Nat := 0x0

/-- CAP_VERSION, 32 bits, RO, R22 (01_architecture). -/
@[reducible] def CAP_VERSION : Nat := 0x4

/-- CAP_VARIANT, 32 bits, RO, R22 (01_architecture). -/
@[reducible] def CAP_VARIANT : Nat := 0x8

/-- CAP_ENTRIES, 32 bits, RO, R22 (01_architecture). -/
@[reducible] def CAP_ENTRIES : Nat := 0xC

/-- CAP_GEN, 32 bits, RO, R22 (01_architecture). -/
@[reducible] def CAP_GEN : Nat := 0x10

/-- CAP_DEVID, 32 bits, RO, R22 (01_architecture). -/
@[reducible] def CAP_DEVID : Nat := 0x14

/-- CAP_MEM_RAW, 64 bits, RO, R22 (01_architecture). -/
@[reducible] def CAP_MEM_RAW : Nat := 0x18

/-- CAP_MEM_USABLE, 64 bits, RO, R22 (01_architecture). -/
@[reducible] def CAP_MEM_USABLE : Nat := 0x20

/-- CAP_VIEW, 32 bits, RO, R22 (01_architecture). -/
@[reducible] def CAP_VIEW : Nat := 0x28

/-- CSI_n_CTRL, 32 bits, RW, R55 (02_sensor_ingress). -/
@[reducible] def CSI_CTRL (n : Nat) : Nat := 0xD00000 + n * 0x4000

/-- CSI_n_LANE_MAP, 32 bits, RW, R55 (02_sensor_ingress). -/
@[reducible] def CSI_LANE_MAP (n : Nat) : Nat := 0xD00004 + n * 0x4000

/-- CSI_n_STATUS, 32 bits, RO, R55 (02_sensor_ingress). -/
@[reducible] def CSI_STATUS (n : Nat) : Nat := 0xD00008 + n * 0x4000

/-- CSI_n_ERR, 32 bits, W1C, R55 (02_sensor_ingress). -/
@[reducible] def CSI_ERR (n : Nat) : Nat := 0xD0000C + n * 0x4000

/-- CSI_n_ERR_CNT, 64 bits, RO, R55 (02_sensor_ingress). -/
@[reducible] def CSI_ERR_CNT (n : Nat) : Nat := 0xD00010 + n * 0x4000

/-- CSI_n_UNMATCHED, 64 bits, RO, R55 (02_sensor_ingress). -/
@[reducible] def CSI_UNMATCHED (n : Nat) : Nat := 0xD00018 + n * 0x4000

/-- ST_m_CFG, 32 bits, RW, R55 (02_sensor_ingress). -/
@[reducible] def ST_CFG (m : Nat) : Nat := 0xD00100 + m / 4 * 0x4000 + m % 4 * 0x100

/-- ST_m_DT, 32 bits, RW, R55 (02_sensor_ingress). -/
@[reducible] def ST_DT (m : Nat) : Nat := 0xD00104 + m / 4 * 0x4000 + m % 4 * 0x100

/-- ST_m_GEOM, 32 bits, RW, R55 (02_sensor_ingress). -/
@[reducible] def ST_GEOM (m : Nat) : Nat := 0xD00108 + m / 4 * 0x4000 + m % 4 * 0x100

/-- ST_m_SEAL, 32 bits, RW, R55 (02_sensor_ingress). -/
@[reducible] def ST_SEAL (m : Nat) : Nat := 0xD0010C + m / 4 * 0x4000 + m % 4 * 0x100

/-- ST_m_FNUM_MAX, 32 bits, RW, R55 (02_sensor_ingress). -/
@[reducible] def ST_FNUM_MAX (m : Nat) : Nat := 0xD00110 + m / 4 * 0x4000 + m % 4 * 0x100

/-- ST_m_TIMEOUT, 32 bits, RW, R55 (02_sensor_ingress). -/
@[reducible] def ST_TIMEOUT (m : Nat) : Nat := 0xD00114 + m / 4 * 0x4000 + m % 4 * 0x100

/-- ST_m_REC_BASE, 64 bits, RW, R55 (02_sensor_ingress). -/
@[reducible] def ST_REC_BASE (m : Nat) : Nat := 0xD00118 + m / 4 * 0x4000 + m % 4 * 0x100

/-- ST_m_REC_DEPTH, 32 bits, RW, R55 (02_sensor_ingress). -/
@[reducible] def ST_REC_DEPTH (m : Nat) : Nat := 0xD00120 + m / 4 * 0x4000 + m % 4 * 0x100

/-- ST_m_REC_RELEASE, 32 bits, WO, R55 (02_sensor_ingress). -/
@[reducible] def ST_REC_RELEASE (m : Nat) : Nat := 0xD00124 + m / 4 * 0x4000 + m % 4 * 0x100

/-- ST_m_FE_FLAG, 32 bits, RW, R55 (02_sensor_ingress). -/
@[reducible] def ST_FE_FLAG (m : Nat) : Nat := 0xD00128 + m / 4 * 0x4000 + m % 4 * 0x100

/-- ST_m_STATUS, 32 bits, RO, R55 (02_sensor_ingress). -/
@[reducible] def ST_STATUS (m : Nat) : Nat := 0xD0012C + m / 4 * 0x4000 + m % 4 * 0x100

/-- ST_m_LAST_FS, 64 bits, RO, R55 (02_sensor_ingress). -/
@[reducible] def ST_LAST_FS (m : Nat) : Nat := 0xD00130 + m / 4 * 0x4000 + m % 4 * 0x100

/-- ST_m_FRAMES, 64 bits, RO, R55 (02_sensor_ingress). -/
@[reducible] def ST_FRAMES (m : Nat) : Nat := 0xD00138 + m / 4 * 0x4000 + m % 4 * 0x100

/-- ST_m_DROPPED, 64 bits, RO, R55 (02_sensor_ingress). -/
@[reducible] def ST_DROPPED (m : Nat) : Nat := 0xD00140 + m / 4 * 0x4000 + m % 4 * 0x100

/-- ISP_n_CTRL, 32 bits, RW, R78 (03_image_pipeline). -/
@[reducible] def ISP_CTRL (n : Nat) : Nat := 0xC00000 + n * 0x10000

/-- ISP_n_STATUS, 32 bits, RO, R78 (03_image_pipeline). -/
@[reducible] def ISP_STATUS (n : Nat) : Nat := 0xC00004 + n * 0x10000

/-- ISP_n_LOAD, 32 bits, RO, R78 (03_image_pipeline). -/
@[reducible] def ISP_LOAD (n : Nat) : Nat := 0xC00008 + n * 0x10000

/-- ISP_n_ERR, 32 bits, W1C, R78 (03_image_pipeline). -/
@[reducible] def ISP_ERR (n : Nat) : Nat := 0xC0000C + n * 0x10000

/-- ISP_n_CTX_c_CFG, 32 bits, RW, R78 (03_image_pipeline). -/
@[reducible] def ISP_CTX_CFG (n : Nat) (c : Nat) : Nat := 0xC00100 + n * 0x10000 + c * 0x100

/-- ISP_n_CTX_c_SRC, 32 bits, RW, R78 (03_image_pipeline). -/
@[reducible] def ISP_CTX_SRC (n : Nat) (c : Nat) : Nat := 0xC00104 + n * 0x10000 + c * 0x100

/-- ISP_n_CTX_c_PB_POST, 64 bits, WO, R78 (03_image_pipeline). -/
@[reducible] def ISP_CTX_PB_POST (n : Nat) (c : Nat) : Nat := 0xC00108 + n * 0x10000 + c * 0x100

/-- ISP_n_CTX_c_PB_STATUS, 32 bits, RO, R78 (03_image_pipeline). -/
@[reducible] def ISP_CTX_PB_STATUS (n : Nat) (c : Nat) : Nat := 0xC00110 + n * 0x10000 + c * 0x100

/-- ISP_n_CTX_c_ACTIVE_ID, 32 bits, RO, R78 (03_image_pipeline). -/
@[reducible] def ISP_CTX_ACTIVE_ID (n : Nat) (c : Nat) : Nat := 0xC00114 + n * 0x10000 + c * 0x100

/-- ISP_n_CTX_c_PENDING_ID, 32 bits, RO, R78 (03_image_pipeline). -/
@[reducible] def ISP_CTX_PENDING_ID (n : Nat) (c : Nat) : Nat := 0xC00118 + n * 0x10000 + c * 0x100

/-- ISP_n_CTX_c_TAKEN, 64 bits, RO, R78 (03_image_pipeline). -/
@[reducible] def ISP_CTX_TAKEN (n : Nat) (c : Nat) : Nat := 0xC00120 + n * 0x10000 + c * 0x100

/-- ISP_n_CTX_c_SUPERSEDED, 64 bits, RO, R78 (03_image_pipeline). -/
@[reducible] def ISP_CTX_SUPERSEDED (n : Nat) (c : Nat) : Nat := 0xC00128 + n * 0x10000 + c * 0x100

/-- ISP_n_CTX_c_REJECTED, 64 bits, RO, R78 (03_image_pipeline). -/
@[reducible] def ISP_CTX_REJECTED (n : Nat) (c : Nat) : Nat := 0xC00130 + n * 0x10000 + c * 0x100

/-- ISP_n_CTX_c_SKIPPED, 64 bits, RO, R78 (03_image_pipeline). -/
@[reducible] def ISP_CTX_SKIPPED (n : Nat) (c : Nat) : Nat := 0xC00138 + n * 0x10000 + c * 0x100

/-- ISP_n_CTX_c_STATS_BASE, 64 bits, RW, R78 (03_image_pipeline). -/
@[reducible] def ISP_CTX_STATS_BASE (n : Nat) (c : Nat) : Nat := 0xC00140 + n * 0x10000 + c * 0x100

/-- ISP_n_CTX_c_STATS_CFG, 32 bits, RW, R78 (03_image_pipeline). -/
@[reducible] def ISP_CTX_STATS_CFG (n : Nat) (c : Nat) : Nat := 0xC00148 + n * 0x10000 + c * 0x100

/-- ISP_n_CTX_c_STATS_FLAG, 32 bits, RW, R78 (03_image_pipeline). -/
@[reducible] def ISP_CTX_STATS_FLAG (n : Nat) (c : Nat) : Nat := 0xC0014C + n * 0x10000 + c * 0x100

/-- ISP_n_CTX_c_FRAMES, 64 bits, RO, R78 (03_image_pipeline). -/
@[reducible] def ISP_CTX_FRAMES (n : Nat) (c : Nat) : Nat := 0xC00150 + n * 0x10000 + c * 0x100

/-- BRK_STATUS, 32 bits, RO, R112 (04_pyramids_filters_warps_features). -/
@[reducible] def BRK_STATUS : Nat := 0x800000

/-- BRK_PT_p_BUSY, 64 bits, RO, R112 (04_pyramids_filters_warps_features). -/
@[reducible] def BRK_PT_BUSY (p : Nat) : Nat := 0x800100 + p * 0x8

/-- ENG_STATUS, 32 bits, RO, R112 (04_pyramids_filters_warps_features). -/
@[reducible] def ENG_STATUS (e : Nat) : Nat := 0x810000 + e * 0x10000

/-- ENG_LOAD, 32 bits, RO, R112 (04_pyramids_filters_warps_features). -/
@[reducible] def ENG_LOAD (e : Nat) : Nat := 0x810004 + e * 0x10000

/-- ENG_ERR, 64 bits, W1C, R112 (04_pyramids_filters_warps_features). -/
@[reducible] def ENG_ERR (e : Nat) : Nat := 0x810008 + e * 0x10000

/-- ENG_JOBS, 64 bits, RO, R112 (04_pyramids_filters_warps_features). -/
@[reducible] def ENG_JOBS (e : Nat) : Nat := 0x810010 + e * 0x10000

/-- ENG_ABORTED, 64 bits, RO, R112 (04_pyramids_filters_warps_features). -/
@[reducible] def ENG_ABORTED (e : Nat) : Nat := 0x810018 + e * 0x10000

/-- ENG_ROWS, 64 bits, RO, R112 (04_pyramids_filters_warps_features). -/
@[reducible] def ENG_ROWS (e : Nat) : Nat := 0x810020 + e * 0x10000

/-- ENG_CTX_k_JOB_ID, 32 bits, RO, R112 (04_pyramids_filters_warps_features). -/
@[reducible] def ENG_CTX_JOB_ID (e : Nat) (k : Nat) : Nat := 0x810100 + e * 0x10000 + k * 0x20

/-- ENG_CTX_k_PT, 32 bits, RO, R112 (04_pyramids_filters_warps_features). -/
@[reducible] def ENG_CTX_PT (e : Nat) (k : Nat) : Nat := 0x810104 + e * 0x10000 + k * 0x20

/-- ENG_CTX_k_ROW, 32 bits, RO, R112 (04_pyramids_filters_warps_features). -/
@[reducible] def ENG_CTX_ROW (e : Nat) (k : Nat) : Nat := 0x810108 + e * 0x10000 + k * 0x20

/-- ENG_CTX_k_BLOCK, 64 bits, RO, R112 (04_pyramids_filters_warps_features). -/
@[reducible] def ENG_CTX_BLOCK (e : Nat) (k : Nat) : Nat := 0x810110 + e * 0x10000 + k * 0x20

/-- ENG_FALLBACK, 64 bits, RO, R130 (05_flow_and_stereo). -/
@[reducible] def ENG_FALLBACK (e : Nat) : Nat := 0x810040 + e * 0x10000

/-- ENG_EDGE, 64 bits, RO, R130 (05_flow_and_stereo). -/
@[reducible] def ENG_EDGE (e : Nat) : Nat := 0x810048 + e * 0x10000

/-- ENG_INVALID, 64 bits, RO, R130 (05_flow_and_stereo). -/
@[reducible] def ENG_INVALID (e : Nat) : Nat := 0x810050 + e * 0x10000

/-- ENG_CANDIDATES, 64 bits, RO, R130 (05_flow_and_stereo). -/
@[reducible] def ENG_CANDIDATES (e : Nat) : Nat := 0x810058 + e * 0x10000

/-- CRZ_STATUS, 32 bits, RO, R153 (06_crozier_frame_graphs). -/
@[reducible] def CRZ_STATUS : Nat := 0x1000000

/-- CRZ_HANDOFFS, 64 bits, RO, R153 (06_crozier_frame_graphs). -/
@[reducible] def CRZ_HANDOFFS : Nat := 0x1000008

/-- CRZ_LATE, 64 bits, RO, R153 (06_crozier_frame_graphs). -/
@[reducible] def CRZ_LATE : Nat := 0x1000010

/-- CRZ_HANDOFF_MAX, 32 bits, RC, R153 (06_crozier_frame_graphs). -/
@[reducible] def CRZ_HANDOFF_MAX : Nat := 0x1000018

/-- CRZ_GR_g_CMD, 32 bits, WO, R153 (06_crozier_frame_graphs). -/
@[reducible] def CRZ_GR_CMD (g : Nat) : Nat := 0x1001000 + g * 0x80

/-- CRZ_GR_g_CFG, 32 bits, RW, R153 (06_crozier_frame_graphs). -/
@[reducible] def CRZ_GR_CFG (g : Nat) : Nat := 0x1001004 + g * 0x80

/-- CRZ_GR_g_PROG, 64 bits, RW, R153 (06_crozier_frame_graphs). -/
@[reducible] def CRZ_GR_PROG (g : Nat) : Nat := 0x1001008 + g * 0x80

/-- CRZ_GR_g_TRIG_ARG, 64 bits, RW, R153 (06_crozier_frame_graphs). -/
@[reducible] def CRZ_GR_TRIG_ARG (g : Nat) : Nat := 0x1001010 + g * 0x80

/-- CRZ_GR_g_INST_BASE, 64 bits, RW, R153 (06_crozier_frame_graphs). -/
@[reducible] def CRZ_GR_INST_BASE (g : Nat) : Nat := 0x1001018 + g * 0x80

/-- CRZ_GR_g_BUDGET, 32 bits, RW, R153 (06_crozier_frame_graphs). -/
@[reducible] def CRZ_GR_BUDGET (g : Nat) : Nat := 0x1001020 + g * 0x80

/-- CRZ_GR_g_STATUS, 32 bits, RO, R153 (06_crozier_frame_graphs). -/
@[reducible] def CRZ_GR_STATUS (g : Nat) : Nat := 0x1001024 + g * 0x80

/-- CRZ_GR_g_ERR, 32 bits, RO, R153 (06_crozier_frame_graphs). -/
@[reducible] def CRZ_GR_ERR (g : Nat) : Nat := 0x1001028 + g * 0x80

/-- CRZ_GR_g_INSTANCES, 64 bits, RO, R153 (06_crozier_frame_graphs). -/
@[reducible] def CRZ_GR_INSTANCES (g : Nat) : Nat := 0x1001030 + g * 0x80

/-- CRZ_GR_g_FAILED, 64 bits, RO, R153 (06_crozier_frame_graphs). -/
@[reducible] def CRZ_GR_FAILED (g : Nat) : Nat := 0x1001038 + g * 0x80

/-- CRZ_GR_g_MISSED, 64 bits, RO, R153 (06_crozier_frame_graphs). -/
@[reducible] def CRZ_GR_MISSED (g : Nat) : Nat := 0x1001040 + g * 0x80

/-- CRZ_GR_g_SKIPS, 64 bits, RO, R153 (06_crozier_frame_graphs). -/
@[reducible] def CRZ_GR_SKIPS (g : Nat) : Nat := 0x1001048 + g * 0x80

/-- CRZ_GR_g_LAST_SEQ, 64 bits, RO, R153 (06_crozier_frame_graphs). -/
@[reducible] def CRZ_GR_LAST_SEQ (g : Nat) : Nat := 0x1001050 + g * 0x80

/-- CRZ_SC_i, 64 bits, RO, R153 (06_crozier_frame_graphs). -/
@[reducible] def CRZ_SC (i : Nat) : Nat := 0x1004000 + i * 0x8

/-- DSC_PT_p_TABLE, 64 bits, RW, R190 (07_tensor_descriptors). -/
@[reducible] def DSC_PT_TABLE (p : Nat) : Nat := 0x1480000 + p * 0x100

/-- DSC_PT_p_COUNT, 32 bits, RW, R190 (07_tensor_descriptors). -/
@[reducible] def DSC_PT_COUNT (p : Nat) : Nat := 0x1480008 + p * 0x100

/-- DSC_PT_p_CMD, 32 bits, WO, R190 (07_tensor_descriptors). -/
@[reducible] def DSC_PT_CMD (p : Nat) : Nat := 0x148000C + p * 0x100

/-- DSC_PT_p_SRC, 64 bits, RW, R190 (07_tensor_descriptors). -/
@[reducible] def DSC_PT_SRC (p : Nat) : Nat := 0x1480010 + p * 0x100

/-- DSC_PT_p_STATUS, 32 bits, RO, R190 (07_tensor_descriptors). -/
@[reducible] def DSC_PT_STATUS (p : Nat) : Nat := 0x1480018 + p * 0x100

/-- DSC_PT_p_FLAG, 32 bits, RW, R190 (07_tensor_descriptors). -/
@[reducible] def DSC_PT_FLAG (p : Nat) : Nat := 0x148001C + p * 0x100

/-- DSC_PT_p_FAULT_ADDR, 64 bits, RO, R190 (07_tensor_descriptors). -/
@[reducible] def DSC_PT_FAULT_ADDR (p : Nat) : Nat := 0x1480020 + p * 0x100

/-- DSC_PT_p_FAULT_INFO, 64 bits, W1C, R190 (07_tensor_descriptors). -/
@[reducible] def DSC_PT_FAULT_INFO (p : Nat) : Nat := 0x1480028 + p * 0x100

/-- DSC_PT_p_CREATED, 64 bits, RO, R190 (07_tensor_descriptors). -/
@[reducible] def DSC_PT_CREATED (p : Nat) : Nat := 0x1480030 + p * 0x100

/-- DSC_PT_p_REFUSED, 64 bits, RO, R190 (07_tensor_descriptors). -/
@[reducible] def DSC_PT_REFUSED (p : Nat) : Nat := 0x1480038 + p * 0x100

/-- DSC_PT_p_INVALS, 64 bits, RO, R190 (07_tensor_descriptors). -/
@[reducible] def DSC_PT_INVALS (p : Nat) : Nat := 0x1480040 + p * 0x100

/-- RGN_SEL, 32 bits, RW, R190 (07_tensor_descriptors). -/
@[reducible] def RGN_SEL : Nat := 0x1490000

/-- RGN_BASE, 64 bits, RW, R190 (07_tensor_descriptors). -/
@[reducible] def RGN_BASE : Nat := 0x1490008

/-- RGN_SIZE, 64 bits, RW, R190 (07_tensor_descriptors). -/
@[reducible] def RGN_SIZE : Nat := 0x1490010

/-- RGN_ATTR, 32 bits, RW, R190 (07_tensor_descriptors). -/
@[reducible] def RGN_ATTR : Nat := 0x1490018

/-- RGN_CMD, 32 bits, WO, R190 (07_tensor_descriptors). -/
@[reducible] def RGN_CMD : Nat := 0x149001C

/-- RGN_STATUS, 32 bits, RO, R190 (07_tensor_descriptors). -/
@[reducible] def RGN_STATUS : Nat := 0x1490020

/-- TC_n_STATUS, 32 bits, RO, R236 (09_frond_tensor_cores). -/
@[reducible] def TC_STATUS (n : Nat) : Nat := 0x100000 + n * 0x10000

/-- TC_n_ARITH, 32 bits, W1C, R236 (09_frond_tensor_cores). -/
@[reducible] def TC_ARITH (n : Nat) : Nat := 0x100004 + n * 0x10000

/-- TC_n_ERR, 32 bits, W1C, R236 (09_frond_tensor_cores). -/
@[reducible] def TC_ERR (n : Nat) : Nat := 0x100008 + n * 0x10000

/-- TC_n_LAST_ERR, 32 bits, RO, R236 (09_frond_tensor_cores). -/
@[reducible] def TC_LAST_ERR (n : Nat) : Nat := 0x10000C + n * 0x10000

/-- TC_n_SLOT_k, 64 bits, RO, R236 (09_frond_tensor_cores). -/
@[reducible] def TC_SLOT (n : Nat) (k : Nat) : Nat := 0x100010 + n * 0x10000 + k * 0x8

/-- TC_n_EXEC_PC, 64 bits, RO, R236 (09_frond_tensor_cores). -/
@[reducible] def TC_EXEC_PC (n : Nat) : Nat := 0x100028 + n * 0x10000

/-- TC_n_OPS, 64 bits, RO, R236 (09_frond_tensor_cores). -/
@[reducible] def TC_OPS (n : Nat) : Nat := 0x100030 + n * 0x10000

/-- TC_n_ABORTED, 64 bits, RO, R236 (09_frond_tensor_cores). -/
@[reducible] def TC_ABORTED (n : Nat) : Nat := 0x100038 + n * 0x10000

/-- TC_n_BUSY, 64 bits, RO, R236 (09_frond_tensor_cores). -/
@[reducible] def TC_BUSY (n : Nat) : Nat := 0x100040 + n * 0x10000

/-- TC_n_MAC_BUSY, 64 bits, RO, R236 (09_frond_tensor_cores). -/
@[reducible] def TC_MAC_BUSY (n : Nat) : Nat := 0x100048 + n * 0x10000

/-- TC_n_BANK_STALL, 64 bits, RO, R236 (09_frond_tensor_cores). -/
@[reducible] def TC_BANK_STALL (n : Nat) : Nat := 0x100050 + n * 0x10000

/-- TC_n_MISALIGNED, 64 bits, RO, R236 (09_frond_tensor_cores). -/
@[reducible] def TC_MISALIGNED (n : Nat) : Nat := 0x100058 + n * 0x10000

/-- TC_n_DC_MISS, 64 bits, RO, R236 (09_frond_tensor_cores). -/
@[reducible] def TC_DC_MISS (n : Nat) : Nat := 0x100060 + n * 0x10000

/-- TC_n_TC_MISS, 64 bits, RO, R236 (09_frond_tensor_cores). -/
@[reducible] def TC_TC_MISS (n : Nat) : Nat := 0x100068 + n * 0x10000

/-- TC_n_CE_COUNT, 64 bits, RO, R236 (09_frond_tensor_cores). -/
@[reducible] def TC_CE_COUNT (n : Nat) : Nat := 0x100070 + n * 0x10000

/-- FLAG_i_VALUE, 32 bits, RW, R286 (11_sync_flags_ordering). -/
@[reducible] def FLAG_VALUE (i : Nat) : Nat := 0x1300000 + i * 0x10

/-- FLAG_i_ADD, 32 bits, WO, R286 (11_sync_flags_ordering). -/
@[reducible] def FLAG_ADD (i : Nat) : Nat := 0x1300004 + i * 0x10

/-- FLAG_i_OWNER, 32 bits, RO, R286 (11_sync_flags_ordering). -/
@[reducible] def FLAG_OWNER (i : Nat) : Nat := 0x1300008 + i * 0x10

/-- SYN_PT_p_SIGNALS, 64 bits, RO, R286 (11_sync_flags_ordering). -/
@[reducible] def SYN_PT_SIGNALS (p : Nat) : Nat := 0x1380000 + p * 0x40

/-- SYN_PT_p_WAITS, 64 bits, RO, R286 (11_sync_flags_ordering). -/
@[reducible] def SYN_PT_WAITS (p : Nat) : Nat := 0x1380008 + p * 0x40

/-- SYN_PT_p_WAIT_NS, 64 bits, RO, R286 (11_sync_flags_ordering). -/
@[reducible] def SYN_PT_WAIT_NS (p : Nat) : Nat := 0x1380010 + p * 0x40

/-- SYN_PT_p_REFUSED, 64 bits, RO, R286 (11_sync_flags_ordering). -/
@[reducible] def SYN_PT_REFUSED (p : Nat) : Nat := 0x1380018 + p * 0x40

/-- SYN_PT_p_LAST_REFUSED, 32 bits, RO, R286 (11_sync_flags_ordering). -/
@[reducible] def SYN_PT_LAST_REFUSED (p : Nat) : Nat := 0x1380020 + p * 0x40

/-- SYN_PT_p_REMOTE_IN, 32 bits, RO, R286 (11_sync_flags_ordering). -/
@[reducible] def SYN_PT_REMOTE_IN (p : Nat) : Nat := 0x1380024 + p * 0x40

/-- GS_STATUS, 32 bits, RO, R316 (12_graph_scheduler). -/
@[reducible] def GS_STATUS : Nat := 0x1100000

/-- GS_DISPATCHES, 64 bits, RO, R316 (12_graph_scheduler). -/
@[reducible] def GS_DISPATCHES : Nat := 0x1100008

/-- GS_LATE, 64 bits, RO, R316 (12_graph_scheduler). -/
@[reducible] def GS_LATE : Nat := 0x1100010

/-- GS_START_MAX, 32 bits, RC, R316 (12_graph_scheduler). -/
@[reducible] def GS_START_MAX : Nat := 0x1100018

/-- GS_RECORDS_FREE, 32 bits, RO, R316 (12_graph_scheduler). -/
@[reducible] def GS_RECORDS_FREE : Nat := 0x1100020

/-- GS_PT_p_CFG, 32 bits, RW, R316 (12_graph_scheduler). -/
@[reducible] def GS_PT_CFG (p : Nat) : Nat := 0x1110000 + p * 0x1000

/-- GS_PT_p_CMD, 32 bits, WO, R316 (12_graph_scheduler). -/
@[reducible] def GS_PT_CMD (p : Nat) : Nat := 0x1110004 + p * 0x1000

/-- GS_PT_p_CMD_ARG, 64 bits, RW, R316 (12_graph_scheduler). -/
@[reducible] def GS_PT_CMD_ARG (p : Nat) : Nat := 0x1110008 + p * 0x1000

/-- GS_PT_p_STATUS, 32 bits, RO, R316 (12_graph_scheduler). -/
@[reducible] def GS_PT_STATUS (p : Nat) : Nat := 0x1110010 + p * 0x1000

/-- GS_PT_p_HANDLE, 32 bits, RO, R316 (12_graph_scheduler). -/
@[reducible] def GS_PT_HANDLE (p : Nat) : Nat := 0x1110014 + p * 0x1000

/-- GS_PT_p_LAUNCH_ARG, 64 bits, RW, R316 (12_graph_scheduler). -/
@[reducible] def GS_PT_LAUNCH_ARG (p : Nat) : Nat := 0x1110018 + p * 0x1000

/-- GS_PT_p_LAUNCH, 32 bits, WO, R316 (12_graph_scheduler). -/
@[reducible] def GS_PT_LAUNCH (p : Nat) : Nat := 0x1110020 + p * 0x1000

/-- GS_PT_p_CQ, 32 bits, RW, R316 (12_graph_scheduler). -/
@[reducible] def GS_PT_CQ (p : Nat) : Nat := 0x1110024 + p * 0x1000

/-- GS_PT_p_WAIT_LIMIT, 32 bits, RW, R316 (12_graph_scheduler). -/
@[reducible] def GS_PT_WAIT_LIMIT (p : Nat) : Nat := 0x1110028 + p * 0x1000

/-- GS_PT_p_DL_QUIET, 32 bits, RW, R316 (12_graph_scheduler). -/
@[reducible] def GS_PT_DL_QUIET (p : Nat) : Nat := 0x111002C + p * 0x1000

/-- GS_PT_p_DL_SRC, 32 bits, RW, R316 (12_graph_scheduler). -/
@[reducible] def GS_PT_DL_SRC (p : Nat) : Nat := 0x1110030 + p * 0x1000

/-- GS_PT_p_DL_STATUS, 32 bits, RO, R316 (12_graph_scheduler). -/
@[reducible] def GS_PT_DL_STATUS (p : Nat) : Nat := 0x1110034 + p * 0x1000

/-- GS_PT_p_ERR, 32 bits, W1C, R316 (12_graph_scheduler). -/
@[reducible] def GS_PT_ERR (p : Nat) : Nat := 0x1110038 + p * 0x1000

/-- GS_PT_p_OPS, 64 bits, RO, R316 (12_graph_scheduler). -/
@[reducible] def GS_PT_OPS (p : Nat) : Nat := 0x1110040 + p * 0x1000

/-- GS_PT_p_REDISPATCHED, 64 bits, RO, R316 (12_graph_scheduler). -/
@[reducible] def GS_PT_REDISPATCHED (p : Nat) : Nat := 0x1110048 + p * 0x1000

/-- GS_PT_p_WITHDRAWN, 64 bits, RO, R316 (12_graph_scheduler). -/
@[reducible] def GS_PT_WITHDRAWN (p : Nat) : Nat := 0x1110050 + p * 0x1000

/-- GS_PT_p_CQ_STALL, 64 bits, RO, R316 (12_graph_scheduler). -/
@[reducible] def GS_PT_CQ_STALL (p : Nat) : Nat := 0x1110058 + p * 0x1000

/-- GS_PT_p_RUNS, 64 bits, RO, R316 (12_graph_scheduler). -/
@[reducible] def GS_PT_RUNS (p : Nat) : Nat := 0x1110060 + p * 0x1000

/-- GS_PT_p_RUNS_FAILED, 64 bits, RO, R316 (12_graph_scheduler). -/
@[reducible] def GS_PT_RUNS_FAILED (p : Nat) : Nat := 0x1110068 + p * 0x1000

/-- GS_PT_p_DEADLOCKS, 64 bits, RO, R316 (12_graph_scheduler). -/
@[reducible] def GS_PT_DEADLOCKS (p : Nat) : Nat := 0x1110070 + p * 0x1000

/-- GS_PT_p_READY, 32 bits, RO, R316 (12_graph_scheduler). -/
@[reducible] def GS_PT_READY (p : Nat) : Nat := 0x1110078 + p * 0x1000

/-- MOV_m_STATUS, 32 bits, RO, R348 (13_stream_mover). -/
@[reducible] def MOV_STATUS (m : Nat) : Nat := 0x400000 + m * 0x40000

/-- MOV_m_TAGS, 32 bits, RO, R348 (13_stream_mover). -/
@[reducible] def MOV_TAGS (m : Nat) : Nat := 0x400004 + m * 0x40000

/-- MOV_m_READ_BYTES, 64 bits, RO, R348 (13_stream_mover). -/
@[reducible] def MOV_READ_BYTES (m : Nat) : Nat := 0x400008 + m * 0x40000

/-- MOV_m_WRITE_BYTES, 64 bits, RO, R348 (13_stream_mover). -/
@[reducible] def MOV_WRITE_BYTES (m : Nat) : Nat := 0x400010 + m * 0x40000

/-- MOV_m_CH_k_CMD, 32 bits, WO, R348 (13_stream_mover). -/
@[reducible] def MOV_CH_CMD (n : Nat) : Nat := 0x401000 + n / 16 * 0x40000 + n % 16 * 0x1000

/-- MOV_m_CH_k_CFG, 32 bits, RW, R348 (13_stream_mover). -/
@[reducible] def MOV_CH_CFG (n : Nat) : Nat := 0x401004 + n / 16 * 0x40000 + n % 16 * 0x1000

/-- MOV_m_CH_k_PROG, 64 bits, RW, R348 (13_stream_mover). -/
@[reducible] def MOV_CH_PROG (n : Nat) : Nat := 0x401008 + n / 16 * 0x40000 + n % 16 * 0x1000

/-- MOV_m_CH_k_ARG_i, 64 bits, RW, R348 (13_stream_mover). -/
@[reducible] def MOV_CH_ARG (n : Nat) (i : Nat) : Nat := 0x401010 + n / 16 * 0x40000 + n % 16 * 0x1000 + i * 0x8

/-- MOV_m_CH_k_STATE, 32 bits, RO, R348 (13_stream_mover). -/
@[reducible] def MOV_CH_STATE (n : Nat) : Nat := 0x401030 + n / 16 * 0x40000 + n % 16 * 0x1000

/-- MOV_m_CH_k_PRIO, 32 bits, RW, R348 (13_stream_mover). -/
@[reducible] def MOV_CH_PRIO (n : Nat) : Nat := 0x401034 + n / 16 * 0x40000 + n % 16 * 0x1000

/-- MOV_m_CH_k_PC, 64 bits, RO, R348 (13_stream_mover). -/
@[reducible] def MOV_CH_PC (n : Nat) : Nat := 0x401038 + n / 16 * 0x40000 + n % 16 * 0x1000

/-- MOV_m_CH_k_RESIDUE, 64 bits, RO, R348 (13_stream_mover). -/
@[reducible] def MOV_CH_RESIDUE (n : Nat) : Nat := 0x401040 + n / 16 * 0x40000 + n % 16 * 0x1000

/-- MOV_m_CH_k_FAULT_ADDR, 64 bits, RO, R348 (13_stream_mover). -/
@[reducible] def MOV_CH_FAULT_ADDR (n : Nat) : Nat := 0x401048 + n / 16 * 0x40000 + n % 16 * 0x1000

/-- MOV_m_CH_k_FAULT_INFO, 32 bits, RO, R348 (13_stream_mover). -/
@[reducible] def MOV_CH_FAULT_INFO (n : Nat) : Nat := 0x401050 + n / 16 * 0x40000 + n % 16 * 0x1000

/-- MOV_m_CH_k_ERR, 32 bits, W1C, R348 (13_stream_mover). -/
@[reducible] def MOV_CH_ERR (n : Nat) : Nat := 0x401054 + n / 16 * 0x40000 + n % 16 * 0x1000

/-- MOV_m_CH_k_REC_ADDR, 64 bits, RW, R348 (13_stream_mover). -/
@[reducible] def MOV_CH_REC_ADDR (n : Nat) : Nat := 0x401058 + n / 16 * 0x40000 + n % 16 * 0x1000

/-- MOV_m_CH_k_DONE_FLAG, 32 bits, RW, R348 (13_stream_mover). -/
@[reducible] def MOV_CH_DONE_FLAG (n : Nat) : Nat := 0x401060 + n / 16 * 0x40000 + n % 16 * 0x1000

/-- MOV_m_CH_k_IRQ, 32 bits, RW, R348 (13_stream_mover). -/
@[reducible] def MOV_CH_IRQ (n : Nat) : Nat := 0x401064 + n / 16 * 0x40000 + n % 16 * 0x1000

/-- MOV_m_CH_k_DRAIN, 64 bits, RO, R348 (13_stream_mover). -/
@[reducible] def MOV_CH_DRAIN (n : Nat) : Nat := 0x401068 + n / 16 * 0x40000 + n % 16 * 0x1000

/-- MOV_m_CH_k_RING_BASE, 64 bits, RW, R348 (13_stream_mover). -/
@[reducible] def MOV_CH_RING_BASE (n : Nat) : Nat := 0x401070 + n / 16 * 0x40000 + n % 16 * 0x1000

/-- MOV_m_CH_k_RING_CFG, 32 bits, RW, R348 (13_stream_mover). -/
@[reducible] def MOV_CH_RING_CFG (n : Nat) : Nat := 0x401078 + n / 16 * 0x40000 + n % 16 * 0x1000

/-- MOV_m_CH_k_RING_FLAGS, 32 bits, RW, R348 (13_stream_mover). -/
@[reducible] def MOV_CH_RING_FLAGS (n : Nat) : Nat := 0x40107C + n / 16 * 0x40000 + n % 16 * 0x1000

/-- MOV_m_CH_k_RING_TAIL, 32 bits, RO, R348 (13_stream_mover). -/
@[reducible] def MOV_CH_RING_TAIL (n : Nat) : Nat := 0x401080 + n / 16 * 0x40000 + n % 16 * 0x1000

/-- MOV_m_CH_k_BYTES, 64 bits, RO, R348 (13_stream_mover). -/
@[reducible] def MOV_CH_BYTES (n : Nat) : Nat := 0x401088 + n / 16 * 0x40000 + n % 16 * 0x1000

/-- MOV_m_CH_k_RUNS, 64 bits, RO, R348 (13_stream_mover). -/
@[reducible] def MOV_CH_RUNS (n : Nat) : Nat := 0x401090 + n / 16 * 0x40000 + n % 16 * 0x1000

/-- MOV_m_CH_k_PREEMPTED, 64 bits, RO, R348 (13_stream_mover). -/
@[reducible] def MOV_CH_PREEMPTED (n : Nat) : Nat := 0x401098 + n / 16 * 0x40000 + n % 16 * 0x1000

/-- MOV_m_CH_k_TAG_STALL, 64 bits, RO, R348 (13_stream_mover). -/
@[reducible] def MOV_CH_TAG_STALL (n : Nat) : Nat := 0x4010A0 + n / 16 * 0x40000 + n % 16 * 0x1000

/-- MOV_m_CH_k_X_i, 64 bits, RO, R348 (13_stream_mover). -/
@[reducible] def MOV_CH_X (n : Nat) (i : Nat) : Nat := 0x4010C0 + n / 16 * 0x40000 + n % 16 * 0x1000 + i * 0x8

/-- MOV_m_CH_k_SPORE_SRC, 64 bits, RW, R348 (13_stream_mover). -/
@[reducible] def MOV_CH_SPORE_SRC (n : Nat) : Nat := 0x401100 + n / 16 * 0x40000 + n % 16 * 0x1000

/-- MOV_m_CH_k_SPORE_DST, 64 bits, RW, R348 (13_stream_mover). -/
@[reducible] def MOV_CH_SPORE_DST (n : Nat) : Nat := 0x401108 + n / 16 * 0x40000 + n % 16 * 0x1000

/-- MOV_m_CH_k_SPORE_DATA_i, 64 bits, RW, R348 (13_stream_mover). -/
@[reducible] def MOV_CH_SPORE_DATA (n : Nat) (i : Nat) : Nat := 0x401110 + n / 16 * 0x40000 + n % 16 * 0x1000 + i * 0x8

/-- MOV_m_CH_k_SPORE_CTL, 32 bits, WO, R348 (13_stream_mover). -/
@[reducible] def MOV_CH_SPORE_CTL (n : Nat) : Nat := 0x401130 + n / 16 * 0x40000 + n % 16 * 0x1000

/-- MOV_m_CH_k_SPORE_STATUS, 32 bits, RO, R348 (13_stream_mover). -/
@[reducible] def MOV_CH_SPORE_STATUS (n : Nat) : Nat := 0x401134 + n / 16 * 0x40000 + n % 16 * 0x1000

/-- MOV_m_CH_k_SPORES, 64 bits, RO, R348 (13_stream_mover). -/
@[reducible] def MOV_CH_SPORES (n : Nat) : Nat := 0x401138 + n / 16 * 0x40000 + n % 16 * 0x1000

/-- MEM_STATUS, 32 bits, RO, R375 (14_memory_system_cache). -/
@[reducible] def MEM_STATUS : Nat := 0x1400000

/-- MEM_TEMP, 32 bits, RO, R375 (14_memory_system_cache). -/
@[reducible] def MEM_TEMP : Nat := 0x1400008

/-- MEM_IMB_STATUS, 32 bits, RO, R375 (14_memory_system_cache). -/
@[reducible] def MEM_IMB_STATUS : Nat := 0x1400010

/-- MEM_IMB_RATIO, 32 bits, RO, R375 (14_memory_system_cache). -/
@[reducible] def MEM_IMB_RATIO : Nat := 0x1400014

/-- MEM_IMB_WINDOWS, 64 bits, RO, R375 (14_memory_system_cache). -/
@[reducible] def MEM_IMB_WINDOWS : Nat := 0x1400018

/-- MEM_CE_COUNT, 64 bits, RO, R375 (14_memory_system_cache). -/
@[reducible] def MEM_CE_COUNT : Nat := 0x1400020

/-- MEM_UE_COUNT, 64 bits, RO, R375 (14_memory_system_cache). -/
@[reducible] def MEM_UE_COUNT : Nat := 0x1400028

/-- MEM_TAG_FAIL, 64 bits, RO, R375 (14_memory_system_cache). -/
@[reducible] def MEM_TAG_FAIL : Nat := 0x1400030

/-- MEM_POISON_ADDR, 64 bits, RO, R375 (14_memory_system_cache). -/
@[reducible] def MEM_POISON_ADDR : Nat := 0x1400038

/-- MEM_POISON_INFO, 64 bits, W1C, R375 (14_memory_system_cache). -/
@[reducible] def MEM_POISON_INFO : Nat := 0x1400040

/-- MEM_PASR, 32 bits, RW, R375 (14_memory_system_cache). -/
@[reducible] def MEM_PASR : Nat := 0x1400048

/-- MEM_PASR_LOST, 32 bits, RO, R375 (14_memory_system_cache). -/
@[reducible] def MEM_PASR_LOST : Nat := 0x140004C

/-- MEM_CACHE_SRAM_CE, 64 bits, RO, R375 (14_memory_system_cache). -/
@[reducible] def MEM_CACHE_SRAM_CE : Nat := 0x1400050

/-- MEM_CH_c_RD_BYTES, 64 bits, RO, R375 (14_memory_system_cache). -/
@[reducible] def MEM_CH_RD_BYTES (c : Nat) : Nat := 0x1400100 + c * 0x10

/-- MEM_CH_c_WR_BYTES, 64 bits, RO, R375 (14_memory_system_cache). -/
@[reducible] def MEM_CH_WR_BYTES (c : Nat) : Nat := 0x1400108 + c * 0x10

/-- MEM_PT_p_WAYS, 32 bits, RW, R375 (14_memory_system_cache). -/
@[reducible] def MEM_PT_WAYS (p : Nat) : Nat := 0x1410000 + p * 0x100

/-- MEM_PT_p_S1_BASE, 64 bits, RW, R375 (14_memory_system_cache). -/
@[reducible] def MEM_PT_S1_BASE (p : Nat) : Nat := 0x1410008 + p * 0x100

/-- MEM_PT_p_S2_BASE, 64 bits, RWL, R375 (14_memory_system_cache). -/
@[reducible] def MEM_PT_S2_BASE (p : Nat) : Nat := 0x1410010 + p * 0x100

/-- MEM_PT_p_XLAT_CMD, 32 bits, WO, R375 (14_memory_system_cache). -/
@[reducible] def MEM_PT_XLAT_CMD (p : Nat) : Nat := 0x1410018 + p * 0x100

/-- MEM_PT_p_XLAT_ADDR, 64 bits, RW, R375 (14_memory_system_cache). -/
@[reducible] def MEM_PT_XLAT_ADDR (p : Nat) : Nat := 0x1410020 + p * 0x100

/-- MEM_PT_p_XLAT_SIZE, 64 bits, RW, R375 (14_memory_system_cache). -/
@[reducible] def MEM_PT_XLAT_SIZE (p : Nat) : Nat := 0x1410028 + p * 0x100

/-- MEM_PT_p_XLAT_STATUS, 32 bits, RO, R375 (14_memory_system_cache). -/
@[reducible] def MEM_PT_XLAT_STATUS (p : Nat) : Nat := 0x1410030 + p * 0x100

/-- MEM_PT_p_CACHE_CMD, 32 bits, WO, R375 (14_memory_system_cache). -/
@[reducible] def MEM_PT_CACHE_CMD (p : Nat) : Nat := 0x1410034 + p * 0x100

/-- MEM_PT_p_CACHE_ADDR, 64 bits, RW, R375 (14_memory_system_cache). -/
@[reducible] def MEM_PT_CACHE_ADDR (p : Nat) : Nat := 0x1410038 + p * 0x100

/-- MEM_PT_p_CACHE_SIZE, 64 bits, RW, R375 (14_memory_system_cache). -/
@[reducible] def MEM_PT_CACHE_SIZE (p : Nat) : Nat := 0x1410040 + p * 0x100

/-- MEM_PT_p_CACHE_STATUS, 32 bits, RO, R375 (14_memory_system_cache). -/
@[reducible] def MEM_PT_CACHE_STATUS (p : Nat) : Nat := 0x1410048 + p * 0x100

/-- MEM_PT_p_HITS, 64 bits, RO, R375 (14_memory_system_cache). -/
@[reducible] def MEM_PT_HITS (p : Nat) : Nat := 0x1410050 + p * 0x100

/-- MEM_PT_p_MISSES, 64 bits, RO, R375 (14_memory_system_cache). -/
@[reducible] def MEM_PT_MISSES (p : Nat) : Nat := 0x1410058 + p * 0x100

/-- MEM_PT_p_RETAINED, 32 bits, RO, R375 (14_memory_system_cache). -/
@[reducible] def MEM_PT_RETAINED (p : Nat) : Nat := 0x1410060 + p * 0x100

/-- MEM_PT_p_BYTES, 64 bits, RO, R375 (14_memory_system_cache). -/
@[reducible] def MEM_PT_BYTES (p : Nat) : Nat := 0x1410068 + p * 0x100

/-- QM_ASSIGN_CLASS, 32 bits, RW, R409 (15_host_partitions_queues). -/
@[reducible] def QM_ASSIGN_CLASS : Nat := 0x1200100

/-- QM_ASSIGN_FIRST, 32 bits, RW, R409 (15_host_partitions_queues). -/
@[reducible] def QM_ASSIGN_FIRST : Nat := 0x1200104

/-- QM_ASSIGN_COUNT, 32 bits, RW, R409 (15_host_partitions_queues). -/
@[reducible] def QM_ASSIGN_COUNT : Nat := 0x1200108

/-- QM_ASSIGN_CMD, 32 bits, WO, R409 (15_host_partitions_queues). -/
@[reducible] def QM_ASSIGN_CMD : Nat := 0x120010C

/-- QM_ASSIGN_STATUS, 32 bits, RO, R409 (15_host_partitions_queues). -/
@[reducible] def QM_ASSIGN_STATUS : Nat := 0x1200110

/-- QM_GRANT_FIRST, 32 bits, RW, R409 (15_host_partitions_queues). -/
@[reducible] def QM_GRANT_FIRST : Nat := 0x1200140

/-- QM_GRANT_COUNT, 32 bits, RW, R409 (15_host_partitions_queues). -/
@[reducible] def QM_GRANT_COUNT : Nat := 0x1200144

/-- QM_GRANT_CMD, 32 bits, WO, R409 (15_host_partitions_queues). -/
@[reducible] def QM_GRANT_CMD : Nat := 0x1200148

/-- QM_GRANT_STATUS, 32 bits, RO, R409 (15_host_partitions_queues). -/
@[reducible] def QM_GRANT_STATUS : Nat := 0x120014C

/-- QM_DRAIN_VEC, 32 bits, RW, R409 (15_host_partitions_queues). -/
@[reducible] def QM_DRAIN_VEC : Nat := 0x1200180

/-- QM_PT_p_STATE, 32 bits, RO, R409 (15_host_partitions_queues). -/
@[reducible] def QM_PT_STATE (p : Nat) : Nat := 0x1201000 + p * 0x100

/-- QM_PT_p_RESET, 32 bits, WO, R409 (15_host_partitions_queues). -/
@[reducible] def QM_PT_RESET (p : Nat) : Nat := 0x1201004 + p * 0x100

/-- QM_PT_p_MODE, 32 bits, RW, R409 (15_host_partitions_queues). -/
@[reducible] def QM_PT_MODE (p : Nat) : Nat := 0x1201008 + p * 0x100

/-- QM_PT_p_ERR_VEC, 32 bits, RW, R409 (15_host_partitions_queues). -/
@[reducible] def QM_PT_ERR_VEC (p : Nat) : Nat := 0x120100C + p * 0x100

/-- QM_PT_p_DRAIN, 64 bits, RO, R409 (15_host_partitions_queues). -/
@[reducible] def QM_PT_DRAIN (p : Nat) : Nat := 0x1201010 + p * 0x100

/-- QM_PT_p_RESETS, 64 bits, RO, R409 (15_host_partitions_queues). -/
@[reducible] def QM_PT_RESETS (p : Nat) : Nat := 0x1201018 + p * 0x100

/-- QM_PT_p_IRQ_LOST, 64 bits, RO, R409 (15_host_partitions_queues). -/
@[reducible] def QM_PT_IRQ_LOST (p : Nat) : Nat := 0x1201020 + p * 0x100

/-- QM_PT_p_DRAINED, 64 bits, RO, R409 (15_host_partitions_queues). -/
@[reducible] def QM_PT_DRAINED (p : Nat) : Nat := 0x1201028 + p * 0x100

/-- QM_PT_p_CHUNKS, 32 bits, RO, R409 (15_host_partitions_queues). -/
@[reducible] def QM_PT_CHUNKS (p : Nat) : Nat := 0x1201030 + p * 0x100

/-- QM_PT_p_VMAP_i, 32 bits, RW, R409 (15_host_partitions_queues). -/
@[reducible] def QM_PT_VMAP (p : Nat) (i : Nat) : Nat := 0x1220000 + p * 0x400 + i * 0x4

/-- QOS_PT_p_MEM, 32 bits, RW, R409 (15_host_partitions_queues). -/
@[reducible] def QOS_PT_MEM (p : Nat) : Nat := 0x1230000 + p * 0x20

/-- QOS_PT_p_LINK, 32 bits, RW, R409 (15_host_partitions_queues). -/
@[reducible] def QOS_PT_LINK (p : Nat) : Nat := 0x1230004 + p * 0x20

/-- QOS_PT_p_BK, 32 bits, RW, R409 (15_host_partitions_queues). -/
@[reducible] def QOS_PT_BK (p : Nat) : Nat := 0x1230008 + p * 0x20

/-- QOS_PT_p_MEM_BYTES, 64 bits, RO, R409 (15_host_partitions_queues). -/
@[reducible] def QOS_PT_MEM_BYTES (p : Nat) : Nat := 0x1230010 + p * 0x20

/-- QOS_PT_p_CAPPED, 64 bits, RO, R409 (15_host_partitions_queues). -/
@[reducible] def QOS_PT_CAPPED (p : Nat) : Nat := 0x1230018 + p * 0x20

/-- QM_CH_n_IVEC, 32 bits, RW, R409 (15_host_partitions_queues). -/
@[reducible] def QM_CH_IVEC (n : Nat) : Nat := 0x1231000 + n * 0x4

/-- RING_r_CFG, 32 bits, RW, R409 (15_host_partitions_queues). -/
@[reducible] def RING_CFG (r : Nat) : Nat := 0x1280000 + r * 0x40

/-- RING_r_BASE, 64 bits, RW, R409 (15_host_partitions_queues). -/
@[reducible] def RING_BASE (r : Nat) : Nat := 0x1280008 + r * 0x40

/-- RING_r_WB, 64 bits, RW, R409 (15_host_partitions_queues). -/
@[reducible] def RING_WB (r : Nat) : Nat := 0x1280010 + r * 0x40

/-- RING_r_HEAD, 32 bits, RO, R409 (15_host_partitions_queues). -/
@[reducible] def RING_HEAD (r : Nat) : Nat := 0x1280018 + r * 0x40

/-- RING_r_TAIL, 32 bits, RO, R409 (15_host_partitions_queues). -/
@[reducible] def RING_TAIL (r : Nat) : Nat := 0x128001C + r * 0x40

/-- RING_r_TAIL_RAW, 32 bits, RO, R409 (15_host_partitions_queues). -/
@[reducible] def RING_TAIL_RAW (r : Nat) : Nat := 0x1280020 + r * 0x40

/-- RING_r_EPOCH, 32 bits, RO, R409 (15_host_partitions_queues). -/
@[reducible] def RING_EPOCH (r : Nat) : Nat := 0x1280024 + r * 0x40

/-- RING_r_CMD, 32 bits, WO, R409 (15_host_partitions_queues). -/
@[reducible] def RING_CMD (r : Nat) : Nat := 0x1280028 + r * 0x40

/-- RING_r_STATUS, 32 bits, RO, R409 (15_host_partitions_queues). -/
@[reducible] def RING_STATUS (r : Nat) : Nat := 0x128002C + r * 0x40

/-- RING_r_CQ, 32 bits, RW, R409 (15_host_partitions_queues). -/
@[reducible] def RING_CQ (r : Nat) : Nat := 0x1280030 + r * 0x40

/-- RING_r_ITEMS, 64 bits, RO, R409 (15_host_partitions_queues). -/
@[reducible] def RING_ITEMS (r : Nat) : Nat := 0x1280038 + r * 0x40

/-- LNK_STATUS, 32 bits, RO, R439 (16_silair_multi_device). -/
@[reducible] def LNK_STATUS : Nat := 0x1600000

/-- LNK_CFG, 32 bits, RW, R439 (16_silair_multi_device). -/
@[reducible] def LNK_CFG : Nat := 0x1600004

/-- LNK_SYS_GEN, 32 bits, RO, R439 (16_silair_multi_device). -/
@[reducible] def LNK_SYS_GEN : Nat := 0x1600008

/-- LNK_MEPOCH, 32 bits, RO, R439 (16_silair_multi_device). -/
@[reducible] def LNK_MEPOCH : Nat := 0x160000C

/-- LNK_STANDBY, 32 bits, RW, R439 (16_silair_multi_device). -/
@[reducible] def LNK_STANDBY : Nat := 0x1600010

/-- LNK_TIME_ERR, 32 bits, RO, R439 (16_silair_multi_device). -/
@[reducible] def LNK_TIME_ERR : Nat := 0x1600014

/-- LNK_UNREACH, 64 bits, RO, R439 (16_silair_multi_device). -/
@[reducible] def LNK_UNREACH (h : Nat) : Nat := 0x1600020 + h * 0x8

/-- LNK_REFUSED, 64 bits, RO, R439 (16_silair_multi_device). -/
@[reducible] def LNK_REFUSED : Nat := 0x1600030

/-- LNK_AUTH_FAIL, 64 bits, RO, R439 (16_silair_multi_device). -/
@[reducible] def LNK_AUTH_FAIL : Nat := 0x1600038

/-- LNK_STORM, 64 bits, RO, R439 (16_silair_multi_device). -/
@[reducible] def LNK_STORM : Nat := 0x1600040

/-- LNK_n_STATUS, 32 bits, RO, R439 (16_silair_multi_device). -/
@[reducible] def LNK_PORT_STATUS (n : Nat) : Nat := 0x1601000 + n * 0x100

/-- LNK_n_CTRL, 32 bits, RW, R439 (16_silair_multi_device). -/
@[reducible] def LNK_PORT_CTRL (n : Nat) : Nat := 0x1601004 + n * 0x100

/-- LNK_n_TX_BYTES, 64 bits, RO, R439 (16_silair_multi_device). -/
@[reducible] def LNK_PORT_TX_BYTES (n : Nat) : Nat := 0x1601008 + n * 0x100

/-- LNK_n_RX_BYTES, 64 bits, RO, R439 (16_silair_multi_device). -/
@[reducible] def LNK_PORT_RX_BYTES (n : Nat) : Nat := 0x1601010 + n * 0x100

/-- LNK_n_FEC_CE, 64 bits, RO, R439 (16_silair_multi_device). -/
@[reducible] def LNK_PORT_FEC_CE (n : Nat) : Nat := 0x1601018 + n * 0x100

/-- LNK_n_RETRIES, 64 bits, RO, R439 (16_silair_multi_device). -/
@[reducible] def LNK_PORT_RETRIES (n : Nat) : Nat := 0x1601020 + n * 0x100

/-- LNK_n_DOWNS, 64 bits, RO, R439 (16_silair_multi_device). -/
@[reducible] def LNK_PORT_DOWNS (n : Nat) : Nat := 0x1601028 + n * 0x100

/-- LNK_RT_d, 32 bits, RW, R439 (16_silair_multi_device). -/
@[reducible] def LNK_RT (d : Nat) : Nat := 0x1602000 + d * 0x4

/-- LNK_ALIAS_d, 32 bits, RW, R439 (16_silair_multi_device). -/
@[reducible] def LNK_ALIAS (d : Nat) : Nat := 0x1602400 + d * 0x4

/-- LNK_BIND_SEL, 32 bits, RW, R439 (16_silair_multi_device). -/
@[reducible] def LNK_BIND_SEL : Nat := 0x1603000

/-- LNK_BIND_BASE, 64 bits, RW, R439 (16_silair_multi_device). -/
@[reducible] def LNK_BIND_BASE : Nat := 0x1603008

/-- LNK_BIND_SIZE, 64 bits, RW, R439 (16_silair_multi_device). -/
@[reducible] def LNK_BIND_SIZE : Nat := 0x1603010

/-- LNK_BIND_ATTR, 32 bits, RW, R439 (16_silair_multi_device). -/
@[reducible] def LNK_BIND_ATTR : Nat := 0x1603018

/-- LNK_BIND_CMD, 32 bits, WO, R439 (16_silair_multi_device). -/
@[reducible] def LNK_BIND_CMD : Nat := 0x160301C

/-- LNK_BIND_STATUS, 32 bits, RO, R439 (16_silair_multi_device). -/
@[reducible] def LNK_BIND_STATUS : Nat := 0x1603020

/-- LNK_CKPT_CFG, 32 bits, RW, R439 (16_silair_multi_device). -/
@[reducible] def LNK_CKPT_CFG : Nat := 0x1604000

/-- LNK_CKPT_INTERVAL, 32 bits, RW, R439 (16_silair_multi_device). -/
@[reducible] def LNK_CKPT_INTERVAL : Nat := 0x1604004

/-- LNK_CKPT_LIST, 64 bits, RW, R439 (16_silair_multi_device). -/
@[reducible] def LNK_CKPT_LIST : Nat := 0x1604008

/-- LNK_CKPT_FLAGS_A, 32 bits, RW, R439 (16_silair_multi_device). -/
@[reducible] def LNK_CKPT_FLAGS_A : Nat := 0x1604010

/-- LNK_CKPT_FLAGS_B, 32 bits, RW, R439 (16_silair_multi_device). -/
@[reducible] def LNK_CKPT_FLAGS_B : Nat := 0x1604014

/-- LNK_CKPT_SLOT_0, 64 bits, RW, R439 (16_silair_multi_device). -/
@[reducible] def LNK_CKPT_SLOT_0 : Nat := 0x1604018

/-- LNK_CKPT_SLOT_1, 64 bits, RW, R439 (16_silair_multi_device). -/
@[reducible] def LNK_CKPT_SLOT_1 : Nat := 0x1604020

/-- LNK_CKPT_SLOT_SIZE, 64 bits, RW, R439 (16_silair_multi_device). -/
@[reducible] def LNK_CKPT_SLOT_SIZE : Nat := 0x1604028

/-- LNK_CKPT_EPOCH, 64 bits, RO, R439 (16_silair_multi_device). -/
@[reducible] def LNK_CKPT_EPOCH : Nat := 0x1604030

/-- LNK_CKPT_COMMITTED, 64 bits, RO, R439 (16_silair_multi_device). -/
@[reducible] def LNK_CKPT_COMMITTED : Nat := 0x1604038

/-- LNK_CKPT_SNAP_TIME, 64 bits, RO, R439 (16_silair_multi_device). -/
@[reducible] def LNK_CKPT_SNAP_TIME : Nat := 0x1604040

/-- LNK_CKPT_STATUS, 32 bits, RO, R439 (16_silair_multi_device). -/
@[reducible] def LNK_CKPT_STATUS : Nat := 0x1604048

/-- LNK_CKPT_LATE, 64 bits, RO, R439 (16_silair_multi_device). -/
@[reducible] def LNK_CKPT_LATE : Nat := 0x1604050

/-- SEC_STATUS, 32 bits, RO, R466 (17_security). -/
@[reducible] def SEC_STATUS : Nat := 0x1800000

/-- SEC_CMD, 32 bits, WO, R466 (17_security). -/
@[reducible] def SEC_CMD : Nat := 0x1800004

/-- SEC_ARG_i, 64 bits, RW, R466 (17_security). -/
@[reducible] def SEC_ARG (i : Nat) : Nat := 0x1800008 + i * 0x8

/-- SEC_CMD_STATUS, 32 bits, RO, R466 (17_security). -/
@[reducible] def SEC_CMD_STATUS : Nat := 0x1800028

/-- SEC_CMD_LEN, 32 bits, RO, R466 (17_security). -/
@[reducible] def SEC_CMD_LEN : Nat := 0x180002C

/-- SEC_FLAG, 32 bits, RW, R466 (17_security). -/
@[reducible] def SEC_FLAG : Nat := 0x1800030

/-- SEC_CONF, 32 bits, RO, R466 (17_security). -/
@[reducible] def SEC_CONF : Nat := 0x1800034

/-- SEC_MEAS_GEN, 32 bits, RO, R466 (17_security). -/
@[reducible] def SEC_MEAS_GEN : Nat := 0x1800038

/-- SEC_SVN_FLOOR, 32 bits, RO, R466 (17_security). -/
@[reducible] def SEC_SVN_FLOOR : Nat := 0x180003C

/-- SEC_SVN_RUN, 32 bits, RO, R466 (17_security). -/
@[reducible] def SEC_SVN_RUN : Nat := 0x1800040

/-- LNK_POLICY, 32 bits, RWL, R466 (17_security). -/
@[reducible] def LNK_POLICY : Nat := 0x1800044

/-- SEC_DBG_FAILS, 32 bits, RO, R466 (17_security). -/
@[reducible] def SEC_DBG_FAILS : Nat := 0x1800048

/-- SEC_CMDS, 64 bits, RO, R466 (17_security). -/
@[reducible] def SEC_CMDS : Nat := 0x1800050

/-- SEC_REFUSED, 64 bits, RO, R466 (17_security). -/
@[reducible] def SEC_REFUSED : Nat := 0x1800058

/-- REL_STATUS, 32 bits, RO, R487 (18_reliability). -/
@[reducible] def REL_STATUS : Nat := 0x1900000

/-- REL_FENCE_CMD, 32 bits, WO, R487 (18_reliability). -/
@[reducible] def REL_FENCE_CMD : Nat := 0x1900004

/-- REL_FENCE_STATUS, 32 bits, RO, R487 (18_reliability). -/
@[reducible] def REL_FENCE_STATUS : Nat := 0x1900008

/-- REL_CE_THRESH, 32 bits, RW, R487 (18_reliability). -/
@[reducible] def REL_CE_THRESH : Nat := 0x190000C

/-- REL_CE_WINDOW, 32 bits, RW, R487 (18_reliability). -/
@[reducible] def REL_CE_WINDOW : Nat := 0x1900010

/-- REL_KAK_CFG, 32 bits, RW, R487 (18_reliability). -/
@[reducible] def REL_KAK_CFG : Nat := 0x1900014

/-- REL_FENCED_MAP, 32 bits, RO, R487 (18_reliability). -/
@[reducible] def REL_FENCED_MAP : Nat := 0x1900018

/-- REL_KAK_SLICES, 64 bits, RO, R487 (18_reliability). -/
@[reducible] def REL_KAK_SLICES : Nat := 0x1900020

/-- REL_KAK_LATE, 64 bits, RO, R487 (18_reliability). -/
@[reducible] def REL_KAK_LATE : Nat := 0x1900028

/-- REL_REFETCH, 64 bits, RO, R487 (18_reliability). -/
@[reducible] def REL_REFETCH : Nat := 0x1900030

/-- REL_FATAL_INFO, 64 bits, RWS, R487 (18_reliability). -/
@[reducible] def REL_FATAL_INFO : Nat := 0x1900038

/-- REL_TC_n_FENCE_INFO, 32 bits, RO, R487 (18_reliability). -/
@[reducible] def REL_TC_FENCE_INFO (n : Nat) : Nat := 0x1900100 + n * 0x10

/-- REL_TC_n_EXPOSED, 64 bits, RO, R487 (18_reliability). -/
@[reducible] def REL_TC_EXPOSED (n : Nat) : Nat := 0x1900108 + n * 0x10

/-- ERR_PT_p_CFG, 32 bits, RW, R487 (18_reliability). -/
@[reducible] def ERR_PT_CFG (p : Nat) : Nat := 0x1910000 + p * 0x1000

/-- ERR_PT_p_LOG_BASE, 64 bits, RW, R487 (18_reliability). -/
@[reducible] def ERR_PT_LOG_BASE (p : Nat) : Nat := 0x1910008 + p * 0x1000

/-- ERR_PT_p_LOG_HEAD, 32 bits, RW, R487 (18_reliability). -/
@[reducible] def ERR_PT_LOG_HEAD (p : Nat) : Nat := 0x1910010 + p * 0x1000

/-- ERR_PT_p_LOG_TAIL, 32 bits, RO, R487 (18_reliability). -/
@[reducible] def ERR_PT_LOG_TAIL (p : Nat) : Nat := 0x1910014 + p * 0x1000

/-- ERR_PT_p_LOG_LOST, 64 bits, RO, R487 (18_reliability). -/
@[reducible] def ERR_PT_LOG_LOST (p : Nat) : Nat := 0x1910018 + p * 0x1000

/-- ERR_PT_p_PENDING, 32 bits, W1C, R487 (18_reliability). -/
@[reducible] def ERR_PT_PENDING (p : Nat) : Nat := 0x1910020 + p * 0x1000

/-- ERR_PT_p_REPORTS, 64 bits, RO, R487 (18_reliability). -/
@[reducible] def ERR_PT_REPORTS (p : Nat) : Nat := 0x1910028 + p * 0x1000

/-- ERR_PT_p_B_b_FIRST, 32 bits, W1C, R487 (18_reliability). -/
@[reducible] def ERR_PT_B_FIRST (p : Nat) (b : Nat) : Nat := 0x1910100 + p * 0x1000 + b * 0x40

/-- ERR_PT_p_B_b_SUBJECT, 32 bits, RO, R487 (18_reliability). -/
@[reducible] def ERR_PT_B_SUBJECT (p : Nat) (b : Nat) : Nat := 0x1910104 + p * 0x1000 + b * 0x40

/-- ERR_PT_p_B_b_TIME, 64 bits, RO, R487 (18_reliability). -/
@[reducible] def ERR_PT_B_TIME (p : Nat) (b : Nat) : Nat := 0x1910108 + p * 0x1000 + b * 0x40

/-- ERR_PT_p_B_b_INFO, 64 bits, RO, R487 (18_reliability). -/
@[reducible] def ERR_PT_B_INFO (p : Nat) (b : Nat) : Nat := 0x1910110 + p * 0x1000 + b * 0x40

/-- ERR_PT_p_B_b_STORM, 64 bits, RO, R487 (18_reliability). -/
@[reducible] def ERR_PT_B_STORM (p : Nat) (b : Nat) : Nat := 0x1910118 + p * 0x1000 + b * 0x40

/-- ERR_PT_p_B_b_OTHERS, 64 bits, RO, R487 (18_reliability). -/
@[reducible] def ERR_PT_B_OTHERS (p : Nat) (b : Nat) : Nat := 0x1910120 + p * 0x1000 + b * 0x40

/-- SAFE_STATUS, 32 bits, RO, R515 (19_functional_safety). -/
@[reducible] def SAFE_STATUS : Nat := 0x1C00000

/-- SAFE_CMD, 32 bits, WO, R515 (19_functional_safety). -/
@[reducible] def SAFE_CMD : Nat := 0x1C00004

/-- SAFE_HOLD_CAUSE, 32 bits, RO, R515 (19_functional_safety). -/
@[reducible] def SAFE_HOLD_CAUSE : Nat := 0x1C00008

/-- SAFE_HOLD_TIME, 64 bits, RO, R515 (19_functional_safety). -/
@[reducible] def SAFE_HOLD_TIME : Nat := 0x1C00010

/-- SAFE_HOLD_US, 64 bits, RO, R515 (19_functional_safety). -/
@[reducible] def SAFE_HOLD_US : Nat := 0x1C00018

/-- SAFE_JUDGED, 64 bits, RO, R515 (19_functional_safety). -/
@[reducible] def SAFE_JUDGED : Nat := 0x1C00020

/-- SAFE_RELEASED, 64 bits, RO, R515 (19_functional_safety). -/
@[reducible] def SAFE_RELEASED : Nat := 0x1C00028

/-- SAFE_REJECTED, 64 bits, RO, R515 (19_functional_safety). -/
@[reducible] def SAFE_REJECTED : Nat := 0x1C00030

/-- SAFE_RESOLVED, 64 bits, RO, R515 (19_functional_safety). -/
@[reducible] def SAFE_RESOLVED : Nat := 0x1C00038

/-- SAFE_SWAPS, 64 bits, RO, R515 (19_functional_safety). -/
@[reducible] def SAFE_SWAPS : Nat := 0x1C00040

/-- SAFE_SWAP_DEFER_MAX, 32 bits, RC, R515 (19_functional_safety). -/
@[reducible] def SAFE_SWAP_DEFER_MAX : Nat := 0x1C00048

/-- SAFE_INQ, 32 bits, RO, R515 (19_functional_safety). -/
@[reducible] def SAFE_INQ : Nat := 0x1C0004C

/-- SAFE_SELFTEST, 32 bits, RO, R515 (19_functional_safety). -/
@[reducible] def SAFE_SELFTEST : Nat := 0x1C00050

/-- SAFE_TASK_t_STATE, 32 bits, RO, R515 (19_functional_safety). -/
@[reducible] def SAFE_TASK_STATE (t : Nat) : Nat := 0x1C00100 + t * 0x20

/-- SAFE_TASK_t_HOLD_TIME, 64 bits, RO, R515 (19_functional_safety). -/
@[reducible] def SAFE_TASK_HOLD_TIME (t : Nat) : Nat := 0x1C00108 + t * 0x20

/-- SAFE_TASK_t_LAST_PASS, 64 bits, RO, R515 (19_functional_safety). -/
@[reducible] def SAFE_TASK_LAST_PASS (t : Nat) : Nat := 0x1C00110 + t * 0x20

/-- SAFE_TASK_t_REJECTS, 64 bits, RO, R515 (19_functional_safety). -/
@[reducible] def SAFE_TASK_REJECTS (t : Nat) : Nat := 0x1C00118 + t * 0x20

/-- SAFE_PT_p_STATUS, 32 bits, RO, R515 (19_functional_safety). -/
@[reducible] def SAFE_PT_STATUS (p : Nat) : Nat := 0x1C08000 + p * 0x800

/-- SAFE_PT_p_RESTART_CODE, 32 bits, RO, R515 (19_functional_safety). -/
@[reducible] def SAFE_PT_RESTART_CODE (p : Nat) : Nat := 0x1C08004 + p * 0x800

/-- SAFE_PT_p_RESTARTS, 64 bits, RO, R515 (19_functional_safety). -/
@[reducible] def SAFE_PT_RESTARTS (p : Nat) : Nat := 0x1C08008 + p * 0x800

/-- SAFE_PT_p_LAST_READY, 64 bits, RO, R515 (19_functional_safety). -/
@[reducible] def SAFE_PT_LAST_READY (p : Nat) : Nat := 0x1C08010 + p * 0x800

/-- PWR_STATUS, 32 bits, RO, R535 (20_power_clocks_rhizoid). -/
@[reducible] def PWR_STATUS : Nat := 0x1B00000

/-- PWR_CMD, 32 bits, WO, R535 (20_power_clocks_rhizoid). -/
@[reducible] def PWR_CMD : Nat := 0x1B00004

/-- PWR_CFG, 32 bits, RW, R535 (20_power_clocks_rhizoid). -/
@[reducible] def PWR_CFG : Nat := 0x1B00008

/-- PWR_WAKE_EN, 32 bits, RW, R535 (20_power_clocks_rhizoid). -/
@[reducible] def PWR_WAKE_EN : Nat := 0x1B0000C

/-- PWR_WAKE_CAUSE, 32 bits, W1C, R535 (20_power_clocks_rhizoid). -/
@[reducible] def PWR_WAKE_CAUSE : Nat := 0x1B00010

/-- PWR_LIMIT, 32 bits, RW, R535 (20_power_clocks_rhizoid). -/
@[reducible] def PWR_LIMIT : Nat := 0x1B00014

/-- PWR_PKG_MW, 32 bits, RO, R535 (20_power_clocks_rhizoid). -/
@[reducible] def PWR_PKG_MW : Nat := 0x1B00018

/-- PWR_TJ, 32 bits, RO, R535 (20_power_clocks_rhizoid). -/
@[reducible] def PWR_TJ : Nat := 0x1B0001C

/-- PWR_TJ_THR, 32 bits, RW, R535 (20_power_clocks_rhizoid). -/
@[reducible] def PWR_TJ_THR : Nat := 0x1B00020

/-- PWR_TJ_MAX, 32 bits, RC, R535 (20_power_clocks_rhizoid). -/
@[reducible] def PWR_TJ_MAX : Nat := 0x1B00024

/-- PWR_THROTTLED_US, 64 bits, RO, R535 (20_power_clocks_rhizoid). -/
@[reducible] def PWR_THROTTLED_US : Nat := 0x1B00028

/-- PWR_ENTRIES_k, 64 bits, RO, R535 (20_power_clocks_rhizoid). -/
@[reducible] def PWR_ENTRIES (k : Nat) : Nat := 0x1B00028 + k * 0x8

/-- PWR_TIME_k, 64 bits, RO, R535 (20_power_clocks_rhizoid). -/
@[reducible] def PWR_TIME (k : Nat) : Nat := 0x1B00048 + k * 0x8

/-- DT_NOW, 64 bits, RO, R535 (20_power_clocks_rhizoid). -/
@[reducible] def DT_NOW : Nat := 0x1B00100

/-- DT_RATE, 64 bits, RO, R535 (20_power_clocks_rhizoid). -/
@[reducible] def DT_RATE : Nat := 0x1B00108

/-- PPS_CFG, 32 bits, RW, R535 (20_power_clocks_rhizoid). -/
@[reducible] def PPS_CFG : Nat := 0x1B00110

/-- PPS_OFFSET, 32 bits, RW, R535 (20_power_clocks_rhizoid). -/
@[reducible] def PPS_OFFSET : Nat := 0x1B00114

/-- PPS_LAST, 64 bits, RO, R535 (20_power_clocks_rhizoid). -/
@[reducible] def PPS_LAST : Nat := 0x1B00118

/-- PPS_ERR, 32 bits, RO, R535 (20_power_clocks_rhizoid). -/
@[reducible] def PPS_ERR : Nat := 0x1B00120

/-- PPS_STATUS, 32 bits, RO, R535 (20_power_clocks_rhizoid). -/
@[reducible] def PPS_STATUS : Nat := 0x1B00124

/-- AUD_CFG, 32 bits, RW, R535 (20_power_clocks_rhizoid). -/
@[reducible] def AUD_CFG : Nat := 0x1B00200

/-- AUD_T0, 64 bits, RO, R535 (20_power_clocks_rhizoid). -/
@[reducible] def AUD_T0 : Nat := 0x1B00208

/-- AUD_T0_ERR, 32 bits, RO, R535 (20_power_clocks_rhizoid). -/
@[reducible] def AUD_T0_ERR : Nat := 0x1B00210

/-- AUD_NEXT, 64 bits, RO, R535 (20_power_clocks_rhizoid). -/
@[reducible] def AUD_NEXT : Nat := 0x1B00218

/-- AUD_FIRST, 64 bits, RW, R535 (20_power_clocks_rhizoid). -/
@[reducible] def AUD_FIRST : Nat := 0x1B00220

/-- AUD_COUNT, 32 bits, RW, R535 (20_power_clocks_rhizoid). -/
@[reducible] def AUD_COUNT : Nat := 0x1B00228

/-- AUD_DST, 64 bits, RW, R535 (20_power_clocks_rhizoid). -/
@[reducible] def AUD_DST : Nat := 0x1B00230

/-- AUD_CMD, 32 bits, WO, R535 (20_power_clocks_rhizoid). -/
@[reducible] def AUD_CMD : Nat := 0x1B00238

/-- AUD_STATUS, 32 bits, RO, R535 (20_power_clocks_rhizoid). -/
@[reducible] def AUD_STATUS : Nat := 0x1B0023C

/-- KWS_CFG, 32 bits, RW, R535 (20_power_clocks_rhizoid). -/
@[reducible] def KWS_CFG : Nat := 0x1B00300

/-- KWS_SHIFT, 32 bits, RW, R535 (20_power_clocks_rhizoid). -/
@[reducible] def KWS_SHIFT : Nat := 0x1B00304

/-- KWS_MODEL_ADDR, 32 bits, RW, R535 (20_power_clocks_rhizoid). -/
@[reducible] def KWS_MODEL_ADDR : Nat := 0x1B00308

/-- KWS_MODEL_DATA, 32 bits, WO, R535 (20_power_clocks_rhizoid). -/
@[reducible] def KWS_MODEL_DATA : Nat := 0x1B0030C

/-- KWS_THRESH_k, 32 bits, RW, R535 (20_power_clocks_rhizoid). -/
@[reducible] def KWS_THRESH (k : Nat) : Nat := 0x1B00310 + k * 0x8

/-- KWS_LEN_k, 32 bits, RW, R535 (20_power_clocks_rhizoid). -/
@[reducible] def KWS_LEN (k : Nat) : Nat := 0x1B00314 + k * 0x8

/-- KWS_EVT_i, 64 bits, RO, R535 (20_power_clocks_rhizoid). -/
@[reducible] def KWS_EVT (i : Nat) : Nat := 0x1B00380 + i * 0x8

/-- KWS_POP, 32 bits, WO, R535 (20_power_clocks_rhizoid). -/
@[reducible] def KWS_POP : Nat := 0x1B003A0

/-- KWS_STATUS, 32 bits, RO, R535 (20_power_clocks_rhizoid). -/
@[reducible] def KWS_STATUS : Nat := 0x1B003A4

/-- KWS_DETECTIONS, 64 bits, RO, R535 (20_power_clocks_rhizoid). -/
@[reducible] def KWS_DETECTIONS : Nat := 0x1B003A8

/-- DBG_TC_n_MMA_a, 64 bits, RO, R540 (21_debug_counters). -/
@[reducible] def DBG_TC_MMA (n : Nat) (a : Nat) : Nat := 0x1A20000 + n * 0x200 + a * 0x8

/-- DBG_TC_n_MMA_4B, 64 bits, RO, R540 (21_debug_counters). -/
@[reducible] def DBG_TC_MMA_4B (n : Nat) : Nat := 0x1A200D0 + n * 0x200

/-- DBG_TC_n_MMA_8B, 64 bits, RO, R540 (21_debug_counters). -/
@[reducible] def DBG_TC_MMA_8B (n : Nat) : Nat := 0x1A200D8 + n * 0x200

/-- DBG_TC_n_MMA_16B, 64 bits, RO, R540 (21_debug_counters). -/
@[reducible] def DBG_TC_MMA_16B (n : Nat) : Nat := 0x1A200E0 + n * 0x200

/-- DBG_TC_n_MMA_INT, 64 bits, RO, R540 (21_debug_counters). -/
@[reducible] def DBG_TC_MMA_INT (n : Nat) : Nat := 0x1A200E8 + n * 0x200

/-- DBG_TC_n_VFP, 64 bits, RO, R540 (21_debug_counters). -/
@[reducible] def DBG_TC_VFP (n : Nat) : Nat := 0x1A20100 + n * 0x200

/-- DBG_TC_n_VINT, 64 bits, RO, R540 (21_debug_counters). -/
@[reducible] def DBG_TC_VINT (n : Nat) : Nat := 0x1A20108 + n * 0x200

/-- DBG_TC_n_VDIV, 64 bits, RO, R540 (21_debug_counters). -/
@[reducible] def DBG_TC_VDIV (n : Nat) : Nat := 0x1A20110 + n * 0x200

/-- DBG_TC_n_VSFU, 64 bits, RO, R540 (21_debug_counters). -/
@[reducible] def DBG_TC_VSFU (n : Nat) : Nat := 0x1A20118 + n * 0x200

/-- DBG_TC_n_VCVT, 64 bits, RO, R540 (21_debug_counters). -/
@[reducible] def DBG_TC_VCVT (n : Nat) : Nat := 0x1A20120 + n * 0x200

/-- DBG_TC_n_VQNT, 64 bits, RO, R540 (21_debug_counters). -/
@[reducible] def DBG_TC_VQNT (n : Nat) : Nat := 0x1A20128 + n * 0x200

/-- DBG_TC_n_VRED, 64 bits, RO, R540 (21_debug_counters). -/
@[reducible] def DBG_TC_VRED (n : Nat) : Nat := 0x1A20130 + n * 0x200

/-- DBG_TC_n_LOAD_BYTES, 64 bits, RO, R540 (21_debug_counters). -/
@[reducible] def DBG_TC_LOAD_BYTES (n : Nat) : Nat := 0x1A20138 + n * 0x200

/-- DBG_TC_n_STORE_BYTES, 64 bits, RO, R540 (21_debug_counters). -/
@[reducible] def DBG_TC_STORE_BYTES (n : Nat) : Nat := 0x1A20140 + n * 0x200

/-- DBG_TC_n_SCALAR, 64 bits, RO, R540 (21_debug_counters). -/
@[reducible] def DBG_TC_SCALAR (n : Nat) : Nat := 0x1A20148 + n * 0x200

/-- DBG_TC_n_SYNC, 64 bits, RO, R540 (21_debug_counters). -/
@[reducible] def DBG_TC_SYNC (n : Nat) : Nat := 0x1A20150 + n * 0x200

/-- DBG_TC_n_KAK, 64 bits, RO, R540 (21_debug_counters). -/
@[reducible] def DBG_TC_KAK (n : Nat) : Nat := 0x1A20158 + n * 0x200

/-- DBG_STATUS, 32 bits, RO, R550 (21_debug_counters). -/
@[reducible] def DBG_STATUS : Nat := 0x1A00000

/-- DBG_FREEZE_CMD, 32 bits, WO, R550 (21_debug_counters). -/
@[reducible] def DBG_FREEZE_CMD : Nat := 0x1A00004

/-- DBG_FRZ_CFG, 32 bits, RW, R550 (21_debug_counters). -/
@[reducible] def DBG_FRZ_CFG : Nat := 0x1A00008

/-- DBG_FRZ_MASK, 32 bits, RW, R550 (21_debug_counters). -/
@[reducible] def DBG_FRZ_MASK : Nat := 0x1A0000C

/-- DBG_FREEZE_TIME, 64 bits, RO, R550 (21_debug_counters). -/
@[reducible] def DBG_FREEZE_TIME : Nat := 0x1A00010

/-- DBG_FREEZE_SEQ, 32 bits, RO, R550 (21_debug_counters). -/
@[reducible] def DBG_FREEZE_SEQ : Nat := 0x1A00018

/-- DBG_FRZ_IGNORED, 64 bits, RO, R550 (21_debug_counters). -/
@[reducible] def DBG_FRZ_IGNORED : Nat := 0x1A00020

/-- DBG_CLEAR, 32 bits, WO, R550 (21_debug_counters). -/
@[reducible] def DBG_CLEAR : Nat := 0x1A00028

/-- DBG_SAT_EN, 32 bits, RW, R550 (21_debug_counters). -/
@[reducible] def DBG_SAT_EN : Nat := 0x1A0002C

/-- DBG_SAT_STATUS, 32 bits, W1C, R550 (21_debug_counters). -/
@[reducible] def DBG_SAT_STATUS : Nat := 0x1A00030

/-- DBG_SAT_VEC, 32 bits, RW, R550 (21_debug_counters). -/
@[reducible] def DBG_SAT_VEC : Nat := 0x1A00034

/-- DBG_RING_SEL, 32 bits, RW, R550 (21_debug_counters). -/
@[reducible] def DBG_RING_SEL : Nat := 0x1A00040

/-- DBG_RING_IDX, 32 bits, RW, R550 (21_debug_counters). -/
@[reducible] def DBG_RING_IDX : Nat := 0x1A00044

/-- DBG_RING_DATA_i, 64 bits, RO, R550 (21_debug_counters). -/
@[reducible] def DBG_RING_DATA (i : Nat) : Nat := 0x1A00048 + i * 0x8

/-- DBG_RING_COUNT, 64 bits, RO, R550 (21_debug_counters). -/
@[reducible] def DBG_RING_COUNT : Nat := 0x1A00068

/-- DBG_DUMP_DST, 64 bits, RW, R550 (21_debug_counters). -/
@[reducible] def DBG_DUMP_DST : Nat := 0x1A00070

/-- DBG_DUMP_CMD, 32 bits, WO, R550 (21_debug_counters). -/
@[reducible] def DBG_DUMP_CMD : Nat := 0x1A00078

/-- DBG_DUMP_STATUS, 32 bits, RO, R550 (21_debug_counters). -/
@[reducible] def DBG_DUMP_STATUS : Nat := 0x1A0007C

/-- DBG_PT_p_TRACE_CFG, 32 bits, RW, R550 (21_debug_counters). -/
@[reducible] def DBG_PT_TRACE_CFG (p : Nat) : Nat := 0x1A10000 + p * 0x1000

/-- DBG_PT_p_TRACE_BASE, 64 bits, RW, R550 (21_debug_counters). -/
@[reducible] def DBG_PT_TRACE_BASE (p : Nat) : Nat := 0x1A10008 + p * 0x1000

/-- DBG_PT_p_TRACE_HEAD, 32 bits, RW, R550 (21_debug_counters). -/
@[reducible] def DBG_PT_TRACE_HEAD (p : Nat) : Nat := 0x1A10010 + p * 0x1000

/-- DBG_PT_p_TRACE_TAIL, 32 bits, RO, R550 (21_debug_counters). -/
@[reducible] def DBG_PT_TRACE_TAIL (p : Nat) : Nat := 0x1A10014 + p * 0x1000

/-- DBG_PT_p_TRACE_DROP, 64 bits, RO, R550 (21_debug_counters). -/
@[reducible] def DBG_PT_TRACE_DROP (p : Nat) : Nat := 0x1A10018 + p * 0x1000

/-- DBG_PT_p_MAC_4B, 64 bits, RO, R550 (21_debug_counters). -/
@[reducible] def DBG_PT_MAC_4B (p : Nat) : Nat := 0x1A10020 + p * 0x1000

/-- DBG_PT_p_MAC_8B, 64 bits, RO, R550 (21_debug_counters). -/
@[reducible] def DBG_PT_MAC_8B (p : Nat) : Nat := 0x1A10028 + p * 0x1000

/-- DBG_PT_p_MAC_16B, 64 bits, RO, R550 (21_debug_counters). -/
@[reducible] def DBG_PT_MAC_16B (p : Nat) : Nat := 0x1A10030 + p * 0x1000

/-- DBG_PT_p_CLEAR, 32 bits, WO, R550 (21_debug_counters). -/
@[reducible] def DBG_PT_CLEAR (p : Nat) : Nat := 0x1A10038 + p * 0x1000

/-- MGT_STATUS, 32 bits, RO, R566 (22_management_port). -/
@[reducible] def MGT_STATUS : Nat := 0x1B00400

/-- MGT_ALERT_MASK, 32 bits, RW, R566 (22_management_port). -/
@[reducible] def MGT_ALERT_MASK : Nat := 0x1B00404

/-- MGT_FRAMES, 64 bits, RO, R566 (22_management_port). -/
@[reducible] def MGT_FRAMES : Nat := 0x1B00408

/-- MGT_CRC_FAIL, 64 bits, RO, R566 (22_management_port). -/
@[reducible] def MGT_CRC_FAIL : Nat := 0x1B00410

/-- MGT_AUTH_FAIL, 64 bits, RO, R566 (22_management_port). -/
@[reducible] def MGT_AUTH_FAIL : Nat := 0x1B00418

/-- MGT_EVT_LOST, 64 bits, RO, R566 (22_management_port). -/
@[reducible] def MGT_EVT_LOST : Nat := 0x1B00420

/-- GLB_BOOT_STATUS, 32 bits, RO, R579 (23_boot_reset). -/
@[reducible] def GLB_BOOT_STATUS : Nat := 0x10000

/-- GLB_RESET_CAUSE, 32 bits, RO, R579 (23_boot_reset). -/
@[reducible] def GLB_RESET_CAUSE : Nat := 0x10004

/-- GLB_STRAPS, 32 bits, RO, R579 (23_boot_reset). -/
@[reducible] def GLB_STRAPS : Nat := 0x10008

/-- GLB_CFG, 32 bits, RWS, R579 (23_boot_reset). -/
@[reducible] def GLB_CFG : Nat := 0x1000C

/-- GLB_RESET_CMD, 32 bits, WO, R579 (23_boot_reset). -/
@[reducible] def GLB_RESET_CMD : Nat := 0x10010

/-- GLB_RESTARTS, 32 bits, RWS, R579 (23_boot_reset). -/
@[reducible] def GLB_RESTARTS : Nat := 0x10014

/-- GLB_BOOT_TIME, 64 bits, RO, R579 (23_boot_reset). -/
@[reducible] def GLB_BOOT_TIME : Nat := 0x10018

/-- GLB_SCRATCH_i, 64 bits, RWS, R579 (23_boot_reset). -/
@[reducible] def GLB_SCRATCH (i : Nat) : Nat := 0x10100 + i * 0x8

/-- DBG_PT_p_RING_SEL, 32 bits, RW, R551 (21_debug_counters). -/
@[reducible] def DBG_PT_RING_SEL (p : Nat) : Nat := 0x1A10040 + p * 0x1000

/-- DBG_PT_p_RING_IDX, 32 bits, RW, R551 (21_debug_counters). -/
@[reducible] def DBG_PT_RING_IDX (p : Nat) : Nat := 0x1A10044 + p * 0x1000

/-- DBG_PT_p_RING_DATA_i, 64 bits, RO, R551 (21_debug_counters). -/
@[reducible] def DBG_PT_RING_DATA (p : Nat) (i : Nat) : Nat := 0x1A10048 + p * 0x1000 + i * 0x8

/-- DBG_PT_p_RING_COUNT, 64 bits, RO, R551 (21_debug_counters). -/
@[reducible] def DBG_PT_RING_COUNT (p : Nat) : Nat := 0x1A10068 + p * 0x1000

/-- DBG_PT_p_DUMP_DST, 64 bits, RW, R551 (21_debug_counters). -/
@[reducible] def DBG_PT_DUMP_DST (p : Nat) : Nat := 0x1A10070 + p * 0x1000

/-- DBG_PT_p_DUMP_CMD, 32 bits, WO, R551 (21_debug_counters). -/
@[reducible] def DBG_PT_DUMP_CMD (p : Nat) : Nat := 0x1A10078 + p * 0x1000

/-- DBG_PT_p_DUMP_STATUS, 32 bits, RO, R551 (21_debug_counters). -/
@[reducible] def DBG_PT_DUMP_STATUS (p : Nat) : Nat := 0x1A1007C + p * 0x1000

/-- Rows 0 to 39 of the register map. -/
def rows0 : List RegRow := [
  ⟨"CAP_IDENT", 0x0, [], 4, .ro, 0x0, false⟩,
  ⟨"CAP_VERSION", 0x4, [], 4, .ro, 0x0, false⟩,
  ⟨"CAP_VARIANT", 0x8, [], 4, .ro, 0x0, false⟩,
  ⟨"CAP_ENTRIES", 0xC, [], 4, .ro, 0x0, false⟩,
  ⟨"CAP_GEN", 0x10, [], 4, .ro, 0x0, false⟩,
  ⟨"CAP_DEVID", 0x14, [], 4, .ro, 0x0, false⟩,
  ⟨"CAP_MEM_RAW", 0x18, [], 8, .ro, 0x0, false⟩,
  ⟨"CAP_MEM_USABLE", 0x20, [], 8, .ro, 0x0, false⟩,
  ⟨"CAP_VIEW", 0x28, [], 4, .ro, 0x0, false⟩,
  ⟨"CSI_n_CTRL", 0xD00000, [(0x4000, 12)], 4, .rw, 0xFFFF001F, true⟩,
  ⟨"CSI_n_LANE_MAP", 0xD00004, [(0x4000, 12)], 4, .rw, 0xFFF, false⟩,
  ⟨"CSI_n_STATUS", 0xD00008, [(0x4000, 12)], 4, .ro, 0x0, false⟩,
  ⟨"CSI_n_ERR", 0xD0000C, [(0x4000, 12)], 4, .w1c, 0xFFFFFFFF, false⟩,
  ⟨"CSI_n_ERR_CNT", 0xD00010, [(0x4000, 12)], 8, .ro, 0x0, false⟩,
  ⟨"CSI_n_UNMATCHED", 0xD00018, [(0x4000, 12)], 8, .ro, 0x0, false⟩,
  ⟨"ST_m_CFG", 0xD00100, [(0x4000, 12), (0x100, 4)], 4, .rw, 0xF7F, true⟩,
  ⟨"ST_m_DT", 0xD00104, [(0x4000, 12), (0x100, 4)], 4, .rw, 0x3F3F, true⟩,
  ⟨"ST_m_GEOM", 0xD00108, [(0x4000, 12), (0x100, 4)], 4, .rw, 0xFFFFFFFF, true⟩,
  ⟨"ST_m_SEAL", 0xD0010C, [(0x4000, 12), (0x100, 4)], 4, .rw, 0xF3, true⟩,
  ⟨"ST_m_FNUM_MAX", 0xD00110, [(0x4000, 12), (0x100, 4)], 4, .rw, 0xFFFF, true⟩,
  ⟨"ST_m_TIMEOUT", 0xD00114, [(0x4000, 12), (0x100, 4)], 4, .rw, 0xFFFFFFFF, false⟩,
  ⟨"ST_m_REC_BASE", 0xD00118, [(0x4000, 12), (0x100, 4)], 8, .rw, 0xFFFFFFFFFFFFFFFF, false⟩,
  ⟨"ST_m_REC_DEPTH", 0xD00120, [(0x4000, 12), (0x100, 4)], 4, .rw, 0xFFFFFFFF, false⟩,
  ⟨"ST_m_REC_RELEASE", 0xD00124, [(0x4000, 12), (0x100, 4)], 4, .wo, 0x0, true⟩,
  ⟨"ST_m_FE_FLAG", 0xD00128, [(0x4000, 12), (0x100, 4)], 4, .rw, 0x80007FFF, false⟩,
  ⟨"ST_m_STATUS", 0xD0012C, [(0x4000, 12), (0x100, 4)], 4, .ro, 0x0, false⟩,
  ⟨"ST_m_LAST_FS", 0xD00130, [(0x4000, 12), (0x100, 4)], 8, .ro, 0x0, false⟩,
  ⟨"ST_m_FRAMES", 0xD00138, [(0x4000, 12), (0x100, 4)], 8, .ro, 0x0, false⟩,
  ⟨"ST_m_DROPPED", 0xD00140, [(0x4000, 12), (0x100, 4)], 8, .ro, 0x0, false⟩,
  ⟨"ISP_n_CTRL", 0xC00000, [(0x10000, 12)], 4, .rw, 0x1, false⟩,
  ⟨"ISP_n_STATUS", 0xC00004, [(0x10000, 12)], 4, .ro, 0x0, false⟩,
  ⟨"ISP_n_LOAD", 0xC00008, [(0x10000, 12)], 4, .ro, 0x0, false⟩,
  ⟨"ISP_n_ERR", 0xC0000C, [(0x10000, 12)], 4, .w1c, 0xFFFFFFFF, false⟩,
  ⟨"ISP_n_CTX_c_CFG", 0xC00100, [(0x10000, 12), (0x100, 4)], 4, .rw, 0x3FFFFF, true⟩,
  ⟨"ISP_n_CTX_c_SRC", 0xC00104, [(0x10000, 12), (0x100, 4)], 4, .rw, 0x3F3F3F3F, true⟩,
  ⟨"ISP_n_CTX_c_PB_POST", 0xC00108, [(0x10000, 12), (0x100, 4)], 8, .wo, 0x0, true⟩,
  ⟨"ISP_n_CTX_c_PB_STATUS", 0xC00110, [(0x10000, 12), (0x100, 4)], 4, .ro, 0x0, false⟩,
  ⟨"ISP_n_CTX_c_ACTIVE_ID", 0xC00114, [(0x10000, 12), (0x100, 4)], 4, .ro, 0x0, false⟩,
  ⟨"ISP_n_CTX_c_PENDING_ID", 0xC00118, [(0x10000, 12), (0x100, 4)], 4, .ro, 0x0, false⟩,
  ⟨"ISP_n_CTX_c_TAKEN", 0xC00120, [(0x10000, 12), (0x100, 4)], 8, .ro, 0x0, false⟩]

/-- Rows 40 to 79 of the register map. -/
def rows1 : List RegRow := [
  ⟨"ISP_n_CTX_c_SUPERSEDED", 0xC00128, [(0x10000, 12), (0x100, 4)], 8, .ro, 0x0, false⟩,
  ⟨"ISP_n_CTX_c_REJECTED", 0xC00130, [(0x10000, 12), (0x100, 4)], 8, .ro, 0x0, false⟩,
  ⟨"ISP_n_CTX_c_SKIPPED", 0xC00138, [(0x10000, 12), (0x100, 4)], 8, .ro, 0x0, false⟩,
  ⟨"ISP_n_CTX_c_STATS_BASE", 0xC00140, [(0x10000, 12), (0x100, 4)], 8, .rw, 0xFFFFFFFFFFFFFFFF, false⟩,
  ⟨"ISP_n_CTX_c_STATS_CFG", 0xC00148, [(0x10000, 12), (0x100, 4)], 4, .rw, 0x1F, false⟩,
  ⟨"ISP_n_CTX_c_STATS_FLAG", 0xC0014C, [(0x10000, 12), (0x100, 4)], 4, .rw, 0x80007FFF, false⟩,
  ⟨"ISP_n_CTX_c_FRAMES", 0xC00150, [(0x10000, 12), (0x100, 4)], 8, .ro, 0x0, false⟩,
  ⟨"BRK_STATUS", 0x800000, [], 4, .ro, 0x0, false⟩,
  ⟨"BRK_PT_p_BUSY", 0x800100, [(0x8, 16)], 8, .ro, 0x0, false⟩,
  ⟨"ENG_STATUS", 0x810000, [(0x10000, 11)], 4, .ro, 0x0, false⟩,
  ⟨"ENG_LOAD", 0x810004, [(0x10000, 11)], 4, .ro, 0x0, false⟩,
  ⟨"ENG_ERR", 0x810008, [(0x10000, 11)], 8, .w1c, 0xFFFFFFFFFFFFFFFF, false⟩,
  ⟨"ENG_JOBS", 0x810010, [(0x10000, 11)], 8, .ro, 0x0, false⟩,
  ⟨"ENG_ABORTED", 0x810018, [(0x10000, 11)], 8, .ro, 0x0, false⟩,
  ⟨"ENG_ROWS", 0x810020, [(0x10000, 11)], 8, .ro, 0x0, false⟩,
  ⟨"ENG_CTX_k_JOB_ID", 0x810100, [(0x10000, 11), (0x20, 4)], 4, .ro, 0x0, false⟩,
  ⟨"ENG_CTX_k_PT", 0x810104, [(0x10000, 11), (0x20, 4)], 4, .ro, 0x0, false⟩,
  ⟨"ENG_CTX_k_ROW", 0x810108, [(0x10000, 11), (0x20, 4)], 4, .ro, 0x0, false⟩,
  ⟨"ENG_CTX_k_BLOCK", 0x810110, [(0x10000, 11), (0x20, 4)], 8, .ro, 0x0, false⟩,
  ⟨"ENG_FALLBACK", 0x880040, [(0x10000, 4)], 8, .ro, 0x0, false⟩,
  ⟨"ENG_EDGE", 0x880048, [(0x10000, 4)], 8, .ro, 0x0, false⟩,
  ⟨"ENG_INVALID", 0x880050, [(0x10000, 4)], 8, .ro, 0x0, false⟩,
  ⟨"ENG_CANDIDATES", 0x880058, [(0x10000, 4)], 8, .ro, 0x0, false⟩,
  ⟨"CRZ_STATUS", 0x1000000, [], 4, .ro, 0x0, false⟩,
  ⟨"CRZ_HANDOFFS", 0x1000008, [], 8, .ro, 0x0, false⟩,
  ⟨"CRZ_LATE", 0x1000010, [], 8, .ro, 0x0, false⟩,
  ⟨"CRZ_HANDOFF_MAX", 0x1000018, [], 4, .rc, 0x0, false⟩,
  ⟨"CRZ_GR_g_CMD", 0x1001000, [(0x80, 64)], 4, .wo, 0x0, true⟩,
  ⟨"CRZ_GR_g_CFG", 0x1001004, [(0x80, 64)], 4, .rw, 0x3FFFFF7, true⟩,
  ⟨"CRZ_GR_g_PROG", 0x1001008, [(0x80, 64)], 8, .rw, 0xFFFFFFFFFFFFFFFF, false⟩,
  ⟨"CRZ_GR_g_TRIG_ARG", 0x1001010, [(0x80, 64)], 8, .rw, 0xFFFFFFFFFFFFFFFF, false⟩,
  ⟨"CRZ_GR_g_INST_BASE", 0x1001018, [(0x80, 64)], 8, .rw, 0xFFFFFFFFFFFFFFFF, false⟩,
  ⟨"CRZ_GR_g_BUDGET", 0x1001020, [(0x80, 64)], 4, .rw, 0xFFFFFFFF, false⟩,
  ⟨"CRZ_GR_g_STATUS", 0x1001024, [(0x80, 64)], 4, .ro, 0x0, false⟩,
  ⟨"CRZ_GR_g_ERR", 0x1001028, [(0x80, 64)], 4, .ro, 0x0, false⟩,
  ⟨"CRZ_GR_g_INSTANCES", 0x1001030, [(0x80, 64)], 8, .ro, 0x0, false⟩,
  ⟨"CRZ_GR_g_FAILED", 0x1001038, [(0x80, 64)], 8, .ro, 0x0, false⟩,
  ⟨"CRZ_GR_g_MISSED", 0x1001040, [(0x80, 64)], 8, .ro, 0x0, false⟩,
  ⟨"CRZ_GR_g_SKIPS", 0x1001048, [(0x80, 64)], 8, .ro, 0x0, false⟩,
  ⟨"CRZ_GR_g_LAST_SEQ", 0x1001050, [(0x80, 64)], 8, .ro, 0x0, false⟩]

/-- Rows 80 to 119 of the register map. -/
def rows2 : List RegRow := [
  ⟨"CRZ_SC_i", 0x1004000, [(0x8, 1024)], 8, .ro, 0x0, false⟩,
  ⟨"DSC_PT_p_TABLE", 0x1480000, [(0x100, 16)], 8, .rw, 0xFFFFFFFFFFFFFFFF, false⟩,
  ⟨"DSC_PT_p_COUNT", 0x1480008, [(0x100, 16)], 4, .rw, 0xFFFFFFFF, false⟩,
  ⟨"DSC_PT_p_CMD", 0x148000C, [(0x100, 16)], 4, .wo, 0x0, true⟩,
  ⟨"DSC_PT_p_SRC", 0x1480010, [(0x100, 16)], 8, .rw, 0xFFFFFFFFFFFFFFFF, false⟩,
  ⟨"DSC_PT_p_STATUS", 0x1480018, [(0x100, 16)], 4, .ro, 0x0, false⟩,
  ⟨"DSC_PT_p_FLAG", 0x148001C, [(0x100, 16)], 4, .rw, 0x80007FFF, false⟩,
  ⟨"DSC_PT_p_FAULT_ADDR", 0x1480020, [(0x100, 16)], 8, .ro, 0x0, false⟩,
  ⟨"DSC_PT_p_FAULT_INFO", 0x1480028, [(0x100, 16)], 8, .w1c, 0x8000000000000000, false⟩,
  ⟨"DSC_PT_p_CREATED", 0x1480030, [(0x100, 16)], 8, .ro, 0x0, false⟩,
  ⟨"DSC_PT_p_REFUSED", 0x1480038, [(0x100, 16)], 8, .ro, 0x0, false⟩,
  ⟨"DSC_PT_p_INVALS", 0x1480040, [(0x100, 16)], 8, .ro, 0x0, false⟩,
  ⟨"RGN_SEL", 0x1490000, [], 4, .rw, 0xFFFF, false⟩,
  ⟨"RGN_BASE", 0x1490008, [], 8, .rw, 0xFFFFFFFFFFFFFFFF, false⟩,
  ⟨"RGN_SIZE", 0x1490010, [], 8, .rw, 0xFFFFFFFFFFFFFFFF, false⟩,
  ⟨"RGN_ATTR", 0x1490018, [], 4, .rw, 0x8000007F, false⟩,
  ⟨"RGN_CMD", 0x149001C, [], 4, .wo, 0x0, true⟩,
  ⟨"RGN_STATUS", 0x1490020, [], 4, .ro, 0x0, false⟩,
  ⟨"TC_n_STATUS", 0x100000, [(0x10000, 32)], 4, .ro, 0x0, false⟩,
  ⟨"TC_n_ARITH", 0x100004, [(0x10000, 32)], 4, .w1c, 0x7, false⟩,
  ⟨"TC_n_ERR", 0x100008, [(0x10000, 32)], 4, .w1c, 0xFFFFFFFF, false⟩,
  ⟨"TC_n_LAST_ERR", 0x10000C, [(0x10000, 32)], 4, .ro, 0x0, false⟩,
  ⟨"TC_n_SLOT_k", 0x100010, [(0x10000, 32), (0x8, 3)], 8, .ro, 0x0, false⟩,
  ⟨"TC_n_EXEC_PC", 0x100028, [(0x10000, 32)], 8, .ro, 0x0, false⟩,
  ⟨"TC_n_OPS", 0x100030, [(0x10000, 32)], 8, .ro, 0x0, false⟩,
  ⟨"TC_n_ABORTED", 0x100038, [(0x10000, 32)], 8, .ro, 0x0, false⟩,
  ⟨"TC_n_BUSY", 0x100040, [(0x10000, 32)], 8, .ro, 0x0, false⟩,
  ⟨"TC_n_MAC_BUSY", 0x100048, [(0x10000, 32)], 8, .ro, 0x0, false⟩,
  ⟨"TC_n_BANK_STALL", 0x100050, [(0x10000, 32)], 8, .ro, 0x0, false⟩,
  ⟨"TC_n_MISALIGNED", 0x100058, [(0x10000, 32)], 8, .ro, 0x0, false⟩,
  ⟨"TC_n_DC_MISS", 0x100060, [(0x10000, 32)], 8, .ro, 0x0, false⟩,
  ⟨"TC_n_TC_MISS", 0x100068, [(0x10000, 32)], 8, .ro, 0x0, false⟩,
  ⟨"TC_n_CE_COUNT", 0x100070, [(0x10000, 32)], 8, .ro, 0x0, false⟩,
  ⟨"FLAG_i_VALUE", 0x1300000, [(0x10, 32768)], 4, .rw, 0xFFFFFFFF, true⟩,
  ⟨"FLAG_i_ADD", 0x1300004, [(0x10, 32768)], 4, .wo, 0x0, true⟩,
  ⟨"FLAG_i_OWNER", 0x1300008, [(0x10, 32768)], 4, .ro, 0x0, false⟩,
  ⟨"SYN_PT_p_SIGNALS", 0x1380000, [(0x40, 16)], 8, .ro, 0x0, false⟩,
  ⟨"SYN_PT_p_WAITS", 0x1380008, [(0x40, 16)], 8, .ro, 0x0, false⟩,
  ⟨"SYN_PT_p_WAIT_NS", 0x1380010, [(0x40, 16)], 8, .ro, 0x0, false⟩,
  ⟨"SYN_PT_p_REFUSED", 0x1380018, [(0x40, 16)], 8, .ro, 0x0, false⟩]

/-- Rows 120 to 159 of the register map. -/
def rows3 : List RegRow := [
  ⟨"SYN_PT_p_LAST_REFUSED", 0x1380020, [(0x40, 16)], 4, .ro, 0x0, false⟩,
  ⟨"SYN_PT_p_REMOTE_IN", 0x1380024, [(0x40, 16)], 4, .ro, 0x0, false⟩,
  ⟨"GS_STATUS", 0x1100000, [], 4, .ro, 0x0, false⟩,
  ⟨"GS_DISPATCHES", 0x1100008, [], 8, .ro, 0x0, false⟩,
  ⟨"GS_LATE", 0x1100010, [], 8, .ro, 0x0, false⟩,
  ⟨"GS_START_MAX", 0x1100018, [], 4, .rc, 0x0, false⟩,
  ⟨"GS_RECORDS_FREE", 0x1100020, [], 4, .ro, 0x0, false⟩,
  ⟨"GS_PT_p_CFG", 0x1110000, [(0x1000, 16)], 4, .rw, 0xFF03, false⟩,
  ⟨"GS_PT_p_CMD", 0x1110004, [(0x1000, 16)], 4, .wo, 0x0, true⟩,
  ⟨"GS_PT_p_CMD_ARG", 0x1110008, [(0x1000, 16)], 8, .rw, 0xFFFFFFFFFFFFFFFF, false⟩,
  ⟨"GS_PT_p_STATUS", 0x1110010, [(0x1000, 16)], 4, .ro, 0x0, false⟩,
  ⟨"GS_PT_p_HANDLE", 0x1110014, [(0x1000, 16)], 4, .ro, 0x0, false⟩,
  ⟨"GS_PT_p_LAUNCH_ARG", 0x1110018, [(0x1000, 16)], 8, .rw, 0xFFFFFFFFFFFFFFFF, false⟩,
  ⟨"GS_PT_p_LAUNCH", 0x1110020, [(0x1000, 16)], 4, .wo, 0x0, true⟩,
  ⟨"GS_PT_p_CQ", 0x1110024, [(0x1000, 16)], 4, .rw, 0x80001FFF, false⟩,
  ⟨"GS_PT_p_WAIT_LIMIT", 0x1110028, [(0x1000, 16)], 4, .rw, 0xFFFFFFFF, false⟩,
  ⟨"GS_PT_p_DL_QUIET", 0x111002C, [(0x1000, 16)], 4, .rw, 0xFFFFFFFF, false⟩,
  ⟨"GS_PT_p_DL_SRC", 0x1110030, [(0x1000, 16)], 4, .rw, 0xF, false⟩,
  ⟨"GS_PT_p_DL_STATUS", 0x1110034, [(0x1000, 16)], 4, .ro, 0x0, false⟩,
  ⟨"GS_PT_p_ERR", 0x1110038, [(0x1000, 16)], 4, .w1c, 0xFFFFFFFF, false⟩,
  ⟨"GS_PT_p_OPS", 0x1110040, [(0x1000, 16)], 8, .ro, 0x0, false⟩,
  ⟨"GS_PT_p_REDISPATCHED", 0x1110048, [(0x1000, 16)], 8, .ro, 0x0, false⟩,
  ⟨"GS_PT_p_WITHDRAWN", 0x1110050, [(0x1000, 16)], 8, .ro, 0x0, false⟩,
  ⟨"GS_PT_p_CQ_STALL", 0x1110058, [(0x1000, 16)], 8, .ro, 0x0, false⟩,
  ⟨"GS_PT_p_RUNS", 0x1110060, [(0x1000, 16)], 8, .ro, 0x0, false⟩,
  ⟨"GS_PT_p_RUNS_FAILED", 0x1110068, [(0x1000, 16)], 8, .ro, 0x0, false⟩,
  ⟨"GS_PT_p_DEADLOCKS", 0x1110070, [(0x1000, 16)], 8, .ro, 0x0, false⟩,
  ⟨"GS_PT_p_READY", 0x1110078, [(0x1000, 16)], 4, .ro, 0x0, false⟩,
  ⟨"MOV_m_STATUS", 0x400000, [(0x40000, 4)], 4, .ro, 0x0, false⟩,
  ⟨"MOV_m_TAGS", 0x400004, [(0x40000, 4)], 4, .ro, 0x0, false⟩,
  ⟨"MOV_m_READ_BYTES", 0x400008, [(0x40000, 4)], 8, .ro, 0x0, false⟩,
  ⟨"MOV_m_WRITE_BYTES", 0x400010, [(0x40000, 4)], 8, .ro, 0x0, false⟩,
  ⟨"MOV_m_CH_k_CMD", 0x401000, [(0x40000, 4), (0x1000, 16)], 4, .wo, 0x0, true⟩,
  ⟨"MOV_m_CH_k_CFG", 0x401004, [(0x40000, 4), (0x1000, 16)], 4, .rw, 0x7FFFFF, false⟩,
  ⟨"MOV_m_CH_k_PROG", 0x401008, [(0x40000, 4), (0x1000, 16)], 8, .rw, 0xFFFFFFFFFFFFFFFF, false⟩,
  ⟨"MOV_m_CH_k_ARG_i", 0x401010, [(0x40000, 4), (0x1000, 16), (0x8, 4)], 8, .rw, 0xFFFFFFFFFFFFFFFF, false⟩,
  ⟨"MOV_m_CH_k_STATE", 0x401030, [(0x40000, 4), (0x1000, 16)], 4, .ro, 0x0, false⟩,
  ⟨"MOV_m_CH_k_PRIO", 0x401034, [(0x40000, 4), (0x1000, 16)], 4, .rw, 0x7, false⟩,
  ⟨"MOV_m_CH_k_PC", 0x401038, [(0x40000, 4), (0x1000, 16)], 8, .ro, 0x0, false⟩,
  ⟨"MOV_m_CH_k_RESIDUE", 0x401040, [(0x40000, 4), (0x1000, 16)], 8, .ro, 0x0, false⟩]

/-- Rows 160 to 199 of the register map. -/
def rows4 : List RegRow := [
  ⟨"MOV_m_CH_k_FAULT_ADDR", 0x401048, [(0x40000, 4), (0x1000, 16)], 8, .ro, 0x0, false⟩,
  ⟨"MOV_m_CH_k_FAULT_INFO", 0x401050, [(0x40000, 4), (0x1000, 16)], 4, .ro, 0x0, false⟩,
  ⟨"MOV_m_CH_k_ERR", 0x401054, [(0x40000, 4), (0x1000, 16)], 4, .w1c, 0xFFFFFFFF, false⟩,
  ⟨"MOV_m_CH_k_REC_ADDR", 0x401058, [(0x40000, 4), (0x1000, 16)], 8, .rw, 0xFFFFFFFFFFFFFFFF, false⟩,
  ⟨"MOV_m_CH_k_DONE_FLAG", 0x401060, [(0x40000, 4), (0x1000, 16)], 4, .rw, 0x80007FFF, false⟩,
  ⟨"MOV_m_CH_k_IRQ", 0x401064, [(0x40000, 4), (0x1000, 16)], 4, .rw, 0xFFFFFFFF, false⟩,
  ⟨"MOV_m_CH_k_DRAIN", 0x401068, [(0x40000, 4), (0x1000, 16)], 8, .ro, 0x0, false⟩,
  ⟨"MOV_m_CH_k_RING_BASE", 0x401070, [(0x40000, 4), (0x1000, 16)], 8, .rw, 0xFFFFFFFFFFFFFFFF, false⟩,
  ⟨"MOV_m_CH_k_RING_CFG", 0x401078, [(0x40000, 4), (0x1000, 16)], 4, .rw, 0xFFFFFF1F, false⟩,
  ⟨"MOV_m_CH_k_RING_FLAGS", 0x40107C, [(0x40000, 4), (0x1000, 16)], 4, .rw, 0x7FFF7FFF, false⟩,
  ⟨"MOV_m_CH_k_RING_TAIL", 0x401080, [(0x40000, 4), (0x1000, 16)], 4, .ro, 0x0, false⟩,
  ⟨"MOV_m_CH_k_BYTES", 0x401088, [(0x40000, 4), (0x1000, 16)], 8, .ro, 0x0, false⟩,
  ⟨"MOV_m_CH_k_RUNS", 0x401090, [(0x40000, 4), (0x1000, 16)], 8, .ro, 0x0, false⟩,
  ⟨"MOV_m_CH_k_PREEMPTED", 0x401098, [(0x40000, 4), (0x1000, 16)], 8, .ro, 0x0, false⟩,
  ⟨"MOV_m_CH_k_TAG_STALL", 0x4010A0, [(0x40000, 4), (0x1000, 16)], 8, .ro, 0x0, false⟩,
  ⟨"MOV_m_CH_k_X_i", 0x4010C0, [(0x40000, 4), (0x1000, 16), (0x8, 8)], 8, .ro, 0x0, false⟩,
  ⟨"MOV_m_CH_k_SPORE_SRC", 0x401100, [(0x40000, 4), (0x1000, 16)], 8, .rw, 0xFFFFFFFFFFFFFFFF, false⟩,
  ⟨"MOV_m_CH_k_SPORE_DST", 0x401108, [(0x40000, 4), (0x1000, 16)], 8, .rw, 0xFFFFFFFFFFFFFFFF, false⟩,
  ⟨"MOV_m_CH_k_SPORE_DATA_i", 0x401110, [(0x40000, 4), (0x1000, 16), (0x8, 4)], 8, .rw, 0xFFFFFFFFFFFFFFFF, false⟩,
  ⟨"MOV_m_CH_k_SPORE_CTL", 0x401130, [(0x40000, 4), (0x1000, 16)], 4, .wo, 0x0, true⟩,
  ⟨"MOV_m_CH_k_SPORE_STATUS", 0x401134, [(0x40000, 4), (0x1000, 16)], 4, .ro, 0x0, false⟩,
  ⟨"MOV_m_CH_k_SPORES", 0x401138, [(0x40000, 4), (0x1000, 16)], 8, .ro, 0x0, false⟩,
  ⟨"MEM_STATUS", 0x1400000, [], 4, .ro, 0x0, false⟩,
  ⟨"MEM_TEMP", 0x1400008, [], 4, .ro, 0x0, false⟩,
  ⟨"MEM_IMB_STATUS", 0x1400010, [], 4, .ro, 0x0, false⟩,
  ⟨"MEM_IMB_RATIO", 0x1400014, [], 4, .ro, 0x0, false⟩,
  ⟨"MEM_IMB_WINDOWS", 0x1400018, [], 8, .ro, 0x0, false⟩,
  ⟨"MEM_CE_COUNT", 0x1400020, [], 8, .ro, 0x0, false⟩,
  ⟨"MEM_UE_COUNT", 0x1400028, [], 8, .ro, 0x0, false⟩,
  ⟨"MEM_TAG_FAIL", 0x1400030, [], 8, .ro, 0x0, false⟩,
  ⟨"MEM_POISON_ADDR", 0x1400038, [], 8, .ro, 0x0, false⟩,
  ⟨"MEM_POISON_INFO", 0x1400040, [], 8, .w1c, 0x8000000000000000, false⟩,
  ⟨"MEM_PASR", 0x1400048, [], 4, .rw, 0xFF, true⟩,
  ⟨"MEM_PASR_LOST", 0x140004C, [], 4, .ro, 0x0, false⟩,
  ⟨"MEM_CACHE_SRAM_CE", 0x1400050, [], 8, .ro, 0x0, false⟩,
  ⟨"MEM_CH_c_RD_BYTES", 0x1400100, [(0x10, 32)], 8, .ro, 0x0, false⟩,
  ⟨"MEM_CH_c_WR_BYTES", 0x1400108, [(0x10, 32)], 8, .ro, 0x0, false⟩,
  ⟨"MEM_PT_p_WAYS", 0x1410000, [(0x100, 16)], 4, .rw, 0x7FFF7FFF, true⟩,
  ⟨"MEM_PT_p_S1_BASE", 0x1410008, [(0x100, 16)], 8, .rw, 0xFFFFFFFFFFFFFFFF, false⟩,
  ⟨"MEM_PT_p_S2_BASE", 0x1410010, [(0x100, 16)], 8, .rwl, 0xFFFFFFFFFFFFFFFF, false⟩]

/-- Rows 200 to 239 of the register map. -/
def rows5 : List RegRow := [
  ⟨"MEM_PT_p_XLAT_CMD", 0x1410018, [(0x100, 16)], 4, .wo, 0x0, true⟩,
  ⟨"MEM_PT_p_XLAT_ADDR", 0x1410020, [(0x100, 16)], 8, .rw, 0xFFFFFFFFFFFFFFFF, false⟩,
  ⟨"MEM_PT_p_XLAT_SIZE", 0x1410028, [(0x100, 16)], 8, .rw, 0xFFFFFFFFFFFFFFFF, false⟩,
  ⟨"MEM_PT_p_XLAT_STATUS", 0x1410030, [(0x100, 16)], 4, .ro, 0x0, false⟩,
  ⟨"MEM_PT_p_CACHE_CMD", 0x1410034, [(0x100, 16)], 4, .wo, 0x0, true⟩,
  ⟨"MEM_PT_p_CACHE_ADDR", 0x1410038, [(0x100, 16)], 8, .rw, 0xFFFFFFFFFFFFFFFF, false⟩,
  ⟨"MEM_PT_p_CACHE_SIZE", 0x1410040, [(0x100, 16)], 8, .rw, 0xFFFFFFFFFFFFFFFF, false⟩,
  ⟨"MEM_PT_p_CACHE_STATUS", 0x1410048, [(0x100, 16)], 4, .ro, 0x0, false⟩,
  ⟨"MEM_PT_p_HITS", 0x1410050, [(0x100, 16)], 8, .ro, 0x0, false⟩,
  ⟨"MEM_PT_p_MISSES", 0x1410058, [(0x100, 16)], 8, .ro, 0x0, false⟩,
  ⟨"MEM_PT_p_RETAINED", 0x1410060, [(0x100, 16)], 4, .ro, 0x0, false⟩,
  ⟨"MEM_PT_p_BYTES", 0x1410068, [(0x100, 16)], 8, .ro, 0x0, false⟩,
  ⟨"QM_ASSIGN_CLASS", 0x1200100, [], 4, .rw, 0xFF, false⟩,
  ⟨"QM_ASSIGN_FIRST", 0x1200104, [], 4, .rw, 0xFFFFFFFF, false⟩,
  ⟨"QM_ASSIGN_COUNT", 0x1200108, [], 4, .rw, 0xFFFFFFFF, false⟩,
  ⟨"QM_ASSIGN_CMD", 0x120010C, [], 4, .wo, 0x0, true⟩,
  ⟨"QM_ASSIGN_STATUS", 0x1200110, [], 4, .ro, 0x0, false⟩,
  ⟨"QM_GRANT_FIRST", 0x1200140, [], 4, .rw, 0xFFFFFFFF, false⟩,
  ⟨"QM_GRANT_COUNT", 0x1200144, [], 4, .rw, 0xFFFFFFFF, false⟩,
  ⟨"QM_GRANT_CMD", 0x1200148, [], 4, .wo, 0x0, true⟩,
  ⟨"QM_GRANT_STATUS", 0x120014C, [], 4, .ro, 0x0, false⟩,
  ⟨"QM_DRAIN_VEC", 0x1200180, [], 4, .rw, 0x800000FF, false⟩,
  ⟨"QM_PT_p_STATE", 0x1201000, [(0x100, 16)], 4, .ro, 0x0, false⟩,
  ⟨"QM_PT_p_RESET", 0x1201004, [(0x100, 16)], 4, .wo, 0x0, true⟩,
  ⟨"QM_PT_p_MODE", 0x1201008, [(0x100, 16)], 4, .rw, 0x1, true⟩,
  ⟨"QM_PT_p_ERR_VEC", 0x120100C, [(0x100, 16)], 4, .rw, 0x800000FF, false⟩,
  ⟨"QM_PT_p_DRAIN", 0x1201010, [(0x100, 16)], 8, .ro, 0x0, false⟩,
  ⟨"QM_PT_p_RESETS", 0x1201018, [(0x100, 16)], 8, .ro, 0x0, false⟩,
  ⟨"QM_PT_p_IRQ_LOST", 0x1201020, [(0x100, 16)], 8, .ro, 0x0, false⟩,
  ⟨"QM_PT_p_DRAINED", 0x1201028, [(0x100, 16)], 8, .ro, 0x0, false⟩,
  ⟨"QM_PT_p_CHUNKS", 0x1201030, [(0x100, 16)], 4, .ro, 0x0, false⟩,
  ⟨"QM_PT_p_VMAP_i", 0x1220000, [(0x400, 16), (0x4, 256)], 4, .rw, 0x800007FF, true⟩,
  ⟨"QOS_PT_p_MEM", 0x1230000, [(0x20, 16)], 4, .rw, 0xFFFFFFFF, true⟩,
  ⟨"QOS_PT_p_LINK", 0x1230004, [(0x20, 16)], 4, .rw, 0xFFF0FFF, true⟩,
  ⟨"QOS_PT_p_BK", 0x1230008, [(0x20, 16)], 4, .rw, 0xFF, false⟩,
  ⟨"QOS_PT_p_MEM_BYTES", 0x1230010, [(0x20, 16)], 8, .ro, 0x0, false⟩,
  ⟨"QOS_PT_p_CAPPED", 0x1230018, [(0x20, 16)], 8, .ro, 0x0, false⟩,
  ⟨"QM_CH_n_IVEC", 0x1231000, [(0x4, 64)], 4, .rw, 0x800000FF, false⟩,
  ⟨"RING_r_CFG", 0x1280000, [(0x40, 8192)], 4, .rw, 0x1FFFFFF, true⟩,
  ⟨"RING_r_BASE", 0x1280008, [(0x40, 8192)], 8, .rw, 0xFFFFFFFFFFFFFFFF, false⟩]

/-- Rows 240 to 279 of the register map. -/
def rows6 : List RegRow := [
  ⟨"RING_r_WB", 0x1280010, [(0x40, 8192)], 8, .rw, 0xFFFFFFFFFFFFFFFF, false⟩,
  ⟨"RING_r_HEAD", 0x1280018, [(0x40, 8192)], 4, .ro, 0x0, false⟩,
  ⟨"RING_r_TAIL", 0x128001C, [(0x40, 8192)], 4, .ro, 0x0, false⟩,
  ⟨"RING_r_TAIL_RAW", 0x1280020, [(0x40, 8192)], 4, .ro, 0x0, false⟩,
  ⟨"RING_r_EPOCH", 0x1280024, [(0x40, 8192)], 4, .ro, 0x0, false⟩,
  ⟨"RING_r_CMD", 0x1280028, [(0x40, 8192)], 4, .wo, 0x0, true⟩,
  ⟨"RING_r_STATUS", 0x128002C, [(0x40, 8192)], 4, .ro, 0x0, false⟩,
  ⟨"RING_r_CQ", 0x1280030, [(0x40, 8192)], 4, .rw, 0x80001FFF, false⟩,
  ⟨"RING_r_ITEMS", 0x1280038, [(0x40, 8192)], 8, .ro, 0x0, false⟩,
  ⟨"LNK_STATUS", 0x1600000, [], 4, .ro, 0x0, false⟩,
  ⟨"LNK_CFG", 0x1600004, [], 4, .rw, 0x7FFFFFF, false⟩,
  ⟨"LNK_SYS_GEN", 0x1600008, [], 4, .ro, 0x0, false⟩,
  ⟨"LNK_MEPOCH", 0x160000C, [], 4, .ro, 0x0, false⟩,
  ⟨"LNK_STANDBY", 0x1600010, [], 4, .rw, 0x8000007F, true⟩,
  ⟨"LNK_TIME_ERR", 0x1600014, [], 4, .ro, 0x0, false⟩,
  ⟨"LNK_UNREACH", 0x1600020, [(0x8, 2)], 8, .ro, 0x0, false⟩,
  ⟨"LNK_REFUSED", 0x1600030, [], 8, .ro, 0x0, false⟩,
  ⟨"LNK_AUTH_FAIL", 0x1600038, [], 8, .ro, 0x0, false⟩,
  ⟨"LNK_STORM", 0x1600040, [], 8, .ro, 0x0, false⟩,
  ⟨"LNK_n_STATUS", 0x1601000, [(0x100, 8)], 4, .ro, 0x0, false⟩,
  ⟨"LNK_n_CTRL", 0x1601004, [(0x100, 8)], 4, .rw, 0x1, true⟩,
  ⟨"LNK_n_TX_BYTES", 0x1601008, [(0x100, 8)], 8, .ro, 0x0, false⟩,
  ⟨"LNK_n_RX_BYTES", 0x1601010, [(0x100, 8)], 8, .ro, 0x0, false⟩,
  ⟨"LNK_n_FEC_CE", 0x1601018, [(0x100, 8)], 8, .ro, 0x0, false⟩,
  ⟨"LNK_n_RETRIES", 0x1601020, [(0x100, 8)], 8, .ro, 0x0, false⟩,
  ⟨"LNK_n_DOWNS", 0x1601028, [(0x100, 8)], 8, .ro, 0x0, false⟩,
  ⟨"LNK_RT_d", 0x1602000, [(0x4, 128)], 4, .rw, 0x800000FF, false⟩,
  ⟨"LNK_ALIAS_d", 0x1602400, [(0x4, 128)], 4, .rw, 0x8000007F, true⟩,
  ⟨"LNK_BIND_SEL", 0x1603000, [], 4, .rw, 0x3FF, false⟩,
  ⟨"LNK_BIND_BASE", 0x1603008, [], 8, .rw, 0xFFFFFFFFFFFFFFFF, false⟩,
  ⟨"LNK_BIND_SIZE", 0x1603010, [], 8, .rw, 0xFFFFFFFFFFFFFFFF, false⟩,
  ⟨"LNK_BIND_ATTR", 0x1603018, [], 4, .rw, 0x807FFF7F, false⟩,
  ⟨"LNK_BIND_CMD", 0x160301C, [], 4, .wo, 0x0, true⟩,
  ⟨"LNK_BIND_STATUS", 0x1603020, [], 4, .ro, 0x0, false⟩,
  ⟨"LNK_CKPT_CFG", 0x1604000, [], 4, .rw, 0xFFF1, true⟩,
  ⟨"LNK_CKPT_INTERVAL", 0x1604004, [], 4, .rw, 0xFFFFFFFF, false⟩,
  ⟨"LNK_CKPT_LIST", 0x1604008, [], 8, .rw, 0xFFFFFFFFFFFFFFFF, false⟩,
  ⟨"LNK_CKPT_FLAGS_A", 0x1604010, [], 4, .rw, 0x7FFF7FFF, false⟩,
  ⟨"LNK_CKPT_FLAGS_B", 0x1604014, [], 4, .rw, 0x7FFF7FFF, false⟩,
  ⟨"LNK_CKPT_SLOT_0", 0x1604018, [], 8, .rw, 0xFFFFFFFFFFFFFFFF, false⟩]

/-- Rows 280 to 319 of the register map. -/
def rows7 : List RegRow := [
  ⟨"LNK_CKPT_SLOT_1", 0x1604020, [], 8, .rw, 0xFFFFFFFFFFFFFFFF, false⟩,
  ⟨"LNK_CKPT_SLOT_SIZE", 0x1604028, [], 8, .rw, 0xFFFFFFFFFFFFFFFF, false⟩,
  ⟨"LNK_CKPT_EPOCH", 0x1604030, [], 8, .ro, 0x0, false⟩,
  ⟨"LNK_CKPT_COMMITTED", 0x1604038, [], 8, .ro, 0x0, false⟩,
  ⟨"LNK_CKPT_SNAP_TIME", 0x1604040, [], 8, .ro, 0x0, false⟩,
  ⟨"LNK_CKPT_STATUS", 0x1604048, [], 4, .ro, 0x0, false⟩,
  ⟨"LNK_CKPT_LATE", 0x1604050, [], 8, .ro, 0x0, false⟩,
  ⟨"SEC_STATUS", 0x1800000, [], 4, .ro, 0x0, false⟩,
  ⟨"SEC_CMD", 0x1800004, [], 4, .wo, 0x0, true⟩,
  ⟨"SEC_ARG_i", 0x1800008, [(0x8, 4)], 8, .rw, 0xFFFFFFFFFFFFFFFF, false⟩,
  ⟨"SEC_CMD_STATUS", 0x1800028, [], 4, .ro, 0x0, false⟩,
  ⟨"SEC_CMD_LEN", 0x180002C, [], 4, .ro, 0x0, false⟩,
  ⟨"SEC_FLAG", 0x1800030, [], 4, .rw, 0x80007FFF, false⟩,
  ⟨"SEC_CONF", 0x1800034, [], 4, .ro, 0x0, false⟩,
  ⟨"SEC_MEAS_GEN", 0x1800038, [], 4, .ro, 0x0, false⟩,
  ⟨"SEC_SVN_FLOOR", 0x180003C, [], 4, .ro, 0x0, false⟩,
  ⟨"SEC_SVN_RUN", 0x1800040, [], 4, .ro, 0x0, false⟩,
  ⟨"LNK_POLICY", 0x1800044, [], 4, .rwl, 0xFF7F7F7F, false⟩,
  ⟨"SEC_DBG_FAILS", 0x1800048, [], 4, .ro, 0x0, false⟩,
  ⟨"SEC_CMDS", 0x1800050, [], 8, .ro, 0x0, false⟩,
  ⟨"SEC_REFUSED", 0x1800058, [], 8, .ro, 0x0, false⟩,
  ⟨"REL_STATUS", 0x1900000, [], 4, .ro, 0x0, false⟩,
  ⟨"REL_FENCE_CMD", 0x1900004, [], 4, .wo, 0x0, true⟩,
  ⟨"REL_FENCE_STATUS", 0x1900008, [], 4, .ro, 0x0, false⟩,
  ⟨"REL_CE_THRESH", 0x190000C, [], 4, .rw, 0xFFFF, false⟩,
  ⟨"REL_CE_WINDOW", 0x1900010, [], 4, .rw, 0xFFFFFFFF, false⟩,
  ⟨"REL_KAK_CFG", 0x1900014, [], 4, .rw, 0xFFF01, false⟩,
  ⟨"REL_FENCED_MAP", 0x1900018, [], 4, .ro, 0x0, false⟩,
  ⟨"REL_KAK_SLICES", 0x1900020, [], 8, .ro, 0x0, false⟩,
  ⟨"REL_KAK_LATE", 0x1900028, [], 8, .ro, 0x0, false⟩,
  ⟨"REL_REFETCH", 0x1900030, [], 8, .ro, 0x0, false⟩,
  ⟨"REL_FATAL_INFO", 0x1900038, [], 8, .rws, 0xFFFFFFFF, false⟩,
  ⟨"REL_TC_n_FENCE_INFO", 0x1900100, [(0x10, 32)], 4, .ro, 0x0, false⟩,
  ⟨"REL_TC_n_EXPOSED", 0x1900108, [(0x10, 32)], 8, .ro, 0x0, false⟩,
  ⟨"ERR_PT_p_CFG", 0x1910000, [(0x1000, 16)], 4, .rw, 0x1F, false⟩,
  ⟨"ERR_PT_p_LOG_BASE", 0x1910008, [(0x1000, 16)], 8, .rw, 0xFFFFFFFFFFFFFFFF, false⟩,
  ⟨"ERR_PT_p_LOG_HEAD", 0x1910010, [(0x1000, 16)], 4, .rw, 0xFFFFFFFF, false⟩,
  ⟨"ERR_PT_p_LOG_TAIL", 0x1910014, [(0x1000, 16)], 4, .ro, 0x0, false⟩,
  ⟨"ERR_PT_p_LOG_LOST", 0x1910018, [(0x1000, 16)], 8, .ro, 0x0, false⟩,
  ⟨"ERR_PT_p_PENDING", 0x1910020, [(0x1000, 16)], 4, .w1c, 0xFFFFFFFF, false⟩]

/-- Rows 320 to 359 of the register map. -/
def rows8 : List RegRow := [
  ⟨"ERR_PT_p_REPORTS", 0x1910028, [(0x1000, 16)], 8, .ro, 0x0, false⟩,
  ⟨"ERR_PT_p_B_b_FIRST", 0x1910140, [(0x1000, 16), (0x40, 15)], 4, .w1c, 0x80000000, true⟩,
  ⟨"ERR_PT_p_B_b_SUBJECT", 0x1910144, [(0x1000, 16), (0x40, 15)], 4, .ro, 0x0, false⟩,
  ⟨"ERR_PT_p_B_b_TIME", 0x1910148, [(0x1000, 16), (0x40, 15)], 8, .ro, 0x0, false⟩,
  ⟨"ERR_PT_p_B_b_INFO", 0x1910150, [(0x1000, 16), (0x40, 15)], 8, .ro, 0x0, false⟩,
  ⟨"ERR_PT_p_B_b_STORM", 0x1910158, [(0x1000, 16), (0x40, 15)], 8, .ro, 0x0, false⟩,
  ⟨"ERR_PT_p_B_b_OTHERS", 0x1910160, [(0x1000, 16), (0x40, 15)], 8, .ro, 0x0, false⟩,
  ⟨"SAFE_STATUS", 0x1C00000, [], 4, .ro, 0x0, false⟩,
  ⟨"SAFE_CMD", 0x1C00004, [], 4, .wo, 0x0, true⟩,
  ⟨"SAFE_HOLD_CAUSE", 0x1C00008, [], 4, .ro, 0x0, false⟩,
  ⟨"SAFE_HOLD_TIME", 0x1C00010, [], 8, .ro, 0x0, false⟩,
  ⟨"SAFE_HOLD_US", 0x1C00018, [], 8, .ro, 0x0, false⟩,
  ⟨"SAFE_JUDGED", 0x1C00020, [], 8, .ro, 0x0, false⟩,
  ⟨"SAFE_RELEASED", 0x1C00028, [], 8, .ro, 0x0, false⟩,
  ⟨"SAFE_REJECTED", 0x1C00030, [], 8, .ro, 0x0, false⟩,
  ⟨"SAFE_RESOLVED", 0x1C00038, [], 8, .ro, 0x0, false⟩,
  ⟨"SAFE_SWAPS", 0x1C00040, [], 8, .ro, 0x0, false⟩,
  ⟨"SAFE_SWAP_DEFER_MAX", 0x1C00048, [], 4, .rc, 0x0, false⟩,
  ⟨"SAFE_INQ", 0x1C0004C, [], 4, .ro, 0x0, false⟩,
  ⟨"SAFE_SELFTEST", 0x1C00050, [], 4, .ro, 0x0, false⟩,
  ⟨"SAFE_TASK_t_STATE", 0x1C00100, [(0x20, 256)], 4, .ro, 0x0, false⟩,
  ⟨"SAFE_TASK_t_HOLD_TIME", 0x1C00108, [(0x20, 256)], 8, .ro, 0x0, false⟩,
  ⟨"SAFE_TASK_t_LAST_PASS", 0x1C00110, [(0x20, 256)], 8, .ro, 0x0, false⟩,
  ⟨"SAFE_TASK_t_REJECTS", 0x1C00118, [(0x20, 256)], 8, .ro, 0x0, false⟩,
  ⟨"SAFE_PT_p_STATUS", 0x1C08000, [(0x800, 16)], 4, .ro, 0x0, false⟩,
  ⟨"SAFE_PT_p_RESTART_CODE", 0x1C08004, [(0x800, 16)], 4, .ro, 0x0, false⟩,
  ⟨"SAFE_PT_p_RESTARTS", 0x1C08008, [(0x800, 16)], 8, .ro, 0x0, false⟩,
  ⟨"SAFE_PT_p_LAST_READY", 0x1C08010, [(0x800, 16)], 8, .ro, 0x0, false⟩,
  ⟨"PWR_STATUS", 0x1B00000, [], 4, .ro, 0x0, false⟩,
  ⟨"PWR_CMD", 0x1B00004, [], 4, .wo, 0x0, true⟩,
  ⟨"PWR_CFG", 0x1B00008, [], 4, .rw, 0x1F1FEFFF, false⟩,
  ⟨"PWR_WAKE_EN", 0x1B0000C, [], 4, .rw, 0x3F, false⟩,
  ⟨"PWR_WAKE_CAUSE", 0x1B00010, [], 4, .w1c, 0x3F, false⟩,
  ⟨"PWR_LIMIT", 0x1B00014, [], 4, .rw, 0x7F, false⟩,
  ⟨"PWR_PKG_MW", 0x1B00018, [], 4, .ro, 0x0, false⟩,
  ⟨"PWR_TJ", 0x1B0001C, [], 4, .ro, 0x0, false⟩,
  ⟨"PWR_TJ_THR", 0x1B00020, [], 4, .rw, 0xFF, false⟩,
  ⟨"PWR_TJ_MAX", 0x1B00024, [], 4, .rc, 0x0, false⟩,
  ⟨"PWR_THROTTLED_US", 0x1B00028, [], 8, .ro, 0x0, false⟩,
  ⟨"PWR_ENTRIES_k", 0x1B00030, [(0x8, 4)], 8, .ro, 0x0, false⟩]

/-- Rows 360 to 399 of the register map. -/
def rows9 : List RegRow := [
  ⟨"PWR_TIME_k", 0x1B00050, [(0x8, 4)], 8, .ro, 0x0, false⟩,
  ⟨"DT_NOW", 0x1B00100, [], 8, .ro, 0x0, false⟩,
  ⟨"DT_RATE", 0x1B00108, [], 8, .ro, 0x0, false⟩,
  ⟨"PPS_CFG", 0x1B00110, [], 4, .rw, 0x3, false⟩,
  ⟨"PPS_OFFSET", 0x1B00114, [], 4, .rw, 0xFFFFFFFF, false⟩,
  ⟨"PPS_LAST", 0x1B00118, [], 8, .ro, 0x0, false⟩,
  ⟨"PPS_ERR", 0x1B00120, [], 4, .ro, 0x0, false⟩,
  ⟨"PPS_STATUS", 0x1B00124, [], 4, .ro, 0x0, false⟩,
  ⟨"AUD_CFG", 0x1B00200, [], 4, .rw, 0xFF03, false⟩,
  ⟨"AUD_T0", 0x1B00208, [], 8, .ro, 0x0, false⟩,
  ⟨"AUD_T0_ERR", 0x1B00210, [], 4, .ro, 0x0, false⟩,
  ⟨"AUD_NEXT", 0x1B00218, [], 8, .ro, 0x0, false⟩,
  ⟨"AUD_FIRST", 0x1B00220, [], 8, .rw, 0xFFFFFFFFFFFFFFFF, false⟩,
  ⟨"AUD_COUNT", 0x1B00228, [], 4, .rw, 0xFFFFFFFF, false⟩,
  ⟨"AUD_DST", 0x1B00230, [], 8, .rw, 0xFFFFFFFFFFFFFFFF, false⟩,
  ⟨"AUD_CMD", 0x1B00238, [], 4, .wo, 0x0, true⟩,
  ⟨"AUD_STATUS", 0x1B0023C, [], 4, .ro, 0x0, false⟩,
  ⟨"KWS_CFG", 0x1B00300, [], 4, .rw, 0xFFFFFFF, false⟩,
  ⟨"KWS_SHIFT", 0x1B00304, [], 4, .rw, 0x1F1F, false⟩,
  ⟨"KWS_MODEL_ADDR", 0x1B00308, [], 4, .rw, 0xFFFF, false⟩,
  ⟨"KWS_MODEL_DATA", 0x1B0030C, [], 4, .wo, 0x0, true⟩,
  ⟨"KWS_THRESH_k", 0x1B00310, [(0x8, 8)], 4, .rw, 0xFFFFFFFF, false⟩,
  ⟨"KWS_LEN_k", 0x1B00314, [(0x8, 8)], 4, .rw, 0xFFFFFFFF, false⟩,
  ⟨"KWS_EVT_i", 0x1B00380, [(0x8, 4)], 8, .ro, 0x0, false⟩,
  ⟨"KWS_POP", 0x1B003A0, [], 4, .wo, 0x0, true⟩,
  ⟨"KWS_STATUS", 0x1B003A4, [], 4, .ro, 0x0, false⟩,
  ⟨"KWS_DETECTIONS", 0x1B003A8, [], 8, .ro, 0x0, false⟩,
  ⟨"DBG_TC_n_MMA_a", 0x1A20000, [(0x200, 32), (0x8, 25)], 8, .ro, 0x0, false⟩,
  ⟨"DBG_TC_n_MMA_4B", 0x1A200D0, [(0x200, 32)], 8, .ro, 0x0, false⟩,
  ⟨"DBG_TC_n_MMA_8B", 0x1A200D8, [(0x200, 32)], 8, .ro, 0x0, false⟩,
  ⟨"DBG_TC_n_MMA_16B", 0x1A200E0, [(0x200, 32)], 8, .ro, 0x0, false⟩,
  ⟨"DBG_TC_n_MMA_INT", 0x1A200E8, [(0x200, 32)], 8, .ro, 0x0, false⟩,
  ⟨"DBG_TC_n_VFP", 0x1A20100, [(0x200, 32)], 8, .ro, 0x0, false⟩,
  ⟨"DBG_TC_n_VINT", 0x1A20108, [(0x200, 32)], 8, .ro, 0x0, false⟩,
  ⟨"DBG_TC_n_VDIV", 0x1A20110, [(0x200, 32)], 8, .ro, 0x0, false⟩,
  ⟨"DBG_TC_n_VSFU", 0x1A20118, [(0x200, 32)], 8, .ro, 0x0, false⟩,
  ⟨"DBG_TC_n_VCVT", 0x1A20120, [(0x200, 32)], 8, .ro, 0x0, false⟩,
  ⟨"DBG_TC_n_VQNT", 0x1A20128, [(0x200, 32)], 8, .ro, 0x0, false⟩,
  ⟨"DBG_TC_n_VRED", 0x1A20130, [(0x200, 32)], 8, .ro, 0x0, false⟩,
  ⟨"DBG_TC_n_LOAD_BYTES", 0x1A20138, [(0x200, 32)], 8, .ro, 0x0, false⟩]

/-- Rows 400 to 439 of the register map. -/
def rows10 : List RegRow := [
  ⟨"DBG_TC_n_STORE_BYTES", 0x1A20140, [(0x200, 32)], 8, .ro, 0x0, false⟩,
  ⟨"DBG_TC_n_SCALAR", 0x1A20148, [(0x200, 32)], 8, .ro, 0x0, false⟩,
  ⟨"DBG_TC_n_SYNC", 0x1A20150, [(0x200, 32)], 8, .ro, 0x0, false⟩,
  ⟨"DBG_TC_n_KAK", 0x1A20158, [(0x200, 32)], 8, .ro, 0x0, false⟩,
  ⟨"DBG_STATUS", 0x1A00000, [], 4, .ro, 0x0, false⟩,
  ⟨"DBG_FREEZE_CMD", 0x1A00004, [], 4, .wo, 0x0, true⟩,
  ⟨"DBG_FRZ_CFG", 0x1A00008, [], 4, .rw, 0xFFFF001F, false⟩,
  ⟨"DBG_FRZ_MASK", 0x1A0000C, [], 4, .rw, 0xFFFF, false⟩,
  ⟨"DBG_FREEZE_TIME", 0x1A00010, [], 8, .ro, 0x0, false⟩,
  ⟨"DBG_FREEZE_SEQ", 0x1A00018, [], 4, .ro, 0x0, false⟩,
  ⟨"DBG_FRZ_IGNORED", 0x1A00020, [], 8, .ro, 0x0, false⟩,
  ⟨"DBG_CLEAR", 0x1A00028, [], 4, .wo, 0x0, true⟩,
  ⟨"DBG_SAT_EN", 0x1A0002C, [], 4, .rw, 0xFFFF, false⟩,
  ⟨"DBG_SAT_STATUS", 0x1A00030, [], 4, .w1c, 0xFFFF, false⟩,
  ⟨"DBG_SAT_VEC", 0x1A00034, [], 4, .rw, 0x800000FF, false⟩,
  ⟨"DBG_RING_SEL", 0x1A00040, [], 4, .rw, 0xFFFF, false⟩,
  ⟨"DBG_RING_IDX", 0x1A00044, [], 4, .rw, 0xFF, false⟩,
  ⟨"DBG_RING_DATA_i", 0x1A00048, [(0x8, 4)], 8, .ro, 0x0, false⟩,
  ⟨"DBG_RING_COUNT", 0x1A00068, [], 8, .ro, 0x0, false⟩,
  ⟨"DBG_DUMP_DST", 0x1A00070, [], 8, .rw, 0xFFFFFFFFFFFFFFFF, false⟩,
  ⟨"DBG_DUMP_CMD", 0x1A00078, [], 4, .wo, 0x0, true⟩,
  ⟨"DBG_DUMP_STATUS", 0x1A0007C, [], 4, .ro, 0x0, false⟩,
  ⟨"DBG_PT_p_TRACE_CFG", 0x1A10000, [(0x1000, 16)], 4, .rw, 0xFF, false⟩,
  ⟨"DBG_PT_p_TRACE_BASE", 0x1A10008, [(0x1000, 16)], 8, .rw, 0xFFFFFFFFFFFFFFFF, false⟩,
  ⟨"DBG_PT_p_TRACE_HEAD", 0x1A10010, [(0x1000, 16)], 4, .rw, 0xFFFFFFFF, false⟩,
  ⟨"DBG_PT_p_TRACE_TAIL", 0x1A10014, [(0x1000, 16)], 4, .ro, 0x0, false⟩,
  ⟨"DBG_PT_p_TRACE_DROP", 0x1A10018, [(0x1000, 16)], 8, .ro, 0x0, false⟩,
  ⟨"DBG_PT_p_MAC_4B", 0x1A10020, [(0x1000, 16)], 8, .ro, 0x0, false⟩,
  ⟨"DBG_PT_p_MAC_8B", 0x1A10028, [(0x1000, 16)], 8, .ro, 0x0, false⟩,
  ⟨"DBG_PT_p_MAC_16B", 0x1A10030, [(0x1000, 16)], 8, .ro, 0x0, false⟩,
  ⟨"DBG_PT_p_CLEAR", 0x1A10038, [(0x1000, 16)], 4, .wo, 0x0, true⟩,
  ⟨"MGT_STATUS", 0x1B00400, [], 4, .ro, 0x0, false⟩,
  ⟨"MGT_ALERT_MASK", 0x1B00404, [], 4, .rw, 0xFFFF, false⟩,
  ⟨"MGT_FRAMES", 0x1B00408, [], 8, .ro, 0x0, false⟩,
  ⟨"MGT_CRC_FAIL", 0x1B00410, [], 8, .ro, 0x0, false⟩,
  ⟨"MGT_AUTH_FAIL", 0x1B00418, [], 8, .ro, 0x0, false⟩,
  ⟨"MGT_EVT_LOST", 0x1B00420, [], 8, .ro, 0x0, false⟩,
  ⟨"GLB_BOOT_STATUS", 0x10000, [], 4, .ro, 0x0, false⟩,
  ⟨"GLB_RESET_CAUSE", 0x10004, [], 4, .ro, 0x0, false⟩,
  ⟨"GLB_STRAPS", 0x10008, [], 4, .ro, 0x0, false⟩]

/-- Rows 440 to 451 of the register map. -/
def rows11 : List RegRow := [
  ⟨"GLB_CFG", 0x1000C, [], 4, .rws, 0x3, false⟩,
  ⟨"GLB_RESET_CMD", 0x10010, [], 4, .wo, 0x0, true⟩,
  ⟨"GLB_RESTARTS", 0x10014, [], 4, .rws, 0xFFFF, false⟩,
  ⟨"GLB_BOOT_TIME", 0x10018, [], 8, .ro, 0x0, false⟩,
  ⟨"GLB_SCRATCH_i", 0x10100, [(0x8, 8)], 8, .rws, 0xFFFFFFFFFFFFFFFF, false⟩,
  ⟨"DBG_PT_p_RING_SEL", 0x1A10040, [(0x1000, 16)], 4, .rw, 0xFFFF, false⟩,
  ⟨"DBG_PT_p_RING_IDX", 0x1A10044, [(0x1000, 16)], 4, .rw, 0xFF, false⟩,
  ⟨"DBG_PT_p_RING_DATA_i", 0x1A10048, [(0x1000, 16), (0x8, 4)], 8, .ro, 0x0, false⟩,
  ⟨"DBG_PT_p_RING_COUNT", 0x1A10068, [(0x1000, 16)], 8, .ro, 0x0, false⟩,
  ⟨"DBG_PT_p_DUMP_DST", 0x1A10070, [(0x1000, 16)], 8, .rw, 0xFFFFFFFFFFFFFFFF, false⟩,
  ⟨"DBG_PT_p_DUMP_CMD", 0x1A10078, [(0x1000, 16)], 4, .wo, 0x0, true⟩,
  ⟨"DBG_PT_p_DUMP_STATUS", 0x1A1007C, [(0x1000, 16)], 4, .ro, 0x0, false⟩]

/-- The reset values that are not 0 (R7: the value after a cold reset; the rows the spec gives per part, per strap or per
boot stand at the OCN-810-M128 values, assumption 3). Every other register resets to 0. -/
def resets : List (Nat × List (Nat × Nat) × Nat) := [
  (0x0, [], 0x810A51C),
  (0x4, [], 0x10000),
  (0x8, [], 0x1),
  (0xC, [], 0x1D),
  (0x18, [], 0x2000000000),
  (0x20, [], 0x1E00000000),
  (0xD00004, [(0x4000, 12)], 0x3210),
  (0xD00104, [(0x4000, 12), (0x100, 4)], 0x1200),
  (0xD00110, [(0x4000, 12), (0x100, 4)], 0xFFFF),
  (0xD00120, [(0x4000, 12), (0x100, 4)], 0x4),
  (0x1100020, [], 0x4000),
  (0x1110000, [(0x1000, 16)], 0x100),
  (0x111002C, [(0x1000, 16)], 0x3E8),
  (0x1110030, [(0x1000, 16)], 0xF),
  (0x401004, [(0x40000, 4), (0x1000, 16)], 0x80300),
  (0x1400048, [], 0xFF),
  (0x1410000, [(0x100, 16)], 0x7FFF),
  (0x1201000, [(0x100, 16)], 0x1),
  (0x1230008, [(0x20, 16)], 0x10),
  (0x1600004, [], 0x641405),
  (0x1604004, [], 0x3E8),
  (0x190000C, [], 0x10),
  (0x1900010, [], 0xE10),
  (0x1900014, [], 0xA01),
  (0x1C00000, [], 0x1),
  (0x1C00100, [(0x20, 256)], 0x1),
  (0x1B00008, [], 0x8102001),
  (0x1B0000C, [], 0x1F),
  (0x1B00014, [], 0x5A),
  (0x1B00020, [], 0x64),
  (0x1B00108, [], 0x29AAAAAAAB),
  (0x1B00310, [(0x8, 8)], 0x7FFFFFFF),
  (0x1B00314, [(0x8, 8)], 0x3E8),
  (0x1A00008, [], 0x7),
  (0x1A0000C, [], 0xFFFF),
  (0x1B00404, [], 0x3E),
  (0x10004, [], 0x11)]

/-- The whole register map, R22 to R579. -/
def rows : List RegRow := rows0 ++ rows1 ++ rows2 ++ rows3 ++ rows4 ++ rows5 ++ rows6 ++ rows7 ++ rows8 ++ rows9 ++ rows10 ++ rows11

/-- The instance offset within a row: whether `d`, counted from the row's first instance, is the first byte of an
instance (or lies inside it, below `size`), and how far inside. -/
def within : List (Nat × Nat) → Nat → Nat → Option Nat
  | [], size, d => if d < size then some d else none
  | (stride, count) :: ds, size, d => if d / stride < count then within ds size (d % stride) else none

/-- The byte of the register that `row` puts at BAR0 offset `a`, if any. -/
def RegRow.at (row : RegRow) (a : Nat) : Option Nat :=
  if a < row.base then none else within row.dims row.size (a - row.base)

/-- The row that decodes BAR0 offset `a`, with the byte within the register (R27: none where no block decodes it). -/
def findIn : List RegRow → Nat → Option (RegRow × Nat)
  | [], _ => none
  | r :: rs, a => match RegRow.at r a with
    | some k => some (r, k)
    | none => findIn rs a

/-- The reset value of the register at BAR0 offset `a`, over a list of reset rows. -/
def resetIn : List (Nat × List (Nat × Nat) × Nat) → Nat → Nat
  | [], _ => 0
  | (b, ds, v) :: rs, a =>
    if b ≤ a then (match within ds 1 (a - b) with
      | some _ => v
      | none => resetIn rs a)
    else resetIn rs a

/-- The reset value of the register at BAR0 offset `a`. -/
def resetOf (a : Nat) : BitVec 64 := BitVec.ofNat 64 (resetIn resets a)

/-- As `findIn`, over the whole map. -/
def find (a : Nat) : Option (RegRow × Nat) := findIn rows a

end Reg

end Sys2Proof.Machine
end

