-- ==== Sys2Proof/Machine/State.lean ====
section
/-! DEFINITION. Sys2Proof/Machine/State.lean: the state of the OCN-810-M128 as plain data, its faults and refusals, and the
state after reset. -/

namespace Sys2Proof.Machine

/-- A unit: its class code of R17 (0 for a single block) and its number. -/
structure UnitId where
  cls : Nat := 0
  inst : Nat := 0
deriving DecidableEq, Repr

/-- A report to the error aggregator: subject, reporter and INFO (R480, R482). -/
structure Report where
  code : Nat
  subj : UnitId := {}
  dev : Nat := 0
  rep : UnitId := {}
  info : Nat := 0
  event : Bool := false
  fatal : Bool := false
  remote : Bool := false
deriving DecidableEq, Repr

/-- A record of an event ring (R542). -/
structure EvRec where
  time : Nat
  kind : Nat
  unit : UnitId
  pt : Nat
  code : Nat
  seq : Nat
  a : Nat
  b : Nat
deriving DecidableEq, Repr

/-- An event ring (R541): records written since it was last cleared, and the latest 256, newest first. -/
structure EvRing where
  written : Nat := 0
  recs : List EvRec := []
deriving DecidableEq, Repr

/-- What the block sends to the outside, in order (assumption 4: the model's own record of its outputs). -/
inductive Out where
  /-- An MSI-X message of function `fn` (R398). -/
  | msix (fn entry addr data : Nat)
  /-- The answer to a read of a register or of the debug port. -/
  | readData (value : Nat)
  /-- A packet for device `dst` over the Silair Link: kind, arguments and payload. -/
  | link (dst kind : Nat) (args : List Nat) (data : List Byte)
  /-- A flit-level message of link port `port` (a NAK or a replay). -/
  | flit (port kind seq : Nat)
  /-- What a service call READ returns to a plausibility program (R505). -/
  | progData (task : Nat) (data : List Byte)
  /-- A frame or word on the management port. -/
  | mgmt (data : List Byte)
deriving DecidableEq, Repr

/-- A pending wait on a flag (R270): who waits, for what target, since when, and how it ended: not yet (`none`),
satisfied (`some 0`) or ended with a code; `by` is the agent whose operation satisfied it. -/
structure Wait where
  agent : UnitId
  pt : Nat
  target : Nat
  since : Nat
  ctx : Nat := 0
  ended : Option Nat := none
  endedBy : UnitId := {}
deriving DecidableEq, Repr

/-- A sync flag (R268): its value, its poison and the waits on it. -/
structure Flag where
  value : Nat := 0
  poisoned : Bool := false
  waits : List Wait := []
deriving DecidableEq, Repr

/-- An operation on its way to the flag unit, released by its agent (R277 rule 5). -/
structure FlagOp where
  isSet : Bool
  flag : Nat
  n : Nat
  pt : Nat
  agent : UnitId
  ctx : Nat := 0
deriving DecidableEq, Repr

/-- The flag unit (R268): flags by number, and the operations released but not yet applied, oldest first. -/
structure FlagState where
  tab : Tab Flag := []
  queue : List FlagOp := []
deriving DecidableEq, Repr

/-- The debug block's state beyond its registers (R537 to R551). -/
structure DbgState where
  rings : Tab EvRing := []
  hiLatch : Tab Nat := []
  lost : Tab Bool := []
  allow : Nat × Nat := (0, 0)
  seen : List (Nat × Nat) := []
  dump : Tab (Nat × Nat) := []
  macRem : Tab Nat := []
deriving DecidableEq, Repr

/-- A pool vector (R398). -/
structure PoolVec where
  addr : Nat := 0
  data : Nat := 0
  mask : Bool := true
  pend : Bool := false
deriving DecidableEq, Repr

/-- A node of a started instance of a graph slot of the Crozier: slot, INST_SEQ and node index. -/
structure NodeRef where
  slot : Nat
  inst : Nat
  node : Nat
deriving DecidableEq, Repr

/-- An open frame of a stream (R45 to R54): what its record will hold so far, the launching node and partition, its record slot
and address, the running payload CRC, the last seal payload, the seal key at FS, and whether forwarding has stopped. -/
structure OpenFrame where
  fsTime : Nat
  fnum : Nat
  node : NodeRef
  pt : Nat
  slot : Nat
  recA : Nat
  seq : Nat
  exposure : Nat := 0
  key : List Byte := []
  lines : Nat := 0
  bytes : Nat := 0
  crc : BitVec 32 := 0xFFFFFFFF#32
  status : Nat := 0
  firstErr : Nat := 0
  gap : Nat := 0
  sealBytes : Option (List Byte) := none
  stopped : Bool := false
  badRest : Bool := false
deriving DecidableEq, Repr

/-- A stream beyond its registers (R42 to R52): the active copies of its shadowed registers, the accepted ingress node with
its output descriptor, the open frame, frames accepted since EN was set, the last frame number and seal COUNT, whether packets of a frame that was not
accepted or was aborted are still to come, the held
record slots and the next slot. -/
structure Stream where
  cfg : Nat := 0
  dt : Nat := 0x1200
  geom : Nat := 0
  sealCfg : Nat := 0
  fnumMax : Nat := 0xFFFF
  node : Option NodeRef := none
  out : List Byte := []
  frame : Option OpenFrame := none
  seq : Nat := 0
  lastNum : Option Nat := none
  lastSeal : Option Nat := none
  unaccepted : Bool := false
  held : List Nat := []
  next : Nat := 0
deriving DecidableEq, Repr

/-- A frame that a context processes (R63 to R77): the node, partition and record, the parameter set, the raw lines by
exposure × 65,536 + row, the exposures whose frame has ended and those with a stream frame, whether an exposure is missing and
which input rows are faulty (R77), the primary, tensor and auxiliary handles with their images (handle 0: none), the rows
written, and the static defects as y × 65,536 + x. -/
structure IspFrame where
  node : NodeRef
  pt : Nat
  recA : Nat
  seq : Nat
  fsTime : Nat
  dt : Nat
  width : Nat
  height : Nat
  set : List Byte
  lines : Tab (List Byte) := []
  ended : List Nat := []
  bound : List Nat := []
  missing : Bool := false
  badRows : List Nat := []
  out : List (Nat × List Byte) := []
  rows : Nat := 0
  defects : List Nat := []
deriving DecidableEq, Repr

/-- An ISP context beyond its registers (R58 to R75): the active set, the DVA of the posted set and its bytes once READY, the
accepted node with its launch block, what further exposures have sent before exposure 0's frame starts, the frame, and the next
statistics slot. -/
structure IspCtx where
  active : Option (List Byte) := none
  post : Option Nat := none
  ready : Option (List Byte) := none
  node : Option (NodeRef × List Byte) := none
  early : Tab (List Byte) := []
  earlyBad : List Nat := []
  earlyBound : List Nat := []
  earlyEnded : List Nat := []
  frame : Option IspFrame := none
  slot : Nat := 0
deriving DecidableEq, Repr

/-- A job in a context of a Bracken engine (R80 to R85): the node, partition, block and plane images as captured at
acceptance, the input counters bound, the stripe height
of its output chain (0: none), the unit of work next and whether it runs, since when it waits, the record address
once read, the code of an abort on its way, what the engine holds on chip, and whether poison was written. -/
structure BrkJob where
  node : NodeRef
  pt : Nat
  dva : Nat
  block : List Byte
  planes : Tab (List Byte) := []
  ins : List (Option Nat) := []
  stripeH : Nat := 0
  started : Bool := false
  unit : Nat := 0
  busy : Bool := false
  since : Nat := 0
  order : Nat := 0
  recA : Option Nat := none
  aborting : Option Nat := none
  chip : Tab (List (Nat × Bool)) := []
  poison : Bool := false
deriving DecidableEq, Repr

/-- A Bracken engine beyond its registers (R83): jobs by context, nodes presented and waiting, the partitions' deficits,
the partition served last, by partition the acceptance number of the job served last, and the jobs accepted. -/
structure Engine where
  ctx : Tab BrkJob := []
  queue : List NodeRef := []
  deficit : Tab Nat := []
  last : Nat := 0
  turn : Tab Nat := []
  accepted : Nat := 0
deriving DecidableEq, Repr

/-- A node of a loaded program (R137, R138): kind, unit, buffer sets minus 1, block DVA with its loop offset, distance of
buffer sets, awaits (flag, BASE, STEP), signals (flag, amount), and EVERY's period and phase. -/
structure CNode where
  kind : Nat
  unit : Nat
  nbuf : Nat
  block : Nat
  bstride : Nat
  awaits : List (Nat × Nat × Nat) := []
  signals : List (Nat × Nat) := []
  every : Nat × Nat := (1, 0)
deriving DecidableEq, Repr

/-- A chain of a loaded program (R138). -/
structure CChain where
  stripe : Bool
  prev : Bool
  src : Nat
  dst : Nat
  ctr : Nat := 0
  outSel : Nat := 0
  inSel : Nat := 0
  stripeH : Nat := 0
  start : Nat := 0
  mirror : Option Nat := none
deriving DecidableEq, Repr

/-- Where a node of an instance stands (R140 to R151). -/
inductive NPhase where
  | armed | accepted | started | aborting (code : Nat) | ended | failed | skipped | cancelled
deriving DecidableEq, Repr

/-- A node of an instance: its phase, its block's DVA, the launch block read, the frame record it carries,
whether its outputs have been given it, and the AWAIT flags
with targets still to be reached. -/
structure NodeRun where
  phase : NPhase
  block : Nat
  launch : List Byte := []
  recA : Nat := 0
  told : Bool := false
  waits : List (Nat × Nat) := []
deriving DecidableEq, Repr

/-- An instance of a graph (R133, R148): its slot, the model's own number of it since the load, INST_SEQ, when its trigger
fired, its nodes, and its first error with the node. -/
structure CInst where
  slot : Nat
  seq : Nat
  num : Nat
  start : Option Nat := none
  nodes : List NodeRun
  failed : Bool := false
  aborted : Bool := false
  firstErr : Option (Nat × Nat) := none
deriving DecidableEq, Repr

/-- A loaded graph (R132): nodes, chains, AT_END signals, the CRC of its program, the last instance armed and the last
one before EN was set, by node the instances in which it acted and the latest of them with the record it carried, and the instances. -/
structure CGraph where
  nodes : List CNode
  chains : List CChain
  ends : List (Nat × Nat)
  crc : Nat
  prog : Nat
  seq : Nat := 0
  base : Nat := 0
  acts : Tab Nat := []
  lastRec : Tab (Nat × Nat) := []
  insts : List CInst := []
deriving DecidableEq, Repr

/-- A held frame-record slot (R52, R149): the stream and slot, the record's DVA and FS_TIME, and the instance that launched
the frame. -/
structure RecHold where
  stream : Nat
  slot : Nat
  addr : Nat
  pt : Nat
  fsTime : Nat
  graph : Nat
  inst : Nat
deriving DecidableEq, Repr

/-- The Crozier beyond its registers (R131 to R154): loaded graphs, graphs whose load is running with the partition that
asked, nodes presented and not yet accepted (Bracken nodes wait at their engine), unit completions not yet processed, and
held records. -/
structure CrzState where
  graphs : Tab CGraph := []
  loading : Tab Nat := []
  queue : List NodeRef := []
  done : List (NodeRef × Nat) := []
  holds : List RecHold := []
deriving DecidableEq, Repr

/-- A region record (R163); a record the table does not list is invalid and holds 0. -/
structure Region where
  base : Nat
  size : Nat
  pt : Nat
  r : Bool
  w : Bool
  desc : Bool
deriving DecidableEq, Repr

/-- A descriptor command that runs (R158): its handle and operation, and the code it will complete with. -/
structure DscCmd where
  handle : Nat
  op : Nat
  code : Nat
  item : Option Nat := none
deriving DecidableEq, Repr

/-- A rewrite of REC_ADDR on its way (R162), with the counter advances that it holds back. -/
structure Rewrite where
  pt : Nat
  handle : Nat
  recAddr : Nat
deriving DecidableEq, Repr

/-- The descriptor unit (R155 to R191): kinds of the valid entries by partition × 65,536 + handle, the older copies that
caches may still hold, running commands by partition, rewrites on their way, region records and the running region
command (its operation and record). -/
structure DscState where
  valid : Tab Nat := []
  stale : Tab (List (List Byte)) := []
  running : Tab DscCmd := []
  rewrites : List Rewrite := []
  regions : Tab Region := []
  rgnRun : Option (Nat × Nat) := none
deriving DecidableEq, Repr

/-- A copy of an operation of a loaded graph (R300): the graph's header record, the operation index and the copy. -/
structure CopyId where
  graph : Nat
  op : Nat
  copy : Nat
deriving DecidableEq, Repr

/-- What a slot of a Frond holds (R222, R236): the copy, the state (1 prefetching, 2 ready, 3 executing) and the order in
which it was placed. -/
structure Slot where
  cid : CopyId
  st : Nat
  order : Nat
deriving DecidableEq, Repr

/-- A TLOAD whose data has not all arrived (R243, R244): the descriptor image captured, the index COUNT, BASE and SKIP_EN,
the instruction's tile, its handle and the scratch panels. -/
structure Tile where
  handle : Nat
  image : List Byte
  count : Nat := 0
  idxBase : Nat := 0
  skip : Bool := false
  origin : List Nat
  e0 : Nat
  e1 : Nat
  mask : Bool
  spv : Nat
  sps : Nat
deriving DecidableEq, Repr

/-- An outstanding TLOAD: its number among the Frond's accesses, the DVA of its instruction and its tile. -/
structure Load where
  id : Nat
  pc : Nat
  tile : Tile
deriving DecidableEq, Repr

/-- A SIGNAL or FSET whose release point has not come (R276, R277): the accesses it waits for, and the device of a remote
signal. -/
structure Release where
  needs : List Nat
  op : FlagOp
  dev : Option Nat := none
deriving DecidableEq, Repr

/-- The digest of an output (R226 to R229): its handle, the image and index COUNT under which it was first stored, the XOR of
the codes stored to each covered element by linear index, the XOR of the scale bytes stored to each block, the stores
counted, and whether a stored granule was poisoned. -/
structure Digest where
  handle : Nat
  image : List Byte
  count : Nat
  codes : Tab Nat := []
  scales : Tab Nat := []
  stored : Nat := 0
  poison : Bool := false
deriving DecidableEq, Repr

/-- Why slot 0 of a Frond is being aborted (R232). -/
inductive AbortWhy where
  | fence | run | reset | parity
deriving DecidableEq, Repr

/-- A Frond (R212 to R236): its slots; S and V registers, tiles and scratch with their poison marks (R266); the operation
that executes: per-operation status, DVA of the next instruction, the program line fetched, outstanding accesses, digests;
and what its abort, fence and zeroing wait for. -/
structure Frond where
  slot0 : Option Slot := none
  slot1 : Option Slot := none
  slot2 : Option Slot := none
  placed : Nat := 0
  s : Tab Nat := []
  sBad : List Nat := []
  v : Tab Nat := []
  vBad : List Nat := []
  acc : Tab Nat := []
  accInt : List Nat := []
  accBad : List Nat := []
  scratch : Tab Byte := []
  lineBad : List Nat := []
  arith : Nat := 0
  pc : Nat := 0
  line : Option (Nat × List Byte) := none
  startAt : Nat := 0
  bytes : Nat := 0
  nextId : Nat := 0
  loads : List Load := []
  stores : List (Nat × CopyId) := []
  mmas : List (Nat × List (Nat × Nat)) := []
  rels : List Release := []
  digests : List Digest := []
  wait : Option (Nat × Nat) := none
  fence : Option Nat := none
  retired : Bool := false
  signalled : Bool := false
  itemWait : Bool := false
  aborting : Option AbortWhy := none
  zeroing : Bool := false
  fencing : Option Nat := none
  fencePend : Option Nat := none
  fencePt : Option Nat := none
  kak : Option Nat := none
deriving DecidableEq, Repr

/-- An operation record (R290). -/
structure GsOp where
  null : Bool
  prio : Nat
  deps : Nat
  succ : List Nat
  flags : Nat
  entry : Nat
  arg : List Nat
  alt1 : Nat
  alt2 : Nat
  affinity : Nat
  prefetch : List Nat
  delay : Nat
  task : Nat
deriving DecidableEq, Repr

/-- Where a copy of an operation stands in its run (R294 to R313). -/
inductive Phase where
  | waiting | delayed | ready | placed (tc : Nat) | ended (tc : Nat) | failed | cancelled
deriving DecidableEq, Repr

/-- A copy in the current run: its phase, whether it was re-dispatched, and when it became ready. -/
structure CopyRun where
  op : Nat
  copy : Nat
  phase : Phase
  redisp : Bool := false
  readyAt : Nat := 0
deriving DecidableEq, Repr

/-- A run of a graph (R293, R294): RUN, launch argument, start, the counts of the operations, its copies, the first error
with its operation, whether it is aborted and whether operations were cancelled, the operations whose successors have been
released, and the Crozier node that launched it. -/
structure GsRun where
  num : Nat
  larg : Nat
  start : Nat
  counts : Tab Nat
  copies : List CopyRun
  firstErr : Option (Nat × Nat) := none
  aborted : Bool := false
  cancelled : Bool := false
  released : List Nat := []
  node : Option NodeRef := none
deriving DecidableEq, Repr

/-- A loaded graph (R287 to R293). -/
structure Graph where
  hdr : Nat
  recs : List Nat
  gen : Nat
  pt : Nat
  dva : Nat
  crc : Nat
  reportAll : Bool
  endFlag : Nat
  endOn : Bool
  endValue : Nat
  budget : Nat
  graphId : Nat
  ops : List GsOp
  runs : Nat := 0
  cur : Option GsRun := none
  queue : List (Nat × Nat × Option NodeRef) := []
deriving DecidableEq, Repr

/-- A copy that has ended or failed and whose release point has not come (R294, R307). -/
structure EndRec where
  cid : CopyId
  pt : Nat
  code : Nat
  pc : Nat := 0
  tc : Option Nat := none
  arith : Nat := 0
  digs : List Byte := []
  ndig : Nat := 0
  dflags : Nat := 0
  redisp : Bool := false
  startAt : Nat := 0
  endAt : Nat := 0
deriving DecidableEq, Repr

/-- The graph scheduler beyond its registers (R287 to R317): loaded graphs, record generations, ready lists by
partition × 8 + priority, delay lists by partition with due ticks, copies whose release point is awaited, running loads
by partition, and the deadlock monitor: since when the conditions of a partition hold, and when a host flag write and a
remote signal last came. -/
structure SchedState where
  graphs : List Graph := []
  gens : Tab Nat := []
  ready : Tab (List CopyId) := []
  delay : Tab (List (Nat × CopyId)) := []
  ends : List EndRec := []
  loading : Tab Nat := []
  quiet : Tab Nat := []
  hostAt : Tab Nat := []
  remoteAt : Tab Nat := []
deriving DecidableEq, Repr

/-- A beat of a mover (R331, R333): its number in the channel, source and destination DVA, length, the PA of the access
outstanding, and the data once read, with its poison. -/
structure Beat where
  id : Nat
  src : Nat
  dst : Nat
  len : Nat
  pa : Nat := 0
  data : List Byte := []
  bad : Bool := false
  again : Bool := false
deriving DecidableEq, Repr

/-- The MOVE or MOVX that a channel executes (R323 to R325): its operands, where it stands (row or entry, bytes or elements of
it read, the offset of the entry), and the beats of the burst in progress. -/
structure Cur where
  movx : Bool
  tr : Bool := false
  src : Nat
  dst : Nat
  sstr : Nat := 0
  dstr : Nat := 0
  tbl : Nat := 0
  lim : Nat := 0
  len : Nat
  rows : Nat
  scat : Bool := false
  skipEn : Bool := false
  ring : Bool := false
  commit : Bool := false
  incs : List (Nat × Nat) := []
  space : Bool := true
  row : Nat := 0
  pos : Nat := 0
  off : Option Nat := none
  bCount : Nat := 0
deriving DecidableEq, Repr

/-- A run of a channel (R319, R339, R340). -/
structure ChRun where
  start : Nat
  bytes : Nat := 0
  node : Option NodeRef := none
  ended : Option Nat := none
  aborted : Bool := false
  wasHalted : Bool := false
  poison : Bool := false
  noRead : Bool := false
  noWrite : Bool := false
deriving DecidableEq, Repr

/-- What a channel does at a release point (R327, R339). -/
inductive ChAct where
  | signal (flag n : Nat) (dev : Option Nat)
  | done (flagReg : Nat) (node : Option NodeRef) (code : Nat)
deriving DecidableEq, Repr

/-- A release of a channel, and the outstanding writes it waits for. -/
structure ChRel where
  needs : List Nat
  act : ChAct
deriving DecidableEq, Repr

/-- A queued spore request (R337): the snapshot, and how far it is: its reads sent, its writes made. -/
structure Spore where
  inline : Option (List Byte)
  src : Nat
  dst : Nat
  len : Nat
  flag : Option Nat
  sent : Bool := false
  wrote : Bool := false
deriving DecidableEq, Repr

/-- A mover channel beyond its registers (R319 to R345): the program line fetched, the loop stack (body and count left), the
depth of a body being skipped, the instruction in progress, the flag it waits for, outstanding and failed beats, releases, the
run, the Crozier node that holds it, the stream ring's slot, spore requests, and reads of DRAIN with the writes they wait
for. -/
structure Chan where
  line : Option (Nat × List Byte) := none
  loops : List (Nat × Nat) := []
  skip : Option Nat := none
  cur : Option Cur := none
  wait : Option (Nat × Nat) := none
  reads : List Beat := []
  ready : List Beat := []
  writes : List Beat := []
  redo : List Beat := []
  failedR : List Beat := []
  failedW : List Beat := []
  failed : Bool := false
  nextId : Nat := 0
  rels : List ChRel := []
  run : Option ChRun := none
  held : Option NodeRef := none
  slotOpen : Bool := false
  spores : List Spore := []
  drains : List (List Nat) := []
deriving DecidableEq, Repr

/-- Memory beyond its bytes (R354 to R373): poisoned granules, granules whose stored tag mismatches, PASR segments lost in
P4 and the granules of them written whole since, the running cache and translation commands by partition (operation and
result), the draw of the hash key, and the generation of each partition's memory keys. -/
structure MemX where
  poison : List Nat := []
  badTag : List Nat := []
  lost : List Nat := []
  healed : List Nat := []
  cacheRun : Tab (Nat × Nat) := []
  xlatRun : Tab Nat := []
  hashKey : Nat := 0
  keyGen : Tab Nat := []
  imbRaised : Bool := false
deriving DecidableEq, Repr

/-- What follows when an item has entered its ring: a Frond gives up the ended operation (R309), or a run's END_FLAG is
signalled and its node ends (R294). -/
inductive PostAct where
  | freeFrond (n : Nat)
  | runEnded (pt flag value : Nat) (on : Bool) (node : Option NodeRef) (code : Nat)
deriving DecidableEq, Repr

/-- An item waiting to be posted to a completion ring (R391). -/
structure Post where
  ring : Nat
  pt : Nat
  bytes : List Byte
  act : Option PostAct := none
deriving DecidableEq, Repr

/-- An item that the queue manager has taken from a submission ring (R389, R394): its ring, its entry count, its bytes. -/
structure Item where
  ring : Nat
  index : Nat
  bytes : List Byte
deriving DecidableEq, Repr

/-- What the queue manager holds of a submission item that has been handed to its target and is not done (R395). -/
structure Handed where
  ring : Nat
  index : Nat
  opc : Nat
  tag : Nat
  flags : Nat
deriving DecidableEq, Repr

/-- A ring's hold-off (R400): its end, and whether an interrupt condition arose meanwhile. -/
structure Holdoff where
  until_ : Nat
  due : Bool := false
deriving DecidableEq, Repr

/-- The queue manager and the endpoint beyond their registers (R376 to R407). -/
structure QmState where
  vecs : Tab PoolVec := []
  msixEn : List Nat := []
  fnMask : List Nat := []
  vfEnable : Bool := true
  d3hot : List Nat := []
  draining : List Nat := []
  drainFirst : List Nat := []
  posts : List Post := []
  items : List Item := []
  handed : List Handed := []
  holdoff : Tab Holdoff := []
  assignRun : Option (Nat × Nat × Nat × Nat × Nat) := none
  grantRun : Option (Nat × Nat × Nat × Nat) := none
  drainReads : List Nat := []
  vfClearing : List Nat := []
  admitted : Tab Nat := []
deriving DecidableEq, Repr

/-- A remote request that waits for its response (R415, R425). -/
structure Remote where
  tag : Nat
  kind : Nat
  dst : Nat
  pt : Nat
  agent : UnitId
  addr : Nat
  len : Nat
  since : Nat
deriving DecidableEq, Repr

/-- A binding record (R422); a record the table does not list is invalid. -/
structure Binding where
  srcDev : Nat
  srcPt : Nat
  index : Nat
  localPt : Nat
  base : Nat
  size : Nat
  r : Bool
  w : Bool
  sig : Bool
deriving DecidableEq, Repr

/-- A link port's receiver and sender (R411 to R414): last good sequence received, the sequence last NAKed to this
sender and the length of its run of NAKs, credits held per VC in 64-byte units, and the times of the last valid flit and
of the last failed attempt. What the replay buffer holds is not modelled (assumption 13). -/
structure LinkPort where
  rxSeq : Nat := 255
  nakSeq : Nat := 0
  nakRun : Nat := 0
  credits : List Nat := [512, 512, 512, 512]
  lastFlit : Nat := 0
  lastFail : Nat := 0
deriving DecidableEq, Repr

/-- A storm latch of the master (R432): first source, its time, and the time of the last interrupt. -/
structure Storm where
  source : Nat
  time : Nat
  lastIrq : Nat
deriving DecidableEq, Repr

/-- The checkpoint engine beyond its registers (R434 to R437): times of the epoch in progress and the measured D; on
the standby, the bytes received of the open epoch, their total and their CRC input. -/
structure Ckpt where
  waiting : Bool := false
  reqTime : Nat := 0
  snapTime : Nat := 0
  prevSnap : Nat := 0
  lastD : Nat := 0
  acked : Bool := true
  nextReq : Nat := 0
  openEpoch : Option Nat := none
  total : Nat := 0
  got : List Byte := []
deriving DecidableEq, Repr

/-- The Silair Link's state beyond its registers (R411 to R439). -/
structure LnkState where
  ports : Tab LinkPort := []
  nextTag : Nat := 0
  outstanding : List Remote := []
  inbox : List Packet := []
  bindings : Tab Binding := []
  bindRun : Option Nat := none
  seqTop : Tab Nat := []
  seqSeen : Tab (List Nat) := []
  role : Role := .member
  strapRole : Role := .member
  beat : Nat := 0
  alive : Tab Nat := []
  devices : List Nat := []
  goodRun : Nat := 0
  badRun : Nat := 0
  slew : Int := 0
  storms : Tab Storm := []
  ckpt : Ckpt := {}
deriving DecidableEq, Repr

/-- A running image of R443: SVN, BUILD, measurement (R445) and whether slot B served it. -/
structure RunImg where
  svn : Nat
  build : Nat
  hash : List Byte
  slotB : Bool
deriving DecidableEq, Repr

/-- A partition session (R451, R452): the private key of SK_p and its public key; the greatest SEQ accepted, the owner's E_pub
that came last, and the export counter. -/
structure Session where
  priv : Nat
  pub : List Byte
  lastSeq : Option Nat := none
  owner : List Byte := []
  exports : Nat := 0
deriving DecidableEq, Repr

/-- A live update in progress (R464): type, the new image's record and payload, its slot, whether the image is in the slot, and the
checker pairs that load it (0 A, 1 B), and those that run it. -/
structure Update where
  type : Nat
  img : RunImg
  payload : List Byte
  inSlot : Bool := false
  loading : List Nat := []
  have_ : List Nat := []
deriving DecidableEq, Repr

/-- A security command that runs (R466): OP, partition, the RESULT and length with which it will complete, and for SVN_COMMIT the image
type. -/
structure SecCmd where
  op : Nat
  pt : Nat
  code : Nat := 0
  len : Nat := 0
  arg : Nat := 0
deriving DecidableEq, Repr

/-- The security block beyond its registers (R440 to R467): the fuses (UDS, LCS, the key hashes AKH 0 to 3, OKH 4 to 7, DKH 8 and 9,
REVOKE with bit i for hash i, the SVN floors by type), the running images by type, the derived secrets and keys, DBG, the debug level,
the challenge, the lock-out, a level 3 entry that waits for its resets, sessions by partition, seal keys, PMRs by 4p + i, the random
source with its failures in a row, the running command, and the live update. -/
structure SecState where
  uds : List Byte := leBytes 32 0
  lcs : Nat := 1
  keyHash : Tab (List Byte) := []
  revoke : Nat := 0
  floor : Tab Nat := []
  imgs : Tab RunImg := []
  cdi1 : List Byte := []
  l1k : Nat := 0
  cdi2 : List Byte := []
  ak : Nat := 0
  dbg : Bool := false
  level : Nat := 0
  challenge : Option (List Byte) := none
  locked : Bool := false
  entering : Bool := false
  sess : Tab Session := []
  sealKeys : Tab (List Byte) := []
  pmr : Tab (List Byte) := []
  rngBad : Bool := false
  rngFails : Nat := 0
  cmd : Option SecCmd := none
  upd : Option Update := none
deriving DecidableEq, Repr

/-- The reliability block beyond its registers (R468 to R487): the interrupts of R481 by 16p + b, the reports to each partition, the
corrected errors of each Frond in the window, and the known-answer schedule: the slice at which each Frond's suite stands, Fronds
whose slice is due, the start of each Frond's last slice, verdicts that are awaited with the start of their slices, and the Frond that is
being re-admitted. -/
structure RelState where
  irqAt : Tab Nat := []
  irqDue : List Nat := []
  seq : Tab Nat := []
  ceCount : Tab Nat := []
  kakSlice : Tab Nat := []
  kakDue : List Nat := []
  kakLast : Tab Nat := []
  kakWait : List (Nat × Nat) := []
  readmit : Option Nat := none
deriving DecidableEq, Repr

/-- A run that the checker gathers or judges (R503 to R505): its task, what names it (partition and LARG, or for NOFRAME
partition, HANDLE and RUN), its items by copy, the arrival of the first, the answer about copy 2, whether copy 2 resolved a
disagreement, the records once read, whether judgement waits for a record to be written, and the program: since when it runs and the
bytes it has read. -/
structure SafeRun where
  task : Nat
  pt : Nat
  key : Nat
  items : Tab (List Byte) := []
  firstAt : Nat
  asked : Bool := false
  refused : Bool := false
  resolved : Bool := false
  recs : List (List Byte) := []
  waitRec : Bool := false
  prog : Option (Nat × Nat) := none
deriving DecidableEq, Repr

/-- The Yarre checker beyond its registers (R488 to R515): the inbound queue of the mailbox (partition and message); the task
table; launch notices; runs, and HANDLE and RUN of each task's run judged last; the tasks in HOLD; the start of each task's arrival timer (none while stopped); release items posted by task;
persistent state by task; tasks whose reject items wait for the arrival in P1; the pairs (duty, retired, self-test), the restart,
the hold test, the clock and the rail, the limit of degraded operation, YFW and YPR present, since when the pin is asserted, the level
of HEARTBEAT, and the partitions that restart with the tasks they restart for. -/
structure SafeState where
  mailbox : List (Nat × List Byte) := []
  table : Tab (List Byte) := []
  notices : List (Nat × List Byte) := []
  runs : List SafeRun := []
  judged : Tab (Nat × Nat) := []
  hold : List Nat := []
  armAt : Tab Nat := []
  seq : Tab Nat := []
  pers : Tab (List Byte) := []
  heldBack : List Nat := []
  dutyB : Bool := false
  retA : Bool := false
  retB : Bool := false
  down : Bool := false
  noFw : Bool := true
  noTable : Bool := false
  holdTest : Option Nat := none
  clkBad : Bool := false
  vddBad : Bool := false
  limit : Bool := false
  heldSince : Option Nat := some 0
  beat : Bool := false
  restarts : List Nat := []
deriving DecidableEq, Repr

/-- The power ladder, the servo of the PPS input, and the Rhizoid island beyond their registers (R516 to R533): the entry in
progress with its start; whether a wake came too late to cancel it; whether an exit runs; when the rung was reached; port enables
and ladder requests that wait; the thermal and the power level of k with whether their steps run; whether the clocks are stopped; since
when k is throttled; PPS edges; the latest audio samples by number, the running copy; features of the latest 100 frames, newest first,
the frame being evaluated with the rung at its end, its predecessor's scores, the frame of each keyword's last detection, the event
FIFO and the records that wait for P1, whether one was lost, the detections, and model memory. -/
structure PwrState where
  entry : Option (Nat × Nat) := none
  late : Bool := false
  exiting : Bool := false
  since : Nat := 0
  waitEn : List (Nat × Nat) := []
  asked : List Nat := []
  kHeat : Nat := 16
  kPower : Nat := 16
  heatSteps : Bool := false
  powerSteps : Bool := false
  stopped : Bool := false
  throttledAt : Option Nat := none
  ppsFirst : Bool := true
  ppsGood : Nat := 0
  ppsBad : Nat := 0
  audio : Tab (List Nat) := []
  copying : Option (Nat × Nat × Nat) := none
  feats : List (List Nat) := []
  frame : Option (Nat × Nat) := none
  scores : List Int := []
  hold : Tab Nat := []
  fifo : List (List Byte) := []
  kwWait : List (List Byte) := []
  lost : Bool := false
  seq : Nat := 0
  model : Tab Byte := []
deriving DecidableEq, Repr

/-- An event record waiting for the management port (R563). -/
structure MgtEv where
  cls : Nat
  lost : Bool
  seq : Nat
  body : List Byte
deriving DecidableEq, Repr

/-- The management port beyond its registers (R552 to R566): the event queue, whether records were lost, the records queued, checker
items that wait for room; whether CFW serves the port (R574); the request that is executed and when its CRC was checked; the response that
waits, and OVERRUN; the session key, the SEQ accepted last,
the challenge (nonce, private key, public key), the refusals, the lock-out; what the island keeps of the main side's
values (R560), whether the main rails are removed, and the switch of a CFW update (R464). -/
structure MgtState where
  events : List MgtEv := []
  lost : Bool := false
  seq : Nat := 0
  waiting : List (List Byte) := []
  served : Bool := false
  request : Option (List Byte) := none
  reqAt : Nat := 0
  response : Option (List Byte) := none
  overrun : Bool := false
  key : Option (List Byte) := none
  lastSeq : Option Nat := none
  challenge : Option (List Byte × Nat × List Byte) := none
  refusals : Nat := 0
  lockedOut : Bool := false
  kept : List Byte := leBytes 20 0
  mainGone : Bool := false
  switching : Bool := false
deriving DecidableEq, Repr

/-- Boot and reset (R567 to R580) and the pins of R585 that hold a level: the boot flash (a byte that it does not list is erased),
the image type that the boot loads next (0: the boot does not run), whether PORST_N and PERST_N are low, whether TEST_MODE holds the
device in cold reset (R586), when the device became fatal, the PCIe link up or in L1, the Subsystem IDs (R571, R378), and the
32.768 kHz crystal in use (R593). -/
structure BootState where
  flash : Tab Byte := []
  next : Nat := 0
  porst : Bool := true
  testHold : Bool := false
  perst : Bool := false
  linkUp : Bool := false
  inL1 : Bool := false
  subsys : Nat := 0
  fatalAt : Option Nat := none
  xtal32k : Bool := false
deriving DecidableEq, Repr

/-- The state of the device: the commands that wait, first in, first out; every register of the register maps by its PF BAR0 offset
(R26), a register that is not listed holding its reset value; memory as (PA, byte) pairs; the owners of the 2 MiB chunks (R382), of
the units by class × 65,536 + identifier (R18) and the pooled records by class × 16 + partition; device time in units of 2⁻³² ns
(R524); the counter of the free values (assumption 2); what the device has sent to the outside, in order (assumption 4); and the
state of each block beyond its registers. -/
structure State where
  pending : List Instr
  regs : Tab (BitVec 64)
  mem : List Host.Cell
  chunks : Tab Nat
  own : Tab Nat
  pool : Tab Nat
  time : Nat
  freeCtr : Nat
  out : List Out
  flags : FlagState
  dbg : DbgState
  rel : RelState
  qm : QmState
  dsc : DscState
  memx : MemX
  lnk : LnkState
  mgt : MgtState
  frond : Tab Frond
  gs : SchedState
  chan : Tab Chan
  movRR : Tab Nat
  safe : SafeState
  crz : CrzState
  stream : Tab Stream
  isp : Tab IspCtx
  brk : Tab Engine
  sec : SecState
  pwr : PwrState
  boot : BootState
deriving DecidableEq, Repr

/-- The device in cold reset (R567, R568): registers at their reset values, memory with nothing listed, nothing owned, device time 0,
and what the spec gives no reset value at the defaults of the structures above (assumption 3). -/
def State.reset : State where
  pending := []
  regs := []
  mem := []
  chunks := []
  own := []
  pool := []
  time := 0
  freeCtr := 0
  out := []
  flags := {}
  dbg := {}
  rel := {}
  qm := {}
  dsc := {}
  memx := {}
  lnk := {}
  mgt := {}
  frond := []
  gs := {}
  chan := []
  movRR := []
  safe := {}
  crz := {}
  stream := []
  isp := []
  brk := []
  sec := {}
  pwr := {}
  boot := {}

/-- The reasons for which a command could stop the device. The spec gives every row of the table an effect. -/
inductive Fault where
  /-- Raised by no command; it stands here so that the type has a value. Safe: nothing answers with it. -/
  | noFault
deriving DecidableEq, Repr

/-- The reasons for which a command is given no meaning. -/
inductive Refusal where
  /-- Raised by the arm of a command whose meaning is still to be written, with its mnemonic; every command has its meaning, so no
  arm raises it. Safe: such a step answers nothing about the device. -/
  | notModelled (mnemonic : String)
deriving DecidableEq, Repr

end Sys2Proof.Machine
end

