-- ==== Sys2Proof/Machine/Ops.lean ====
section
/-! DEFINITION. Sys2Proof/Machine/Ops.lean: the shared operations of the model: registers, time, counters, interrupts,
memory and translation, reports, ownership, sync flags and rings. -/

namespace Sys2Proof.Machine

/-- The outcome of a command. -/
abbrev Res := Host.Outcome State Fault Refusal

/-! ## Registers -/

/-- The value of the register at BAR0 offset `a`. -/
def State.rd (s : State) (a : Nat) : BitVec 64 := s.regs.getD a (Reg.resetOf a)

/-- The register at `a` as a number. -/
def State.rdN (s : State) (a : Nat) : Nat := (s.rd a).toNat

/-- Bits [lo + w - 1 : lo] of the register at `a`. -/
def State.rdF (s : State) (a lo w : Nat) : Nat := fld (s.rdN a) lo w

/-- Bit `i` of the register at `a`. -/
def State.rdB (s : State) (a i : Nat) : Bool := bitAt (s.rdN a) i

/-- Set the register at `a`. -/
def State.wr (s : State) (a v : Nat) : State :=
  { s with regs := s.regs.write Reg.resetOf a (BitVec.ofNat 64 v) }

/-- Set bits [lo + w - 1 : lo] of the register at `a`. -/
def State.wrF (s : State) (a lo w x : Nat) : State := s.wr a (setFld (s.rdN a) lo w x)

/-- Return the registers at the offsets that `P` names to their reset values. -/
def State.clearRegs (s : State) (P : Nat → Bool) : State :=
  { s with regs := s.regs.filter fun e => !P e.1 }

/-- Partition `p` is confidential (R454). -/
def State.isConf (s : State) (p : Nat) : Bool := s.rdB Reg.SEC_CONF p

/-! ## Device time (R524) -/

/-- Device time in whole ns. -/
def State.now (s : State) : Nat := s.time / 2 ^ 32

/-- A free value: the counter advances, the value is Config's (assumption 2). -/
def State.fresh (s : State) : Nat × State := (Config.freeValue s.freeCtr, { s with freeCtr := s.freeCtr + 1 })

/-- Append an output. -/
def State.emit (s : State) (o : Out) : State := { s with out := s.out ++ [o] }

/-! ## Counters and event rings (R537 to R542) -/

/-- 2⁴⁸ - 1, where counters stop (R537). -/
def cntMax : Nat := 0xFFFFFFFFFFFF

/-- The counter group of the register at `a` (R538), by its block of the BAR0 map (R26). -/
def counterGroup (a : Nat) : Nat :=
  if a < 0x100000 then 16
  else if a < 0x400000 then 5
  else if a < 0x800000 then 7
  else if a < 0xC00000 then 2
  else if a < 0xD00000 then 1
  else if a < 0x1000000 then 0
  else if a < 0x1100000 then 3
  else if a < 0x1200000 then 6
  else if a < 0x1400000 then 9
  else if a < 0x1480000 then 8
  else if a < 0x1600000 then 4
  else if a < 0x1800000 then 10
  else if a < 0x1900000 then 11
  else if a < 0x1A00000 then 12
  else if a < 0x1A20000 then 15
  else if a < 0x1B00000 then 5
  else if a < 0x1C00000 then 14
  else 13

/-- Recording is frozen (R546). -/
def State.isFrozen (s : State) : Bool := s.rdB Reg.DBG_STATUS 0

/-- The counters of group `g` are frozen (R546). -/
def State.groupFrozen (s : State) (g : Nat) : Bool := s.isFrozen && s.rdB Reg.DBG_FRZ_MASK g

/-- A counter value with `n` added: it stops at 2⁴⁸ - 1 and then sets OVF, bit 63 (R537). -/
def cntAdd (v n : Nat) : Nat :=
  if v % 2 ^ 48 + n ≤ cntMax then v + n else cntMax + 2 ^ 63

/-- Add to a counter whatever the freeze, without the report of R539. -/
def State.count (s : State) (a n : Nat) : State := s.wr a (cntAdd (s.rdN a) n)

/-- The ring of event records of unit `u` (R541). -/
def ringKey (u : UnitId) : Nat := u.cls * 256 + u.inst

/-- The single-instance blocks that keep an event ring report class 0 (R541, R542); the ring key tells them apart
(assumption 5). -/
def uCrozier : UnitId := ⟨0, 0⟩
/-- The queue manager's ring (assumption 5). -/
def uQueue : UnitId := ⟨0, 1⟩
/-- The debug block's ring (assumption 5). -/
def uDebug : UnitId := ⟨0, 2⟩
/-- The graph scheduler's ring of partition `p` (R541). -/
def uSched (p : Nat) : UnitId := ⟨0x03, p⟩

/-- The 32 bytes of an event record (R542); a partition of 0x80 stands for none. -/
def EvRec.bytes (r : EvRec) : List Byte :=
  leBytes 8 r.time ++ leBytes 1 r.kind ++ leBytes 1 r.unit.cls ++ leBytes 1 (if r.unit.cls = 0 then 0 else r.unit.inst) ++
    leBytes 1 r.pt ++ leBytes 2 r.code ++ leBytes 2 r.seq ++ leBytes 8 r.a ++ leBytes 8 r.b

/-- Append a record whatever the freeze (R541, R542): the ring keeps the latest 256. -/
def State.eventRaw (s : State) (u : UnitId) (kind pt code a b : Nat) : State :=
  let r := s.dbg.rings.getD (ringKey u) {}
  let rec0 : EvRec := ⟨s.now, kind, u, pt, code, r.written % 65536, a, b⟩
  let t := s.dbg.rings.put (ringKey u) ⟨r.written + 1, (rec0 :: r.recs).take 256⟩
  { s with dbg := { s.dbg with rings := t } }

/-- Append a record to the ring of `u`, unless recording is frozen (R546). -/
def State.event (s : State) (u : UnitId) (kind pt code a b : Nat) : State :=
  if s.isFrozen then s else s.eventRaw u kind pt code a b

/-! ## Interrupts (R398 to R403) -/

/-- Signal entry `i` of the table of function `p`: pool vector `v` sends its message, or stays pending while MSI-X is
disabled or masked (R398). -/
def State.signalVec (s : State) (p i v : Nat) : State :=
  let pv := s.qm.vecs.getD v {}
  if s.qm.msixEn.contains p && !s.qm.fnMask.contains p && !pv.mask then
    { s with out := s.out ++ [.msix p i pv.addr pv.data] }
  else { s with qm := { s.qm with vecs := s.qm.vecs.put v { pv with pend := true } } }

/-- Signal local vector `i` of partition `p` through its remap entry (R398, R399); an invalid remap loses it. -/
def State.irqTo (s : State) (p i : Nat) : State :=
  let m := s.rdN (Reg.QM_PT_VMAP p i)
  if bitAt m 31 then s.signalVec p i (fld m 0 11) else s.count (Reg.QM_PT_IRQ_LOST p) 1

/-- An interrupt source of partition `p` requests local vector `i` (R399); while the interrupts of `p` drain, it is
counted, and the first one raises QM_DRAIN_VEC of PT_0 (R403). -/
def State.irq (s : State) (p i : Nat) : State :=
  if s.qm.draining.contains p then
    let s1 := s.count (Reg.QM_PT_DRAINED p) 1
    if s.qm.drainFirst.contains p || p == 0 then s1
    else
      let s2 := { s1 with qm := { s1.qm with drainFirst := insSorted p s1.qm.drainFirst } }
      if s2.rdB Reg.QM_DRAIN_VEC 31 && !s2.qm.draining.contains 0 then s2.irqTo 0 (s2.rdF Reg.QM_DRAIN_VEC 0 8) else s2
  else s.irqTo p i

/-- Request the vector a register names: [7:0] local vector, [31] enable (R399). -/
def State.irqReg (s : State) (p a : Nat) : State :=
  if s.rdB a 31 then s.irq p (s.rdF a 0 8) else s

/-- Add `n` to the counter at `a` (R537 to R539): frozen groups do not count; a counter that reaches 2⁴⁸ - 1 while its
group is enabled writes a CNT_SAT record, sets the status bit and requests DBG_SAT_VEC once. -/
def State.bump (s : State) (a n : Nat) : State :=
  let g := counterGroup a
  if s.groupFrozen g then s
  else
    let v := s.rdN a
    let s1 := s.count a n
    if v % 2 ^ 48 < cntMax && cntMax ≤ v % 2 ^ 48 + n && s.rdB Reg.DBG_SAT_EN g then
      let s2 := s1.event uDebug 0x07 0x80 g a 0
      let s3 := s2.wr Reg.DBG_SAT_STATUS (s2.rdN Reg.DBG_SAT_STATUS ||| 2 ^ g)
      if s2.rdB Reg.DBG_SAT_STATUS g then s3 else s3.irqReg 0 Reg.DBG_SAT_VEC
    else s1

/-- Raise a maximum register with access RC (R9), unless recording is frozen (R546). -/
def State.rcMax (s : State) (a v : Nat) : State :=
  if s.isFrozen || v ≤ s.rdN a then s else s.wr a v

/-! ## Freeze (R546, R547) -/

/-- A freeze trigger (R547): ignored and counted while frozen; otherwise recording stops, the freeze record is
written, and a local trigger with SEND sends a freeze packet. -/
def State.freezeBy (s : State) (trig dev seq : Nat) (isLocal : Bool) : State :=
  if s.isFrozen then s.count Reg.DBG_FRZ_IGNORED 1
  else
    let s1 := s.eventRaw uDebug 0x08 0x80 seq (dev + trig * 256) 0
    let s2 := (s1.wr Reg.DBG_STATUS (1 + trig * 256 + dev * 65536)).wr Reg.DBG_FREEZE_TIME s.now
    let s3 := s2.wr Reg.DBG_FREEZE_SEQ seq
    if isLocal && s.rdB Reg.DBG_FRZ_CFG 0 then
      { s3 with out := s3.out ++ [.link 128 0x77 [dev, seq] []],
                dbg := { s3.dbg with seen := (dev, seq) :: s3.dbg.seen } }
    else s3

/-- CAP_DEVID[6:0] of this device (R22, R569). -/
def State.devId (s : State) : Nat := s.rdF Reg.CAP_DEVID 0 7

/-- A local freeze trigger (R547): this device originates, with DBG_FREEZE_SEQ + 1. -/
def State.freezeLocal (s : State) (trig : Nat) : State :=
  s.freezeBy trig s.devId ((s.rdN Reg.DBG_FREEZE_SEQ + 1) % 65536) true

/-! ## CRC-32C (R48) -/

/-- One bit of the reflected Castagnoli CRC. -/
def crc32cBit (c : BitVec 32) : BitVec 32 :=
  if c.getLsbD 0 then (c >>> 1) ^^^ 0x82F63B78#32 else c >>> 1

/-- One byte of the CRC. -/
def crc32cByte (c : BitVec 32) (b : Byte) : BitVec 32 :=
  iterN crc32cBit 8 (c ^^^ b.setWidth 32)

/-- The running CRC over more bytes. -/
def crc32cRun (c : BitVec 32) (bs : List Byte) : BitVec 32 := bs.foldl crc32cByte c

/-- CRC-32C of a byte string: initial value and final inversion all ones (R48). -/
def crc32c (bs : List Byte) : Nat := (crc32cRun 0xFFFFFFFF#32 bs ^^^ 0xFFFFFFFF#32).toNat

/-- One bit of the reflected CRC-64 of R226. -/
def crc64Bit (c : BitVec 64) : BitVec 64 :=
  if c.getLsbD 0 then (c >>> 1) ^^^ 0xC96C5795D7870F42#64 else c >>> 1

/-- One byte of the CRC-64. -/
def crc64Byte (c : BitVec 64) (b : Byte) : BitVec 64 :=
  iterN crc64Bit 8 (c ^^^ b.setWidth 64)

/-- The CRC-64 of R226: initial value and final XOR all ones. -/
def crc64 (bs : List Byte) : Nat := (bs.foldl crc64Byte 0xFFFFFFFFFFFFFFFF#64 ^^^ 0xFFFFFFFFFFFFFFFF#64).toNat

/-! ## Physical memory (R350 to R368) -/

/-- What a PA names (R350). -/
inductive Target where
  | inPackage | link | host | undecoded
deriving DecidableEq, Repr

/-- CAP_MEM_USABLE of the OCN-810-M128 (R22, R353). -/
def memUsable : Nat := 0x1E00000000

/-- The decoding of a PA (R350). -/
def targetOf (pa : Nat) : Target :=
  if pa < memUsable then .inPackage
  else if 0x400000000000 ≤ pa && pa < 0x800000000000 then .link
  else if 0x800000000000 ≤ pa && pa < 0xC00000000000 then .host
  else .undecoded

/-- What a byte that memory does not list reads as (assumption 1). -/
def memDefault (_ : Nat) : Byte := 0#8

/-- The byte at a PA. -/
def State.readByte (s : State) (pa : Nat) : Byte := Tab.getD s.mem pa (memDefault pa)

/-- `n` bytes from `pa` on. -/
def State.readPA (s : State) (pa : Nat) : Nat → List Byte
  | 0 => []
  | n + 1 => s.readByte pa :: State.readPA s (pa + 1) n

/-- Store one byte, keeping the canonical form. -/
def Memory.write (m : List Host.Cell) (pa : Nat) (b : Byte) : List Host.Cell := Tab.write memDefault m pa b

/-- Store bytes from `pa` on. -/
def Memory.writeAll (m : List Host.Cell) (pa : Nat) : List Byte → List Host.Cell
  | [] => m
  | b :: bs => Memory.writeAll (Memory.write m pa b) (pa + 1) bs

/-- The canonical form of memory: addresses rising, no entry equal to what an unlisted address reads as. -/
def Memory.wf (m : List Host.Cell) : Bool := Tab.canon memDefault m

/-- PASR segment of a PA (R370). -/
def segmentOf (pa : Nat) : Nat := pa / 0x400000000

/-- The granule of `pa` reads as poisoned: it carries poison (R368), its stored tag mismatches (R359), or its segment
was lost in P4 and the granule has not been written whole since (R370). -/
def State.granBad (s : State) (g : Nat) : Bool :=
  s.memx.poison.contains g || s.memx.badTag.contains g ||
    (s.memx.lost.contains (segmentOf (g * 64)) && targetOf (g * 64) == .inPackage && !s.memx.healed.contains g)

/-- Some granule of the `n` bytes at `pa` reads as poisoned. -/
def State.poisonedPA (s : State) (pa n : Nat) : Bool :=
  (List.range ((pa + n - 1) / 64 - pa / 64 + 1)).any fun i => s.granBad (pa / 64 + i)

/-- The effect of a write of `n` bytes at `pa` on granule `g`: poison data poisons it; a write of all 64 bytes with
good data heals it; a partial write leaves it as it was (R368). -/
def MemX.afterWrite (x : MemX) (g pa n : Nat) (bad : Bool) : MemX :=
  if bad then { x with poison := insSorted g x.poison }
  else if pa ≤ g * 64 && g * 64 + 64 ≤ pa + n then
    { x with poison := x.poison.filter (· != g), badTag := x.badTag.filter (· != g),
             healed := if x.lost.contains (segmentOf (g * 64)) then insSorted g x.healed else x.healed }
  else x

/-- Store bytes at a PA whose target holds memory; `bad` is data that carries poison (R366). -/
def State.storePA (s : State) (pa : Nat) (bs : List Byte) (bad : Bool) : State :=
  if bs.isEmpty then s
  else
    let x := (List.range ((pa + bs.length - 1) / 64 - pa / 64 + 1)).foldl
      (fun x i => x.afterWrite (pa / 64 + i) pa bs.length bad) s.memx
    { s with mem := Memory.writeAll s.mem pa bs, memx := x }

/-! ## Translation (R33 to R36, R371, R372, R383) -/

/-- The kinds of access (R371: R, W and X permissions). -/
inductive Access where
  | read | write | fetch
deriving DecidableEq, Repr

/-- Why an access is refused: its CAUSE (R177), and whether a table entry read was poisoned (R372). -/
structure XFault where
  cause : Nat
  poisonedTable : Bool := false
deriving DecidableEq, Repr

/-- An 8-byte table entry's permission for an access. -/
def permits (e : Nat) : Access → Bool
  | .read => bitAt e 2
  | .write => bitAt e 3
  | .fetch => bitAt e 4

/-- An entry is usable at a level with page bits `pb`: V set, reserved bits 0, LEAF as the level allows, CONT at L3
only, ADDR aligned (R371). -/
def entryOk (e level pb : Nat) (stage1 : Bool) : Bool :=
  bitAt e 0 && fld e 6 6 == 0 && fld e 48 16 == 0 && (level == 3 || !bitAt e 5) &&
  (if bitAt e 1 then level != 0 && fld e 12 36 * 4096 % 2 ^ pb == 0 else level != 3) &&
  (!stage1 || fld e 12 36 < 2 ^ 28)

/-- Stage-2 walk from an intermediate address, levels L1 to L3: the PA, with the permission of the leaf. -/
def State.walk2 (s : State) (acc : Option Access) : Nat → Nat → Nat → Except XFault Nat
  | 0, _, _ => .error ⟨5, false⟩
  | fuel + 1, table, ia =>
    let level := 3 - fuel
    let pb := 12 + 9 * fuel
    let idx := if fuel = 2 then fld ia 30 10 else fld ia pb 9
    let at_ := table + idx * 8
    if s.poisonedPA at_ 8 then .error ⟨5, true⟩
    else
      let e := ofLE (s.readPA at_ 8)
      if !entryOk e level pb false then .error ⟨5, false⟩
      else if bitAt e 1 then
        (match acc with
          | some a => if permits e a then .ok (fld e 12 36 * 4096 + ia % 2 ^ pb) else .error ⟨5, false⟩
          | none => .ok (fld e 12 36 * 4096 + ia % 2 ^ pb))
      else State.walk2 s acc fuel (fld e 12 36 * 4096) ia

/-- Stage 2 of partition `p`. -/
def State.stage2 (s : State) (p ia : Nat) (acc : Option Access) : Except XFault Nat :=
  s.walk2 acc 3 (s.rdN (Reg.MEM_PT_S2_BASE p)) ia

/-- Stage-1 walk of partition `p`, levels L0 to L3; each table is read through stage 2 (R372). -/
def State.walk1 (s : State) (p : Nat) (acc : Access) : Nat → Nat → Nat → Except XFault Nat
  | 0, _, _ => .error ⟨4, false⟩
  | fuel + 1, table, dva =>
    let level := 3 - fuel
    let pb := 12 + 9 * fuel
    match s.stage2 p (table + fld dva pb 9 * 8) (some .read) with
    | .error f => .error f
    | .ok pa =>
      if s.poisonedPA pa 8 then .error ⟨4, true⟩
      else
        let e := ofLE (s.readPA pa 8)
        if !entryOk e level pb true then .error ⟨4, false⟩
        else if bitAt e 1 then
          (if permits e acc then .ok (fld e 12 36 * 4096 + dva % 2 ^ pb) else .error ⟨4, false⟩)
        else State.walk1 s p acc fuel (fld e 12 36 * 4096) dva

/-- The owner of the 2 MiB chunk of an in-package PA (R382). -/
def State.chunkOwner (s : State) (pa : Nat) : Option Nat := Tab.get? s.chunks (pa / 0x200000)

/-- A region of partition `p` covers [dva, dva + n) with the permission of the access (R163); reads and fetches need R,
and a descriptor-table region refuses writes (R157). -/
def State.regionCovers (s : State) (p dva n : Nat) (acc : Access) : Bool :=
  s.dsc.regions.any fun e =>
    let r := e.2
    r.pt == p && r.base ≤ dva && dva + n ≤ r.base + r.size &&
    (match acc with
      | .write => r.w && !r.desc
      | _ => r.r)

/-- The three checks of R35 on `n` bytes at `dva` that lie in one 4 KiB page: stage 1, stage 2 with the chunk check of
R383, then the region check, each skipped for nothing. A host address of a confidential partition admits only the queue
manager's ring accesses, `ring` (R453). -/
def State.xlate (s : State) (p dva n : Nat) (acc : Access) (ring : Bool := false) : Except XFault Nat :=
  if dva ≥ 2 ^ 48 then .error ⟨3, false⟩
  else
    match s.walk1 p acc 4 (s.rdN (Reg.MEM_PT_S1_BASE p)) dva with
    | .error f => .error f
    | .ok ia =>
      match s.stage2 p ia (some acc) with
      | .error f => .error f
      | .ok pa =>
        if targetOf pa == .inPackage && s.chunkOwner pa != some p then .error ⟨5, false⟩
        else if targetOf pa == .host && s.isConf p && !ring then .error ⟨5, false⟩
        else if s.regionCovers p dva n acc then .ok pa
        else .error ⟨6, false⟩

/-- As `xlate` for the descriptor unit's own entry writes: a DESC region with R admits them (R157, R158). -/
def State.xlateDesc (s : State) (p dva n : Nat) : Except XFault Nat :=
  if dva ≥ 2 ^ 48 then .error ⟨3, false⟩
  else
    match s.walk1 p .write 4 (s.rdN (Reg.MEM_PT_S1_BASE p)) dva with
    | .error f => .error f
    | .ok ia =>
      match s.stage2 p ia (some .write) with
      | .error f => .error f
      | .ok pa =>
        if targetOf pa == .inPackage && s.chunkOwner pa != some p then .error ⟨5, false⟩
        else if s.dsc.regions.any (fun e => e.2.pt == p && e.2.base ≤ dva && dva + n ≤ e.2.base + e.2.size && e.2.desc)
        then .ok pa
        else .error ⟨6, false⟩

/-- [dva, dva + n) cut at 4 KiB page ends. -/
def pages : Nat → Nat → Nat → List (Nat × Nat)
  | 0, _, _ => []
  | fuel + 1, dva, n =>
    if n = 0 then []
    else
      let k := min n (4096 - dva % 4096)
      (dva, k) :: pages fuel (dva + k) (n - k)

/-- The page pieces of [dva, dva + n). -/
def pieces (dva n : Nat) : List (Nat × Nat) := pages (n / 4096 + 2) dva n

/-- Translate each piece; the first failure with its address, or the PA pieces in order. -/
def State.xlateAll (s : State) (p : Nat) (acc : Access) (ring : Bool) : List (Nat × Nat) → Except (XFault × Nat) (List (Nat × Nat))
  | [] => .ok []
  | (d, n) :: ps =>
    match s.xlate p d n acc ring with
    | .error f => .error (f, d)
    | .ok pa =>
      match State.xlateAll s p acc ring ps with
      | .error f => .error f
      | .ok rest => .ok ((pa, n) :: rest)

/-- The outcome of a read through R35. -/
inductive ReadRes where
  /-- The bytes, and whether any granule is poisoned. -/
  | data (bs : List Byte) (bad : Bool)
  /-- Refused under R35, at the address. -/
  | refused (f : XFault) (dva : Nat)
  /-- A PA that R350 does not decode (0x0907). -/
  | bus (dva : Nat)
deriving DecidableEq, Repr

/-- Read `n` bytes at `dva` for partition `p` under R35. -/
def State.readDva (s : State) (p dva n : Nat) (acc : Access := .read) (ring : Bool := false) : ReadRes :=
  match s.xlateAll p acc ring (pieces dva n) with
  | .error (f, d) => .refused f d
  | .ok ps =>
    if ps.any (fun e => targetOf e.1 == .undecoded) then .bus dva
    else .data (ps.flatMap fun e => s.readPA e.1 e.2) (ps.any fun e => s.poisonedPA e.1 e.2)

/-- The outcome of a write through R35. -/
inductive WriteRes where
  | done (s : State)
  | refused (f : XFault) (dva : Nat)
  | bus (dva : Nat)
deriving DecidableEq, Repr

/-- The physical device that logical device `d` names (R420). -/
def State.physDev (s : State) (d : Nat) : Nat :=
  if d = s.devId then d
  else if s.rdB (Reg.LNK_ALIAS d) 31 then s.rdF (Reg.LNK_ALIAS d) 0 7 else d

/-- A physical device can be reached: not lost, and its route entry is valid with an up port (R419, R425). -/
def State.reachable (s : State) (d : Nat) : Bool :=
  !bitAt (s.rdN (Reg.LNK_UNREACH (d / 64))) (d % 64) && s.rdB (Reg.LNK_RT d) 31 &&
  (List.range 8).any fun n =>
    bitAt (s.rdN (Reg.LNK_RT d)) n && s.rdF (Reg.LNK_PORT_STATUS n) 0 2 == 2 && s.rdB (Reg.LNK_PORT_STATUS n) 2

/-- Payload bytes of a packet leave by one up port of the destination's route entry, which a hash of SRC, the source partition
and TAG chooses (R419, R439). -/
def State.txBytes (s : State) (dst src p tag n : Nat) : State :=
  let up := (List.range 8).filter fun k => bitAt (s.rdN (Reg.LNK_RT dst)) k && s.rdF (Reg.LNK_PORT_STATUS k) 0 2 == 2
  match up[Config.linkHash src p tag % up.length]? with
  | some k => if n = 0 then s else s.bump (Reg.LNK_PORT_TX_BYTES k) n
  | none => s

/-- Send a request packet and note it outstanding (R415, R425); `poison` has a bit per granule (R416). -/
def State.sendRemote (s : State) (kind dst p : Nat) (agent : UnitId) (addr len : Nat) (data : List Byte)
    (poison : Nat := 0) : State :=
  let tag := s.lnk.nextTag
  let s := s.txBytes dst s.devId p tag data.length
  { s with
    out := s.out ++ [.link dst kind [p, addr / 2 ^ 35 % 16, addr % 2 ^ 35, len, tag, poison] data]
    lnk := { s.lnk with nextTag := (tag + 1) % 65536
                        outstanding := s.lnk.outstanding ++ [⟨tag, kind, dst, p, agent, addr, len, s.now⟩] } }

/-- Write bytes at a PA for partition `p` and the unit `agent`: in-package and host memory store them, the link window
sends WRITE packets (R421); an alias of this device is local but has no window of its own (assumption 12). -/
def State.writePA (s : State) (p : Nat) (agent : UnitId) (pa : Nat) (bs : List Byte) (bad : Bool) : State :=
  match targetOf pa with
  | .link => s.sendRemote 1 (s.physDev (fld pa 39 7)) p agent pa bs.length bs (if bad then 2 ^ ((bs.length + 63) / 64) - 1 else 0)
  | _ => s.storePA pa bs bad

/-- Write each PA piece its part of the bytes. -/
def State.writePieces (s : State) (p : Nat) (agent : UnitId) (bad : Bool) : List (Nat × Nat) → List Byte → State
  | [], _ => s
  | (pa, n) :: ps, bs => State.writePieces (s.writePA p agent pa (bs.take n) bad) p agent bad ps (bs.drop n)

/-- Write bytes at `dva` for partition `p` under R35: every piece is checked first; the agent ⟨0, 1⟩ is the queue manager. -/
def State.writeDva (s : State) (p : Nat) (agent : UnitId) (dva : Nat) (bs : List Byte) (bad : Bool := false) : WriteRes :=
  match s.xlateAll p .write (agent == ⟨0, 1⟩) (pieces dva bs.length) with
  | .error (f, d) => .refused f d
  | .ok ps =>
    if ps.any (fun e => targetOf e.1 == .undecoded) then .bus dva
    else .done (s.writePieces p agent bad ps bs)

/-! ## The error aggregator (R480 to R482) -/

/-- SUBJECT of a latch (R487). -/
def Report.subject (r : Report) : Nat := r.subj.cls % 256 + r.subj.inst % 256 * 2 ^ 8 + r.dev % 128 * 2 ^ 16 + r.rep.cls % 256 * 2 ^ 24

/-- Code and subject of a latch agree with a report's: the duplicate test of R480 (the reporter is no part of it). -/
def latchSame (first subject : Nat) (r : Report) : Bool :=
  fld first 0 16 == r.code && fld subject 0 23 == r.subject % 2 ^ 23

/-- The 32-byte log record (R482). -/
def logRecord (r : Report) (time info seq : Nat) : List Byte :=
  let body := leBytes 2 r.code ++ leBytes 1 r.subj.cls ++ leBytes 1 r.subj.inst ++ leBytes 1 (r.dev % 128) ++
    leBytes 1 r.rep.cls ++ leBytes 1 r.rep.inst ++
    leBytes 1 (r.fatal.toNat + 2 * r.event.toNat + 4 * r.remote.toNat) ++ leBytes 8 time ++ leBytes 8 info ++ leBytes 4 seq
  body ++ leBytes 4 (crc32c body)

/-- Request the error interrupt of block `b` of `p`: at once when none was raised in the last 1 ms, otherwise left to
the 1 ms timer (R481). -/
def State.errIrq (s : State) (p b : Nat) : State :=
  let k := p * 16 + b
  match Tab.get? s.rel.irqAt k with
  | some t =>
    if t + 1000000 ≤ s.now then
      { s with rel := { s.rel with irqAt := s.rel.irqAt.put k s.now } }.irqReg p (Reg.QM_PT_ERR_VEC p)
    else { s with rel := { s.rel with irqDue := insSorted k s.rel.irqDue } }
  | none => { s with rel := { s.rel with irqAt := s.rel.irqAt.put k s.now } }.irqReg p (Reg.QM_PT_ERR_VEC p)

/-- Write one report to the error log of `p` (R482): nothing while LOG_EN is 0; a full ring counts LOG_LOST; a write
that fails R35 clears LOG_EN and marks the failure, which the caller reports. -/
def State.logWrite (s : State) (p : Nat) (r : Report) (info seq : Nat) : State × Bool :=
  if !s.rdB (Reg.ERR_PT_CFG p) 0 then (s, false)
  else
    let size := 2 ^ s.rdF (Reg.ERR_PT_CFG p) 1 4
    let tail := s.rdN (Reg.ERR_PT_LOG_TAIL p)
    if (tail + 2 ^ 32 - s.rdN (Reg.ERR_PT_LOG_HEAD p)) % 2 ^ 32 ≥ size then (s.bump (Reg.ERR_PT_LOG_LOST p) 1, false)
    else
      match s.writeDva p ⟨0, 0⟩ (s.rdN (Reg.ERR_PT_LOG_BASE p) + tail % size * 32) (logRecord r s.now info seq) with
      | .done s' => (s'.wr (Reg.ERR_PT_LOG_TAIL p) ((tail + 1) % 2 ^ 32), false)
      | _ => (s.wrF (Reg.ERR_PT_CFG p) 0 1 0, true)

/-- Latch and count a report to partition `p` (R480), and say whether it is to be logged. -/
def State.latchReport (s : State) (p : Nat) (r : Report) (info : Nat) : State × Bool :=
  let b := r.code / 256
  let first := s.rdN (Reg.ERR_PT_B_FIRST p b)
  if !bitAt first 31 then
    ((((((s.wr (Reg.ERR_PT_B_FIRST p b) (r.code + 2 ^ 31)).wr (Reg.ERR_PT_B_SUBJECT p b) r.subject).wr
      (Reg.ERR_PT_B_TIME p b) s.now).wr (Reg.ERR_PT_B_INFO p b) info).wr (Reg.ERR_PT_B_STORM p b) 0).wr
      (Reg.ERR_PT_B_OTHERS p b) 0, true)
  else if latchSame first (s.rdN (Reg.ERR_PT_B_SUBJECT p b)) r then (s.bump (Reg.ERR_PT_B_STORM p b) 1, false)
  else (s.bump (Reg.ERR_PT_B_OTHERS p b) 1, true)

/-- One report to partition `p`, without the report of a failed log write: latch, log, PENDING, the counter and the
interrupt, in the order of R480 to R482; a report of DBG_FRZ_CODE freezes (R547). -/
def State.reportOnce (s : State) (p : Nat) (r : Report) : State × Bool :=
  let info := if s.isConf p then 0 else r.info
  let b := r.code / 256
  let seq := (s.rel.seq.getD p 0 + 1) % 2 ^ 32
  let s1 := s.event r.rep 0x03 p r.code info 0
  let (s2, log) := s1.latchReport p r info
  let (s3, bad) := if log then s2.logWrite p r info seq else (s2, false)
  let s4 := { s3 with rel := { s3.rel with seq := s3.rel.seq.put p seq } }
  let s5 := (s4.wr (Reg.ERR_PT_PENDING p) (s4.rdN (Reg.ERR_PT_PENDING p) ||| 2 ^ b)).bump (Reg.ERR_PT_REPORTS p) 1
  let s6 := s5.errIrq p b
  (if s6.rdB Reg.DBG_FRZ_CFG 4 && s6.rdF Reg.DBG_FRZ_CFG 16 16 == r.code then s6.freezeLocal 5 else s6, bad)

/-- A report to partition `p` (R480 to R482); a log write that fails raises 0x0D09, which is not logged again. -/
def State.report (s : State) (p : Nat) (r : Report) : State :=
  match s.reportOnce p r with
  | (s1, false) => s1
  | (s1, true) => (s1.reportOnce p { code := 0x0D09, rep := r.rep }).1

/-- A report of `code` by unit `u` about itself. -/
def State.err (s : State) (p : Nat) (u : UnitId) (code : Nat) (info : Nat := 0) : State :=
  s.report p { code := code, subj := u, rep := u, info := info }

/-- An event of a single-instance block to PT_0 or to `p`. -/
def State.evt (s : State) (p : Nat) (code : Nat) (info : Nat := 0) : State :=
  s.report p { code := code, info := info, event := true }

/-- The same report to each partition of a list, once each. -/
def State.errAll (s : State) (ps : List Nat) (r : Report) : State := ps.foldl (fun s p => s.report p r) s

/-- Set sticky bit `i` of a W1C error register. -/
def State.sticky (s : State) (a i : Nat) : State := s.wr a (s.rdN a ||| 2 ^ i)

/-- Latch a descriptor or address fault of `p` while none is latched (R177). -/
def State.latchFault (s : State) (p handle : Nat) (u : UnitId) (cause addr : Nat) : State :=
  if s.rdB (Reg.DSC_PT_FAULT_INFO p) 63 then s
  else (s.wr (Reg.DSC_PT_FAULT_ADDR p) addr).wr (Reg.DSC_PT_FAULT_INFO p)
    (handle % 65536 + u.cls % 256 * 2 ^ 16 + u.inst % 256 * 2 ^ 24 + cause % 8 * 2 ^ 32 + 2 ^ 63)

/-- Raise a refusal under R35 for a use by unit `u`: 0x0503, latched with its cause when a descriptor was used (R177), and
0x0908 for a poisoned table read (R372). -/
def State.oob (s : State) (p : Nat) (u : UnitId) (handle : Option Nat) (f : XFault) (addr : Nat) : State :=
  let s1 := if f.poisonedTable then s.err p u 0x0908 addr else s
  let s2 := match handle with
    | some h => s1.latchFault p h u f.cause addr
    | none => s1
  s2.err p u 0x0503 addr

/-- A request for a resource that `p` does not own (R20): 0x0503 to `p`, with CAUSE 7 (R177). -/
def State.notOwned (s : State) (p : Nat) (u : UnitId) (i : Nat) : State := (s.latchFault p 0 u 7 i).err p u 0x0503 i

/-! ## Ownership (R18, R20) and the capability table (R24) -/

/-- The key of unit `i` of class `c` in the owner table. -/
def ownKey (c i : Nat) : Nat := c * 65536 + i

/-- The partition that owns unit `i` of class `c` (R18). -/
def State.ownerOf (s : State) (c i : Nat) : Option Nat := Tab.get? s.own (ownKey c i)

/-- Partition `p` owns unit `i` of class `c`. -/
def State.owns (s : State) (p c i : Nat) : Bool := s.ownerOf c i == some p

/-- A change of the capability table (R24): CAP_GEN moves through an odd value to the next even one, and then 0x0D01 is
raised to every partition. -/
def State.capChange (s : State) : State :=
  let s1 := s.wr Reg.CAP_GEN ((s.rdN Reg.CAP_GEN + 2) % 2 ^ 32)
  s1.errAll (List.range 16) { code := 0x0D01, event := true }

/-! ## Sync flags (R268 to R271, R284) and the trace (R544) -/

/-- A record of the synchronisation trace of `p` (R544, R549). -/
def State.trace (s : State) (p op : Nat) (agent : UnitId) (flag : Nat) (acq : Bool) (byU : UnitId) (value arg ctx : Nat) : State :=
  let cfg := s.rdN (Reg.DBG_PT_TRACE_CFG p)
  if !bitAt cfg 0 || bitAt cfg 2 || s.isFrozen then s
  else
    let size := 2 ^ fld cfg 3 5
    let tail := s.rdN (Reg.DBG_PT_TRACE_TAIL p)
    let us := s.now / 1000
    let used := if s.dbg.allow.1 = us then s.dbg.allow.2 else 0
    let full := !bitAt cfg 1 && (tail + 2 ^ 32 - s.rdN (Reg.DBG_PT_TRACE_HEAD p)) % 2 ^ 32 ≥ size
    if full || 16800 < used + 32 then
      let s1 := s.bump (Reg.DBG_PT_TRACE_DROP p) 1
      { s1 with dbg := { s1.dbg with lost := s1.dbg.lost.put p true } }
    else
      let hide := s.isConf p
      let z (v : Nat) := if hide then 0 else v
      let rec_ := leBytes 8 s.now ++ leBytes 1 op ++ leBytes 1 agent.cls ++ leBytes 1 agent.inst ++
        leBytes 1 ((s.dbg.lost.getD p false).toNat + 2 * acq.toNat) ++ leBytes 2 (flag % 32768) ++
        leBytes 1 byU.cls ++ leBytes 1 byU.inst ++ leBytes 4 (z value) ++ leBytes 4 (z arg) ++ leBytes 8 (z ctx)
      match s.writeDva p ⟨0x33, 0⟩ (s.rdN (Reg.DBG_PT_TRACE_BASE p) + tail % size * 32) rec_ with
      | .done s1 =>
        let s2 := s1.wr (Reg.DBG_PT_TRACE_TAIL p) ((tail + 1) % 2 ^ 32)
        { s2 with dbg := { s2.dbg with lost := s2.dbg.lost.del p, allow := (us, used + 32) } }
      | _ => (s.wrF (Reg.DBG_PT_TRACE_CFG p) 0 1 0).err p ⟨0, 0⟩ 0x0B06

/-- Flag `i`. -/
def State.flag (s : State) (i : Nat) : Flag := s.flags.tab.getD i {}

/-- Replace flag `i`. -/
def State.setFlag (s : State) (i : Nat) (f : Flag) : State :=
  { s with flags := { s.flags with tab := Tab.write (fun _ => {}) s.flags.tab i f } }

/-- The owner of flag `i` (R268). -/
def State.flagOwner (s : State) (i : Nat) : Option Nat := s.ownerOf 0x33 i

/-- Partition `p` makes progress (R305): the deadlock monitor re-arms. -/
def State.progress (s : State) (p : Nat) : State := { s with gs := { s.gs with quiet := s.gs.quiet.del p } }

/-- What the satisfaction of wait `w` on flag `i` counts and records (R286, R544): SYN_PT_WAITS, the time waited of a
Frond or channel, and the trace. -/
def State.waitDone (s : State) (i value : Nat) (agent : UnitId) (w : Wait) : State :=
  let s1 := (s.progress w.pt).bump (Reg.SYN_PT_WAITS w.pt) 1
  let s2 := if w.agent.cls = 0x01 ∨ w.agent.cls = 0x21 then s1.bump (Reg.SYN_PT_WAIT_NS w.pt) (s.now - w.since) else s1
  s2.trace w.pt 4 w.agent i false agent value w.target w.ctx

/-- Evaluate the pending waits of flag `i` after an operation by `agent` (R270): a wait whose target the value has
reached is satisfied, and stays so. -/
def State.evalWaits (s : State) (i : Nat) (agent : UnitId) : State :=
  let f := s.flag i
  let ready := f.waits.filter fun w => w.ended = none ∧ w.target ≤ f.value
  let s1 := s.setFlag i { f with waits := f.waits.map fun w =>
    if w.ended = none ∧ w.target ≤ f.value then { w with ended := some 0, endedBy := agent } else w }
  ready.foldl (fun s w => s.waitDone i f.value agent w) s1

/-- Raise 0x0B05 for an operation on poisoned flag `i` (R284): to the requester's partition and the owner's. -/
def State.flagPoisonErr (s : State) (i p q : Nat) (u : UnitId) : State :=
  let s1 := s.report p { code := 0x0B05, rep := u, info := i }
  if p = q then s1 else s1.report q { code := 0x0B05, rep := u, info := i }

/-- Why an operation on a flag is refused: its code. -/
abbrev FlagRes := Except Nat State

/-- Signal flag `i` by `n` for partition `p` (R270, R271, R284): not owned 0x0503; poisoned 0x0B05; a wrap is refused
with 0x0B02 to the owner and the requester goes on. -/
def State.flagSignal (s : State) (p i n : Nat) (agent : UnitId) (ctx : Nat := 0) (op : Nat := 1) : State × Nat :=
  if !s.owns p 0x33 i then (s.notOwned p agent i, 0x0503)
  else
    let f := s.flag i
    if f.poisoned then (s.flagPoisonErr i p p agent, 0x0B05)
    else if f.value + n ≥ 2 ^ 32 then
      let s1 := (s.bump (Reg.SYN_PT_REFUSED p) 1).wr (Reg.SYN_PT_LAST_REFUSED p) (i + 2 ^ 31)
      let s2 := s1.trace p 5 agent i false ⟨0, 0⟩ f.value n ctx
      (s2.report p { code := 0x0B02, rep := agent, info := i }, 0)
    else
      let s1 := (s.progress p).setFlag i { f with value := f.value + n }
      let s2 := (s1.bump (Reg.SYN_PT_SIGNALS p) 1).trace p op agent i false ⟨0, 0⟩ (f.value + n) n ctx
      (s2.evalWaits i agent, 0)

/-- Set flag `i` to `n` for partition `p` (R270, R284): a set of the owner clears poison. -/
def State.flagSet (s : State) (p i n : Nat) (agent : UnitId) (ctx : Nat := 0) : State × Nat :=
  if !s.owns p 0x33 i then (s.notOwned p agent i, 0x0503)
  else
    let f := s.flag i
    let s1 := (s.progress p).setFlag i { f with value := n % 2 ^ 32, poisoned := false }
    let s2 := (s1.bump (Reg.SYN_PT_SIGNALS p) 1).trace p 2 agent i false ⟨0, 0⟩ (n % 2 ^ 32) (n % 2 ^ 32) ctx
    (s2.evalWaits i agent, 0)

/-- Begin a wait of `agent` on flag `i` for `target` (R270, R284): satisfied at once when the value has reached it. -/
def State.flagWait (s : State) (p i target : Nat) (agent : UnitId) (ctx : Nat := 0) : State × Nat :=
  if !s.owns p 0x33 i then (s.notOwned p agent i, 0x0503)
  else
    let f := s.flag i
    if f.poisoned then (s.flagPoisonErr i p p agent, 0x0B05)
    else
      let w : Wait := { agent := agent, pt := p, target := target, since := s.now, ctx := ctx }
      let s1 := (s.setFlag i { f with waits := f.waits ++ [w] }).trace p 3 agent i false ⟨0, 0⟩ f.value target ctx
      (s1.evalWaits i agent, 0)

/-- Release an operation to the flag unit (R277 rule 5): it is applied in the order of arrival (R269). -/
def State.flagPush (s : State) (op : FlagOp) : State :=
  { s with flags := { s.flags with queue := s.flags.queue ++ [op] } }

/-- Signal the flag a register names: [14:0] flag, [31] enable, in partition `p`, as a release of `agent`. -/
def State.flagReg (s : State) (p a n : Nat) (agent : UnitId) : State :=
  if s.rdB a 31 then s.flagPush { isSet := false, flag := s.rdF a 0 15, n := n, pt := p, agent := agent } else s

/-- Drop the waits of `agent` (R151, R232, R343: an aborted job's wait ends); a pending one leaves a trace record (R544). -/
def State.dropWaits (s : State) (agent : UnitId) : State :=
  let gone := s.flags.tab.flatMap fun e => (e.2.waits.filter fun w => w.agent == agent && w.ended.isNone).map fun w => (e.1, e.2.value, w)
  let t := s.flags.tab.map fun e => (e.1, { e.2 with waits := e.2.waits.filter fun w => w.agent != agent })
  gone.foldl (fun s x => s.trace x.2.2.pt 7 agent x.1 false ⟨0, 0⟩ x.2.1 x.2.2.target x.2.2.ctx)
    { s with flags := { s.flags with tab := t.filter fun e => e.2 != {} } }

/-- Hand an item to the queue manager for completion ring `ring` of `p` (R391): it is posted by COMPLETION_POST. -/
def State.postItem (s : State) (p ring : Nat) (bytes : List Byte) (act : Option PostAct := none) : State :=
  { s with qm := { s.qm with posts := s.qm.posts ++ [⟨ring, p, bytes, act⟩] } }

/-- Put a record into the event queue of the management port (R563). -/
def State.mgtPush (s : State) (cls : Nat) (body : List Byte) : State :=
  let n := (s.mgt.seq + 1) % 2 ^ 32
  { s with mgt := { s.mgt with events := s.mgt.events ++ [⟨cls, s.mgt.lost, n, body⟩], seq := n, lost := false } }

/-- Queue a record for the management port (R563): a queue of 64 that is full discards it and the next carries FLAGS[0]; a checker
item waits for room. -/
def State.mgtEvent (s : State) (cls : Nat) (body : List Byte) : State :=
  if s.mgt.events.length < 64 ∧ s.mgt.waiting.isEmpty then s.mgtPush cls body
  else if cls = 1 then { s with mgt := { s.mgt with waiting := s.mgt.waiting ++ [body] } }
  else { (s.bump Reg.MGT_EVT_LOST 1) with mgt := { s.mgt with lost := true } }

/-! ## Rings (R385 to R400) -/

/-- The unit of the queue manager. -/
def uQm : UnitId := ⟨0, 1⟩

/-- SIZE of ring `r` (R385). -/
def State.ringSize (s : State) (r : Nat) : Nat := 2 ^ s.rdF (Reg.RING_CFG r) 2 5

/-- TAIL - HEAD, modulo 2³² (R386). -/
def State.ringUsed (s : State) (r : Nat) : Nat :=
  (s.rdN (Reg.RING_TAIL r) + 2 ^ 32 - s.rdN (Reg.RING_HEAD r)) % 2 ^ 32

/-- DVA of entry `k` of ring `r` (R386). -/
def State.ringEntry (s : State) (r k : Nat) : Nat := s.rdN (Reg.RING_BASE r) + k % s.ringSize r * 64

/-- The interrupt of ring `r` (R400): none during its hold-off, at whose end one follows. -/
def State.ringIrq (s : State) (p r : Nat) : State :=
  if !s.rdB (Reg.RING_CFG r) 8 then s
  else
    match Tab.get? s.qm.holdoff r with
    | some h => { s with qm := { s.qm with holdoff := s.qm.holdoff.put r { h with due := true } } }
    | none =>
      let s1 := s.irq p (s.rdF (Reg.RING_CFG r) 9 8)
      let d := s.rdF (Reg.RING_CFG r) 17 8
      if d = 0 then s1
      else { s1 with qm := { s1.qm with holdoff := s1.qm.holdoff.put r ⟨s.now + d * 1000, false⟩ } }

/-- The write-back of ring `r` (R392): TAIL or HEAD with EPOCH, one 8-byte write; a bus error loses it with 0x0A06, a
refusal under R35 disables the ring with 0x0503 and 0x0A05 (R385). -/
def State.ringWriteBack (s : State) (p r v : Nat) : State :=
  if !s.rdB (Reg.RING_CFG r) 7 then s
  else
    match s.writeDva p uQm (s.rdN (Reg.RING_WB r)) (leBytes 8 (v % 2 ^ 32 + s.rdF (Reg.RING_EPOCH r) 0 16 * 2 ^ 32)) with
    | .done s1 => s1
    | .bus a => s.err p uQm 0x0A06 a
    | .refused f a => (((s.wrF (Reg.RING_CFG r) 0 1 0).wrF (Reg.RING_STATUS r) 16 16 0x0A05).oob p uQm none f a).err p uQm 0x0A05 r

/-- HEAD of a submission ring advances by `n` entries, with its write-back (R392, R395). -/
def State.ringHead (s : State) (p r n : Nat) : State :=
  let h := (s.rdN (Reg.RING_HEAD r) + n) % 2 ^ 32
  (s.wr (Reg.RING_HEAD r) h).ringWriteBack p r h

/-- The 64-byte completion entry of a submission item (R396). -/
def itemRecord (h : Handed) (code time : Nat) : List Byte :=
  let body := leBytes 1 3 ++ leBytes 1 0 ++ leBytes 2 code ++ leBytes 4 h.tag ++ leBytes 2 h.ring ++ leBytes 1 h.opc ++
    leBytes 5 0 ++ leBytes 4 h.index ++ leBytes 4 0 ++ leBytes 8 time ++ leBytes 28 0
  body ++ leBytes 4 (crc32c body)

/-- What a finished or refused item leaves (R396, R400): a completion item when CMPL is 1 or it failed, and the ring's
interrupt when it failed. -/
def State.itemFinish (s : State) (h : Handed) (code : Nat) : State :=
  match s.ownerOf 0x31 h.ring with
  | none => s
  | some p =>
    let cq := s.rdN (Reg.RING_CQ h.ring)
    let s1 := if (bitAt h.flags 0 || code != 0) && bitAt cq 31 && s.owns p 0x31 (fld cq 0 13)
      then s.postItem p (fld cq 0 13) (itemRecord h code s.now) else s
    if code = 0 then s1 else (s1.wrF (Reg.RING_STATUS h.ring) 16 16 code).ringIrq p h.ring

/-- The handed item with key ring × 2³² + index is done with a code (R395, R396). -/
def State.itemDone (s : State) (key code : Nat) : State :=
  match s.qm.handed.find? fun h => h.ring * 2 ^ 32 + h.index == key with
  | none => s
  | some h => { s with qm := { s.qm with handed := s.qm.handed.erase h } }.itemFinish h code

/-- Count traffic of `p` against its memory share (R405). -/
def State.chargeShare (s : State) (p bytes : Nat) : State :=
  let s1 := s.bump (Reg.QOS_PT_MEM_BYTES p) bytes
  { s1 with qm := { s1.qm with admitted := s1.qm.admitted.upd p 0 (· + (bytes + 63) / 64) } }

/-! ## The power ladder (R516 to R521) -/

/-- The rung of the device. -/
def State.rung (s : State) : Nat := s.rdF Reg.PWR_STATUS 0 3

/-- The device reaches rung `k`: the time spent below P0 is counted, and the debug block's ring records the change (R535,
R542). -/
def State.setRung (s : State) (k : Nat) : State :=
  let old := s.rung
  if old = k then s
  else
    let s1 := if old = 0 then s else s.bump (Reg.PWR_TIME old) ((s.now - s.pwr.since) / 1000)
    let s2 := { s1.wrF Reg.PWR_STATUS 0 3 k with pwr := { s1.pwr with since := s1.now } }
    let s3 := s2.event uDebug 0x09 0x80 k old (s2.rdN Reg.PWR_WAKE_CAUSE)
    let r := s2.dbg.rings.getD (ringKey uDebug) {}
    s3.mgtEvent 6 (EvRec.bytes ⟨s2.now, 0x09, uDebug, 0x80, k, r.written % 65536, old, s2.rdN Reg.PWR_WAKE_CAUSE⟩)

/-- The device returns from P1 to P0 for an event that needs an NE, BK or ISP clock (R518). -/
def State.needP0 (s : State) : State :=
  if s.rung = 1 ∧ s.pwr.entry.isNone ∧ !s.pwr.exiting then s.setRung 0 else s

/-- The longest entry into a rung in ns (R521). -/
def entryTime (k : Nat) : Nat := if k = 2 then 2000 else if k = 3 then 200000 else 300000

/-- What wakes the device (R520, R521): it sets its cause and starts the exit, or cancels an entry unless the entry is in its last
10 %, and then the exit follows the entry. -/
def State.wakeNow (s : State) (i : Nat) : State :=
  match s.pwr.entry with
  | some (k, t) =>
    let s1 := s.wr Reg.PWR_WAKE_CAUSE (2 ^ i)
    if (s.now - t) * 10 < entryTime k * 9 then
      { s1.wrF Reg.PWR_STATUS 3 1 0 with pwr := { s1.pwr with entry := none, exiting := true } }
    else { s1 with pwr := { s1.pwr with late := true } }
  | none =>
    if s.pwr.exiting then s.wr Reg.PWR_WAKE_CAUSE (s.rdN Reg.PWR_WAKE_CAUSE ||| 2 ^ i)
    else if 2 ≤ s.rung then { s.wr Reg.PWR_WAKE_CAUSE (2 ^ i) with pwr := { s.pwr with exiting := true } }
    else s

/-- Wake source `i` of R520: PWR_WAKE_EN enables it, and in P4 the PCIe endpoint is off. -/
def State.wake (s : State) (i : Nat) : State :=
  if !s.rdB Reg.PWR_WAKE_EN i || (s.rung = 4 && i = 0) then s else s.wakeNow i

/-- Partition `p` is READY (R401). -/
def State.ptReady (s : State) (p : Nat) : Bool := s.rdF (Reg.QM_PT_STATE p) 0 3 == 1

end Sys2Proof.Machine
end

