-- ==== Sys2Proof/Machine/Descriptor.lean ====
section
/-! DEFINITION. Sys2Proof/Machine/Descriptor.lean: tensor, index and sharding descriptors (07_tensor_descriptors, R155 to
R188): their layouts, what validation at creation accepts, views and addresses. -/

namespace Sys2Proof.Machine

/-- A tensor descriptor's fields (R166). -/
structure Desc where
  etype : Nat
  rank : Nat
  layout : Nat
  flags : Nat
  base : Nat
  dim : List Nat
  br : Nat
  bc : Nat
  stride : List Nat
  sb : Nat
  stype : Nat
  scaleBase : Nat
  scaleRs : Nat
  tscale : Nat
  kw : Nat
  kh : Nat
  sw : Nat
  sh : Nat
  dw : Nat
  dh : Nat
  padL : Nat
  padR : Nat
  padT : Nat
  padB : Nat
  index : Nat
  shard : Nat
  retain : Nat
  gdim : Nat
  cmpLo : Nat
  cmpHi : Nat
  recAddr : Nat
  shardCoord : Nat
  replica : Nat
deriving DecidableEq, Repr

/-- Read the fields of a 128-byte image (R166). -/
def Desc.ofBytes (b : List Byte) : Desc where
  etype := getLE b 3 1
  rank := getLE b 4 1
  layout := getLE b 5 1
  flags := getLE b 6 2
  base := getLE b 8 8
  dim := (List.range 5).map fun d => getLE b (0x10 + 4 * d) 4
  br := getLE b 0x24 2
  bc := getLE b 0x26 2
  stride := (List.range 5).map fun d => getLE b (0x28 + 6 * d) 6
  sb := getLE b 0x46 1
  stype := getLE b 0x47 1
  scaleBase := getLE b 0x48 8
  scaleRs := getLE b 0x50 4
  tscale := getLE b 0x54 4
  kw := getLE b 0x58 1
  kh := getLE b 0x59 1
  sw := getLE b 0x5A 1
  sh := getLE b 0x5B 1
  dw := getLE b 0x5C 1
  dh := getLE b 0x5D 1
  padL := getLE b 0x5E 1
  padR := getLE b 0x5F 1
  padT := getLE b 0x60 1
  padB := getLE b 0x61 1
  index := getLE b 0x62 2
  shard := getLE b 0x64 2
  retain := getLE b 0x66 1
  gdim := getLE b 0x67 1
  cmpLo := getLE b 0x68 4
  cmpHi := getLE b 0x6C 4
  recAddr := getLE b 0x70 8
  shardCoord := getLE b 0x78 2
  replica := getLE b 0x7A 1

/-- DIM[d]. -/
def Desc.dimAt (t : Desc) (d : Nat) : Nat := t.dim.getD d 0
/-- STRIDE[d]. -/
def Desc.strideAt (t : Desc) (d : Nat) : Nat := t.stride.getD d 0
/-- FLAGS.READ (R167). -/
def Desc.canRead (t : Desc) : Bool := bitAt t.flags 0
/-- FLAGS.WRITE (R167). -/
def Desc.canWrite (t : Desc) : Bool := bitAt t.flags 1
/-- FLAGS.WINDOW (R167). -/
def Desc.isWindow (t : Desc) : Bool := bitAt t.flags 2
/-- FLAGS.INDEXED (R167). -/
def Desc.isIndexed (t : Desc) : Bool := bitAt t.flags 3
/-- FLAGS.SHARDED (R167). -/
def Desc.isSharded (t : Desc) : Bool := bitAt t.flags 4
/-- FLAGS.CMP_MODE (R167). -/
def Desc.cmpMode (t : Desc) : Nat := fld t.flags 5 2
/-- FLAGS.CMP_DIM (R167). -/
def Desc.cmpDim (t : Desc) : Nat := fld t.flags 7 3

/-- Bits per element and scale type of an element type (R168); none for a code that is refused. -/
def etypeInfo (e : Nat) : Option (Nat × Nat) :=
  match e with
  | 0x00 => some (32, 0) | 0x0B => some (32, 0)
  | 0x01 => some (16, 0) | 0x02 => some (16, 0)
  | 0x03 => some (8, 0) | 0x04 => some (8, 0) | 0x08 => some (8, 0) | 0x09 => some (8, 0)
  | 0x0C => some (8, 0) | 0x0D => some (8, 0)
  | 0x05 => some (6, 0) | 0x06 => some (6, 0)
  | 0x07 => some (4, 0) | 0x0A => some (4, 0)
  | 0x10 => some (8, 0x0C) | 0x11 => some (8, 0x0C) | 0x15 => some (8, 0x0C)
  | 0x12 => some (6, 0x0C) | 0x13 => some (6, 0x0C)
  | 0x14 => some (4, 0x0C)
  | 0x18 => some (4, 0x0D)
  | _ => none

/-- Bits per element. -/
def Desc.bits (t : Desc) : Nat := ((etypeInfo t.etype).getD (8, 0)).1
/-- Scale type, 0 when unscaled. -/
def Desc.scaleType (t : Desc) : Nat := ((etypeInfo t.etype).getD (8, 0)).2
/-- ⌈a / b⌉. -/
def ceilDiv (a b : Nat) : Nat := (a + b - 1) / b
/-- The product of DIM over the dimensions 1 to RANK - 1. -/
def Desc.rows (t : Desc) : Nat := ((t.dim.take t.rank).drop 1).foldl (· * ·) 1

/-- Footprint size in bytes (R175). -/
def Desc.extent (t : Desc) : Nat :=
  let hi (lo : Nat) := ((List.range t.rank).filter (lo ≤ ·)).foldl (fun a d => a + (t.dimAt d - 1) * t.strideAt d) 0
  if t.layout = 0 then
    (if 8 ≤ t.bits then (t.dimAt 0 - 1) * t.strideAt 0 + t.bits / 8 else t.dimAt 0 * t.bits / 8) + hi 1
  else ceilDiv (t.dimAt 0) t.bc * 64 * t.br + (ceilDiv (t.dimAt 1) t.br - 1) * t.strideAt 1 + hi 2

/-- Scale footprint size in bytes (R175). -/
def Desc.scaleExtent (t : Desc) : Nat := (t.rows - 1) * t.scaleRs + ceilDiv (t.dimAt 0) 32

/-- Output sizes of a window view (R178), as integers: below 1 when the parameters do not fit. -/
def windowOut (w padA padB d k st : Nat) : Int :=
  ((w : Int) + padA + padB - d * (k - 1) - 1) / st + 1

/-- The view's dimensions (R178, R181), given the index descriptor's COUNT. -/
def Desc.viewDims (t : Desc) (count : Nat) : List Nat :=
  if t.isWindow then
    [t.dimAt 0 * t.kw * t.kh,
     (windowOut (t.dimAt 1) t.padL t.padR t.dw t.kw t.sw).toNat,
     (windowOut (t.dimAt 2) t.padT t.padB t.dh t.kh t.sh).toNat] ++ (if t.rank = 4 then [t.dimAt 3] else [])
  else (List.range t.rank).map fun d => if t.isIndexed && d == t.gdim then count else t.dimAt d

/-- Step 1 and 2 of R176: encodings, reserved fields, RANK and DIM (0x0501). -/
def Desc.encodingOk (t : Desc) (b : List Byte) : Bool :=
  getLE b 2 1 == 1 && (etypeInfo t.etype).isSome && 1 ≤ t.rank && t.rank ≤ 5 && t.layout ≤ 1 &&
  fld t.flags 10 6 == 0 && t.cmpMode != 3 && t.retain ≤ 3 && t.gdim < 8 && getLE b 0x7B 5 == 0 &&
  (t.canRead || t.canWrite) &&
  (List.range 5).all (fun d => if d < t.rank then 1 ≤ t.dimAt d else t.dimAt d == 0 && t.strideAt d == 0)

/-- Step 3 of R176: packing, layout and alignment (R169, R171, R172; 0x0504). -/
def Desc.layoutOk (t : Desc) : Bool :=
  let es := t.bits / 8
  (t.bits != 4 || t.dimAt 0 % 2 == 0) && (t.bits != 6 || t.dimAt 0 % 4 == 0) &&
  (if t.layout = 0 then
    (if 8 ≤ t.bits then
      t.strideAt 0 != 0 && t.base % es == 0 && (t.stride.take t.rank).all (· % es == 0) &&
      (t.scaleType == 0 || t.strideAt 0 == es)
    else t.strideAt 0 == 0)
  else
    t.bits != 6 && 2 ≤ t.rank && t.strideAt 0 == 0 && t.bc * t.bits == 512 &&
    [2, 4, 8, 16, 32, 64].contains t.br && t.base % 64 == 0 && t.strideAt 1 % 64 == 0 &&
    ceilDiv (t.dimAt 0) t.bc * 64 * t.br ≤ t.strideAt 1 && ((t.stride.take t.rank).drop 2).all (· % 64 == 0))

/-- An FP32 code is finite. -/
def fp32Finite (v : Nat) : Bool := fld v 23 8 != 255

/-- Step 4 of R176: scales (R170; 0x0505). The value and scale arrays do not overlap (assumption 14). -/
def Desc.scalesOk (t : Desc) : Bool :=
  if t.scaleType = 0 then t.sb == 0 && t.stype == 0 && t.scaleBase == 0 && t.scaleRs == 0 && t.tscale == 0
  else
    t.sb == 32 && t.stype == t.scaleType && t.scaleBase % 16 == 0 && t.scaleRs % 16 == 0 &&
    ceilDiv (t.dimAt 0) 32 ≤ t.scaleRs && (if t.etype = 0x18 then fp32Finite t.tscale else t.tscale == 0) &&
    (t.base + t.extent ≤ t.scaleBase || t.scaleBase + t.scaleExtent ≤ t.base)

/-- One valid region of `p` covers [base, base + n) with R and W as asked (R176 step 5). -/
def State.oneRegion (s : State) (p base n : Nat) (r w : Bool) : Bool :=
  base < 2 ^ 48 && s.dsc.regions.any fun e =>
    e.2.pt == p && e.2.base ≤ base && base + n ≤ e.2.base + e.2.size && (!r || e.2.r) && (!w || (e.2.w && !e.2.desc))

/-- Dimensions in order of stride: insertion into a list sorted by stride. -/
def insByStride (d : Nat × Nat) : List (Nat × Nat) → List (Nat × Nat)
  | [] => [d]
  | x :: xs => if d.1 ≤ x.1 then d :: x :: xs else x :: insByStride d xs

/-- Each stride is at least the extent below it (R176 step 6). -/
def disjointFrom : Nat → List (Nat × Nat) → Bool
  | _, [] => true
  | ext, (st, n) :: ds => ext ≤ st && disjointFrom ((n - 1) * st + ext) ds

/-- Step 6 of R176: no two elements share a byte (0x0504). -/
def Desc.noOverlap (t : Desc) : Bool :=
  let row := if t.layout = 0 then
      (if 8 ≤ t.bits then (t.dimAt 0 - 1) * t.strideAt 0 + t.bits / 8 else t.dimAt 0 * t.bits / 8)
    else ceilDiv (t.dimAt 0) t.bc * 64 * t.br
  let ds := ((List.range t.rank).filter (1 ≤ ·)).map fun d =>
    (t.strideAt d, if t.layout = 1 ∧ d = 1 then ceilDiv (t.dimAt 1) t.br else t.dimAt d)
  ds.all (fun e => e.1 != 0) && disjointFrom row (ds.foldl (fun l d => insByStride d l) [])

/-- Step 7 of R176: window parameters (R178, R167; 0x0507). -/
def Desc.windowOk (t : Desc) : Bool :=
  !t.isWindow ||
  (!t.canWrite && t.layout == 0 && (t.rank == 3 || t.rank == 4) &&
    t.strideAt 0 == (if 8 ≤ t.bits then t.bits / 8 else 0) &&
    1 ≤ t.kw && t.kw ≤ 15 && 1 ≤ t.kh && t.kh ≤ 15 && 1 ≤ t.sw && t.sw ≤ 8 && 1 ≤ t.sh && t.sh ≤ 8 &&
    1 ≤ t.dw && t.dw ≤ 8 && 1 ≤ t.dh && t.dh ≤ 8 && t.padL ≤ 15 && t.padR ≤ 15 && t.padT ≤ 15 && t.padB ≤ 15 &&
    (t.scaleType == 0 || t.dimAt 0 % 32 == 0) &&
    1 ≤ windowOut (t.dimAt 1) t.padL t.padR t.dw t.kw t.sw && 1 ≤ windowOut (t.dimAt 2) t.padT t.padB t.dh t.kh t.sh)

/-- MAGIC of a valid entry (R156): what the descriptor unit holds of handle `h` of `p`. -/
def State.entryKind (s : State) (p h : Nat) : Option Nat := Tab.get? s.dsc.valid (p * 65536 + h)

/-- The entry's address (R155). -/
def State.entryAddr (s : State) (p h : Nat) : Nat := s.rdN (Reg.DSC_PT_TABLE p) + h * 128

/-- The current image of a valid entry of the kind, for the descriptor unit's own use. -/
def State.entryImage (s : State) (p h kind : Nat) : Option (List Byte) :=
  if s.entryKind p h = some kind ∧ h < s.rdN (Reg.DSC_PT_COUNT p) then
    match s.readDva p (s.entryAddr p h) 128 with
    | .data bs false => some bs
    | _ => none
  else none

/-- Size of shard `k` of a dimension of `g` indices in `n` shards (R184). -/
def shardSize (g n k : Nat) : Nat := if k < g % n then g / n + 1 else g / n

/-- The sharding agrees with the descriptor (R185). -/
def State.shardOk (s : State) (p : Nat) (t : Desc) (rec_ : List Byte) : Bool :=
  let rank := getLE rec_ 3 1
  let repl := getLE rec_ 4 1
  let gd (d : Nat) := getLE rec_ (8 + 4 * d) 4
  let sp (d : Nat) := getLE rec_ (0x1C + d) 1
  let prod (n : Nat) := (List.range n).foldl (fun a d => a * sp d) 1
  t.rank == rank && t.shardCoord < prod rank && t.replica < repl &&
  (match s.readDva p (getLE rec_ 0x28 8 + t.shardCoord * repl + t.replica) 1 with
    | .data [m] false => m.toNat == s.devId
    | _ => false) &&
  (List.range rank).all fun d => t.dimAt d == shardSize (gd d) (sp d) (t.shardCoord / prod d % sp d)

/-- COUNT of the index descriptor that a descriptor names, when it names a valid one. -/
def State.indexCount (s : State) (p : Nat) (t : Desc) : Option Nat :=
  (s.entryImage p t.index 0xD35D).map fun b => getLE b 0x10 4

/-- Step 8 of R176: INDEX and SHARD (R181, R185; 0x0509). -/
def State.refsOk (s : State) (p : Nat) (t : Desc) : Bool :=
  (if t.isIndexed then
    (s.indexCount p t).isSome && !t.isWindow && t.gdim < t.rank && (if t.layout = 0 then 1 else 2) ≤ t.gdim
   else t.index == 0) &&
  (if t.isSharded then
    (match s.entryImage p t.shard 0xD35E with
      | some r => s.shardOk p t r
      | none => false)
   else t.shard == 0)

/-- R176 in its order: 0, or the code that refuses the image. -/
def State.validateTensor (s : State) (p : Nat) (b : List Byte) : Nat :=
  let t := Desc.ofBytes b
  if !t.encodingOk b then 0x0501
  else if !t.layoutOk then 0x0504
  else if !t.scalesOk then 0x0505
  else if !s.oneRegion p t.base t.extent t.canRead t.canWrite ||
      (t.scaleType != 0 && !s.oneRegion p t.scaleBase t.scaleExtent t.canRead t.canWrite) then 0x0502
  else if t.canWrite && !t.noOverlap then 0x0504
  else if !t.windowOk then 0x0507
  else if !s.refsOk p t then 0x0509
  else if t.cmpMode = 2 && !(t.cmpDim < t.rank && t.cmpLo < t.cmpHi &&
      t.cmpHi ≤ (t.viewDims ((s.indexCount p t).getD 0)).getD t.cmpDim 0) then 0x0501
  else 0

/-- Validation of an index descriptor (R180). -/
def State.validateIndex (s : State) (p : Nat) (b : List Byte) : Nat :=
  let count := getLE b 0x10 4
  if getLE b 2 1 != 1 || getLE b 3 1 != 0x0B || 1 < getLE b 4 4 || !(b.drop 0x14).all (· == 0#8) ||
      count == 0 || 2 ^ 24 < count then 0x0501
  else if getLE b 8 8 % 4 != 0 then 0x0504
  else if !s.oneRegion p (getLE b 8 8) (4 * count) true false then 0x0502
  else 0

/-- Validation of a sharding record (R183). -/
def State.validateShard (s : State) (p : Nat) (b : List Byte) : Nat :=
  let rank := getLE b 3 1
  let repl := getLE b 4 1
  let gd (d : Nat) := getLE b (8 + 4 * d) 4
  let sp (d : Nat) := getLE b (0x1C + d) 1
  if getLE b 2 1 != 1 || rank == 0 || 5 < rank || repl == 0 || 8 < repl || getLE b 5 3 != 0 || getLE b 0x21 3 != 0 ||
      !(b.drop 0x30).all (· == 0#8) ||
      !(List.range 5).all (fun d => if d < rank then 1 ≤ sp d && sp d ≤ gd d else gd d == 0 && sp d == 0) then 0x0501
  else
    let n := (List.range rank).foldl (fun a d => a * sp d) 1
    if 128 < n || !s.oneRegion p (getLE b 0x28 8) (n * repl) true false then 0x0509 else 0

/-- Validation of an entry image by its MAGIC (R156, R176, R180, R183). -/
def State.validateEntry (s : State) (p : Nat) (b : List Byte) : Nat :=
  match getLE b 0 2 with
  | 0xD35C => s.validateTensor p b
  | 0xD35D => s.validateIndex p b
  | 0xD35E => s.validateShard p b
  | _ => 0x0501

/-- A unit's capture of an entry (R155, R159, R161): the code that stops it, with the address, or the image. Copies that a
REPLACE left in caches may be used in place of the entry: which one is free. -/
def State.capture (s : State) (p h kind : Nat) : Except (Nat × XFault) (List Byte) × State :=
  if s.rdN (Reg.DSC_PT_COUNT p) = 0 ∨ s.rdN (Reg.DSC_PT_COUNT p) ≤ h then (.error (0x050B, ⟨0, false⟩), s)
  else
    match s.readDva p (s.entryAddr p h) 128 with
    | .refused f _ => (.error (0x0503, f), s)
    | .bus _ => (.error (0x0907, ⟨0, false⟩), s)
    | .data bs bad =>
      if bad then (.error (0x050E, ⟨0, false⟩), s)
      else if s.entryKind p h ≠ some kind then (.error (0x0506, ⟨0, false⟩), s)
      else
        match Tab.get? s.dsc.stale (p * 65536 + h) with
        | none => (.ok bs, s)
        | some olds =>
          let (x, s1) := s.fresh
          (.ok ((bs :: olds).getD (x % (olds.length + 1)) bs), s1)

/-! ### Addresses (R170 to R172, R179, R181) -/

/-- The address, and for sub-byte types the bit, of source element `i` (R171, R172). -/
def Desc.elemAddr (t : Desc) (i : List Nat) : Nat × Nat :=
  let at_ (d : Nat) := i.getD d 0
  let hi (lo : Nat) := ((List.range t.rank).filter (lo ≤ ·)).foldl (fun a d => a + at_ d * t.strideAt d) 0
  if t.layout = 0 then
    if 8 ≤ t.bits then (t.base + hi 0, 0)
    else (t.base + hi 1 + at_ 0 * t.bits / 8, at_ 0 * t.bits % 8)
  else
    let b0 := at_ 0 / t.bc
    let c := at_ 0 % t.bc
    let r := at_ 1 % t.br
    let blk := t.base + b0 * 64 * t.br + at_ 1 / t.br * t.strideAt 1 + hi 2
    (blk + (r * t.bc + c) * t.bits / 8, (r * t.bc + c) * t.bits % 8)

/-- The row number of a source element (R170). -/
def Desc.rowOf (t : Desc) (i : List Nat) : Nat :=
  ((List.range t.rank).filter (1 ≤ ·)).foldl
    (fun a d => a + i.getD d 0 * ((List.range d).filter (1 ≤ ·)).foldl (fun m e => m * t.dimAt e) 1) 0

/-- The address of the scale of a source element (R170). -/
def Desc.scaleAddr (t : Desc) (i : List Nat) : Nat := t.scaleBase + t.rowOf i * t.scaleRs + i.getD 0 0 / 32

/-- What a view coordinate selects (R177, R179, R181). -/
inductive Coord where
  /-- A source element. -/
  | elem (i : List Nat)
  /-- Padding of a window view, or an entry that SKIP_EN skips: reads as zero, stores nothing. -/
  | zero
  /-- Outside the view (CAUSE 1). -/
  | outside
  /-- A gather or scatter index outside DIM[GDIM] (CAUSE 2). -/
  | badIndex
deriving DecidableEq, Repr

/-- The source element of view coordinate `v`; `idx j` is entry j of the index array, and `skip` its SKIP_EN. -/
def Desc.select (t : Desc) (count : Nat) (skip : Bool) (idx : Nat → Nat) (v : List Nat) : Coord :=
  let dims := t.viewDims count
  if !(List.range dims.length).all (fun d => v.getD d 0 < dims.getD d 0) then .outside
  else if t.isWindow then
    let c := t.dimAt 0
    let k := v.getD 0 0
    let ix : Int := (v.getD 1 0 : Int) * t.sw - t.padL + (k / c % t.kw : Nat) * t.dw
    let iy : Int := (v.getD 2 0 : Int) * t.sh - t.padT + (k / (c * t.kw) : Nat) * t.dh
    if ix < 0 ∨ iy < 0 ∨ (t.dimAt 1 : Int) ≤ ix ∨ (t.dimAt 2 : Int) ≤ iy then .zero
    else .elem ([k % c, ix.toNat, iy.toNat] ++ (if t.rank = 4 then [v.getD 3 0] else []))
  else if t.isIndexed then
    let x := idx (v.getD t.gdim 0)
    if skip ∧ x = 2 ^ 32 - 1 then .zero
    else if x < t.dimAt t.gdim ∧ x < 2 ^ 31 then .elem ((v.take t.rank).set t.gdim x)
    else .badIndex
  else .elem (v.take t.rank)

end Sys2Proof.Machine
end

