-- ==== Sys2Proof/Machine/Sched.lean ====
section
/-! DEFINITION. Sys2Proof/Machine/Sched.lean: the graph scheduler's shared operations (12_graph_scheduler, R287 to R317):
readiness, placement, failure, the end of operations and runs, aborts and fences. -/

namespace Sys2Proof.Machine

/-! ### Lookup and update -/

/-- Frond `n`. -/
def State.tc (s : State) (n : Nat) : Frond := s.frond.getD n {}

/-- Replace Frond `n`. -/
def State.setTc (s : State) (n : Nat) (f : Frond) : State := { s with frond := Tab.write (fun _ => {}) s.frond n f }

/-- Frond `n` as a unit. -/
def uTc (n : Nat) : UnitId := ⟨0x01, n⟩

/-- The graph whose header record is `h`. -/
def State.graphAt (s : State) (h : Nat) : Option Graph := s.gs.graphs.find? fun g => g.hdr == h

/-- Replace the graph with header record `g.hdr`. -/
def State.setGraph (s : State) (g : Graph) : State :=
  { s with gs := { s.gs with graphs := s.gs.graphs.map fun x => if x.hdr = g.hdr then g else x } }

/-- Operation `i` of a graph. -/
def Graph.opAt (g : Graph) (i : Nat) : GsOp := g.ops.getD i ⟨true, 0, 0, [], 0, 0, [], 0, 0, 0, [], 0, 0⟩

/-- REDUNDANT (R290). -/
def GsOp.redundant (o : GsOp) : Bool := bitAt o.flags 0
/-- CHECK. -/
def GsOp.check (o : GsOp) : Bool := bitAt o.flags 1
/-- REPORT. -/
def GsOp.report (o : GsOp) : Bool := bitAt o.flags 2

/-- A copy in the current run of its graph. -/
def Graph.copyRun (g : Graph) (op copy : Nat) : Option CopyRun :=
  match g.cur with
  | none => none
  | some r => r.copies.find? fun c => c.op == op && c.copy == copy

/-- Change a copy in the current run of its graph. -/
def State.setCopy (s : State) (c : CopyId) (f : CopyRun → CopyRun) : State :=
  match s.graphAt c.graph with
  | none => s
  | some g =>
    match g.cur with
    | none => s
    | some r =>
      let cs := r.copies.map fun x => if x.op = c.op ∧ x.copy = c.copy then f x else x
      s.setGraph { g with cur := some { r with copies := cs } }

/-- Change the current run of graph `h`. -/
def State.setRun (s : State) (h : Nat) (f : GsRun → GsRun) : State :=
  match s.graphAt h with
  | none => s
  | some g => s.setGraph { g with cur := g.cur.map f }

/-- A scheduler error of partition `p` (R315): the sticky bit and the report. -/
def State.gsErr (s : State) (p code : Nat) (info : Nat := 0) : State :=
  (s.sticky (Reg.GS_PT_ERR p) (code - 0x0701)).report p { code := code, subj := uSched p, rep := uSched p, info := info }

/-- GS_STATUS follows the runs in progress (R316). -/
def State.gsStatus (s : State) : State :=
  let m := (List.range 16).foldl (fun a p => if s.gs.graphs.any fun g => g.pt == p && g.cur.isSome then a + 2 ^ p else a) 0
  s.wr Reg.GS_STATUS m

/-- GS_PT_p_READY follows the lists (R316). -/
def State.gsReady (s : State) (p : Nat) : State :=
  let n := (List.range 8).foldl (fun a k => a + (s.gs.ready.getD (p * 8 + k) []).length) 0
  s.wr (Reg.GS_PT_READY p) (n % 32768 + (s.gs.delay.getD p []).length % 32768 * 65536)

/-! ### Ready lists and placement (R295, R296, R300) -/

/-- The ready list of partition `p` and priority `k`. -/
def State.readyList (s : State) (p k : Nat) : List CopyId := s.gs.ready.getD (p * 8 + k) []

/-- Replace a ready list. -/
def State.setReady (s : State) (p k : Nat) (l : List CopyId) : State :=
  { s with gs := { s.gs with ready := Tab.write (fun _ => []) s.gs.ready (p * 8 + k) l } }.gsReady p

/-- Frond `n` is live: present and not fenced or being fenced (R2, R477). -/
def State.tcLive (s : State) (n : Nat) : Bool := !s.rdB Reg.REL_FENCED_MAP n

/-- The effective affinity of an operation includes Frond `n` (R295). -/
def State.affine (s : State) (p : Nat) (o : GsOp) (n : Nat) : Bool := bitAt o.affinity n && s.tcLive n && s.owns p 0x01 n

/-- The quadrant of a Frond. -/
def quadrant (n : Nat) : Nat := n / 8

/-- Quadrant `q` holds, or held, another copy of the operation in this run (R300, R301). -/
def Graph.quadTaken (g : Graph) (op copy q : Nat) : Bool :=
  match g.cur with
  | none => false
  | some r => r.copies.any fun c => c.op == op && c.copy != copy &&
    (match c.phase with
      | .placed n => quadrant n == q
      | .ended n => quadrant n == q
      | _ => false)

/-- Copy `c` may go to Frond `n`. -/
def State.eligible (s : State) (c : CopyId) (n : Nat) : Bool :=
  match s.graphAt c.graph with
  | none => false
  | some g =>
    let o := g.opAt c.op
    s.affine g.pt o n && (!o.redundant || !g.quadTaken c.op c.copy (quadrant n))

/-- The code with which a judged copy fails: 0 when it may wait (R295, R300). -/
def State.judge (s : State) (c : CopyId) : Nat :=
  match s.graphAt c.graph with
  | none => 0x0706
  | some g =>
    if !(List.range 32).any (fun n => s.affine g.pt (g.opAt c.op) n) then 0x0706
    else if !(List.range 32).any (fun n => s.eligible c n) then 0x0707 else 0

/-- The priority of a copy: that of its operation, 7 for copy 2 (R297, R301). -/
def State.prioOf (s : State) (c : CopyId) : Nat :=
  match s.graphAt c.graph with
  | none => 0
  | some g => if c.copy = 2 then 7 else (g.opAt c.op).prio

/-- Put a copy on its ready list, at the tail or at the head. -/
def State.enqueue (s : State) (p : Nat) (c : CopyId) (head : Bool) : State :=
  let k := s.prioOf c
  let l := s.readyList p k
  s.setReady p k (if head then c :: l else l ++ [c])

/-- Remove copies from every ready list of `p`. -/
def State.dequeue (s : State) (p : Nat) (P : CopyId → Bool) : State :=
  (List.range 8).foldl (fun s k => s.setReady p k ((s.readyList p k).filter fun c => !P c)) s

/-! ### Completion items (R307, R308) -/

/-- The 64-byte first entry with its digest entries and CRC (R308). -/
def gsItem (ty ndig status handle run op copy tc arith fl task start end_ pc larg gid : Nat) (digs : List Byte) : List Byte :=
  let b := leBytes 1 ty ++ leBytes 1 ndig ++ leBytes 2 status ++ leBytes 4 handle ++ leBytes 8 run ++ leBytes 2 op ++
    leBytes 1 copy ++ leBytes 1 tc ++ leBytes 1 arith ++ leBytes 1 fl ++ leBytes 2 task ++ leBytes 8 start ++
    leBytes 8 end_ ++ leBytes 8 pc ++ leBytes 8 larg ++ leBytes 4 gid
  b ++ leBytes 4 (crc32c (b ++ digs)) ++ digs

/-- The handle of a graph (R292). -/
def Graph.handle (g : Graph) : Nat := g.hdr % 16384 + g.gen % 2 ^ 18 * 16384

/-- The operation-end item of an ended or failed copy. -/
def endItem (g : Graph) (r : GsRun) (e : EndRec) : List Byte :=
  gsItem 1 e.ndig e.code g.handle r.num e.cid.op e.cid.copy (match e.tc with | some n => n + 128 | none => 0) e.arith
    (e.redisp.toNat + e.dflags * 2 + r.aborted.toNat * 8) (g.opAt e.cid.op).task e.startAt e.endAt e.pc r.larg g.graphId e.digs

/-- The graph-end item of a run. -/
def graphEndItem (g : Graph) (r : GsRun) (now : Nat) : List Byte :=
  let (code, op) := r.firstErr.getD (0, 0xFFFF)
  gsItem 2 0 code g.handle r.num op 0 0 0 (r.aborted.toNat * 8 + r.cancelled.toNat * 16) 0 r.start now 0 r.larg g.graphId []

/-- Put an entry into the checker's inbound queue (R500). -/
def State.toMailbox (s : State) (p : Nat) (b : List Byte) : State :=
  { s with safe := { s.safe with mailbox := s.safe.mailbox ++ [(p, b)] } }

/-- `n` more entries fit into the inbound queue of 1,024 (R500); otherwise their producer stalls. -/
def State.mailRoom (s : State) (n : Nat) : Bool :=
  s.safe.mailbox.foldl (fun (a : Nat) x => a + x.2.length / 64) 0 + n ≤ 1024

/-! ### The end of a run (R294) -/

/-- END_FLAG is signalled as a release, and the Crozier node that launched the run ends (R294, R407). -/
def State.runEnded (s : State) (p flag value : Nat) (on : Bool) (node : Option NodeRef) (code : Nat) : State :=
  let s1 := if on then s.flagPush { isSet := false, flag := flag, n := value, pt := p, agent := ⟨0x03, 0⟩ } else s
  match node with
  | none => s1
  | some x => { s1 with crz := { s1.crz with done := s1.crz.done ++ [(x, if code = 0 then 0 else 0x0407)] } }

/-- Promote the prefetched slots of Frond `n` into an empty slot 0 (R296); a placement in slot 0 counts (R316). -/
def State.promote (s : State) (n : Nat) : State :=
  let f := s.tc n
  if f.slot0.isSome || f.itemWait || f.kak.isSome || s.rel.kakDue.contains n then s
  else
    match f.slot1 with
    | none => s
    | some x => (s.setTc n { f with slot0 := some x, slot1 := f.slot2, slot2 := none }).bump Reg.GS_DISPATCHES 1

/-- Begin the zeroing of Frond `n` (R233): scratch, tiles, registers and caches hold 0 from its end on. -/
def State.startZeroing (s : State) (n : Nat) : State :=
  let f := s.tc n
  s.setTc n { zeroing := true, fencing := f.fencing, fencePt := f.fencePt, placed := f.placed }

/-- The item of the ended operation has entered its ring: the Frond gives up slot 0 (R309), and a Frond being fenced zeroes (R477). -/
def State.freeFrond (s : State) (n : Nat) : State :=
  let s1 := s.setTc n { s.tc n with itemWait := false, slot0 := none }
  if (s1.tc n).fencing.isSome && !(s1.tc n).zeroing then s1.startZeroing n else s1.promote n

/-- What follows a posted item. -/
def State.postAct (s : State) : Option PostAct → State
  | none => s
  | some (.freeFrond n) => s.freeFrond n
  | some (.runEnded p flag value on node code) => s.runEnded p flag value on node code

/-- Hand an item to the completion ring of `p`, or drop it when GS_PT_p_CQ[31] is 0, and then what follows comes at once
(R307). -/
def State.gsPost (s : State) (p : Nat) (b : List Byte) (act : Option PostAct) : State :=
  let cq := s.rdN (Reg.GS_PT_CQ p)
  if bitAt cq 31 then s.postItem p (fld cq 0 13) b act else s.postAct act

/-- A phase in which a copy keeps its run from ending. -/
def Phase.open : Phase → Bool
  | .waiting => true
  | .delayed => true
  | .ready => true
  | .placed _ => true
  | _ => false

/-- An aborted copy that still sits in a Frond, or a copy that is not done. -/
def State.runOpen (s : State) (h : Nat) (r : GsRun) : Bool :=
  r.copies.any (fun c => c.phase.open) || s.gs.ends.any fun e => e.cid.graph == h

/-! ### Readiness (R294, R302, R303) -/

/-- Copies of an operation that start with it: 0, and 1 when it is redundant. -/
def GsOp.firstCopies (o : GsOp) : List Nat := if o.redundant then [0, 1] else [0]

/-- Record a failure: the first error of the run (R308). -/
def GsRun.fail (r : GsRun) (code op : Nat) : GsRun :=
  { r with firstErr := match r.firstErr with | none => some (code, op) | x => x }

/-- Operations reachable from `op` through SUCC, `op` left out unless it lies on a path (R310). -/
def Graph.reach (g : Graph) : Nat → List Nat → List Nat
  | 0, seen => seen
  | fuel + 1, seen =>
    let next := seen.foldl (fun l i => (g.opAt i).succ.foldl (fun l j => insSorted j l) l) seen
    if next = seen then seen else Graph.reach g fuel next

/-- Cancel every copy that satisfies `P` and has not started, taking it off the lists (R310). -/
def State.cancelOps (s : State) (h : Nat) (P : Nat → Bool) : State :=
  match s.graphAt h with
  | none => s
  | some g =>
    let hit (c : CopyRun) := P c.op && (match c.phase with
      | .waiting => true
      | .delayed => true
      | .ready => true
      | _ => false)
    let any := match g.cur with
      | some r => r.copies.any hit
      | none => false
    let s1 := s.setRun h fun r => { r with
      copies := r.copies.map fun c => if hit c then { c with phase := .cancelled } else c
      cancelled := r.cancelled || any }
    let dl := (s1.gs.delay.getD g.pt []).filter fun e => !(e.2.graph == h && P e.2.op)
    ({ s1 with gs := { s1.gs with delay := s1.gs.delay.put g.pt dl } }.dequeue g.pt fun c => c.graph == h && P c.op)

/-- Begin the abort of slot 0 of Frond `n` (R232): issue stops; its flag wait ends. -/
def State.frondAbort (s : State) (n : Nat) (why : AbortWhy) : State :=
  let f := s.tc n
  match f.slot0 with
  | none => s
  | some _ =>
    if f.itemWait then s
    else if f.aborting.isSome then s
    else (s.setTc n { f with aborting := some why, wait := none, fence := none }).dropWaits (uTc n)

/-- Take the prefetched copies that satisfy `P` out of Frond `n`. -/
def Frond.dropPrefetch (f : Frond) (P : CopyId → Bool) : Frond :=
  let keep (x : Option Slot) := match x with
    | some y => if P y.cid then none else some y
    | none => none
  let a := keep f.slot1
  let b := keep f.slot2
  match a with
  | some _ => { f with slot1 := a, slot2 := b }
  | none => { f with slot1 := b, slot2 := none }

/-- Withdraw the prefetched copies of graph `h` that satisfy `P`; they count as withdrawn (R296) and are cancelled. -/
def State.dropPrefetched (s : State) (h : Nat) (P : Nat → Bool) : State :=
  (List.range 32).foldl (fun s n =>
    let f := s.tc n
    let hit := ([f.slot1, f.slot2].filterMap id).filter fun x => x.cid.graph == h && P x.cid.op
    let s1 := s.setTc n (f.dropPrefetch fun c => c.graph == h && P c.op)
    hit.foldl (fun s x =>
      match s.graphAt h with
      | none => s
      | some g => (s.setCopy x.cid fun c => { c with phase := .cancelled }).bump (Reg.GS_PT_WITHDRAWN g.pt) 1) s1) s

/-- Abort the executing operations of graph `h`. -/
def State.abortExecuting (s : State) (h : Nat) (why : AbortWhy) : State :=
  (List.range 32).foldl (fun s n =>
    match (s.tc n).slot0 with
    | some x => if x.cid.graph = h then
        (if x.st = 3 then s.frondAbort n why
         else ((s.setTc n { s.tc n with slot0 := none }).setCopy x.cid fun c => { c with phase := .cancelled }).promote n)
      else s
    | none => s) s

/-- Abort the current run of graph `h` with a code (R310, R311): executing operations are aborted, prefetched, ready and
delayed ones withdrawn, and what has not started is cancelled. -/
def State.abortRun (s : State) (h code op : Nat) (why : AbortWhy := .run) : State :=
  match s.graphAt h with
  | none => s
  | some g =>
    match g.cur with
    | none => s
    | some r =>
      if r.aborted then s
      else
        let s1 := (s.setRun h fun r => { r.fail code op with aborted := true }).event (uSched g.pt) 0x04 g.pt code r.num 0
        ((s1.cancelOps h fun _ => true).dropPrefetched h fun _ => true).abortExecuting h why

/-- A copy fails without a Frond, or after its Frond has stopped it (R310): its end is recorded; in the native mode the run
is aborted, in the marking mode the operations reachable from it are cancelled. -/
def State.opFail (s : State) (c : CopyId) (code : Nat) (e : EndRec) : State :=
  match s.graphAt c.graph with
  | none => s
  | some g =>
    let s1 := s.setCopy c fun x => { x with phase := .failed }
    let s2 := s1.setRun c.graph fun r => r.fail code c.op
    let s3 := { s2 with gs := { s2.gs with ends := s2.gs.ends ++ [{ e with cid := c, pt := g.pt, code := code }] } }
    if s3.rdB (Reg.QM_PT_MODE g.pt) 0 then
      let hit := g.reach g.ops.length (g.opAt c.op).succ
      let s4 := s3.cancelOps c.graph fun i => hit.contains i
      s4.cancelOps c.graph fun i => i == c.op
    else s3.abortRun c.graph code c.op

/-- A failure of a copy that has no Frond, raised to its partition. -/
def State.opFailRaise (s : State) (p : Nat) (c : CopyId) (code : Nat) (redisp : Bool) : State :=
  (s.gsErr p code c.op).opFail c code { cid := c, pt := p, code := code, redisp := redisp, endAt := s.now }

/-- Judge a copy and let it wait on its ready list, or fail it (R295, R300). -/
def State.copyReady (s : State) (p : Nat) (c : CopyId) (head : Bool) : State :=
  let code := s.judge c
  if code = 0 then
    (s.setCopy c fun x => { x with phase := .ready, readyAt := if head then x.readyAt else s.now }).enqueue p c head
  else
    let red := match (s.graphAt c.graph).bind fun g => g.copyRun c.op c.copy with
      | some x => x.redisp
      | none => false
    s.opFailRaise p c code red

/-- Judge the copies of `p` that wait on its ready lists and satisfy `P` (R300): a copy without a place fails. -/
def State.rejudge (s : State) (p : Nat) (P : CopyId → Bool) : State :=
  let all := (List.range 8).flatMap fun k => (s.readyList p k).filter P
  all.foldl (fun s c =>
    let code := s.judge c
    if code = 0 ∨ !(List.range 8).any (fun k => (s.readyList p k).contains c) then s
    else (s.dequeue p (· == c)).opFailRaise p c code
      (match (s.graphAt c.graph).bind fun g => g.copyRun c.op c.copy with
        | some x => x.redisp
        | none => false)) s

/-- The live or owned Fronds of `p` have changed: every waiting copy is judged (R300). -/
def State.rejudgeAll (s : State) (p : Nat) : State := s.rejudge p fun _ => true

/-- Operation `i` of graph `h` becomes ready (R294): a null operation ends at once (R302). -/
def State.opReady (s : State) (h i : Nat) : State :=
  match s.graphAt h with
  | none => s
  | some g =>
    let o := g.opAt i
    if o.null then
      let c : CopyId := ⟨h, i, 0⟩
      let s1 := (s.setCopy c fun x => { x with phase := .ended 255, readyAt := s.now }).bump (Reg.GS_PT_OPS g.pt) 1
      { s1 with gs := { s1.gs with ends := s1.gs.ends ++ [{ cid := c, pt := g.pt, code := 0, startAt := s.now, endAt := s.now }] } }
    else o.firstCopies.foldl (fun s k => s.copyReady g.pt ⟨h, i, k⟩ false) s

/-- An operation whose count has reached 0 becomes ready, or enters the delay list with its due tick (R303). -/
def State.opDue (s : State) (h i : Nat) : State :=
  match s.graphAt h with
  | none => s
  | some g =>
    let o := g.opAt i
    if o.delay = 0 then s.opReady h i
    else
      let tick := s.now / 1000 / max 1 (s.rdF (Reg.GS_PT_CFG g.pt) 8 8)
      let due := tick + o.delay
      let l := s.gs.delay.getD g.pt []
      let l' := l.takeWhile (fun e => e.1 ≤ due) ++ (due, ⟨h, i, 0⟩) :: l.dropWhile (fun e => e.1 ≤ due)
      let s1 := o.firstCopies.foldl (fun s k => s.setCopy ⟨h, i, k⟩ fun x => { x with phase := .delayed }) s
      { s1 with gs := { s1.gs with delay := s1.gs.delay.put g.pt l' } }.gsReady g.pt

/-- Every copy of operation `i` that successors wait for has ended (R300). -/
def GsRun.opDone (r : GsRun) (i : Nat) : Bool :=
  (r.copies.filter fun c => c.op == i && c.copy < 2).all fun c =>
    match c.phase with
    | .ended _ => true
    | _ => false

/-- Release the successors of operation `i` (R294). -/
def State.releaseSucc (s : State) (h i : Nat) : State :=
  match s.graphAt h with
  | none => s
  | some g =>
    (g.opAt i).succ.foldl (fun s j =>
      match (s.graphAt h).bind (·.cur) with
      | none => s
      | some r =>
        let k := r.counts.getD j 0 - 1
        let s1 := s.setRun h fun r => { r with counts := r.counts.put j k }
        if k = 0 ∧ !r.aborted ∧ (r.copies.any fun c => c.op == j && c.phase == .waiting) then s1.opDue h j else s1)
      (s.setRun h fun r => { r with released := i :: r.released })

/-- Start a run (R294): counts are set to DEPS and the roots become ready. -/
def State.runStart (s : State) (h num larg : Nat) (node : Option NodeRef) : State :=
  match s.graphAt h with
  | none => s
  | some g =>
    let copies := (g.ops.zipIdx).flatMap fun (o, i) => o.firstCopies.map fun k => ({ op := i, copy := k, phase := .waiting } : CopyRun)
    let counts := (g.ops.zipIdx).map fun (o, i) => (i, o.deps)
    let r : GsRun := { num := num, larg := larg, start := s.now, counts := counts, copies := copies, node := node }
    let s1 := (s.setGraph { g with cur := some r }).gsStatus.event (uSched g.pt) 0x01 g.pt 0 num g.dva
    (List.range g.ops.length).foldl (fun s i => if (g.opAt i).deps = 0 then
      (match (s.graphAt h).bind (·.cur) with
        | some r => if r.aborted then s else s.opDue h i
        | none => s) else s) s1

/-- End the current run of graph `h` when nothing of it is left (R294): the graph-end item, then END_FLAG and the node, and
the next queued run starts. -/
def State.runEnd (s : State) (h : Nat) : State :=
  match s.graphAt h with
  | none => s
  | some g =>
    match g.cur with
    | none => s
    | some r =>
      if s.runOpen h r then s
      else
        let code := (r.firstErr.getD (0, 0)).1
        let s1 := s.bump (Reg.GS_PT_RUNS g.pt) 1
        let s2 := if r.aborted || r.firstErr.isSome then s1.bump (Reg.GS_PT_RUNS_FAILED g.pt) 1 else s1
        let s3 := (s2.setGraph { g with cur := none, queue := g.queue.drop 1 }).gsStatus.event (uSched g.pt) 0x02 g.pt code r.num 0
        let s4 := s3.gsPost g.pt (graphEndItem g r s.now) (some (.runEnded g.pt g.endFlag g.endValue g.endOn r.node code))
        match g.queue with
        | [] => s4
        | (num, larg, node) :: _ => s4.runStart h num larg node

/-- An item is posted for an end record (R307). -/
def Graph.wantsItem (g : Graph) (e : EndRec) : Bool :=
  let o := g.opAt e.cid.op
  g.reportAll || o.report || o.check || e.code != 0

/-- The release point of an ended or failed copy has come (R294, R307): its item, to the checker too for CHECK, and its
successors; a copy that has failed releases none. -/
def State.endRelease (s : State) (e : EndRec) : State :=
  let s0 := { s with gs := { s.gs with ends := s.gs.ends.erase e } }
  match s0.graphAt e.cid.graph with
  | none => s0
  | some g =>
    match g.cur with
    | none => s0
    | some r =>
      let act := if e.tc.isSome ∧ (s0.tc (e.tc.getD 0)).itemWait then some (PostAct.freeFrond (e.tc.getD 0)) else none
      let chk := (g.opAt e.cid.op).check
      if chk ∧ !s.mailRoom ((endItem g r e).length / 64) then s
      else
      let s1 := if chk then s0.toMailbox g.pt (endItem g r e) else s0
      let s2 := if g.wantsItem e then s1.gsPost g.pt (endItem g r e) act else s1.postAct act
      if e.code = 0 ∧ r.opDone e.cid.op ∧ !r.released.contains e.cid.op ∧ !r.aborted then
        s2.releaseSucc e.cid.graph e.cid.op
      else s2

/-- The stores of a copy are all globally visible. -/
def State.drained (s : State) (c : CopyId) : Bool :=
  (List.range 32).all fun n => (s.tc n).stores.all fun x => x.2 != c

/-- An end that is released at once: that of a null operation (R302). -/
def EndRec.atOnce (p : Nat) (e : EndRec) : Bool := e.pt == p && e.code == 0 && e.tc.isNone

/-- Null operations that are due end and release at once (R302), and runs that are over end. -/
def State.settle (s : State) (p : Nat) : Nat → State
  | 0 => s
  | fuel + 1 =>
    match s.gs.ends.find? (EndRec.atOnce p) with
    | some e => State.settle (s.endRelease e) p fuel
    | none =>
      let s1 := (s.gs.graphs.filter fun g => g.pt == p).foldl (fun s g => s.runEnd g.hdr) s
      if s1.gs.ends.any (EndRec.atOnce p) then State.settle s1 p fuel else s1

/-- As `settle` for every operation record there is. -/
def State.gsSettle (s : State) (p : Nat) : State := s.settle p 65536

/-! ### Launches (R293) -/

/-- The graph of partition `p` that a handle names. -/
def State.handleGraph (s : State) (p handle : Nat) : Option Graph :=
  s.gs.graphs.find? fun g => g.pt == p && g.handle == handle % 2 ^ 32

/-- Launch a graph of `p` (R293): the code, 0 when it is accepted. A fatal device starts nothing (R479). -/
def State.launchAs (s : State) (p handle larg : Nat) (node : Option NodeRef) : State × Nat :=
  match s.handleGraph p handle with
  | none => (s.gsErr p 0x0704 handle, 0x0704)
  | some g =>
    if s.rdB Reg.REL_STATUS 0 then (s, 0)
    else if g.cur.isSome && 4 ≤ g.queue.length then (s.gsErr p 0x0704 handle, 0x0704)
    else
      let num := g.runs + 1
      let s := (s.progress p).needP0
      match g.cur with
      | some _ => (s.setGraph { g with runs := num, queue := g.queue ++ [(num, larg, node)] }, 0)
      | none => (((s.setGraph { g with runs := num }).runStart g.hdr num larg node).gsSettle p, 0)

/-- A launch from the host or a submission ring. -/
def State.launch (s : State) (p handle larg : Nat) : State × Nat := s.launchAs p handle larg none

/-! ### Fences and aborts (R232, R312, R313, R477) -/

/-- A copy returns to the head of its list (R296, R312), and the copies of its operation that wait are judged (R300). -/
def State.returnCopy (s : State) (p : Nat) (c : CopyId) : State :=
  (s.copyReady p c true).rejudge p fun x => x.graph == c.graph && x.op == c.op && x.copy != c.copy

/-- Withdraw the prefetched copies of Frond `n` to the heads of their lists, the latest first so that their order stays. -/
def State.withdrawAll (s : State) (n : Nat) : State :=
  let f := s.tc n
  let xs := [f.slot2, f.slot1].filterMap id
  xs.foldl (fun s x =>
    match s.graphAt x.cid.graph with
    | none => s
    | some g => (s.bump (Reg.GS_PT_WITHDRAWN g.pt) 1).returnCopy g.pt x.cid) (s.setTc n { f with slot1 := none, slot2 := none })

/-- Fence Frond `n` with a reason (R476, R477): a Frond fenced or being fenced only counts it. -/
def State.fenceFrond (s : State) (n reason : Nat) : State :=
  let a := Reg.REL_TC_FENCE_INFO n
  if !s.tcLive n then s.wrF a 24 8 (min 255 (s.rdF a 24 8 + 1))
  else
    let s1 := (s.wr Reg.REL_FENCED_MAP (s.rdN Reg.REL_FENCED_MAP ||| 2 ^ n)).event (uTc n) 0x05 0x80 reason n 0
    let s2 := (s1.setTc n { s1.tc n with fencing := some reason, fencePt := s1.ownerOf 0x01 n, kak := none, fencePend := none })
    let s2 := { s2 with rel := { s2.rel with kakDue := s2.rel.kakDue.filter (· != n) } }
    let s3 := match s2.ownerOf 0x01 n with
      | some p => (s2.withdrawAll n).rejudgeAll p
      | none => s2.withdrawAll n
    let f := s3.tc n
    match f.slot0 with
    | some x =>
      if f.itemWait then s3
      else if x.st = 3 then s3.frondAbort n .fence
      else
        match s3.graphAt x.cid.graph with
        | some g => ((s3.setTc n { f with slot0 := none }).returnCopy g.pt x.cid).startZeroing n
        | none => (s3.setTc n { f with slot0 := none }).startZeroing n
    | none => s3.startZeroing n

end Sys2Proof.Machine
end

