-- ==== Sys2Proof/Machine/MoverCore.lean ====
section
/-! DEFINITION. Sys2Proof/Machine/MoverCore.lean: what the stream movers' commands share (13_stream_mover, R318 to R349):
runs, programs, beats, releases and spore requests. -/

namespace Sys2Proof.Machine

/-! ### A channel -/

/-- Channel `n`. -/
def State.ch (s : State) (n : Nat) : Chan := s.chan.getD n {}

/-- Replace channel `n`. -/
def State.setCh (s : State) (n : Nat) (c : Chan) : State := { s with chan := Tab.write (fun _ => {}) s.chan n c }

/-- Channel `n` as a unit (R17). -/
def uCh (n : Nat) : UnitId := ⟨0x21, n⟩

/-- The owner of channel `n`, or 0. -/
def State.chPt (s : State) (n : Nat) : Nat := (s.ownerOf 0x21 n).getD 0

/-- STATE[2:0] (R320): 0 IDLE, 1 RUNNING, 2 WAITING, 3 HALTED, 4 ABORTING. -/
def State.chState (s : State) (n : Nat) : Nat := s.rdF (Reg.MOV_CH_STATE n) 0 3

/-- Set STATE[2:0]. -/
def State.setChState (s : State) (n v : Nat) : State := s.wrF (Reg.MOV_CH_STATE n) 0 3 v

/-- A channel error (R347): the sticky bit of its code and the report to its owner. -/
def State.chErr (s : State) (n code : Nat) (info : Nat := 0) : State :=
  let s1 := if 0x0801 ≤ code ∧ code ≤ 0x080A then s.sticky (Reg.MOV_CH_ERR n) (code - 0x0801) else s
  s1.err (s.chPt n) (uCh n) code info

/-- X_i. -/
def State.chX (s : State) (n i : Nat) : Nat := s.rdN (Reg.MOV_CH_X n i)

/-- Set X_i. -/
def State.setChX (s : State) (n i v : Nat) : State := s.wr (Reg.MOV_CH_X n i) (v % 2 ^ 64)

/-- Change the run of channel `n`. -/
def State.setChRun (s : State) (n : Nat) (f : ChRun → ChRun) : State :=
  let c := s.ch n
  s.setCh n { c with run := c.run.map f }

/-- The fault mode of the channel's owner is the marking mode (R346). -/
def State.chMarking (s : State) (n : Nat) : Bool := s.rdB (Reg.QM_PT_MODE (s.chPt n)) 0

/-- A run is in progress and has not been ended. -/
def Chan.live (c : Chan) : Bool :=
  match c.run with
  | some r => r.ended.isNone
  | none => false

/-- The current burst is not complete (R343). -/
def Chan.inBurst (c : Chan) : Bool :=
  match c.cur with
  | some x => x.bCount != 0
  | none => false

/-- End the run of channel `n` with a code (R339): an error or abort enters ABORTING until its burst and beats are done. -/
def State.chEnd (s : State) (n code : Nat) : State :=
  let c := s.ch n
  if !c.live then s
  else
    let cur := if c.inBurst then c.cur else none
    let s1 := s.setCh n { c with cur := cur, wait := none, run := c.run.map fun r => { r with ended := some code } }
    if code = 0 then s1 else s1.setChState n 4

/-- The run ends with an error of its own. -/
def State.chFail (s : State) (n code : Nat) (info : Nat := 0) : State := (s.chErr n code info).chEnd n code

/-- Latch a fault of channel `n` (R344): the DVA, the code and the direction. -/
def State.chLatch (s : State) (n addr code : Nat) (isWrite : Bool) : State :=
  (s.wr (Reg.MOV_CH_FAULT_ADDR n) addr).wr (Reg.MOV_CH_FAULT_INFO n) (code + isWrite.toNat * 2 ^ 16 + 2 ^ 31)

/-- An access of channel `n` is refused under R35 (R329): 0x0503, the address is latched and no further beat is issued in
that direction; the run ends. -/
def State.chRefused (s : State) (n addr : Nat) (isWrite : Bool) (f : XFault) : State :=
  let s1 := ((s.oob (s.chPt n) (uCh n) none f addr).chLatch n addr 0x0503 isWrite).setChRun n fun r =>
    { r with noRead := true, noWrite := r.noWrite || isWrite }
  let c := s1.ch n
  let s2 := s1.setCh n { c with ready := if isWrite then [] else c.ready,
                                cur := c.cur.map fun x => { x with bCount := 0 } }
  s2.chEnd n 0x0503

/-! ### Starts (R319, R334, R340) -/

/-- Bytes of a ring slot. -/
def State.slotSize (s : State) (n : Nat) : Nat := s.rdF (Reg.MOV_CH_RING_CFG n) 8 24 * 64

/-- The ring of channel `n` breaches R334. -/
def State.ringBad (s : State) (n p : Nat) : Bool :=
  let cfg := s.rdN (Reg.MOV_CH_RING_CFG n)
  let slots := fld cfg 0 5
  let fl := s.rdN (Reg.MOV_CH_RING_FLAGS n)
  let base := s.rdN (Reg.MOV_CH_RING_BASE n)
  !(3 ≤ slots && slots ≤ 16 && 1 ≤ fld cfg 8 24 && fld cfg 8 24 ≤ 16384 && fld cfg 5 3 == 0 && base % 64 == 0 &&
    s.oneRegion p base (slots * s.slotSize n) false true && !bitAt fl 15 && !bitAt fl 31 &&
    fld fl 0 15 != fld fl 16 15 && s.owns p 0x33 (fld fl 0 15) && s.owns p 0x33 (fld fl 16 15))

/-- Fetch the program line of `a` (R321): the state, and whether it succeeded; the caller raises 0x0805. -/
def State.chFetch (s : State) (n a : Nat) : State × Bool :=
  let p := s.chPt n
  match s.readDva p (a / 64 * 64) 64 .fetch with
  | .data bs bad => (s.setCh n { s.ch n with line := some (a / 64 * 64, bs) }, !bad)
  | .refused f d => (s.oob p (uCh n) none f d, false)
  | .bus d => (s.err p (uCh n) 0x0907 d, false)

/-- The code that refuses a start, 0 when it is accepted (R319, R334, R340). -/
def State.startCode (s : State) (n prog : Nat) : Nat :=
  let recA := s.rdN (Reg.MOV_CH_REC_ADDR n)
  match s.ownerOf 0x21 n with
  | none => 0x0809
  | some p =>
    if s.chState n ≠ 0 ∨ prog % 8 ≠ 0 then 0x0809
    else if recA ≠ 0 ∧ (recA % 64 ≠ 0 ∨ !s.oneRegion p recA 64 false true) then 0x0809
    else if s.rdB (Reg.MOV_CH_CFG n) 22 ∧ s.ringBad n p then 0x0807 else 0

/-- Start the run: registers set up, RUNS counted, the first line read. -/
def State.chBegin (s : State) (n prog : Nat) (args : List Nat) (node : Option NodeRef) : State :=
  let c := s.ch n
  let s1 := (s.progress (s.chPt n)).setCh n { c with
    line := none, loops := [], skip := none, cur := none, wait := none, reads := [], ready := [], redo := [], failedR := []
    failedW := [], failed := false, run := some { start := s.now, node := node } }
  let s2 := (List.range 8).foldl (fun s i => s.setChX n i (args.getD i 0)) s1
  let s3 := (((s2.wr (Reg.MOV_CH_PC n) prog).wr (Reg.MOV_CH_RESIDUE n) 0).wr (Reg.MOV_CH_FAULT_ADDR n) 0).wr
    (Reg.MOV_CH_FAULT_INFO n) 0
  let s4 := ((s3.wrF (Reg.MOV_CH_STATE n) 0 7 1).bump (Reg.MOV_CH_RUNS n) 1).event (uCh n) 0x01 (s.chPt n) 0
    (s.rdN (Reg.MOV_CH_RUNS n) + 1) prog
  let (s5, ok) := s4.chFetch n prog
  if ok then s5 else s5.chFail n 0x0805 prog

/-- START of channel `n` (R319): from its registers, which a submission item has written first (R394). A fatal device
accepts it and starts nothing (R479). The answer holds the code, 0 when it is accepted. -/
def State.movStart (s : State) (n : Nat) (params : Option (Nat × List Nat)) (node : Option NodeRef) : State × Nat :=
  let s0 := match params with
    | some (prog, args) => (args.zipIdx).foldl (fun s x => s.wr (Reg.MOV_CH_ARG n x.2) x.1) (s.wr (Reg.MOV_CH_PROG n) prog)
    | none => s
  let code := if (s.ch n).held.isSome then 0x0809 else s0.startCode n (s0.rdN (Reg.MOV_CH_PROG n))
  if code ≠ 0 then (s0.chErr n code, code)
  else if s.rdB Reg.REL_STATUS 0 then (s0, 0)
  else (s0.chBegin n (s0.rdN (Reg.MOV_CH_PROG n)) ((List.range 4).map fun i => s0.rdN (Reg.MOV_CH_ARG n i)) node, 0)

/-! ### Releases (R327, R339, R277 rule 5) -/

/-- Deliver the signals of channel `n` whose writes are all visible, in order, up to the first that waits or that is the
end of a run; a remote flag that cannot be reached ends the run with 0x0B04 (R281). -/
def State.chReleases (s : State) (n : Nat) : Nat → State
  | 0 => s
  | fuel + 1 =>
    let c := s.ch n
    match c.rels with
    | [] => s
    | r :: rs =>
      if !r.needs.isEmpty then s
      else
        match r.act with
        | .done _ _ _ => s
        | .signal flag v dev =>
          let p := s.chPt n
          let s1 := s.setCh n { c with rels := rs }
          match dev with
          | none => State.chReleases (s1.flagPush { isSet := false, flag := flag, n := v, pt := p, agent := uCh n, ctx := s.rdN (Reg.MOV_CH_PC n) }) n fuel
          | some d =>
            if s1.reachable (s1.physDev d) then
              State.chReleases (s1.sendRemote 5 (s1.physDev d) p (uCh n) flag 8 (leBytes 4 flag ++ leBytes 4 v)) n fuel
            else (s1.err p (uCh n) 0x0B04 flag).chEnd n 0x0B04

/-- Write `id` is globally visible: what waits for it moves on. -/
def State.chVisible (s : State) (n id : Nat) : State :=
  let c := s.ch n
  let rels := c.rels.map fun (r : ChRel) => { r with needs := r.needs.filter (· != id) }
  let drains := c.drains.map fun d => d.filter (· != id)
  (s.setCh n { c with rels := rels, drains := drains }).chReleases n (rels.length + 1)

/-! ### Instructions (R322 to R329) -/

/-- Opcodes of R322. -/
def knownChOp (o : Nat) : Bool := 1 ≤ o && o ≤ 8

/-- Execute the next instruction of channel `n` when it is of opcode `op`: `body` is its effect on its word and pc. A word of no
instruction ends the run with 0x0802 whatever was asked; a word of another instruction is left alone; inside a body that a
LOOP of count 0 skips, the word is passed over (R326). -/
def State.chStep (s : State) (n op : Nat) (body : State → Nat → Nat → State) : State :=
  let c := s.ch n
  if !c.live || s.chState n != 1 || c.cur.isSome || c.failed then s
  else
    let pc := s.rdN (Reg.MOV_CH_PC n)
    let word (c : Chan) : Option Nat := match c.line with
      | some (a, bs) => if pc / 64 * 64 = a then some (getLE bs (pc % 64) 8) else none
      | none => none
    let (s1, ok) := match word c with
      | some _ => (s, true)
      | none => s.chFetch n pc
    if !ok then s1.chFail n 0x0805 pc
    else
      match word (s1.ch n) with
      | none => s
      | some w =>
        let o := fld w 58 6
        let step (s : State) := (s.wr (Reg.MOV_CH_PC n) (pc + 8)).wr (Reg.MOV_CH_RESIDUE n) 0
        match (s1.ch n).skip with
        | some d =>
          if o ≠ op ∧ knownChOp o then s
          else
            let d' := if o = 3 then some (d + 1) else if o = 4 then (if d = 0 then none else some (d - 1)) else some d
            step (s1.setCh n { s1.ch n with skip := d' })
        | none =>
          if !knownChOp o then (s1.wr (Reg.MOV_CH_RESIDUE n) 0).chFail n 0x0802 pc
          else if o ≠ op then s
          else body (if 2 < o then s1.wr (Reg.MOV_CH_RESIDUE n) 0 else s1) w pc

/-- Bits of `w` outside [63:58] and the fields listed are 0. -/
def chFields (w : Nat) (fs : List (Nat × Nat)) : Bool :=
  w == fs.foldl (fun a f => setFld a f.1 f.2 (fld w f.1 f.2)) (setFld 0 58 6 (fld w 58 6))

/-- STATE[6:4] follows the loop stack. -/
def State.chDepth (s : State) (n : Nat) : State := s.wrF (Reg.MOV_CH_STATE n) 4 3 (s.ch n).loops.length

/-- LOOP (R326). -/
def loopBody (n : Nat) (s : State) (w pc : Nat) : State :=
  let c := s.ch n
  let creg := bitAt w 57
  if !chFields w [(57, 1), (54, 3), (0, 16)] || (if creg then fld w 0 16 != 0 else fld w 54 3 != 0) || 4 ≤ c.loops.length then
    s.chFail n 0x0802 pc
  else
    let count := if creg then s.chX n (fld w 54 3) % 2 ^ 32 else fld w 0 16 + 1
    let s1 := if count = 0 then s.setCh n { c with skip := some 0 } else s.setCh n { c with loops := (pc + 8, count) :: c.loops }
    (s1.chDepth n).wr (Reg.MOV_CH_PC n) (pc + 8)

/-- ENDL (R326). -/
def endlBody (n : Nat) (s : State) (w pc : Nat) : State :=
  let c := s.ch n
  match c.loops with
  | [] => s.chFail n 0x0802 pc
  | (body, k) :: rest =>
    if !chFields w [] then s.chFail n 0x0802 pc
    else if 1 < k then (s.setCh n { c with loops := (body, k - 1) :: rest }).wr (Reg.MOV_CH_PC n) body
    else ((s.setCh n { c with loops := rest }).chDepth n).wr (Reg.MOV_CH_PC n) (pc + 8)

/-- The flag index of WAIT or SIGNAL, when its FREG form allows it (R327). -/
def State.chFlag (s : State) (n w : Nat) : Option Nat :=
  if bitAt w 41 then (if s.chX n (fld w 34 3) < 32768 && fld w 43 15 == 0 then some (s.chX n (fld w 34 3)) else none)
  else some (fld w 43 15)

/-- The value or target of WAIT or SIGNAL. -/
def State.chValue (s : State) (n w : Nat) : Nat := if bitAt w 42 then s.chX n (fld w 37 3) % 2 ^ 32 else fld w 0 32

/-- The fields of WAIT and SIGNAL agree (R327, R322). -/
def chFlagFields (w : Nat) (remote : Bool) : Bool :=
  chFields w [(43, 15), (42, 1), (41, 1), (40, 1), (37, 3), (34, 3), (0, 32)] &&
  (if bitAt w 42 then fld w 0 32 == 0 else fld w 37 3 == 0) && (bitAt w 41 || bitAt w 40 || fld w 34 3 == 0) &&
  (!bitAt w 40 || (remote && !bitAt w 41))

/-- WAIT (R327): the channel is WAITING until the flag unit reports the wait. -/
def chWaitBody (n : Nat) (s : State) (w pc : Nat) : State :=
  match s.chFlag n w with
  | none => s.chFail n 0x0802 pc
  | some i =>
    if !chFlagFields w false then s.chFail n 0x0802 pc
    else
      let (s1, code) := s.flagWait (s.chPt n) i (s.chValue n w) (uCh n) pc
      if code ≠ 0 then s1.chEnd n code
      else (s1.setCh n { s1.ch n with wait := some (i, s.chValue n w) }).setChState n 2

/-- SIGNAL (R327): a release; its flag is local, or on the device that X[FR] names. -/
def chSignalBody (n : Nat) (s : State) (w pc : Nat) : State :=
  let c := s.ch n
  let p := s.chPt n
  match s.chFlag n w with
  | none => s.chFail n 0x0802 pc
  | some i =>
    if !chFlagFields w true || s.chValue n w == 0 then s.chFail n 0x0802 pc
    else
      let d := s.chX n (fld w 34 3) % 128
      let dev := if bitAt w 40 && d != s.devId then some d else none
      if dev.isNone && !s.owns p 0x33 i then (s.notOwned p (uCh n) i).chEnd n 0x0503
      else
        let r : ChRel := { needs := c.writes.map (·.id), act := .signal i (s.chValue n w) dev }
        let s1 := (s.setCh n { c with rels := c.rels ++ [r] }).chReleases n (c.rels.length + 1)
        if (s1.ch n).live then s1.wr (Reg.MOV_CH_PC n) (pc + 8) else s1

/-- SETV (R328). -/
def setvBody (n : Nat) (s : State) (w pc : Nat) : State :=
  if !chFields w [(55, 3), (54, 1), (0, 48)] then s.chFail n 0x0802 pc
  else
    let xd := fld w 55 3
    let imm := fld w 0 48
    let v := if bitAt w 54 then codeOf 64 ((s.chX n xd : Int) + signedOf 48 imm) else imm
    (s.setChX n xd v).wr (Reg.MOV_CH_PC n) (pc + 8)

/-- HALT (R328, R339). -/
def haltBody (n : Nat) (s : State) (w pc : Nat) : State :=
  if !chFields w [] then s.chFail n 0x0802 pc else s.chEnd n 0

/-- The offsets in its slot that a RING move writes all lie inside it (R335). -/
def ringFits (tr : Bool) (dst dstr len rows size : Nat) : Bool :=
  if tr then (List.range (len / 4)).all fun j => (dst + j * dstr) % 2 ^ 64 + 4 * rows ≤ size
  else (List.range rows).all fun r => (dst + r * dstr) % 2 ^ 64 + len ≤ size

/-- MOVE (R323, R324, R329, R335): checks, then its beats are issued; a RING move into a slot not yet open waits for space. -/
def moveBody (n : Nat) (s : State) (w pc : Nat) : State :=
  let c := s.ch n
  let tr := bitAt w 55
  let ring := bitAt w 57
  let x (lo : Nat) := s.chX n (fld w lo 3)
  let len := fld w 21 20
  let rows := fld w 5 16 + 1
  let s0 := s.wr (Reg.MOV_CH_RESIDUE n) (rows * len)
  let src := x 52
  let dst := x 49
  let sstr := x 46
  let dstr := x 43
  if fld w 0 5 != 0 || len == 0 || (bitAt w 56 && !ring) then s0.chFail n 0x0802 pc
  else if sstr % 64 ≠ 0 ∨ dstr % 64 ≠ 0 ∨ [src, dst, len].any (fun v => v % (if tr then 4 else 64) != 0) then s0.chFail n 0x0801 pc
  else if ring && !(s.rdB (Reg.MOV_CH_CFG n) 22 && ringFits tr dst dstr len rows (s.slotSize n)) then s0.chFail n 0x0807 pc
  else
    let tail := s.rdN (Reg.MOV_CH_RING_TAIL n)
    let slots := s.rdF (Reg.MOV_CH_RING_CFG n) 0 5
    let base := if ring then s.rdN (Reg.MOV_CH_RING_BASE n) + tail % slots * s.slotSize n else 0
    let incs := (if bitAt w 42 then [(fld w 52 3, rows * sstr)] else []) ++
      (if bitAt w 41 then [(fld w 49 3, if tr then 4 * rows else rows * dstr)] else [])
    let cur : Cur := { movx := false, tr := tr, src := src, dst := base + dst, sstr := sstr, dstr := dstr, len := len, rows := rows,
                       ring := ring, commit := bitAt w 56, incs := incs, space := !ring || c.slotOpen }
    let s1 := s0.setCh n { c with cur := some cur }
    if cur.space then s1
    else
      let free := s.rdF (Reg.MOV_CH_RING_FLAGS n) 16 15
      let target := tail + 1 - slots
      let (s2, code) := s1.flagWait (s.chPt n) free target (uCh n) pc
      if code ≠ 0 then s2.chEnd n code
      else (s2.setCh n { s2.ch n with wait := some (free, target) }).setChState n 2

/-- MOVX (R325, R329): checks, then its entries are copied one after another. -/
def movxBody (n : Nat) (s : State) (w pc : Nat) : State :=
  let x (lo : Nat) := s.chX n (fld w lo 3)
  let len := fld w 21 20
  let rows := fld w 5 16 + 1
  let s0 := s.wr (Reg.MOV_CH_RESIDUE n) (rows * len)
  if bitAt w 55 || bitAt w 41 || fld w 0 5 != 0 || len == 0 then s0.chFail n 0x0802 pc
  else if [x 52, x 49, len].any (fun v => v % 64 != 0) || x 46 % 4 != 0 then s0.chFail n 0x0801 pc
  else
    let cur : Cur := { movx := true, src := x 52, dst := x 49, tbl := x 46, lim := x 43, len := len, rows := rows,
                       scat := bitAt w 57, skipEn := bitAt w 56,
                       incs := if bitAt w 42 then [(fld w 46 3, 4 * rows)] else [] }
    s0.setCh n { s0.ch n with cur := some cur }

/-! ### Beats (R324, R325, R330 to R333, R343, R344) -/

/-- Every read of the instruction has been issued. -/
def Cur.allRead (x : Cur) : Bool := x.rows ≤ x.row

/-- Source and destination DVA and length of the next beat; for MOVX, of the entry with offset `off`. -/
def Cur.beatAt (x : Cur) (off : Nat) : Nat × Nat × Nat :=
  if x.movx then
    (if x.scat then ((x.src + x.row * x.len + x.pos) % 2 ^ 64, (x.dst + 64 * off + x.pos) % 2 ^ 64, 64)
     else ((x.src + 64 * off + x.pos) % 2 ^ 64, (x.dst + x.row * x.len + x.pos) % 2 ^ 64, 64))
  else if x.tr then
    ((x.src + x.row * x.sstr + x.pos) % 2 ^ 64, (x.dst + x.pos / 4 * x.dstr + 4 * x.row) % 2 ^ 64, 4)
  else ((x.src + x.row * x.sstr + x.pos) % 2 ^ 64, (x.dst + x.row * x.dstr + x.pos) % 2 ^ 64, 64)

/-- The position after a beat of `k` bytes, without the bursts. -/
def Cur.advance (x : Cur) (k : Nat) : Cur :=
  if x.pos + k < x.len then { x with pos := x.pos + k } else { x with pos := 0, row := x.row + 1, off := none }

/-- The position after a beat to `dst`, with the burst count (R343): a burst is a row or an entry, or up to 16 elements of a
transposition into one 1 KiB block. -/
def Cur.next (x : Cur) (dst k : Nat) : Cur :=
  let y := x.advance k
  if x.tr then
    let n := x.bCount + 1
    let more := n < 16 && !y.allRead && (y.beatAt 0).2.1 / 1024 == dst / 1024
    { y with bCount := if more then n else 0 }
  else { y with bCount := if y.row = x.row then x.bCount + 1 else 0 }

/-- Move past entries to skip and fix the offset of the next entry of a MOVX (R325): the state, and whether a beat follows. -/
def State.chEntry (s : State) (n : Nat) : Nat → State × Bool
  | 0 => (s, false)
  | fuel + 1 =>
    let c := s.ch n
    match c.cur with
    | none => (s, false)
    | some x =>
      if x.allRead then (s, false)
      else if !x.movx || x.off.isSome then (s, true)
      else
        let a := (x.tbl + 4 * x.row) % 2 ^ 64
        match s.readDva (s.chPt n) a 4 with
        | .refused f d => (s.chRefused n d false f, false)
        | .bus d => ((s.chLatch n d 0x0803 false).setCh n { c with failed := true }, false)
        | .data bs bad =>
          let off := ofLE bs
          if bad then
            ((s.setChRun n fun r => { r with noRead := true }).chFail n 0x0804 a, false)
          else if x.skipEn && off == 0xFFFFFFFF then
            let y := { x with row := x.row + 1 }
            State.chEntry ((s.setCh n { c with cur := some y }).wr (Reg.MOV_CH_RESIDUE n) (s.rdN (Reg.MOV_CH_RESIDUE n) - x.len)) n fuel
          else if x.lim ≤ off then
            (((s.setChRun n fun r => { r with noRead := true }).err (s.chPt n) (uCh n) 0x0503 a).chEnd n 0x0503, false)
          else (s.setCh n { c with cur := some { x with off := some off } }, true)

/-- A beat of the channel that is not finished writes the granule of `a` (R330): by its DVA, or by the PA of a write in
flight. -/
def Chan.hazard (c : Chan) (a pa : Nat) : Bool :=
  (c.reads ++ c.ready ++ c.writes).any (fun b => b.dst / 64 == a / 64) || c.writes.any fun b => b.pa / 64 == pa / 64

/-- The instruction in progress has issued its last write (and COMMIT: its writes are visible): COMMIT, increments and the
next pc (R323, R325, R335, R336). -/
def State.chRetire (s : State) (n : Nat) : State :=
  let c := s.ch n
  match c.cur with
  | none => s
  | some x =>
    if !x.allRead || !c.live || c.failed || !c.reads.isEmpty || !c.ready.isEmpty || !c.redo.isEmpty || (x.commit && !c.writes.isEmpty)
    then s
    else
      let tail := s.rdN (Reg.MOV_CH_RING_TAIL n)
      if x.commit && tail == 2 ^ 32 - 1 then (s.setCh n { c with cur := none }).chFail n 0x0808
      else
        let s1 := if x.commit then
            (s.wr (Reg.MOV_CH_RING_TAIL n) (tail + 1)).flagPush
              { isSet := false, flag := s.rdF (Reg.MOV_CH_RING_FLAGS n) 0 15, n := 1, pt := s.chPt n, agent := uCh n
                ctx := s.rdN (Reg.MOV_CH_PC n) }
          else s
        let s2 := x.incs.foldl (fun s i => s.setChX n i.1 (s.chX n i.1 + i.2)) s1
        (s2.setCh n { s2.ch n with cur := none, slotOpen := (s2.ch n).slotOpen && !x.commit }).wr (Reg.MOV_CH_PC n)
          (s.rdN (Reg.MOV_CH_PC n) + 8)

/-- A channel that has met a bus error has let its other beats finish: it is HALTED and raises 0x0803 (R344). -/
def State.chHaltCheck (s : State) (n : Nat) : State :=
  let c := s.ch n
  if c.failed && s.chState n == 1 && c.reads.isEmpty && c.writes.isEmpty then
    let s1 := (s.setChState n 3).chErr n 0x0803 (s.rdN (Reg.MOV_CH_FAULT_ADDR n))
    if s1.rdB (Reg.MOV_CH_IRQ n) 2 then s1.irqReg (s1.chPt n) (Reg.QM_CH_IVEC n) else s1
  else s

/-- A beat fails with a bus error (R344): the first one latches; in ABORTING it is dropped. -/
def State.chBeatFailed (s : State) (n : Nat) (b : Beat) (isWrite : Bool) : State :=
  let c := s.ch n
  let addr := if isWrite then b.dst else b.src
  let s1 := if c.failed then s else s.chLatch n addr 0x0803 isWrite
  if !c.live then s1
  else
    let b' := { b with again := true }
    (if isWrite then s1.setCh n { c with failed := true, failedW := c.failedW ++ [b'] }
     else s1.setCh n { c with failed := true, failedR := c.failedR ++ [b'] }).chHaltCheck n

/-- Issue the read of beat `b` (R331, R333, R350): refused, failed at once, or outstanding. -/
def State.chIssueRead (s : State) (n : Nat) (b : Beat) : State :=
  let p := s.chPt n
  match s.xlate p b.src b.len .read with
  | .error f => s.chRefused n b.src false f
  | .ok pa =>
    let bad := targetOf pa == .undecoded || (targetOf pa == .link && !s.reachable (s.physDev (fld pa 39 7)))
    if bad then s.chBeatFailed n b false
    else
      let s1 := if targetOf pa = .link then s.sendRemote 2 (s.physDev (fld pa 39 7)) p (uCh n) pa b.len [] else s
      let s2 := (s1.bump (Reg.MOV_READ_BYTES (n / 16)) b.len).chargeShare p b.len
      s2.setCh n { s2.ch n with reads := (s2.ch n).reads ++ [{ b with pa := pa }] }

/-- Issue the next read of channel `n`: a failed beat first, then the next beat of the instruction. -/
def State.chReadBeat (s : State) (n : Nat) : State :=
  let c := s.ch n
  match c.redo with
  | b :: bs => (s.setCh n { c with redo := bs }).chIssueRead n b
  | [] =>
    let (s1, go) := s.chEntry n 65537
    let c1 := s1.ch n
    match c1.cur with
    | none => s1
    | some x =>
      if !go then s1.chRetire n
      else
        let (src, dst, k) := x.beatAt (x.off.getD 0)
        let held := match s1.xlate (s1.chPt n) src k .read with
          | .ok pa => c1.hazard src pa
          | .error _ => false
        if held then s1
        else
          let b : Beat := { id := c1.nextId, src := src, dst := dst, len := k }
          (s1.setCh n { c1 with cur := some (x.next dst k), nextId := c1.nextId + 1 }).chIssueRead n b

/-- Issue the next write of channel `n`: its data is stored, poisoned where the source was (R346), and counted. -/
def State.chWriteBeat (s : State) (n : Nat) : State :=
  let c := s.ch n
  let p := s.chPt n
  match c.ready with
  | [] => s
  | b :: bs =>
    match s.xlate p b.dst b.len .write with
    | .error f => s.chRefused n b.dst true f
    | .ok pa =>
      let s0 := s.setCh n { c with ready := bs }
      let lost := targetOf pa == .undecoded || (targetOf pa == .link && !s.reachable (s.physDev (fld pa 39 7)))
      if lost then s0.chBeatFailed n b true
      else
        let s1 := (s0.writePA p (uCh n) pa b.data b.bad).chargeShare p b.len
        let s2 := if b.again then s1 else (s1.bump (Reg.MOV_WRITE_BYTES (n / 16)) b.len).bump (Reg.MOV_CH_BYTES n) b.len
        let s3 := s2.wr (Reg.MOV_CH_RESIDUE n) (s2.rdN (Reg.MOV_CH_RESIDUE n) - b.len)
        let c3 := s3.ch n
        let run := c3.run.map fun r => { r with bytes := r.bytes + b.len, poison := r.poison || b.bad }
        (s3.setCh n { c3 with writes := c3.writes ++ [{ b with pa := pa }], run := run }).chRetire n

/-- Read tags held by mover `m`. -/
def State.readTags (s : State) (m : Nat) : Nat := (List.range 16).foldl (fun a k => a + (s.ch (m * 16 + k)).reads.length) 0

/-- Write tags held by mover `m`. -/
def State.writeTags (s : State) (m : Nat) : Nat := (List.range 16).foldl (fun a k => a + (s.ch (m * 16 + k)).writes.length) 0

/-- Channel `n` has a beat ready in a direction (R333). -/
def State.beatReady (s : State) (n : Nat) (isWrite : Bool) : Bool :=
  let c := s.ch n
  !c.failed && (s.chState n == 1 || s.chState n == 4) &&
  (if isWrite then !c.ready.isEmpty
   else !c.redo.isEmpty || (match c.cur with
     | some x => !x.allRead && x.space && (c.live || x.bCount != 0) && !((c.run.map (·.noRead)).getD false)
     | none => false))

/-- A tag is free for channel `n` (R331). -/
def State.tagFree (s : State) (n : Nat) (isWrite : Bool) : Bool :=
  if isWrite then (s.ch n).writes.length < s.rdF (Reg.MOV_CH_CFG n) 10 10 && s.writeTags (n / 16) < 512
  else (s.ch n).reads.length < s.rdF (Reg.MOV_CH_CFG n) 0 10 && s.readTags (n / 16) < 768

/-- The partition of channel `n` has not used up its memory share (R405). -/
def State.hasQuota (s : State) (n : Nat) : Bool :=
  let hi := s.rdF (Reg.QOS_PT_MEM (s.chPt n)) 16 16
  hi == 0 || s.qm.admitted.getD (s.chPt n) 0 < hi

/-- The channel of mover `m` that wins a direction (R333): highest priority, then round-robin after the last winner. -/
def State.beatWinner (s : State) (m : Nat) (isWrite : Bool) : Option Nat :=
  let last := s.movRR.getD (m * 2 + isWrite.toNat) 15
  let order := (List.range 16).map fun k => m * 16 + (last + 1 + k) % 16
  let cand := order.filter fun n => s.beatReady n isWrite && s.tagFree n isWrite && s.hasQuota n
  let top := cand.foldl (fun a n => max a (s.rdF (Reg.MOV_CH_PRIO n) 0 3)) 0
  cand.find? fun n => s.rdF (Reg.MOV_CH_PRIO n) 0 3 == top

/-- The memory share, tags and priorities of a beat slot of mover `m`: who stalls, who is pre-empted and who issues. -/
def State.beatIssue (s : State) (m : Nat) (isWrite : Bool) : State :=
  let ready := ((List.range 16).map (m * 16 + ·)).filter fun n => s.beatReady n isWrite
  let s1 := (ready.filter fun n => !s.tagFree n isWrite).foldl (fun s n => s.bump (Reg.MOV_CH_TAG_STALL n) 1) s
  match s.beatWinner m isWrite with
  | none => s1
  | some n =>
    let pr := s.rdF (Reg.MOV_CH_PRIO n) 0 3
    let s2 := (ready.filter fun k => s.rdF (Reg.MOV_CH_PRIO k) 0 3 < pr).foldl (fun s k => s.bump (Reg.MOV_CH_PREEMPTED k) 1) (s1.progress (s.chPt n))
    let s3 := { s2 with movRR := s2.movRR.put (m * 2 + isWrite.toNat) (n % 16) }
    if isWrite then s3.chWriteBeat n else s3.chReadBeat n

/-- A remote access at window address `pa` is not answered yet. -/
def State.remotePending (s : State) (kind n pa : Nat) : Bool :=
  s.lnk.outstanding.any fun r => r.kind == kind && r.agent == uCh n && r.addr == pa

/-- The data of the oldest read returns (R331, R346). -/
def State.chReadReturn (s : State) (n : Nat) : State :=
  let c := s.ch n
  match c.reads with
  | [] => s
  | b :: bs =>
    if s.remotePending 2 n b.pa then s
    else
      let bad := s.poisonedPA b.pa b.len
      let drop := (c.run.map (·.noWrite)).getD false
      let c1 := { c with reads := bs, ready := if drop then c.ready else c.ready ++ [{ b with data := s.readPA b.pa b.len, bad := bad }] }
      let s1 := s.setCh n c1
      (if bad && c.live && !s.chMarking n then s1.chFail n 0x0804 b.src else s1).chHaltCheck n

/-- The oldest write is globally visible (R331). -/
def State.chWriteAck (s : State) (n : Nat) : State :=
  let c := s.ch n
  match c.writes with
  | [] => s
  | b :: bs =>
    if s.remotePending 1 n b.pa then s
    else (((s.setCh n { c with writes := bs }).chVisible n b.id).chRetire n).chHaltCheck n

/-- The outstanding write or read that `P` names fails with a bus error. -/
def State.chBus (s : State) (n : Nat) (isWrite : Bool) (P : Beat → Bool) : State :=
  let c := s.ch n
  if isWrite then
    match c.writes.find? P with
    | none => s
    | some b =>
      let run := c.run.map fun r => { r with bytes := r.bytes - b.len }
      let s1 := (s.setCh n { c with writes := c.writes.erase b, run := run }).chVisible n b.id
      (s1.wr (Reg.MOV_CH_RESIDUE n) (s1.rdN (Reg.MOV_CH_RESIDUE n) + b.len)).chBeatFailed n b true
  else
    match c.reads.find? P with
    | none => s
    | some b => (s.setCh n { c with reads := c.reads.erase b }).chBeatFailed n b false

/-- Drop the head of the spore queue with a code (R338). -/
def State.sporeDrop (s : State) (n code : Nat) : State :=
  let c := s.ch n
  let a := Reg.MOV_CH_SPORE_STATUS n
  (s.setCh n { c with spores := c.spores.drop 1 }).wr a (c.spores.length - 1 + (if code = 0 then s.rdF a 16 16 else code) * 65536)

/-- An access of channel `n` to window address `pa` is unreachable (R425, R344): the beat fails, or the spore request that
made it is dropped. -/
def State.channelBusError (s : State) (n : Nat) (isWrite : Bool) (pa : Nat) : State :=
  let c := s.ch n
  if (if isWrite then c.writes else c.reads).any fun b => b.pa == pa then s.chBus n isWrite fun b => b.pa == pa
  else
    match c.spores with
    | [] => s
    | x :: _ => if x.sent || x.wrote then (s.chErr n 0x0803).sporeDrop n 0x0803 else s

/-- Access `pa` of channel `n` was refused by its target device (R423): the run ends with the code; nothing more is issued. -/
def State.chRemoteRefused (s : State) (n code pa : Nat) : State :=
  let c := s.ch n
  match c.writes.find? (fun b => b.pa == pa), c.reads.find? (fun b => b.pa == pa) with
  | some b, _ =>
    (((((s.setCh n { c with writes := c.writes.erase b, ready := [] }).chVisible n b.id).chLatch n b.dst code true).setChRun n fun r =>
      { r with noRead := true, noWrite := true }).chEnd n code)
  | none, some b =>
    (((s.setCh n { c with reads := c.reads.erase b }).chLatch n b.src code false).setChRun n fun r => { r with noRead := true }).chEnd n code
  | none, none => if c.spores.any (fun x => x.sent || x.wrote) then s.sporeDrop n code else s.chEnd n code

/-! ### Ending (R339, R340, R343) -/

/-- The 64-byte completion record (R340). -/
def State.chRecord (s : State) (n : Nat) (r : ChRun) (code : Nat) : List Byte :=
  let info := s.rdN (Reg.MOV_CH_FAULT_INFO n)
  let fl := r.aborted.toNat + 2 * r.wasHalted.toNat + 4 * r.poison.toNat + 8 * (fld info 16 1) + 16 * (fld info 31 1)
  let body := leBytes 2 code ++ leBytes 1 n ++ leBytes 1 fl ++ leBytes 4 0 ++ leBytes 8 (s.rdN (Reg.MOV_CH_PC n)) ++
    leBytes 8 (s.rdN (Reg.MOV_CH_RESIDUE n) % 2 ^ 48) ++ leBytes 8 (r.bytes % 2 ^ 48) ++ leBytes 8 (s.rdN (Reg.MOV_CH_FAULT_ADDR n)) ++
    leBytes 8 r.start ++ leBytes 8 s.now ++ leBytes 4 (s.rdN (Reg.MOV_CH_RUNS n))
  body ++ leBytes 4 (crc32c body)

/-- Write the completion record, whose failure is raised and changes nothing else (R339). -/
def State.chWriteRecord (s : State) (n : Nat) (r : ChRun) (code : Nat) : State :=
  let p := s.chPt n
  let a := s.rdN (Reg.MOV_CH_REC_ADDR n)
  if a = 0 then s
  else
    match s.xlate p a 64 .write with
    | .error f => s.oob p (uCh n) none f a
    | .ok pa =>
      if targetOf pa == .undecoded || (targetOf pa == .link && !s.reachable (s.physDev (fld pa 39 7))) then s.chErr n 0x0803 a
      else
        let s1 := s.writePA p (uCh n) pa (s.chRecord n r code) false
        let c := s1.ch n
        let b : Beat := { id := c.nextId, src := 0, dst := a, len := 64, pa := pa }
        s1.setCh n { c with writes := c.writes ++ [b], nextId := c.nextId + 1 }

/-- The run of channel `n` is over: every beat of it that has to be is done. -/
def Chan.runOver (c : Chan) : Bool :=
  match c.run with
  | some r =>
    (match r.ended with
      | some code => c.reads.isEmpty && c.ready.isEmpty && (r.noRead || (c.redo.isEmpty && !c.inBurst)) && (code == 0 || c.writes.isEmpty)
      | none => false)
  | none => false

/-- The steps of R339: IDLE with the code, the interrupt, the record, and the release that DONE_FLAG and the node wait for. -/
def State.chRunComplete (s : State) (n : Nat) : State :=
  let c := s.ch n
  match c.run with
  | none => s
  | some r =>
    if !c.runOver then s
    else
      let p := s.chPt n
      let code := r.ended.getD 0
      let s1 := s.setCh n { c with run := none, cur := none, line := none, redo := [], failedR := [], failedW := [], failed := false }
      let s2 := s1.wr (Reg.MOV_CH_STATE n) (c.loops.length * 16 + code * 65536)
      let s3 := if s2.rdB (Reg.MOV_CH_IRQ n) (if code = 0 then 0 else 1) then s2.irqReg p (Reg.QM_CH_IVEC n) else s2
      let s4 := s3.chWriteRecord n r code
      let c4 := s4.ch n
      let rel : ChRel := { needs := c4.writes.map (·.id), act := .done (s4.rdN (Reg.MOV_CH_DONE_FLAG n)) r.node code }
      (s4.setCh n { c4 with rels := c4.rels ++ [rel] }).event (uCh n) 0x02 p code (s4.rdN (Reg.MOV_CH_RUNS n)) r.bytes

/-- Abort the run of channel `n` (R343): nothing in IDLE; a wait ends with RESIDUE 0; a halted channel drops its failed beats;
otherwise the current burst is finished. -/
def State.chAbort (s : State) (n code : Nat) : State :=
  let c := s.ch n
  if !c.live then s
  else
    let st := s.chState n
    let s1 := s.event (uCh n) 0x04 (s.chPt n) code (s.rdN (Reg.MOV_CH_RUNS n)) 0
    let s2 := (if st = 2 then (s1.dropWaits (uCh n)).wr (Reg.MOV_CH_RESIDUE n) 0 else s1).setChRun n fun r =>
      { r with aborted := true, wasHalted := st == 3 }
    let c2 := s2.ch n
    let s3 := if st = 3 ∨ c.failed then
        s2.setCh n { c2 with failed := false, failedR := [], failedW := [], ready := [],
                             cur := c2.cur.map fun x => { x with bCount := 0 } }
      else s2
    (s3.chErr n code).chEnd n code

/-- Channel `n` is in use: a run, a Crozier node or a spore request. -/
def State.chBusy (s : State) (n : Nat) : Bool :=
  let c := s.ch n
  s.chState n != 0 || c.run.isSome || c.held.isSome || !c.spores.isEmpty

/-- Channel `n` is as after reset beyond its registers. -/
def State.resetChannel (s : State) (n : Nat) : State := s.setCh n {}

/-- The wait of channel `n` has ended (R327, R335, R270): satisfied with code 0, or ended with an error already raised. -/
def State.chWaitOver (s : State) (n code : Nat) : State :=
  let c := s.ch n
  if c.wait.isNone then s
  else if code ≠ 0 then (s.setCh n { c with wait := none }).chEnd n code
  else
    match c.cur with
    | some x => (s.setCh n { c with wait := none, cur := some { x with space := true }, slotOpen := true }).setChState n 1
    | none => ((s.setCh n { c with wait := none }).setChState n 1).wr (Reg.MOV_CH_PC n) (s.rdN (Reg.MOV_CH_PC n) + 8)

/-! ### The spore path (R337, R338) -/

/-- Queue a spore request (R337). -/
def State.sporeSubmit (s : State) (n ctl : Nat) : State :=
  let c := s.ch n
  let a := Reg.MOV_CH_SPORE_STATUS n
  let len := fld ctl 0 8 + 1
  let inl := bitAt ctl 8
  let src := s.rdN (Reg.MOV_CH_SPORE_SRC n)
  let dst := s.rdN (Reg.MOV_CH_SPORE_DST n)
  let cross (d : Nat) : Bool := 4096 < d % 4096 + len
  if 16 ≤ c.spores.length || (inl && 32 < len) || (!inl && cross src) || cross dst || (s.ownerOf 0x21 n).isNone then
    (s.wrF a 16 16 0x080A).chErr n 0x080A
  else if s.rdB Reg.REL_STATUS 0 then s
  else
    let bytes := (List.range 4).flatMap fun i => leBytes 8 (s.rdN (Reg.MOV_CH_SPORE_DATA n i))
    let q : Spore := { inline := if inl then some (bytes.take len) else none, src := src, dst := dst, len := len
                       flag := if bitAt ctl 24 then some (fld ctl 9 15) else none }
    (s.setCh n { c with spores := c.spores ++ [q] }).wrF a 0 5 (c.spores.length + 1)

/-- Write the bytes of a spore request granule by granule; a granule that receives a byte of a poisoned one is poisoned. -/
def State.sporeStore (s : State) (n srcPa : Nat) (isInline : Bool) (pa : Nat) : Nat → List Byte → State
  | 0, _ => s
  | fuel + 1, bs =>
    if bs.isEmpty then s
    else
      let k := min bs.length (64 - pa % 64)
      let bad := !isInline && s.poisonedPA srcPa k
      State.sporeStore (s.writePA (s.chPt n) (uCh n) pa (bs.take k) bad) n (srcPa + k) isInline (pa + k) fuel (bs.drop k)

/-- A spore request fails (R338). -/
def State.sporeFail (s : State) (n code : Nat) (f : Option (XFault × Nat)) : State :=
  match f with
  | some (x, a) => (s.oob (s.chPt n) (uCh n) none x a).sporeDrop n code
  | none => (s.chErr n code).sporeDrop n code

/-- A request packet of channel `n` is outstanding. -/
def State.sporeRemote (s : State) (n kind pa len : Nat) : Bool :=
  s.lnk.outstanding.any fun r => r.kind == kind && r.agent == uCh n && pa ≤ r.addr && r.addr < pa + len

/-- The head request `x` has written its data: its flag is signalled as a release, and it leaves the queue (R338). -/
def State.sporeFinish (s : State) (n : Nat) (x : Spore) : State :=
  let s1 := match x.flag with
    | some fl => s.flagPush { isSet := false, flag := fl, n := 1, pt := s.chPt n, agent := uCh n }
    | none => s
  (s1.sporeDrop n 0).bump (Reg.MOV_CH_SPORES n) 1

/-- The bytes of the head request `x`, read at `spa`, are written at `dpa`; a write over the link is awaited. -/
def State.sporeMove (s : State) (n : Nat) (x : Spore) (xs : List Spore) (dpa spa : Nat) (bs : List Byte) : State :=
  if targetOf dpa == .undecoded || (targetOf dpa == .link && !s.reachable (s.physDev (fld dpa 39 7))) then s.sporeFail n 0x0803 none
  else
    let s1 := s.sporeStore n spa x.inline.isSome dpa (bs.length + 1) bs
    if targetOf dpa = .link then s1.setCh n { s1.ch n with spores := { x with wrote := true } :: xs } else s1.sporeFinish n x

/-- The head request completes (R338): its data is read and written under R35, and its flag is signalled as a release;
accesses over the link are sent first and awaited. -/
def State.sporeStep (s : State) (n : Nat) : State :=
  let c := s.ch n
  let p := s.chPt n
  match c.spores with
  | [] => s
  | x :: xs =>
    match s.xlate p x.dst x.len .write with
    | .error f => s.sporeFail n 0x0503 (some (f, x.dst))
    | .ok dpa =>
      if x.wrote then (if s.sporeRemote n 1 dpa x.len then s else s.sporeFinish n x)
      else
        match x.inline with
        | some bs => s.sporeMove n x xs dpa 0 bs
        | none =>
          match s.xlate p x.src x.len .read with
          | .error f => s.sporeFail n 0x0503 (some (f, x.src))
          | .ok spa =>
            if targetOf spa == .undecoded || (targetOf spa == .link && !s.reachable (s.physDev (fld spa 39 7))) then s.sporeFail n 0x0803 none
            else if targetOf spa = .link ∧ !x.sent then
              let s1 := s.sendRemote 2 (s.physDev (fld spa 39 7)) p (uCh n) spa x.len []
              s1.setCh n { s1.ch n with spores := { x with sent := true } :: xs }
            else if s.sporeRemote n 2 spa x.len then s
            else if s.poisonedPA spa x.len && !s.chMarking n then s.sporeFail n 0x0804 none
            else s.sporeMove n x xs dpa spa (s.readPA spa x.len)

end Sys2Proof.Machine
end

