-- ==== Sys2Proof/Machine/CrozierCore.lean ====
section
/-! DEFINITION. Sys2Proof/Machine/CrozierCore.lean: frame graphs (06_crozier_frame_graphs, R131 to R154): instances, nodes, stripe
counters, node starts and ends, failures, and the release of frame records. -/

namespace Sys2Proof.Machine

/-! ### Lookup and update -/

/-- The loaded graph of slot `g`. -/
def State.cg (s : State) (g : Nat) : Option CGraph := Tab.get? s.crz.graphs g

/-- Replace the loaded graph of slot `g`. -/
def State.setCg (s : State) (g : Nat) (x : CGraph) : State := { s with crz := { s.crz with graphs := s.crz.graphs.put g x } }

/-- The partition of graph slot `g` (R131). -/
def State.cgPt (s : State) (g : Nat) : Nat := (s.ownerOf 0x19 g).getD 0

/-- Instance `seq` of a graph. -/
def CGraph.inst (x : CGraph) (seq : Nat) : Option CInst := x.insts.find? fun i => i.seq == seq

/-- Change instance `seq` of graph `g`. -/
def State.setInst (s : State) (g seq : Nat) (f : CInst → CInst) : State :=
  match s.cg g with
  | none => s
  | some x => s.setCg g { x with insts := x.insts.map fun i => if i.seq = seq then f i else i }

/-- The run of a node in its instance. -/
def State.nodeRun (s : State) (r : NodeRef) : Option NodeRun :=
  ((s.cg r.slot).bind fun x => x.inst r.inst).bind fun i => i.nodes[r.node]?

/-- Change the run of a node. -/
def State.setNode (s : State) (r : NodeRef) (f : NodeRun → NodeRun) : State :=
  s.setInst r.slot r.inst fun i => { i with nodes := (i.nodes.zipIdx).map fun (n, k) => if k = r.node then f n else n }

/-- The declaration of a node. -/
def State.nodeDef (s : State) (r : NodeRef) : Option CNode := (s.cg r.slot).bind fun x => x.nodes[r.node]?

/-- A Crozier error of graph `g` (R152). -/
def State.crzErr (s : State) (g code : Nat) (info : Nat := 0) : State :=
  s.report (s.cgPt g) { code := code, subj := ⟨0x19, g⟩, rep := uCrozier, info := info }

/-- The agent of graph `g` at the flag unit (R544). -/
def uCrz (g : Nat) : UnitId := ⟨0x18, g⟩

/-- ISP pipe `n` as a unit (R17). -/
def uIsp (n : Nat) : UnitId := ⟨0x06, n⟩

/-- Bracken engine `e` as a unit (R17, R112). -/
def uBrk (e : Nat) : UnitId :=
  if e < 2 then ⟨0x10, e⟩ else if e < 4 then ⟨0x11, e - 2⟩ else if e < 6 then ⟨0x12, e - 4⟩ else if e = 6 then ⟨0x13, 0⟩
  else if e < 9 then ⟨0x14, e - 7⟩ else ⟨0x15, e - 9⟩

/-- A phase that a node does not leave (R133). -/
def NPhase.closed : NPhase → Bool
  | .ended => true
  | .failed => true
  | .skipped => true
  | .cancelled => true
  | _ => false

/-- A node that has started or ended acts in its instance (R148, R150). -/
def NPhase.acted : NPhase → Bool
  | .skipped => false
  | .cancelled => false
  | _ => true

/-- Nodes reached from a list of nodes through frame and stripe chains. -/
def CGraph.reached (x : CGraph) : Nat → List Nat → List Nat
  | 0, l => l
  | fuel + 1, l =>
    let next := x.chains.foldl (fun (a : List Nat) c => if !c.prev && l.contains c.src then insSorted c.dst a else a) l
    if next = l then l else CGraph.reached x fuel next

/-- The nodes that EVERY and the chains from them skip in the instance whose INST_SEQ is `num` (R150). -/
def CGraph.skips (x : CGraph) (num : Nat) : List Nat :=
  let own := (List.range x.nodes.length).filter fun k =>
    match x.nodes[k]? with
    | some n => (num - 1) % n.every.1 != n.every.2
    | none => false
  x.reached x.nodes.length own

/-! ### Frame records (R147 to R149) -/

/-- The stream whose frame starts a node: its own, or that of exposure 0 of its context. -/
def State.nodeStream (s : State) (n : CNode) : Option Nat :=
  if n.kind = 1 then some n.unit
  else if n.kind = 2 then some (s.rdF (Reg.ISP_CTX_SRC (n.unit / 4) (n.unit % 4)) 0 6)
  else none

/-- The latest instance before `seq` in which node `k` acted, when it has not left its slot; otherwise nothing. -/
def CGraph.prevInst (x : CGraph) (seq k : Nat) : Option CInst :=
  let l := x.insts.filter fun i => x.base < i.seq && i.seq < seq && !(x.skips i.num).contains k &&
    (match i.nodes[k]? with
      | some n => n.phase.acted
      | none => false)
  l.foldl (fun a i => match a with
    | some b => if b.seq < i.seq then some i else some b
    | none => some i) none

/-- The record that node `k` carried in its latest acting instance before `seq` (R148). -/
def CGraph.prevRec (x : CGraph) (seq k : Nat) : Nat :=
  match x.prevInst seq k with
  | some i => (i.nodes[k]?.map (·.recA)).getD 0
  | none => (x.lastRec.getD k (0, 0)).2

/-- The records an instance consumes, in the order of R148. -/
def State.instRecs (s : State) (g : Nat) (x : CGraph) (i : CInst) : List Nat :=
  let src := s.rdF (Reg.CRZ_GR_CFG g) 8 15
  let trig := s.rdF (Reg.CRZ_GR_CFG g) 4 4
  let idx := List.range x.nodes.length
  let recOf (k : Nat) : Nat := (i.nodes[k]?.map (·.recA)).getD 0
  let sensors := idx.filter fun k => match x.nodes[k]? with
    | some n => n.kind == 1 || n.kind == 2
    | none => false
  let isTrig (k : Nat) : Bool := (trig == 1 || trig == 2) && (x.nodes[k]?.bind fun n => s.nodeStream n) == some src
  let first := (sensors.filter isTrig).map recOf
  let rest := (sensors.filter fun k => !isTrig k).map recOf
  let acts := idx.filter fun k => (i.nodes[k]?.map fun n => n.phase.acted).getD false
  let prev := acts.flatMap fun k => (x.chains.filter fun c => c.prev && c.dst == k).map fun c => x.prevRec i.seq c.src
  ((first ++ rest ++ prev).filter (· != 0)).foldl (fun l a => if l.contains a then l else l ++ [a]) []

/-- FS_TIME of the frame with the record at `a` in partition `p` (R50). -/
def State.recTime (s : State) (p a : Nat) : Nat :=
  match s.crz.holds.find? fun h => h.pt == p && h.addr == a with
  | some h => h.fsTime
  | none => 0

/-- A node that carries the record `a` through a PREV chain has not ended, or may still come (R149). -/
def CGraph.carries (x : CGraph) (en : Bool) (a : Nat) : Bool :=
  x.chains.any fun c => c.prev &&
    (x.insts.any (fun i => x.prevRec i.seq c.src == a &&
      (match i.nodes[c.dst]? with
        | some n => !n.phase.closed && !(x.skips i.num).contains c.dst
        | none => false)) ||
     (en && x.prevRec (x.seq + 1) c.src == a))

/-- Release the frame-record slots that are due (R149, R52). -/
def State.crzRelease (s : State) : State :=
  let due (h : RecHold) : Bool :=
    match s.cg h.graph with
    | none => true
    | some x => (x.inst h.inst).isNone &&
      !(s.crz.graphs.any fun e => s.cgPt e.1 == h.pt && e.2.carries (s.rdB (Reg.CRZ_GR_CFG e.1) 0) h.addr)
  let out := s.crz.holds.filter due
  let st := out.foldl (fun (t : Tab Stream) h =>
    let m := t.getD h.stream {}
    t.put h.stream { m with held := m.held.filter (· != h.slot) }) s.stream
  { s with stream := st, crz := { s.crz with holds := s.crz.holds.filter fun h => !due h } }

/-! ### Stripe counters (R142, R143) -/

/-- VALUE of stripe counter `i`. -/
def State.scValue (s : State) (i : Nat) : Nat := s.rdF (Reg.CRZ_SC i) 0 16

/-- TARGET of stripe counter `i`. -/
def State.scTarget (s : State) (i : Nat) : Nat := s.rdF (Reg.CRZ_SC i) 16 16

/-- The producer of node `r` has `rows` rows behind its writes, or all of them when `final` (R140, R85): counters advance by
whole stripes, or by single rows where `exact_` holds (R127), and MIRROR flags with them. -/
def State.crzAdvance (s : State) (r : NodeRef) (rows : Nat) (final : Bool) (sel : Option Nat := none)
    (exact_ : Bool := false) : State :=
  match s.cg r.slot with
  | none => s
  | some x =>
    match x.inst r.inst with
    | none => s
    | some i =>
      let cs := x.chains.filter fun c => c.stripe && c.src == r.node && (match sel with
        | some k => c.outSel == k
        | none => true)
      let ctrs := cs.foldl (fun (l : List (Nat × Nat)) c => if l.any (fun e => e.1 == c.ctr) then l else l ++ [(c.ctr, c.stripeH)]) []
      ctrs.foldl (fun s e =>
        let a := e.1 + i.slot
        let v := if final then s.scTarget a else min (s.scTarget a) (if exact_ then rows else rows / e.2 * e.2)
        let d := v - s.scValue a
        if d = 0 then s
        else
          let s1 := s.wrF (Reg.CRZ_SC a) 0 16 v
          (cs.filter fun c => c.ctr == e.1).foldl (fun s c =>
            match c.mirror with
            | some f => s.flagPush { isSet := false, flag := f, n := d, pt := s.cgPt r.slot, agent := uCrz r.slot }
            | none => s) s1) s

/-- Rows of the plane that handle `h` of `p` names; 0 when it cannot be read. -/
def State.planeRows (s : State) (p h : Nat) : Nat :=
  match s.entryImage p h 0xD35C with
  | some b => (Desc.ofBytes b).dimAt 1
  | none => 0

/-- Image rows of the context's frame: HEIGHT of its stream, over the exposures of line-interleaved input (R62). -/
def State.ispHeight (s : State) (u : Nat) : Nat :=
  let cfg := s.rdN (Reg.ISP_CTX_CFG (u / 4) (u % 4))
  let h := s.rdF (Reg.ST_GEOM (s.rdF (Reg.ISP_CTX_SRC (u / 4) (u % 4)) 0 6)) 16 16
  if bitAt cfg 3 then h else h / (fld cfg 1 2 + 1)

/-- The final count of a producer (R142), from its block. -/
def State.finalCount (s : State) (p : Nat) (n : CNode) (block : Nat) : Nat :=
  if n.kind = 1 then s.rdF (Reg.ST_GEOM n.unit) 16 16
  else if n.kind = 2 then s.ispHeight n.unit
  else
    match s.readDva p block 64 with
    | .data b false =>
      (match getLE b 2 1 with
        | 2 => s.planeRows p (getLE b 0x12 2)
        | 3 => s.planeRows p (getLE b 0x18 2)
        | 5 => ceilDiv (s.planeRows p (getLE b (0x10 + 2 * getLE b 0x35 1) 2)) 8
        | _ => s.planeRows p (getLE b 0x10 2))
    | _ => 0

/-! ### Units (R140, R141) -/

/-- A context and its number, of pipe `u / 4`. -/
def State.ictx (s : State) (u : Nat) : IspCtx := s.isp.getD u {}

/-- Replace context `u`. -/
def State.setIctx (s : State) (u : Nat) (c : IspCtx) : State := { s with isp := s.isp.put u c }

/-- Stream `m`. -/
def State.st (s : State) (m : Nat) : Stream := s.stream.getD m {}

/-- Replace stream `m`. -/
def State.setSt (s : State) (m : Nat) (x : Stream) : State := { s with stream := s.stream.put m x }

/-- Engine `e`. -/
def State.eng (s : State) (e : Nat) : Engine := s.brk.getD e {}

/-- Replace engine `e`. -/
def State.setEng (s : State) (e : Nat) (x : Engine) : State := { s with brk := s.brk.put e x }

/-- Post a parameter set to context `u` (R64): PENDING, the identifier read from the set, and its fetch. -/
def State.ispPost (s : State) (u dva : Nat) : State :=
  let n := u / 4
  let c := u % 4
  let x := s.ictx u
  let s1 := if x.post.isSome then s.bump (Reg.ISP_CTX_SUPERSEDED n c) 1 else s
  let id := match s.readDva (s.rdF (Reg.ISP_CTX_CFG n c) 12 4) (dva + 4) 4 with
    | .data b false => ofLE b
    | _ => 0
  ((s1.setIctx u { x with post := some dva, ready := none }).wrF (Reg.ISP_CTX_PB_STATUS n c) 0 2 1).wr (Reg.ISP_CTX_PENDING_ID n c) id

/-- The 64 bytes of a launch block meet R141 but for its handles. -/
def launchOk (b : List Byte) (kind : Nat) : Bool :=
  let zero (lo hi : Nat) : Bool := ((b.drop lo).take (hi - lo)).all (· == 0#8)
  getLE b 0 2 == 0xC4D0 && getLE b 2 1 == kind && getLE b 3 1 == 1 && zero 4 8 &&
  (match kind with
    | 1 => zero 0x0A 0x40
    | 2 => zero 0x0E 0x10 && zero 0x18 0x40
    | 4 => getLE b 8 8 % 8 == 0 && zero 0x3E 0x40
    | _ => zero 0x0C 0x10 && zero 0x30 0x40)

/-- A presented node's unit has a free context (R140); a Bracken node goes to its engine's queue at once. -/
def State.unitReady (s : State) (n : CNode) : Bool :=
  match n.kind with
  | 1 => (s.st n.unit).node.isNone
  | 2 => (s.ictx n.unit).node.isNone
  | 4 => s.chState n.unit == 0 && (s.ch n.unit).held.isNone && (s.ch n.unit).run.isNone
  | _ => true

/-- Let go of a unit that has accepted node `r` and not started it. -/
def State.unitForget (s : State) (r : NodeRef) (n : CNode) : State :=
  let s0 := { s with crz := { s.crz with queue := s.crz.queue.filter (· != r) } }
  match n.kind with
  | 1 => let x := s0.st n.unit
         if x.node = some r then s0.setSt n.unit { x with node := none, out := [] } else s0
  | 2 => let x := s0.ictx n.unit
         if (x.node.map (·.1)) = some r then
           s0.setIctx n.unit { x with node := none, early := [], earlyBad := [], earlyBound := [], earlyEnded := [] } else s0
  | 3 => let x := s0.eng n.unit
         s0.setEng n.unit { x with queue := x.queue.filter (· != r), ctx := x.ctx.filter fun e => e.2.node != r }
  | 4 => let c := s0.ch n.unit
         if c.held = some r then s0.setCh n.unit { c with held := none } else s0
  | _ => s0

/-- Tell the Crozier that a unit has ended a node with a code. -/
def State.crzDone (s : State) (r : NodeRef) (code : Nat) : State := { s with crz := { s.crz with done := s.crz.done ++ [(r, code)] } }

/-- Remove a job from its context (R83, R110): it counts as completed, or as refused or aborted. -/
def State.brkEnd (s : State) (e k : Nat) (code : Nat) : State :=
  let x := s.eng e
  match Tab.get? x.ctx k with
  | none => s
  | some j =>
    let s1 := s.setEng e { x with ctx := x.ctx.del k }
    let s2 := s1.bump (if code = 0 then Reg.ENG_JOBS e else Reg.ENG_ABORTED e) 1
    (s2.event (uBrk e) 0x02 j.pt code (getLE j.block 4 4) 0).crzDone j.node code

/-- A Bracken error (R110, R128): the bit of its code and the report to the partition. -/
def State.brkErr (s : State) (e p code : Nat) (info : Nat := 0) : State :=
  (s.sticky (Reg.ENG_ERR e) (code - 0x0301)).err p (uBrk e) code info

/-- Abort a started node at its unit (R151): a Bracken job finishes its current row with 0x0309; a channel run ends with 0x0806; a
graph run ends with 0x0708; a frame ends its pipe's work, or its forwarding. -/
def State.unitAbort (s : State) (r : NodeRef) (n : CNode) : State :=
  match n.kind with
  | 1 =>
    let x := s.st n.unit
    (s.setSt n.unit { x with node := none, frame := x.frame.map fun f => { f with stopped := true } }).crzDone r 0x0407
  | 2 => (s.setIctx n.unit { s.ictx n.unit with node := none, frame := none }).crzDone r 0x0407
  | 3 =>
    let x := s.eng n.unit
    match x.ctx.find? fun e => e.2.node == r with
    | none => s.crzDone r 0x0309
    | some (k, j) =>
      if j.busy then s.setEng n.unit { x with ctx := x.ctx.put k { j with aborting := some 0x0309 } }
      else (s.brkErr n.unit j.pt 0x0309).brkEnd n.unit k 0x0309
  | 4 => s.chAbort n.unit 0x0806
  | _ =>
    match s.gs.graphs.find? fun g => (match g.cur with
        | some c => c.node == some r
        | none => false) with
    | some g => (s.abortRun g.hdr 0x0708 0xFFFF).gsSettle g.pt
    | none =>
      let gs := s.gs.graphs.map fun g => { g with queue := g.queue.filter fun e => e.2.2 != some r }
      { s with gs := { s.gs with graphs := gs } }.crzDone r 0x0407

/-! ### Failures and aborts (R151) -/

/-- Drop the waits of a node on its AWAIT flags. -/
def State.dropAwaits (s : State) (r : NodeRef) : State :=
  match s.nodeRun r with
  | none => s
  | some n => n.waits.foldl (fun s w =>
      let f := s.flag w.1
      match f.waits.find? fun y => y.agent == uCrz r.slot && y.target == w.2 with
      | some y =>
        let s1 := s.setFlag w.1 { f with waits := f.waits.erase y }
        if y.ended.isNone then s1.trace y.pt 7 y.agent w.1 false ⟨0, 0⟩ f.value y.target y.ctx else s1
      | none => s) s

/-- Cancel a node that has not started, or abort one that has. -/
def State.stopNode (s : State) (r : NodeRef) (code : Nat) : State :=
  match s.nodeRun r, s.nodeDef r with
  | some n, some d =>
    (match n.phase with
      | .armed => ((s.dropAwaits r).unitForget r d).setNode r fun n => { n with phase := .cancelled, waits := [] }
      | .accepted => ((s.dropAwaits r).unitForget r d).setNode r fun n => { n with phase := .cancelled, waits := [] }
      | .started => (s.setNode r fun n => { n with phase := .aborting code }).unitAbort r d
      | _ => s)
  | _, _ => s

/-- Abort an instance (R136, R151): running nodes are aborted, nodes that have not started are cancelled. -/
def State.instAbort (s : State) (g seq code : Nat) : State :=
  match (s.cg g).bind fun x => x.inst seq with
  | none => s
  | some i =>
    if i.aborted then s
    else
      let s1 := (s.setInst g seq fun i => { i with aborted := true, failed := true }).event uCrozier 0x04 (s.cgPt g) code i.num 0
      (List.range i.nodes.length).foldl (fun s k => s.stopNode ⟨g, seq, k⟩ code) s1

/-- Node `r` fails with a code (R151): the instance aborts in the native mode; the nodes reached from it stop in the marking
mode. -/
def State.nodeFail (s : State) (r : NodeRef) (code : Nat) : State :=
  let s1 := (s.setNode r fun n => { n with phase := .failed }).setInst r.slot r.inst fun i =>
    { i with failed := true, firstErr := match i.firstErr with
      | none => some (code, r.node)
      | y => y }
  if s1.rdB (Reg.QM_PT_MODE (s1.cgPt r.slot)) 0 then
    match s1.cg r.slot with
    | none => s1
    | some x => ((x.reached x.nodes.length [r.node]).filter (· != r.node)).foldl (fun s k => s.stopNode ⟨r.slot, r.inst, k⟩ 0x0407) s1
  else s1.instAbort r.slot r.inst code

/-! ### Acceptance and arming (R133, R140 to R142) -/

/-- The launch block of a node cannot be used: it fails with 0x0406, or 0x0409 for poison. -/
def State.launchBad (s : State) (r : NodeRef) (n : CNode) (code : Nat) : State :=
  ((s.unitForget r n).crzErr r.slot code r.node).nodeFail r code

/-- A unit accepts node `r` (R140, R141, R74). -/
def State.acceptNode (s : State) (r : NodeRef) (n : CNode) (run : NodeRun) : State :=
  let s0 := { s with crz := { s.crz with queue := s.crz.queue.filter (· != r) } }
  let p := s0.cgPt r.slot
  if n.kind = 3 then
    let e := s0.eng n.unit
    s0.setEng n.unit { e with queue := e.queue ++ [r] }
  else
    let foreign := n.kind == 2 && s0.rdF (Reg.ISP_CTX_CFG (n.unit / 4) (n.unit % 4)) 12 4 != p
    if n.kind = 4 ∧ !s0.owns p 0x21 n.unit then
      ((s0.notOwned p uCrozier n.unit).crzErr r.slot 0x0407 r.node).nodeFail r 0x0407
    else if foreign then
      let s1 := (s0.sticky (Reg.ISP_ERR (n.unit / 4)) 9).err p (uIsp (n.unit / 4)) 0x020A
      (s1.crzErr r.slot 0x0407 r.node).nodeFail r 0x0407
    else
      match s0.readDva p run.block 64 with
      | .refused f d => (s0.oob p uCrozier none f d).launchBad r n 0x0406
      | .bus d => (s0.err p uCrozier 0x0907 d).launchBad r n 0x0406
      | .data b bad =>
        if bad then s0.launchBad r n 0x0409
        else if !launchOk b n.kind then s0.launchBad r n 0x0406
        else
          let s1 := s0.setNode r fun x => { x with phase := .accepted, launch := b }
          match n.kind with
          | 1 => s1.setSt n.unit { s1.st n.unit with node := some r, out := [] }
          | 2 =>
            let s2 := s1.setIctx n.unit { s1.ictx n.unit with node := some (r, b) }
            if getLE b 0x10 8 = 0 then s2 else s2.ispPost n.unit (getLE b 0x10 8)
          | 4 => s1.setCh n.unit { s1.ch n.unit with held := some r }
          | _ => s1

/-- The first presented node whose unit can take it, behind no earlier one for that unit (R140). -/
def State.nextPresented (s : State) : Option (NodeRef × CNode × NodeRun) :=
  let rec go : List NodeRef → List (Nat × Nat) → Option (NodeRef × CNode × NodeRun)
    | [], _ => none
    | r :: rs, seen =>
      match s.nodeDef r, s.nodeRun r with
      | some n, some run =>
        if !seen.contains (n.kind, n.unit) && s.unitReady n then some (r, n, run) else go rs ((n.kind, n.unit) :: seen)
      | _, _ => go rs seen
  go s.crz.queue []

/-- Arm the next instance of graph `g` in slot `slot` (R133, R140, R142): counters are set, waits on AWAIT flags begin and nodes are
presented in node order. -/
def State.armOne (s : State) (g slot : Nat) (x : CGraph) : State :=
  let seq := x.seq + 1
  let num := seq - x.base
  let p := s.cgPt g
  let skip := x.skips num
  let idx := List.range x.nodes.length
  let acted (k : Nat) : Nat := x.acts.getD k 0 + (x.insts.filter fun i => x.base < i.seq && !(x.skips i.num).contains k &&
    (match i.nodes[k]? with
      | some n => n.phase.acted
      | none => false)).length
  let nodes := (x.nodes.zipIdx).map fun (n, k) =>
    ({ phase := .armed, block := n.block + acted k % (n.nbuf + 1) * n.bstride * 64
       waits := if skip.contains k then [] else n.awaits.map fun a => (a.1, (a.2.1 + num * a.2.2) % 2 ^ 32) } : NodeRun)
  let s1 := s.setCg g { x with seq := seq, insts := x.insts ++ [{ slot := slot, seq := seq, num := num, nodes := nodes }] }
  let s2 := (x.chains.filter (·.stripe)).foldl (fun s c =>
    match x.nodes[c.src]?, nodes[c.src]? with
    | some n, some r => s.wr (Reg.CRZ_SC (c.ctr + slot)) (s.finalCount p n r.block % 65536 * 65536 + num % 65536 * 2 ^ 32)
    | _, _ => s) s1
  let live := idx.filter fun k => !skip.contains k
  let s3 := { s2 with crz := { s2.crz with queue := s2.crz.queue ++ live.map fun k => ⟨g, seq, k⟩ } }
  live.foldl (fun s k =>
    ((nodes[k]?.map (·.waits)).getD []).foldl (fun s w =>
      let (s1, code) := s.flagWait p w.1 w.2 (uCrz g)
      if code = 0 then s1 else s1.nodeFail ⟨g, seq, k⟩ code) s) s3

/-- The trigger of graph `g` fires (R134): the armed instance with the lowest INST_SEQ starts, or the trigger is lost. -/
def State.crzFire (s : State) (g : Nat) : State :=
  match s.cg g with
  | none => s
  | some x =>
    match x.insts.find? fun i => i.start.isNone && !i.aborted with
    | none => (s.crzErr g 0x040A).bump (Reg.CRZ_GR_MISSED g) 1
    | some i =>
      let skip := x.skips i.num
      let pass (n : NodeRun) (k : Nat) : NodeRun := if skip.contains k && n.phase == .armed then { n with phase := .skipped } else n
      let s1 := s.setInst g i.seq fun i => { i with start := some s.now, nodes := (i.nodes.zipIdx).map fun e => pass e.1 e.2 }
      (s1.bump (Reg.CRZ_GR_SKIPS g) skip.length).event uCrozier 0x01 (s.cgPt g) 0 i.num x.prog

/-- A flag trigger that is due (R134): the armed instance's target has been reached. -/
def State.flagDue (s : State) (g : Nat) (x : CGraph) : Bool :=
  let cfg := s.rdN (Reg.CRZ_GR_CFG g)
  let arg := s.rdN (Reg.CRZ_GR_TRIG_ARG g)
  match x.insts.find? fun i => i.start.isNone && !i.aborted with
  | none => false
  | some i =>
    let f := s.flag (fld cfg 8 15)
    fld cfg 4 4 == 3 && bitAt cfg 0 && s.owns (s.cgPt g) 0x33 (fld cfg 8 15) && !f.poisoned &&
      (fld arg 0 32 + i.num * fld arg 32 32) % 2 ^ 32 ≤ f.value

/-! ### The end of an instance (R133, R148) -/

/-- The 128-byte instance record (R148). -/
def State.instRecord (s : State) (g : Nat) (x : CGraph) (i : CInst) : List Byte :=
  let recs := s.instRecs g x i
  let acted := (i.nodes.filter fun n => n.phase.acted).length
  let fl := i.failed.toNat + 2 * i.aborted.toNat + 4 * (decide (8 < recs.length)).toNat
  let head := leBytes 8 i.num ++ leBytes 8 (i.start.getD 0) ++ leBytes 8 s.now ++ leBytes 1 g ++ leBytes 1 (s.cgPt g) ++
    leBytes 1 (min 8 recs.length) ++ leBytes 1 fl ++ leBytes 2 (i.firstErr.getD (0, 0xFFFF)).1 ++
    leBytes 2 (i.firstErr.getD (0, 0xFFFF)).2 ++ leBytes 2 acted ++ leBytes 2 (i.nodes.length - acted) ++ leBytes 24 0
  let tail := (List.range 8).flatMap fun k => leBytes 8 (recs.getD k 0)
  head ++ leBytes 4 (crc32c (head ++ tail)) ++ tail

/-- DVA of the record of the instance of graph `g` with INST_SEQ `num` (R148). -/
def State.instRecAddr (s : State) (g num : Nat) : Nat :=
  s.rdN (Reg.CRZ_GR_INST_BASE g) + (num - 1) % 2 ^ s.rdF (Reg.CRZ_GR_CFG g) 23 3 * 128

/-- Every node of an instance is over. -/
def CInst.isOver (i : CInst) : Bool := (i.start.isSome || i.aborted) && i.nodes.all fun n => n.phase.closed

/-- End an instance (R133): its record, then its AT_END signals, its counters, and its slot is free; graphs that it triggers
fire. -/
def State.instEnd (s : State) (g : Nat) (x : CGraph) (i : CInst) : State :=
  let p := s.cgPt g
  let s1 := match s.writeDva p uCrozier (s.instRecAddr g i.num) (s.instRecord g x i) with
    | .done s' => s'
    | .refused f d => s.oob p uCrozier none f d
    | .bus d => s.err p uCrozier 0x0907 d
  let s2 := x.ends.foldl (fun s e => s.flagPush { isSet := false, flag := e.1, n := e.2, pt := p, agent := uCrz g }) s1
  let s3 := (s2.bump (Reg.CRZ_GR_INSTANCES g) 1).wr (Reg.CRZ_GR_LAST_SEQ g) i.num
  let s4 := if i.failed then (s3.bump (Reg.CRZ_GR_FAILED g) 1).wr (Reg.CRZ_GR_ERR g) (i.firstErr.getD (0x0408, 0)).1 else s3
  let hit (k : Nat) : Bool := (i.nodes[k]?.map fun n => n.phase.acted).getD false
  let idx := (List.range x.nodes.length).filter hit
  let now : Bool := x.base < i.seq
  let acts := if !now then x.acts else idx.foldl (fun (t : Tab Nat) k => t.upd k 0 (· + 1)) x.acts
  let last := if !now then x.lastRec else idx.foldl (fun (t : Tab (Nat × Nat)) k =>
    if (t.getD k (0, 0)).1 ≤ i.seq then t.put k (i.seq, (i.nodes[k]?.map (·.recA)).getD 0) else t) x.lastRec
  let s5 := s4.setCg g { x with insts := x.insts.filter (·.seq != i.seq), acts := acts, lastRec := last }
  let s6 := s5.event uCrozier 0x02 p (i.firstErr.getD (0, 0)).1 i.num 0
  (List.range 64).foldl (fun s h =>
    let cfg := s.rdN (Reg.CRZ_GR_CFG h)
    if bitAt cfg 0 && fld cfg 4 4 == 5 && fld cfg 8 15 == g && (s.cg h).isSome && s.cgPt h == p then s.crzFire h else s) s6

/-- Node `r` ends with its unit's code (R140, R151): its signals are sent when it has ended well. -/
def State.nodeEnd (s : State) (r : NodeRef) (code : Nat) : State :=
  match s.nodeRun r, s.nodeDef r with
  | some n, some d =>
    if n.phase.closed then s
    else
      let s1 := s.unitForget r d
      if code = 0 then
        let s2 := s1.setNode r fun n => { n with phase := .ended }
        d.signals.foldl (fun s e => s.flagPush { isSet := false, flag := e.1, n := e.2, pt := s.cgPt r.slot, agent := uCrz r.slot }) s2
      else
        (match n.phase with
          | .aborting c => (s1.setNode r fun n => { n with phase := .failed }).setInst r.slot r.inst fun i =>
              { i with firstErr := match i.firstErr with
                | none => some (c, r.node)
                | y => y }
          | _ => (s1.crzErr r.slot 0x0407 r.node).nodeFail r 0x0407)
  | _, _ => s

/-- The first graph and instance that is over. -/
def State.overInst (s : State) : Option (Nat × CGraph × CInst) :=
  s.crz.graphs.findSome? fun e => (e.2.insts.find? CInst.isOver).map fun i => (e.1, e.2, i)

/-- The first enabled graph that can arm an instance, with the lowest free slot (R133). -/
def State.armable (s : State) : Option (Nat × Nat × CGraph) :=
  s.crz.graphs.findSome? fun e =>
    let cfg := s.rdN (Reg.CRZ_GR_CFG e.1)
    if !bitAt cfg 0 || s.rdB Reg.REL_STATUS 0 || !s.ptReady (s.cgPt e.1) then none
    else ((List.range (fld cfg 1 2 + 1)).find? fun k => e.2.insts.all fun i => i.slot != k).map fun k => (e.1, k, e.2)

/-- What the Crozier does of itself until nothing is left to do: nodes end, instances end, instances are armed, nodes are
presented, and flag triggers fire. -/
def State.crzRun (s : State) : Nat → State
  | 0 => s
  | fuel + 1 =>
    match s.crz.done with
    | (r, code) :: rest => State.crzRun ({ s with crz := { s.crz with done := rest } }.nodeEnd r code) fuel
    | [] =>
      match s.overInst with
      | some (g, x, i) => State.crzRun (s.instEnd g x i) fuel
      | none =>
        match s.armable with
        | some (g, k, x) => State.crzRun (s.armOne g k x) fuel
        | none =>
          match s.nextPresented with
          | some (r, n, run) => State.crzRun (s.acceptNode r n run) fuel
          | none =>
            match s.crz.graphs.find? fun e => s.flagDue e.1 e.2 with
            | some (g, _) => State.crzRun (s.crzFire g) fuel
            | none => s

/-- The Crozier settles, and frame-record slots that are due are released (R149). -/
def State.crzDrain (s : State) : State := (s.crzRun 16384).crzRelease

/-! ### Node starts (R144, R147, R501) -/

/-- The conditions of R144 hold for node `k` of an instance. -/
def State.mayStart (s : State) (x : CGraph) (i : CInst) (k : Nat) (n : CNode) (r : NodeRun) : Bool :=
  let ended (j : Nat) : Bool := (i.nodes[j]?.map fun m => m.phase == .ended).getD false
  i.start.isSome && r.phase == .accepted && r.waits.isEmpty && 3 ≤ n.kind &&
  (x.chains.filter fun c => c.dst == k).all fun c =>
    if c.prev then
      (match x.prevInst i.seq c.src with
        | none => true
        | some j => (j.nodes[c.src]?.map fun m => m.phase.closed).getD true)
    else if c.stripe then
      n.kind == 3 ||
        (let a := c.ctr + i.slot
         (if c.start = 0 then min c.stripeH (s.scTarget a) else c.start) ≤ s.scValue a)
    else ended c.src

/-- The outputs and the primary input of a mover or neural launch block (R141). -/
def launchHandles (kind : Nat) (b : List Byte) : Nat × List Nat :=
  let at0 := if kind = 4 then 0x30 else 0x10
  let cnt := if kind = 4 then 6 else 15
  (getLE b at0 2, ((List.range cnt).map fun j => getLE b (at0 + 2 + 2 * j) 2).filter (· != 0))

/-- The launch notice (R501): two entries for the checker. -/
def State.launchNotice (s : State) (g : Nat) (x : CGraph) (i : CInst) : List Byte :=
  let p := s.cgPt g
  let recs := s.instRecs g x i
  leBytes 1 0x20 ++ leBytes 1 (min 6 recs.length) ++ leBytes 1 p ++ leBytes 1 (decide (6 < recs.length)).toNat ++ leBytes 1 g ++
    leBytes 3 0 ++ leBytes 8 i.num ++ leBytes 8 (s.instRecAddr g i.num) ++ leBytes 8 (i.start.getD 0) ++
    (List.range 6).flatMap fun k => leBytes 8 (recs.getD k 0) ++ leBytes 8 (if k < recs.length then s.recTime p (recs.getD k 0) else 0)

/-- The primary input handle of a Bracken job (R85, R119). -/
def brkPrimary (b : List Byte) : Nat :=
  if getLE b 2 1 = 5 then getLE b (0x10 + 2 * getLE b 0x35 1) 2 else getLE b 0x10 2

/-- The output handles of a Bracken job. -/
def brkOutputs (b : List Byte) : List Nat :=
  let l := match getLE b 2 1 with
    | 1 => (List.range 14).map fun j => getLE b (0x18 + 2 * j) 2
    | 2 => [getLE b 0x12 2]
    | 3 => (List.range 4).map fun j => getLE b (0x18 + 2 * j) 2
    | 5 => [getLE b 0x30 2]
    | 6 => [getLE b 0x14 2, getLE b 0x16 2]
    | _ => []
  l.filter (· != 0)

/-- Queue a rewrite of REC_ADDR (R162). -/
def State.pushRewrite (s : State) (p h addr : Nat) : State :=
  { s with dsc := { s.dsc with rewrites := s.dsc.rewrites ++ [⟨p, h, addr⟩] } }

/-- A rewrite of one of the handles of `p` is on its way. -/
def State.rewriting (s : State) (p : Nat) (hs : List Nat) : Bool := s.dsc.rewrites.any fun w => w.pt == p && hs.contains w.handle

/-- A Bracken job takes the record address of its primary input, read afresh, and has it written into its outputs (R85). -/
def State.brkTakeRec (s : State) (e k : Nat) : State :=
  let x := s.eng e
  match Tab.get? x.ctx k with
  | none => s
  | some j =>
    let a := match s.entryImage j.pt (brkPrimary j.block) 0xD35C with
      | some b => (Desc.ofBytes b).recAddr
      | none => 0
    let s1 := (s.setEng e { x with ctx := x.ctx.put k { j with recA := some a } }).setNode j.node fun n => { n with recA := a }
    (brkOutputs j.block).foldl (fun s h => s.pushRewrite j.pt h a) s1

/-- Start an accepted node at its unit. -/
def State.startNode (s : State) (r : NodeRef) (x : CGraph) (i : CInst) (n : CNode) (run : NodeRun) : State :=
  let p := s.cgPt r.slot
  let s0 := s.setNode r fun m => { m with phase := .started }
  match n.kind with
  | 3 =>
    let e := s0.eng n.unit
    match e.ctx.find? fun c => c.2.node == r with
    | none => s0
    | some (k, j) =>
      let s1 := s0.setEng n.unit { e with ctx := e.ctx.put k { j with started := true, since := s.now } }
      if j.ins.any (·.isSome) then s1 else s1.brkTakeRec n.unit k
  | 4 =>
    let prog := getLE run.launch 8 8
    let code := s0.startCode n.unit prog
    if code ≠ 0 then (s0.chErr n.unit code).crzDone r 0x0407
    else s0.chBegin n.unit prog ((List.range 4).map fun j => getLE run.launch (0x10 + 8 * j) 8) (some r)
  | _ =>
    let b := s0.launchNotice r.slot x i
    let s1 := s0.toMailbox p b
    let (s2, code) := s1.launchAs p (getLE run.launch 8 4) (s.instRecAddr r.slot i.num) (some r)
    if code ≠ 0 then s2.crzDone r 0x0407 else s2

/-- A node whose conditions hold starts (R144, R147): a mover or neural node first has its outputs' record addresses written,
and starts when those rewrites are complete. -/
def State.crzStart (s : State) (r : NodeRef) : State :=
  match s.cg r.slot with
  | none => s
  | some x =>
    match x.inst r.inst, x.nodes[r.node]? with
    | some i, some n =>
      (match i.nodes[r.node]? with
        | none => s
        | some run =>
          if !s.mayStart x i r.node n run || s.rdB Reg.REL_STATUS 0 || (n.kind == 5 && !s.mailRoom 2) then s
          else if n.kind = 3 then s.startNode r x i n run
          else
            let p := s.cgPt r.slot
            let (prim, outs) := launchHandles n.kind run.launch
            if s.rewriting p outs then s
            else
              let trig := s.rdN (Reg.CRZ_GR_CFG r.slot)
              let trigRec := if fld trig 4 4 = 1 ∨ fld trig 4 4 = 2 then (s.instRecs r.slot x i).headD 0 else 0
              let a := if prim = 0 then some trigRec else (s.entryImage p prim 0xD35C).map fun b => (Desc.ofBytes b).recAddr
              match a with
              | none => (s.crzErr r.slot 0x0409 r.node).nodeFail r 0x0409
              | some a =>
                let s1 := s.setNode r fun m => { m with recA := if run.told then m.recA else a, told := true }
                if run.told || outs.isEmpty then s1.startNode r x i n run
                else outs.foldl (fun s h => s.pushRewrite p h a) s1)
    | _, _ => s

end Sys2Proof.Machine
end

