-- ==== Sys2Proof/Machine/Frond.lean ====
section
/-! DEFINITION. Sys2Proof/Machine/Frond.lean: what every instruction of a Frond shares (09_frond_tensor_cores, R212 to R236,
and R237 to R239, R264 to R267): registers, scratch and poison marks, fetching, failing, checks, and the end of an
operation. -/

namespace Sys2Proof.Machine

/-! ### Registers, tiles and scratch of one Frond (R212, R241, R266) -/

/-- S[i]. -/
def Frond.sreg (f : Frond) (i : Nat) : Nat := f.s.getD i 0

/-- S[i] carries a poison mark. -/
def Frond.sMark (f : Frond) (i : Nat) : Bool := f.sBad.contains i

/-- Write S[i] with its mark. -/
def Frond.setS (f : Frond) (i v : Nat) (bad : Bool := false) : Frond :=
  { f with s := Tab.write (fun _ => 0) f.s i (v % 2 ^ 64)
           sBad := if bad then insSorted i f.sBad else f.sBad.filter (· != i) }

/-- Lane `i` of V[r]. -/
def Frond.lane (f : Frond) (r i : Nat) : Nat := f.v.getD (r * 64 + i) 0

/-- The mark of the group of 16 lanes that holds lane `i` of V[r]. -/
def Frond.vMark (f : Frond) (r i : Nat) : Bool := f.vBad.contains (r * 4 + i / 16)

/-- The 256 bytes of V[r]. -/
def Frond.vBytes (f : Frond) (r : Nat) : List Byte := (List.range 64).flatMap fun i => leBytes 4 (f.lane r i)

/-- Write V[r] from 256 byte positions: none keeps the byte, some (b, bad) writes it. A group is marked when a marked byte is
written into it, and loses its mark when it is written whole without one (R266). -/
def Frond.writeV (f : Frond) (r : Nat) (w : Nat → Option (Byte × Bool)) : Frond :=
  let old := f.vBytes r
  let bytes := (List.range 256).map fun k =>
    match w k with
    | some (b, _) => b
    | none => old.getD k 0#8
  let marks := (List.range 4).foldl (fun l g =>
    let ks := (List.range 64).map fun j => w (g * 64 + j)
    if ks.any (fun x => x.any (·.2)) then insSorted (r * 4 + g) l
    else if ks.all (·.isSome) then l.filter (· != r * 4 + g) else l) f.vBad
  { f with v := (List.range 64).foldl (fun t i => Tab.write (fun _ => 0) t (r * 64 + i) (getLE bytes (4 * i) 4)) f.v
           vBad := marks }

/-- Write lanes of V[r]: none keeps the lane, some (value, bad) writes it. -/
def Frond.writeLanes (f : Frond) (r : Nat) (w : Nat → Option (Nat × Bool)) : Frond :=
  f.writeV r fun k => (w (k / 4)).map fun x => (BitVec.ofNat 8 (x.1 / 2 ^ (8 * (k % 4))), x.2)

/-- Element (m, n) of tile `t`. -/
def Frond.elem (f : Frond) (t m n : Nat) : Nat := f.acc.getD (t * 8192 + m * 64 + n) 0

/-- Set element (m, n) of tile `t`. -/
def Frond.setElem (f : Frond) (t m n v : Nat) : Frond :=
  { f with acc := Tab.write (fun _ => 0) f.acc (t * 8192 + m * 64 + n) (v % 2 ^ 32) }

/-- The number of the mark of a 16-element group of a tile row. -/
def accGroup (t m n : Nat) : Nat := t * 512 + m * 4 + n / 16

/-- Bytes of scratch. -/
def scratchSize : Nat := 0x140000

/-- `n` scratch bytes from `a` on. -/
def Frond.scr (f : Frond) (a n : Nat) : List Byte := (List.range n).map fun k => f.scratch.getD (a + k) 0#8

/-- Store bytes into scratch. -/
def Frond.setScr (f : Frond) (a : Nat) (bs : List Byte) : Frond :=
  { f with scratch := (bs.zipIdx).foldl (fun t x => Tab.write (fun _ => 0#8) t (a + x.2) x.1) f.scratch }

/-- The 64-byte lines of [a, a + n). -/
def linesOf (a n : Nat) : List Nat := if n = 0 then [] else (List.range ((a + n - 1) / 64 - a / 64 + 1)).map (a / 64 + ·)

/-- A line of [a, a + n) carries a mark. -/
def Frond.scrMark (f : Frond) (a n : Nat) : Bool := (linesOf a n).any f.lineBad.contains

/-- Mark or clear the mark of a line. -/
def Frond.markLine (f : Frond) (k : Nat) (bad : Bool) : Frond :=
  { f with lineBad := if bad then insSorted k f.lineBad else f.lineBad.filter (· != k) }

/-- A scratch operand meets R214 and R239. -/
def scratchOk (a n : Nat) : Bool := a % 64 == 0 && a + n ≤ scratchSize

/-- The code of `bits` bits at bit position `bit` of scratch byte `a`. -/
def Frond.scrCode (f : Frond) (a bit bits : Nat) : Nat := fld (ofLE (f.scr (a + bit / 8) ((bit % 8 + bits + 7) / 8))) (bit % 8) bits

/-- Store a code of `bits` bits at bit position `bit` of scratch byte `a`. -/
def Frond.putCode (f : Frond) (a bit bits c : Nat) : Frond :=
  let n := (bit % 8 + bits + 7) / 8
  f.setScr (a + bit / 8) (leBytes n (setFld (ofLE (f.scr (a + bit / 8) n)) (bit % 8) bits c))

/-- Row pitch of a value panel (R241). -/
def panelPitch (e0 bits : Nat) : Nat := (e0 * bits + 511) / 512 * 64

/-- Row pitch of a scale panel (R241). -/
def scalePitch (e0 : Nat) : Nat := ((e0 + 31) / 32 + 63) / 64 * 64

/-- Two byte ranges share a 64-byte line. -/
def sameLine (a n b m : Nat) : Bool := n != 0 && m != 0 && a / 64 ≤ (b + m - 1) / 64 && b / 64 ≤ (a + n - 1) / 64

/-- Bits per element of the tensor a tile goes through. -/
def Tile.desc (t : Tile) : Desc := Desc.ofBytes t.image

/-- The scratch ranges of a tile's panels. -/
def Tile.panels (t : Tile) : List (Nat × Nat) :=
  let d := t.desc
  (t.spv, t.e1 * panelPitch t.e0 d.bits) :: (if d.scaleType = 0 then [] else [(t.sps, t.e1 * scalePitch t.e0)])

/-- A pending TLOAD writes a line of [a, a + n) (R218). -/
def Frond.loadBusy (f : Frond) (a n : Nat) : Bool := f.loads.any fun l => l.tile.panels.any fun x => sameLine x.1 x.2 a n

/-- A running MMA reads a line of [a, a + n). -/
def Frond.mmaReads (f : Frond) (a n : Nat) : Bool := f.mmas.any fun m => m.2.any fun x => sameLine x.1 x.2 a n

/-- A running MMA writes tile `t`. -/
def Frond.tileBusy (f : Frond) (t : Nat) : Bool := f.mmas.any fun m => m.1 == t

/-! ### Instruction words (R237, R238) -/

/-- Bits [lo + w - 1 : lo] of word `i` of an instruction. -/
def wfld (w i lo n : Nat) : Nat := fld w (32 * i + lo) n

/-- Class and opcode of a word that some instruction has (R240, R253, R261, R272). -/
def knownOp (cls op : Nat) : Bool :=
  (cls == 1 && 1 ≤ op && op ≤ 4) || (cls == 2 && ((1 ≤ op && op ≤ 0x19) || (0x20 ≤ op && op ≤ 0x23))) ||
  (cls == 3 && 1 ≤ op && op ≤ 5)

/-- What an instruction does once it may issue. -/
inductive Issue where
  /-- It issues; the next instruction is at the DVA given. -/
  | ok (s : State) (next : Nat)
  /-- It waits: an earlier instruction it depends on is not done (R218). -/
  | stall
  /-- It fails with a code; `s` holds what it had done, and `raised` says whether the report was made. -/
  | fail (s : State) (code : Nat) (raised : Bool)

/-! ### Failing, ending, fencing -/

/-- The owner of Frond `n`, or 0. -/
def State.tcPt (s : State) (n : Nat) : Nat := (s.ownerOf 0x01 n).getD 0

/-- Record an error of Frond `n` in its registers (R235, R267) and report it to partition `p`. -/
def State.tcErr (s : State) (n p code info : Nat) (raised : Bool := false) : State :=
  let s1 := if 0x0601 ≤ code ∧ code ≤ 0x060B then s.sticky (Reg.TC_ERR n) (code - 0x0601) else s
  let s2 := s1.wr (Reg.TC_LAST_ERR n) code
  if raised then s2 else s2.err p (uTc n) code info

/-- Set sticky status bits of Frond `n` (R230). -/
def State.setArith (s : State) (n st : Nat) : State :=
  if st = 0 then s
  else (s.setTc n { s.tc n with arith := (s.tc n).arith ||| st }).wr (Reg.TC_ARITH n) (s.rdN (Reg.TC_ARITH n) ||| st)

/-- The covered elements of an output in ascending linear index of its view (R188): linear indices. -/
def coveredLin (t : Desc) (count : Nat) : List Nat :=
  let dims := t.viewDims count
  let total := dims.foldl (· * ·) 1
  if t.cmpMode = 0 then List.range total
  else if t.cmpMode = 1 then []
  else
    let below := (dims.take t.cmpDim).foldl (· * ·) 1
    (List.range total).filter fun i =>
      let k := i / below % dims.getD t.cmpDim 1
      t.cmpLo ≤ k && k < t.cmpHi

/-- The byte stream B′ of a digest (R227, R228). -/
def Digest.stream (g : Digest) : List Byte :=
  let t := Desc.ofBytes g.image
  let cov := coveredLin t g.count
  let n0 := (t.viewDims g.count).getD 0 1
  let codes := cov.flatMap fun i => leBytes ((t.bits + 7) / 8) (g.codes.getD i 0)
  let blocks := cov.foldl (fun l i => insSorted (i / n0 * 2 ^ 32 + i % n0 / 32) l) []
  codes ++ (if t.scaleType = 0 then [] else blocks.map fun b => BitVec.ofNat 8 (g.scales.getD b 0))

/-- COUNT_ERR: the covered elements stored are not as many as those covered (R228). -/
def Digest.countErr (g : Digest) : Bool := g.stored != (coveredLin (Desc.ofBytes g.image) g.count).length

/-- FLAGS of a digest record. -/
def Digest.flags (g : Digest) : Nat := g.countErr.toNat + 2 * g.poison.toNat

/-- The 32-byte digest record (R308). -/
def Digest.record (g : Digest) : List Byte :=
  leBytes 2 g.handle ++ leBytes 1 g.flags ++ leBytes 5 0 ++ leBytes 8 (crc64 g.stream) ++ leBytes 8 (g.stored % 2 ^ 48) ++ leBytes 8 0

/-- Digest entries: two records each, an unused second half 0 (R308). -/
def digestEntries (gs : List Digest) : List Byte :=
  let bs := gs.flatMap Digest.record
  if gs.length % 2 = 1 then bs ++ leBytes 32 0 else bs

/-- Let a pending fence act when the operation has ended or stopped (R476). -/
def State.fenceDue (s : State) (n : Nat) : State :=
  match (s.tc n).fencePend with
  | none => s
  | some r => (s.setTc n { s.tc n with fencePend := none }).fenceFrond n r

/-- Slot 0 of Frond `n` keeps the ended copy until its item has entered the ring (R309). -/
def State.holdSlot (s : State) (n : Nat) : State :=
  s.setTc n { s.tc n with itemWait := true, wait := none, fence := none, retired := false, line := none, loads := [],
                          mmas := [], digests := [] }

/-- The operation in slot 0 of Frond `n` stops with an error (R265): its end is recorded with the failing instruction's DVA
and no digest, and its run fails (R310). -/
def State.frondStop (s : State) (n code : Nat) (raised : Bool) : State :=
  let f := s.tc n
  match f.slot0 with
  | none => s
  | some x =>
    let p := s.tcPt n
    let s1 := ((s.progress p).tcErr n p code f.pc raised).event (uTc n) 0x02 p code x.cid.op f.bytes
    let red := match (s.graphAt x.cid.graph).bind fun g => g.copyRun x.cid.op x.cid.copy with
      | some c => c.redisp
      | none => false
    let e : EndRec := { cid := x.cid, pt := p, code := code, pc := f.pc, tc := some n, arith := f.arith, redisp := red,
                        startAt := f.startAt, endAt := s.now }
    (((s1.holdSlot n).dropWaits (uTc n)).opFail x.cid code e).fenceDue n

/-- Count corrected errors of Frond `n` toward its fence (R476). -/
def State.countCe (s : State) (n k : Nat) : State :=
  if k = 0 then s
  else
    let c := s.rel.ceCount.getD n 0 + k
    let s1 := { s with rel := { s.rel with ceCount := s.rel.ceCount.put n c } }
    let th := s1.rdN Reg.REL_CE_THRESH
    if th ≠ 0 ∧ th ≤ c ∧ s1.tcLive n then s1.fenceFrond n 0x0D03 else s1

/-- What the checks found while an instruction ran (R234, R469): corrected errors count; an uncorrectable one raises 0x0604,
stops the operation in the native mode or marks its structure, and fences the Frond when the operation ends; a parity error
aborts the operation and raises 0x0D06 to PT_0 and the owner. -/
def State.afterCheck (s : State) (n : Nat) (c : FrondCheck) : State :=
  let p := s.tcPt n
  let s1 := (if c.ce = 0 then s else s.bump (Reg.TC_CE_COUNT n) c.ce).countCe n c.ce
  let s2 := match c.ue with
    | none => s1
    | some w =>
      let f := { s1.tc n with fencePend := some 0x0D04 }
      if s1.rdB (Reg.QM_PT_MODE p) 0 then
        let g := match w with
          | .line k => f.markLine k true
          | .group k => { f with accBad := insSorted k f.accBad }
        (s1.setTc n g).tcErr n p 0x0604 0
      else (s1.setTc n f).frondStop n 0x0604 false
  if c.parity then
    ((s2.errAll (if p = 0 then [0] else [0, p]) { code := 0x0D06, subj := uTc n, rep := uTc n }).frondAbort n .parity).countCe n 1
  else s2

/-! ### Fetch and issue (R218, R224, R237, R264, R265) -/

/-- Fetch the program line of `a` for slot 0 of Frond `n` (R224): the state, and whether it succeeded. A refusal raises 0x0503
and a bus error 0x0907 besides 0x0605. -/
def State.fetchLine (s : State) (n a : Nat) : State × Bool :=
  let p := s.tcPt n
  match s.readDva p (a / 64 * 64) 64 .fetch with
  | .data bs bad => (s.setTc n { s.tc n with line := some (a / 64 * 64, bs) }, !bad)
  | .refused f d => (s.oob p (uTc n) none f d, false)
  | .bus d => (s.err p (uTc n) 0x0907 d, false)

/-- Frond `n` can issue: an operation executes in slot 0 and nothing holds it (R223, R232, R275, R278). -/
def Frond.issues (f : Frond) : Bool :=
  (match f.slot0 with
    | some x => x.st == 3
    | none => false) &&
  !f.retired && f.aborting.isNone && f.wait.isNone && f.fence.isNone && !f.itemWait

/-- The instruction word at the Frond's pc, when its line has been fetched. -/
def Frond.word (f : Frond) : Option Nat :=
  match f.line with
  | some (a, bs) => if f.pc / 64 * 64 = a then some (getLE bs (f.pc % 64) 16) else none
  | none => none

/-- The instruction fails, once every earlier load is done (R265). -/
def State.issueFail (s s' : State) (n code : Nat) (raised : Bool) : State :=
  if (s.tc n).loads.isEmpty then s'.frondStop n code raised else s

/-- The program line of the next instruction of Frond `n` is at hand, fetched if need be: the state, and whether it is there. -/
def State.atWord (s : State) (n : Nat) : State × Bool :=
  match (s.tc n).word with
  | some _ => (s, true)
  | none => s.fetchLine n (s.tc n).pc

/-- Issue the next instruction of Frond `n` if it is of class `cls` and opcode `op`: `body` is its effect on its word. A word
of no instruction fails with 0x0601 whatever was asked; a word of another instruction is left alone. -/
def State.issue (s : State) (n cls op : Nat) (chk : FrondCheck) (body : State → Nat → Nat → Issue) : State :=
  let f := s.tc n
  if !f.issues then s
  else
    let (s1, ok) := s.atWord n
    if !ok then s.issueFail s1 n 0x0605 false
    else
      match (s1.tc n).word with
      | none => s
      | some w =>
        let c := wfld w 0 28 4
        let o := wfld w 0 20 8
        if !knownOp c o then s1.issueFail s1 n 0x0601 false
        else if c ≠ cls ∨ o ≠ op then s
        else
          match body s1 w f.pc with
          | .stall => s
          | .fail s2 code raised => s1.issueFail s2 n code raised
          | .ok s2 next =>
            let s3 := (s2.setTc n { s2.tc n with pc := next % 2 ^ 64 }).wr (Reg.TC_EXEC_PC n) f.pc
            s3.afterCheck n chk

/-- An instruction that only changes its Frond: reserved bits outside `mask` fail with 0x0601. -/
def simpleBody (n mask : Nat) (eff : Frond → Nat → Except Nat Frond) (cnt : State → Nat → State) (s : State) (w pc : Nat) : Issue :=
  if w &&& mask ≠ w then .fail s 0x0601 false
  else
    match eff (s.tc n) w with
    | .error c => .fail s c false
    | .ok f => .ok (cnt (s.setTc n f) w) (pc + 16)

/-! ### Release points (R276, R277) -/

/-- Deliver the releases of Frond `n` whose accesses are all done, in order: local operations go to the flag unit, a remote
signal is sent, or fails with 0x0B04 when its device cannot be reached (R280, R281). -/
def State.pushReleases (s : State) (n : Nat) : Nat → State
  | 0 => s
  | fuel + 1 =>
    let f := s.tc n
    match f.rels with
    | [] => s
    | r :: rs =>
      if !r.needs.isEmpty then s
      else
        let s1 := s.setTc n { f with rels := rs, signalled := true }
        match r.dev with
        | none => State.pushReleases (s1.flagPush r.op) n fuel
        | some d =>
          let pd := s1.physDev d
          if s1.reachable pd then
            State.pushReleases (s1.sendRemote 5 pd r.op.pt (uTc n) r.op.flag 8 (leBytes 4 r.op.flag ++ leBytes 4 r.op.n)) n fuel
          else (s1.err r.op.pt (uTc n) 0x0B04 r.op.flag).frondStop n 0x0B04 true

/-- Access `id` of Frond `n` is done: what waits for it moves on (R277, R278). -/
def State.accessDone (s : State) (n id : Nat) : State :=
  let f := s.tc n
  let f1 := { f with rels := f.rels.map fun (r : Release) => { r with needs := r.needs.filter (· != id) } }
  let own : List (Nat × CopyId) := match f.slot0 with
    | some x => f1.stores.filter fun y => y.2 == x.cid
    | none => []
  let open_ := match f1.fence with
    | some 0 => f1.loads.isEmpty && own.isEmpty
    | some 1 => own.isEmpty
    | some 2 => f1.loads.isEmpty
    | _ => false
  (s.setTc n { f1 with fence := if open_ then none else f1.fence }).pushReleases n (f1.rels.length + 1)

/-! ### The meanings of the operation-level commands -/

/-- R213: registers, tiles and status as an operation starts. -/
def Frond.setUp (f : Frond) (args : List Nat) (entry now : Nat) : Frond :=
  { f with s := (args.zipIdx).foldl (fun t x => Tab.write (fun _ => 0) t x.2 (x.1 % 2 ^ 64)) []
           sBad := [], v := [], vBad := [], acc := [], accInt := [], accBad := [], arith := 0, pc := entry, line := none
           startAt := now, bytes := 0, loads := [], mmas := [], rels := [], digests := [], wait := none, fence := none
           retired := false, signalled := false }

/-- The arguments of a copy (R290, R293, R300, R301). -/
def copyArgs (o : GsOp) (copy larg : Nat) : List Nat :=
  let a := if copy = 1 then o.arg.set 6 o.alt1 else if copy = 2 then o.arg.set 6 o.alt2 else o.arg
  if bitAt o.flags 3 then a.set 7 larg else a

/-- FROND_OP_START (R213, R224, R298): the ready operation in slot 0 starts: its state is set up and its first line read. -/
def execFrondOpStart (n : Fin 32) (s : State) : Res :=
  let f := s.tc n
  match f.slot0 with
  | none => .next s
  | some x =>
    if x.st ≠ 2 ∨ f.itemWait ∨ f.aborting.isSome ∨ f.zeroing ∨ s.rdB Reg.REL_STATUS 0 then .next s
    else
      match s.graphAt x.cid.graph with
      | none => .next s
      | some g =>
        match g.cur with
        | none => .next s
        | some r =>
          let o := g.opAt x.cid.op
          let s1 := (s.progress g.pt).setTc n ({ f with slot0 := some { x with st := 3 } }.setUp (copyArgs o x.cid.copy r.larg) o.entry s.now)
          let late := match g.copyRun x.cid.op x.cid.copy with
            | some c => s.now - c.readyAt
            | none => 0
          let s2 := (if 250 < late then s1.bump Reg.GS_LATE 1 else s1).rcMax Reg.GS_START_MAX late
          let s3 := s2.event (uTc n) 0x01 g.pt 0 x.cid.op o.entry
          let (s4, ok) := s3.fetchLine n o.entry
          .next (if ok then s4 else s4.frondStop n 0x0605 false)

/-- FROND_OP_END (R223, R228 to R230, R294, R307): END has retired and every load and MMA is done; the digests are final and
the copy's end awaits its release point. COUNT_ERR raises 0x0608. -/
def execFrondOpEnd (n : Fin 32) (s : State) : Res :=
  let f := s.tc n
  match f.slot0 with
  | none => .next s
  | some x =>
    if !f.retired ∨ x.st ≠ 3 ∨ !f.loads.isEmpty ∨ !f.mmas.isEmpty ∨ f.itemWait then .next s
    else
      let p := s.tcPt n
      let red := match (s.graphAt x.cid.graph).bind fun g => g.copyRun x.cid.op x.cid.copy with
        | some c => c.redisp
        | none => false
      let cnt := f.digests.any Digest.countErr
      let e : EndRec := { cid := x.cid, pt := p, code := 0, tc := some n, arith := f.arith, digs := digestEntries f.digests,
                          ndig := f.digests.length, dflags := cnt.toNat + 2 * (f.digests.any (·.poison)).toNat, redisp := red,
                          startAt := f.startAt, endAt := s.now }
      let s1 := (if cnt then s.tcErr n p 0x0608 0 else s).progress p
      let s2 := ((s1.setTc n { s1.tc n with aborting := none }).holdSlot n).setCopy x.cid fun c => { c with phase := .ended n }
      let s3 := ((s2.bump (Reg.TC_OPS n) 1).bump (Reg.GS_PT_OPS p) 1).event (uTc n) 0x02 p 0 x.cid.op f.bytes
      .next ({ s3 with gs := { s3.gs with ends := s3.gs.ends ++ [e] } }.fenceDue n)

/-- The copy that an abort took out of slot 0 (R312, R313): a copy of a run that is being aborted is cancelled; one that has
signalled fails with 0x0606, which is raised; any other returns to the head of its list with the re-dispatch flag. -/
def State.abortedCopy (s : State) (n : Nat) (c : CopyId) (signalled : Bool) (why : AbortWhy) : State :=
  match s.graphAt c.graph with
  | none => s
  | some g =>
    match g.cur with
    | none => s
    | some r =>
      if r.aborted ∨ why = .run ∨ why = .reset then s.setCopy c fun x => { x with phase := .cancelled }
      else if signalled then
        (s.gsErr g.pt 0x0606 c.op).opFail c 0x0606 { cid := c, pt := g.pt, code := 0x0606, tc := some n, endAt := s.now }
      else ((s.setCopy c fun x => { x with redisp := true }).bump (Reg.GS_PT_REDISPATCHED g.pt) 1).returnCopy g.pt c

/-- FROND_ABORT_COMPLETE (R232, R312, R313, R477): outstanding reads are discarded, slot 0 is empty and the scheduler decides;
a Frond that is being fenced or released then zeroes. -/
def State.abortComplete (s : State) (n : Nat) : State :=
  let f := s.tc n
  match f.aborting, f.slot0 with
  | some why, some x =>
    let s1 := s.setTc n { f with slot0 := none, aborting := none, loads := [], mmas := [], rels := [], digests := [],
                                 line := none, wait := none, fence := none, retired := false, itemWait := false }
    let s2 := ((s1.bump (Reg.TC_ABORTED n) 1).event (uTc n) 0x04 (s.tcPt n) 0x0606 x.cid.op 0).abortedCopy n x.cid f.signalled why
    let s3 := (s2.tcErr n (s.tcPt n) 0x0606 0 true).fenceDue n
    if (s3.tc n).fencing.isSome && !(s3.tc n).zeroing then s3.startZeroing n else s3.promote n
  | _, _ => s

/-- A Frond leaves the capability table's LIVE and OWNED fields after its fence (R24, R477): ownership goes, CAP_GEN moves,
0x0D01 reaches every partition, and the reason PT_0 and the former owner. -/
def State.fenceDone (s : State) (n reason : Nat) (owner : Option Nat) : State :=
  let a := Reg.REL_TC_FENCE_INFO n
  let s1 := { s with own := s.own.del (ownKey 0x01 n) }.capChange
  let ps := match owner with
    | some p => if p = 0 then [0] else [0, p]
    | none => [0]
  let s2 := s1.errAll ps { code := reason, subj := uTc n, rep := uTc n, event := true }
  ((s2.wrF a 0 16 reason).wrF a 16 8 (min 255 (s2.rdF a 16 8 + 1))).wr Reg.REL_FENCE_STATUS
    (if s2.rdB Reg.REL_FENCE_STATUS 0 ∧ s2.rdF Reg.REL_FENCE_STATUS 8 5 = n then 0 else s2.rdN Reg.REL_FENCE_STATUS)

end Sys2Proof.Machine
end

