-- ==== Sys2Proof/Machine/GraphSched.lean ====
section
/-! DEFINITION. Sys2Proof/Machine/GraphSched.lean: the meanings of the graph scheduler's commands (12_graph_scheduler, R287 to
R317), and of the ends of aborts and zeroing of the Fronds (R232, R233). -/

namespace Sys2Proof.Machine

/-! ### Measurements (R448) -/

/-- PMR_i of partition `p`. -/
def State.pmr (s : State) (p i : Nat) : List Byte := s.sec.pmr.getD (p * 4 + i) (leBytes 48 0)

/-- Extend PMR_i of partition `p` with data (R448). -/
def State.pmrExtend (s : State) (p i : Nat) (data : List Byte) : State :=
  { s with sec := { s.sec with pmr := s.sec.pmr.put (p * 4 + i) (sha384 (s.pmr p i ++ sha384 data)) } }

/-! ### Images (R289 to R291, R302) -/

/-- The bytes [lo, hi) of an image are all 0. -/
def zeroBytes (b : List Byte) (lo hi : Nat) : Bool := ((b.drop lo).take (hi - lo)).all (· == 0#8)

/-- An operation image read (R290). -/
def GsOp.ofBytes (b : List Byte) : GsOp where
  null := getLE b 2 1 == 2
  prio := getLE b 3 1
  deps := getLE b 4 2
  succ := (List.range (getLE b 6 1)).map fun k => getLE b (0x60 + 2 * k) 2
  flags := getLE b 7 1
  entry := getLE b 8 8
  arg := (List.range 8).map fun k => getLE b (0x10 + 8 * k) 8
  alt1 := getLE b 0x50 8
  alt2 := getLE b 0x58 8
  affinity := getLE b 0x70 4
  prefetch := (List.range 2).map fun k => getLE b (0x74 + 2 * k) 2
  delay := getLE b 0x78 2
  task := getLE b 0x7A 2

/-- The fields and reserved bits of an operation image (R290, R302). -/
def opFieldsOk (b : List Byte) : Bool :=
  let kind := getLE b 2 1
  let fl := getLE b 7 1
  getLE b 0 2 == 0x9A70 && (kind == 1 || kind == 2) && getLE b 3 1 < 8 && getLE b 6 1 ≤ 8 && fl < 16 && getLE b 8 8 % 16 == 0 &&
  zeroBytes b (0x60 + 2 * getLE b 6 1) 0x70 && zeroBytes b 0x7C 0x80 && (bitAt fl 1 || getLE b 0x7A 2 == 0) &&
  (kind == 1 || (zeroBytes b 8 0x60 && zeroBytes b 0x70 0x78 && zeroBytes b 0x7A 0x7C && (fl == 0 || fl == 4)))

/-- The rows of R291 on one operation beyond its fields, with TMODE of its partition. -/
def GsOp.rulesOk (o : GsOp) (tmode : Bool) : Bool :=
  (o.delay == 0 || !tmode) && (!o.redundant || o.check) && (!o.check || o.task != 0) &&
  (o.redundant || (o.alt1 == 0 && o.alt2 == 0))

/-- Header fields but for the CRC (R289). -/
def graphHeaderOk (b : List Byte) : Bool :=
  let n := getLE b 4 2
  getLE b 0 2 == 0x9A71 && getLE b 2 1 == 1 && getLE b 3 1 == 0 && 1 ≤ n && n ≤ 16383 && getLE b 6 2 ≤ 1 &&
  getLE b 8 8 % 128 == 0 && getLE b 0x12 2 == 0 && (!bitAt (getLE b 0x10 2) 15 || 1 ≤ getLE b 0x14 4) && zeroBytes b 0x20 0x7C

/-- How many SUCC entries of a graph name each operation. -/
def succCounts (ops : List GsOp) : Tab Nat :=
  ops.foldl (fun (t : Tab Nat) o => o.succ.foldl (fun t j => t.upd j 0 (· + 1)) t) []

/-- Operations removed by taking away, again and again, one whose predecessors are all gone. -/
def topoCount (ops : List GsOp) : Nat → Tab Nat → List Nat → Nat → Nat
  | 0, _, _, done => done
  | _ + 1, _, [], done => done
  | fuel + 1, counts, i :: rest, done =>
    let succ := (ops[i]?.map (·.succ)).getD []
    let step : Tab Nat × List Nat := succ.foldl (fun (x : Tab Nat × List Nat) j =>
      let k := x.1.getD j 0 - 1
      (x.1.put j k, if k = 0 then x.2 ++ [j] else x.2)) (counts, rest)
    topoCount ops fuel step.1 step.2 (done + 1)

/-- The structure rows of R291: SUCC in range and not the operation itself, DEPS as counted, a root, no cycle. -/
def structureOk (ops : List GsOp) : Bool :=
  let idx := ops.zipIdx
  let counts := succCounts ops
  let roots := (idx.filter fun e => e.1.deps == 0).map (·.2)
  idx.all (fun e => e.1.succ.all fun j => j < ops.length && j != e.2) && idx.all (fun e => e.1.deps == counts.getD e.2 0) &&
  !roots.isEmpty && topoCount ops (ops.length + 1) counts roots 0 == ops.length

/-- The quadrants of the Fronds that partition `p` owns within an affinity. -/
def State.ownedQuads (s : State) (p aff : Nat) : List Nat :=
  (List.range 32).foldl (fun l n => if bitAt aff n && s.owns p 0x01 n then insSorted (quadrant n) l else l) []

/-- The affinity rows of R291: 0, 0x0706 or 0x0707. -/
def State.affinityCode (s : State) (p : Nat) (ops : List GsOp) : Nat :=
  let real := ops.filter fun o => !o.null
  if real.any fun o => (s.ownedQuads p o.affinity).isEmpty then 0x0706
  else if real.any fun o => o.redundant && (s.ownedQuads p o.affinity).length < 2 then 0x0707 else 0

/-- Operation records that the loaded graphs of `p` occupy (R287). -/
def State.recordsUsed (s : State) (p : Nat) : Nat :=
  (s.gs.graphs.filter fun g => g.pt == p).foldl (fun a g => a + g.recs.length + 1) 0

/-- The images of a graph: header and operations, read through partition `p`; a failure with its code (R291). -/
def State.graphImages (s : State) (p dva : Nat) : State × Except Nat (List Byte × List Byte) :=
  let u := uSched p
  match s.readDva p dva 128 with
  | .refused f d => (s.oob p u none f d, .error 0x0701)
  | .bus d => (s.err p u 0x0907 d, .error 0x0701)
  | .data h true => (s, if h.isEmpty then .error 0x0701 else .error 0x070B)
  | .data h false =>
    if dva % 128 ≠ 0 ∨ !graphHeaderOk h then (s, .error 0x0701)
    else
      match s.readDva p (getLE h 8 8) (getLE h 4 2 * 128) with
      | .refused f d => (s.oob p u none f d, .error 0x0701)
      | .bus d => (s.err p u 0x0907 d, .error 0x0701)
      | .data _ true => (s, .error 0x070B)
      | .data b false => (s, .ok (h, b))

/-- The operation images cut from their bytes. -/
def cutOps : Nat → List Byte → List (List Byte)
  | 0, _ => []
  | n + 1, b => b.take 128 :: cutOps n (b.drop 128)

/-- The checks of R291 on images that were read, in the order of its table: 0 when the load is accepted. -/
def State.graphCode (s : State) (p : Nat) (h b : List Byte) : Nat :=
  let imgs := cutOps (getLE h 4 2) b
  let ops := imgs.map GsOp.ofBytes
  if crc32c (h.take 0x7C ++ b) ≠ getLE h 0x7C 4 ∨ !imgs.all opFieldsOk then 0x0701
  else if !ops.all fun o => o.rulesOk (s.rdB (Reg.GS_PT_CFG p) 0) then 0x0701
  else if s.pool.getD (3 * 16 + p) 0 < s.recordsUsed p + ops.length + 1 then 0x0702
  else if !structureOk ops then 0x0703
  else s.affinityCode p ops

/-- The graph that images give, in the records `hdr` and `recs`. -/
def State.mkGraph (s : State) (p dva hdr : Nat) (recs : List Nat) (h b : List Byte) : Graph where
  hdr := hdr
  recs := recs
  gen := s.gs.gens.getD hdr 0
  pt := p
  dva := dva
  crc := getLE h 0x7C 4
  reportAll := bitAt (getLE h 6 2) 0
  endFlag := getLE h 0x10 2 % 32768
  endOn := bitAt (getLE h 0x10 2) 15
  endValue := getLE h 0x14 4
  budget := getLE h 0x18 4
  graphId := getLE h 0x1C 4
  ops := (cutOps (getLE h 4 2) b).map GsOp.ofBytes

/-- `n` operation records that nobody uses: which ones is free (assumption 2). -/
def State.pickRecords (s : State) : Nat → List Nat → State × List Nat
  | 0, _ => (s, [])
  | n + 1, used =>
    let (x, s1) := s.fresh
    let i := (((List.range 16384).map fun k => (x + k) % 16384).find? fun k => !used.contains k).getD 0
    let (s2, l) := State.pickRecords s1 n (i :: used)
    (s2, i :: l)

/-- Every record in use. -/
def State.usedRecords (s : State) : List Nat := s.gs.graphs.flatMap fun g => g.hdr :: g.recs

/-! ### Commands (R288, R297, R311) -/

/-- A command of `p` ends with a code (R288, R315). -/
def State.gsResult (s : State) (p code arg : Nat) : State :=
  let s1 := s.wrF (Reg.GS_PT_STATUS p) 16 16 code
  if code = 0 then s1 else s1.gsErr p code arg

/-- A load of `p` runs. -/
def State.gsBusy (s : State) (p : Nat) : Bool := s.rdB (Reg.GS_PT_STATUS p) 0

/-- GS_LOAD (R288): the load runs; one that runs already refuses it with 0x070A. -/
def execGsLoad (p : Fin 16) (s : State) : Res :=
  if s.gsBusy p then .next (s.gsResult p 0x070A 0)
  else .next { s.wr (Reg.GS_PT_STATUS p) 1 with gs := { s.gs with loading := s.gs.loading.put p (s.rdN (Reg.GS_PT_CMD_ARG p)) } }

/-- GS_LOAD_COMPLETE (R288 to R292, R448): the images are validated; records are allocated, HANDLE written and PMR_0 extended, or
the load is refused. -/
def execGsLoadComplete (p : Fin 16) (s : State) : Res :=
  match Tab.get? s.gs.loading p with
  | none => .next s
  | some dva =>
    let s0 := { s.wr (Reg.GS_PT_STATUS p) 0 with gs := { s.gs with loading := s.gs.loading.del p } }
    match s0.graphImages p dva with
    | (s1, .error code) => .next (s1.gsResult p code dva)
    | (s1, .ok (h, b)) =>
      let code := s1.graphCode p h b
      if code ≠ 0 then .next (s1.gsResult p code dva)
      else
        let (s2, l) := s1.pickRecords (getLE h 4 2 + 1) s1.usedRecords
        let g := s2.mkGraph p dva (l.headD 0) l.tail h b
        let s3 := { s2 with gs := { s2.gs with graphs := s2.gs.graphs ++ [g] } }
        .next ((s3.wr (Reg.GS_PT_HANDLE p) g.handle).pmrExtend p 0 (h.take 0x7C ++ b))

/-- Free the records of a graph: their generations advance (R292). -/
def State.dropGraph (s : State) (g : Graph) : State :=
  let gens := (g.hdr :: g.recs).foldl (fun (t : Tab Nat) i => t.put i ((t.getD i 0 + 1) % 2 ^ 18)) s.gs.gens
  { s with gs := { s.gs with graphs := s.gs.graphs.filter fun x => x.hdr != g.hdr, gens := gens } }

/-- GS_UNLOAD (R288): refused with 0x0704 for an invalid handle and 0x070A while a run is in progress or queued. -/
def execGsUnload (p : Fin 16) (s : State) : Res :=
  let arg := s.rdN (Reg.GS_PT_CMD_ARG p)
  if s.gsBusy p then .next (s.gsResult p 0x070A arg)
  else
    match s.handleGraph p arg with
    | none => .next (s.gsResult p 0x0704 arg)
    | some g => if g.cur.isSome ∨ !g.queue.isEmpty then .next (s.gsResult p 0x070A arg) else .next ((s.dropGraph g).gsResult p 0 arg)

/-- Discard the queued launches of a graph (R311); a Crozier node among them ends with 0x0407. -/
def State.dropQueue (s : State) (g : Graph) : State :=
  let nodes := g.queue.filterMap fun e => e.2.2
  nodes.foldl (fun s r => s.crzDone r 0x0407) ((s.setGraph { g with queue := [] }))

/-- Abort the current run of a graph for the cause `code`, and discard its queue (R311). -/
def State.abortGraph (s : State) (g : Graph) (code : Nat) : State :=
  let s1 := s.dropQueue g
  match g.cur with
  | none => s1
  | some r => if r.aborted then s1 else ((s1.gsErr g.pt code g.handle).abortRun g.hdr code 0xFFFF).gsSettle g.pt

/-- GS_ABORT (R311): the current run is aborted with 0x0708 and every queued launch discarded. -/
def execGsAbort (p : Fin 16) (s : State) : Res :=
  let arg := s.rdN (Reg.GS_PT_CMD_ARG p)
  if s.gsBusy p then .next (s.gsResult p 0x070A arg)
  else
    match s.handleGraph p arg with
    | none => .next (s.gsResult p 0x0704 arg)
    | some g => .next ((s.abortGraph g 0x0708).wrF (Reg.GS_PT_STATUS p) 16 16 0).crzDrain

/-- SETPRIO (R297): the operation's priority changes; a copy of it that waits moves to the tail of its new list. -/
def execSetprio (p : Fin 16) (s : State) : Res :=
  let arg := s.rdN (Reg.GS_PT_CMD_ARG p)
  let op := fld arg 32 16
  if s.gsBusy p then .next (s.gsResult p 0x070A arg)
  else
    match s.handleGraph p arg with
    | none => .next (s.gsResult p 0x0704 arg)
    | some g =>
      if g.ops.length ≤ op ∨ fld arg 51 13 ≠ 0 then .next (s.gsResult p 0x070A arg)
      else
        let hit (c : CopyId) : Bool := c.graph == g.hdr && c.op == op && c.copy < 2
        let waiting := (List.range 8).flatMap fun k => (s.readyList p k).filter hit
        let s1 := (s.dequeue p hit).setGraph { g with ops := g.ops.set op { g.opAt op with prio := fld arg 48 3 } }
        .next ((waiting.foldl (fun s c => s.enqueue p c false) s1).gsResult p 0 arg)

/-- GS_LAUNCH (R293): a run starts or is queued, or the launch is refused with 0x0704. -/
def execGsLaunch (p : Fin 16) (handle : BitVec 32) (s : State) : Res :=
  .next (s.launch p handle.toNat (s.rdN (Reg.GS_PT_LAUNCH_ARG p))).1.crzDrain

/-! ### Placement (R222, R295, R296) -/

/-- The first copy in the highest list of `p` that may go to Frond `n` (R295). -/
def State.pickFor (s : State) (p n : Nat) : Option CopyId :=
  (List.range 8).reverse.findSome? fun k => (s.readyList p k).find? fun c => s.eligible c n

/-- Frond `n` takes no placement at all. -/
def State.tcHeld (s : State) (n : Nat) : Bool :=
  let f := s.tc n
  f.zeroing || f.fencing.isSome || f.kak.isSome || (s.rel.kakDue.contains n && f.slot0.isNone)

/-- Slot `k` of Frond `n` is free for a placement (R296): slot 0 of an idle Frond; slots 1 and 2 behind an occupied slot. -/
def State.slotFree (s : State) (n k : Nat) : Bool :=
  let f := s.tc n
  !s.tcHeld n &&
  (match k with
    | 0 => f.slot0.isNone && !f.itemWait && f.aborting.isNone && f.slot1.isNone
    | 1 => (f.slot0.isSome || f.itemWait) && f.slot1.isNone
    | _ => f.slot1.isSome && f.slot2.isNone)

/-- Put a copy into slot `k` of Frond `n`. -/
def State.place (s : State) (p n k : Nat) (c : CopyId) : State :=
  let f := s.tc n
  let x : Slot := { cid := c, st := if k = 0 then 2 else 1, order := f.placed + 1 }
  let f1 : Frond := match k with
    | 0 => { f with slot0 := some x, placed := f.placed + 1 }
    | 1 => { f with slot1 := some x, placed := f.placed + 1 }
    | _ => { f with slot2 := some x, placed := f.placed + 1 }
  let s1 := ((s.dequeue p (· == c)).setTc n f1).setCopy c fun r => { r with phase := .placed n }
  if k = 0 then s1.bump Reg.GS_DISPATCHES 1 else s1

/-- The next placement of `p`: slot 0 of the Fronds in ascending number, then slot 1, then slot 2 (R295, R296). -/
def State.nextPlace (s : State) (p : Nat) : Option (Nat × Nat × CopyId) :=
  (List.range 3).findSome? fun k => (List.range 32).findSome? fun n =>
    if s.slotFree n k then (s.pickFor p n).map fun c => (n, k, c) else none

/-- The prefetched copies that Frond `n` holds, with their slots. -/
def Frond.prefetched (f : Frond) : List (Nat × Slot) :=
  (match f.slot1 with
    | some x => [(1, x)]
    | none => []) ++
  (match f.slot2 with
    | some x => [(2, x)]
    | none => [])

/-- The prefetched copy that `c` withdraws: of lower priority, on an eligible Frond, the lowest of them and among equals the
latest (R296). -/
def State.victim (s : State) (c : CopyId) : Option (Nat × Nat × Slot) :=
  let all := (List.range 32).flatMap fun n =>
    if s.eligible c n && !s.tcHeld n then (s.tc n).prefetched.map fun x => (n, x.1, x.2) else []
  let low := all.filter fun x => s.prioOf x.2.2.cid < s.prioOf c
  low.foldl (fun (a : Option (Nat × Nat × Slot)) x => match a with
    | none => some x
    | some y =>
      if s.prioOf x.2.2.cid < s.prioOf y.2.2.cid then some x
      else if s.prioOf x.2.2.cid = s.prioOf y.2.2.cid ∧ y.2.2.order < x.2.2.order then some x else some y) none

/-- The first waiting copy of `p`, highest list first, that can withdraw a prefetched one. -/
def State.withdrawal (s : State) (p : Nat) : Option (CopyId × Nat × Nat × Slot) :=
  ((List.range 8).reverse.flatMap fun k => s.readyList p k).findSome? fun c => (s.victim c).map fun v => (c, v)

/-- Empty prefetch slot `k` of Frond `n`. -/
def Frond.clearSlot (f : Frond) (k : Nat) : Frond := if k = 1 then { f with slot1 := none } else { f with slot2 := none }

/-- GS_DISPATCH (R295, R296, R300): the next placement of the partition, or, when no eligible Frond has a free slot, the
withdrawal of a lower-priority prefetched copy, whose slot the waiting copy takes. -/
def execGsDispatch (p : Fin 16) (s : State) : Res :=
  if s.rdB Reg.REL_STATUS 0 then .next s
  else
    match s.nextPlace p with
    | some (n, k, c) => .next (s.place p n k c)
    | none =>
      match s.withdrawal p with
      | none => .next s
      | some (c, n, k, x) =>
        let s1 := (s.setTc n ((s.tc n).clearSlot k)).bump (Reg.GS_PT_WITHDRAWN p) 1
        let s2 := (s1.place p n k c)
        .next ((s2.returnCopy p x.cid).gsSettle p).crzDrain

/-- PREFETCH_COMPLETE (R222): the slot is ready. -/
def execPrefetchComplete (n : Fin 32) (k : Fin 3) (s : State) : Res :=
  let f := s.tc n
  let up (x : Option Slot) : Option Slot := x.map fun y => if y.st = 1 then { y with st := 2 } else y
  .next (s.setTc n (match k.val with
    | 0 => { f with slot0 := up f.slot0 }
    | 1 => { f with slot1 := up f.slot1 }
    | _ => { f with slot2 := up f.slot2 }))

/-! ### Ends, ticks, budgets -/

/-- GS_OP_RELEASE (R294, R302, R307): the oldest ended copy of the partition whose stores are all visible releases its
successors, and its item is posted; a run that is over ends. -/
def execGsOpRelease (p : Fin 16) (s : State) : Res :=
  match s.gs.ends.find? fun e => e.pt == p.val && s.drained e.cid with
  | none => .next (s.gsSettle p).crzDrain
  | some e => .next ((s.endRelease e).gsSettle p).crzDrain

/-- GS_DELAY_TICK (R303, R520): every entry of the delay list that has fallen due becomes ready, in the order of the list. -/
def execGsDelayTick (p : Fin 16) (s : State) : Res :=
  let tick := s.now / 1000 / max 1 (s.rdF (Reg.GS_PT_CFG p) 8 8)
  let l := s.gs.delay.getD p []
  let due := l.filter fun e => e.1 ≤ tick
  let s := if due.isEmpty then s else s.wake 4
  let s1 := { s with gs := { s.gs with delay := s.gs.delay.put p (l.filter fun e => tick < e.1) } }.gsReady p
  let s2 := due.foldl (fun s e =>
    let open_ : Bool := match (s.graphAt e.2.graph).bind fun g => g.copyRun e.2.op 0 with
      | some c => c.phase == .delayed
      | none => false
    if open_ then s.opReady e.2.graph e.2.op else s) s1
  .next (s2.gsSettle p).crzDrain

/-- GS_BUDGET_EXPIRY (R311): a run that has a budget is aborted with 0x0709. -/
def execGsBudgetExpiry (p : Fin 16) (handle : BitVec 32) (s : State) : Res :=
  match s.handleGraph p handle.toNat with
  | none => .next s
  | some g => if g.budget = 0 ∨ g.cur.isNone then .next s else .next (s.abortGraph g 0x0709).crzDrain

/-- The scheduler's answer to a request of copy 2, as an entry of the mailbox (R301, R500); the spec gives it no layout
(assumption 21). -/
def copy2Answer (p handle run op code : Nat) : List Byte :=
  leBytes 1 0x21 ++ leBytes 1 p ++ leBytes 2 code ++ leBytes 4 handle ++ leBytes 8 run ++ leBytes 2 op ++ leBytes 46 0

/-- The code with which a request of copy 2 is refused (R301); 0 when it is accepted. -/
def State.copy2Code (s : State) (g : Graph) (run op : Nat) : Nat :=
  match g.cur with
  | none => 0x070C
  | some r =>
    if r.num % 2 ^ 48 ≠ run ∨ r.aborted ∨ g.ops.length ≤ op ∨ !(g.opAt op).redundant then 0x070C
    else if (g.copyRun op 2).isSome then 0x070C
    else if !(List.range 32).any fun n => s.eligible ⟨g.hdr, op, 2⟩ n then 0x070C else 0

/-- COPY2_REQUEST (R301): copy 2 becomes ready with priority 7, or the request is refused with 0x070C; the checker is told. -/
def execCopy2Request (p : Fin 16) (handle : BitVec 32) (run : BitVec 48) (op : BitVec 16) (s : State) : Res :=
  match s.handleGraph p handle.toNat with
  | none => .next ((s.gsErr p 0x0704 handle.toNat).toMailbox p (copy2Answer p handle.toNat run.toNat op.toNat 0x0704))
  | some g =>
    let code := s.copy2Code g run.toNat op.toNat
    let s1 := s.toMailbox p (copy2Answer p handle.toNat run.toNat op.toNat code)
    if code ≠ 0 then .next (s1.gsErr p code op.toNat)
    else
      let s2 := s1.setRun g.hdr fun r => { r with copies := r.copies ++ [{ op := op.toNat, copy := 2, phase := .waiting }] }
      .next (s2.copyReady p ⟨g.hdr, op.toNat, 2⟩ false)

/-! ### The deadlock monitor (R305, R306) -/

/-- The Fronds of `p` whose slot 0 holds an operation that has not ended. -/
def State.busyFronds (s : State) (p : Nat) : List Nat :=
  (List.range 32).filter fun n => s.owns p 0x01 n && (s.tc n).slot0.isSome && !(s.tc n).itemWait && (s.tc n).kak.isNone

/-- The channels of `p` that run. -/
def State.busyChannels (s : State) (p : Nat) : List Nat := (List.range 64).filter fun n => s.owns p 0x21 n && (s.ch n).live && s.chState n != 3

/-- `t` lies within the quiet period of `p`. -/
def State.withinQuiet (s : State) (p : Nat) (t : Option Nat) : Bool :=
  match t with
  | none => false
  | some t => s.now < t + s.rdN (Reg.GS_PT_DL_QUIET p) * 1000

/-- Source class `k` of R305 is pending in `p`. -/
def State.sourcePending (s : State) (p k : Nat) : Bool :=
  match k with
  | 0 => s.crz.graphs.any fun e => s.cgPt e.1 == p && e.2.insts.any fun i =>
      (i.start.isNone && s.rdF (Reg.CRZ_GR_CFG e.1) 4 4 != 3) ||
      (i.nodes.zip e.2.nodes).any fun x => x.2.kind != 5 && (match x.1.phase with
        | .started => true
        | .aborting _ => true
        | _ => false)
  | 1 => s.withinQuiet p (Tab.get? s.gs.hostAt p) || (List.range 8192).any fun r =>
      s.owns p 0x31 r && s.rdF (Reg.RING_CFG r) 0 2 == 1 && s.ringUsed r != 0
  | 2 => s.withinQuiet p (Tab.get? s.gs.remoteAt p) || s.lnk.outstanding.any fun r => r.pt == p
  | _ => (List.range 64).any fun n => s.owns p 0x21 n && !(s.ch n).spores.isEmpty

/-- The four conditions of R305. -/
def State.deadlocked (s : State) (p : Nat) : Bool :=
  let fr := s.busyFronds p
  (List.range 8).all (fun k => (s.readyList p k).isEmpty) && (s.gs.delay.getD p []).isEmpty &&
  (List.range 32).all (fun n => !s.owns p 0x01 n || (s.tc n).prefetched.isEmpty) &&
  (s.gs.graphs.filter fun g => g.pt == p).all (fun g => g.queue.isEmpty) &&
  !fr.isEmpty && fr.all (fun n => (s.tc n).wait.isSome) && (s.busyChannels p).all (fun n => (s.ch n).wait.isSome) &&
  (List.range 4).all fun k => !s.rdB (Reg.GS_PT_DL_SRC p) k || !s.sourcePending p k

/-- A wait-for edge of R306 in the ring of partition `p`: the record names the waiter (R542). -/
def State.waitEdge (s : State) (p : Nat) (u : UnitId) (w : Nat × Nat) (b : Nat) : State :=
  if s.isFrozen then s
  else
    let k := ringKey (uSched p)
    let r := s.dbg.rings.getD k {}
    let e : EvRec := ⟨s.now, 0x06, u, p, w.1, r.written % 65536, (s.flag w.1).value + w.2 * 2 ^ 32, b⟩
    { s with dbg := { s.dbg with rings := s.dbg.rings.put k ⟨r.written + 1, (e :: r.recs).take 256⟩ } }

/-- What a Frond's edge names: operation index and RUN. -/
def State.frondCtx (s : State) (n : Nat) : Nat :=
  match (s.tc n).slot0 with
  | none => 0
  | some x =>
    match (s.graphAt x.cid.graph).bind (·.cur) with
    | some r => x.cid.op + r.num * 65536
    | none => x.cid.op

/-- The records of a declared deadlock (R306): a wait edge for each Frond and channel of `p` that waits on a flag. -/
def State.waitEdges (s : State) (p : Nat) (fronds chans : List Nat) : State :=
  let s1 := fronds.foldl (fun s n => match (s.tc n).wait with
    | some w => s.waitEdge p (uTc n) w (s.frondCtx n)
    | none => s) s
  chans.foldl (fun s n => match (s.ch n).wait with
    | some w => s.waitEdge p (uCh n) w (s.rdN (Reg.MOV_CH_PROG n))
    | none => s) s1

/-- DEADLOCK_DECLARE (R305, R306, R545, R547): the conditions have held for DL_QUIET µs: 0x0705, the trace freezes, and one edge per
stalled waiter is recorded; once per deadlock, until `p` makes progress. -/
def execDeadlockDeclare (p : Fin 16) (s : State) : Res :=
  if !s.rdB (Reg.GS_PT_CFG p) 1 ∨ !s.deadlocked p then .next (s.progress p)
  else if (Tab.get? s.gs.quiet p).isSome then .next s
  else
    let fr := s.busyFronds p
    let cs := s.busyChannels p
    let s1 := (({ s with gs := { s.gs with quiet := s.gs.quiet.put p s.now } }.gsErr p 0x0705).bump (Reg.GS_PT_DEADLOCKS p) 1)
    let s2 := s1.wrF (Reg.DBG_PT_TRACE_CFG p) 2 1 1
    let s4 := s2.waitEdges p fr cs
    .next (if s4.rdB Reg.DBG_FRZ_CFG 3 then s4.freezeLocal 4 else s4)

/-! ### Fronds: aborts and zeroing (R232, R233) -/

/-- FROND_ABORT_COMPLETE (R232, R312, R313). -/
def execFrondAbortComplete (n : Fin 32) (s : State) : Res :=
  let p := s.tcPt n
  .next ((s.abortComplete n).gsSettle p).crzDrain

/-- FROND_ZEROING_COMPLETE (R233, R21, R477): the Frond holds zeros; one that was fenced leaves the capability table. -/
def execFrondZeroingComplete (n : Fin 32) (s : State) : Res :=
  let f := s.tc n
  if !f.zeroing then .next s
  else
    let s1 := s.setTc n { placed := f.placed }
    match f.fencing with
    | none => .next s1
    | some r => .next (s1.fenceDone n r f.fencePt)

end Sys2Proof.Machine
end

