-- ==== Sys2Proof/Machine/Crozier.lean ====
section
/-! DEFINITION. Sys2Proof/Machine/Crozier.lean: the meanings of the Crozier's commands (06_crozier_frame_graphs, R131 to R154):
programs, loads, triggers, node starts. -/

namespace Sys2Proof.Machine

/-! ### G-class programs (R137 to R139) -/

/-- Bits [lo + n - 1 : lo] of word `i` of a G-class instruction. -/
def gfld (w i lo n : Nat) : Nat := fld w (32 * i + lo) n

/-- Opcode of a G-class instruction; 0 when the class is not 0x4. -/
def gOp (w : Nat) : Nat := if gfld w 0 28 4 = 4 then gfld w 0 20 8 else 0

/-- The reserved bits of a G-class instruction are 0: `free` lists the fields it has beyond class and opcode. -/
def gReserved (w : Nat) (free : List (Nat × Nat × Nat)) : Bool :=
  let m := free.foldl (fun a f => setFld a (32 * f.1 + f.2.1) f.2.2 (2 ^ f.2.2 - 1)) (0xFFF * 2 ^ 20)
  w &&& m == w

/-- Units that a NODE of a kind may name: streams, contexts, engines, channels, and 0 for a neural node (R138). -/
def nodeUnits (kind : Nat) : Nat :=
  match kind with
  | 1 => 48
  | 2 => 48
  | 3 => 11
  | 4 => 64
  | 5 => 1
  | _ => 0

/-- Opcode, reserved bits and ranges of one instruction (R137, R138); a breach is 0x0401. -/
def gFieldsOk (w : Nat) : Bool :=
  match gOp w with
  | 1 => gReserved w [(0, 0, 12), (0, 12, 4), (0, 16, 3), (1, 0, 32), (2, 0, 32)] &&
      gfld w 0 0 12 < nodeUnits (gfld w 0 12 4) && gfld w 1 0 6 == 0
  | 2 => gReserved w [(0, 0, 15), (1, 0, 32), (2, 0, 32)]
  | 3 => gReserved w [(0, 0, 12), (0, 16, 3), (1, 0, 30), (2, 0, 32), (3, 0, 15), (3, 31, 1)] &&
      gfld w 1 22 4 ≤ 2 && gfld w 1 26 4 ≤ 1 &&
      (gfld w 0 16 1 == 0 || (16 ≤ gfld w 2 0 16 && gfld w 2 0 16 ≤ 256 && gfld w 2 0 16 % 16 == 0))
  | 4 => gReserved w [(0, 0, 15), (0, 16, 1), (1, 0, 32)] && gfld w 1 0 32 != 0
  | 5 => gReserved w [(0, 0, 16)] && gfld w 0 8 8 ≤ gfld w 0 0 8
  | 6 => gReserved w [(0, 0, 6), (1, 0, 32)] && gfld w 1 0 6 == 0
  | 7 => gReserved w []
  | _ => false

/-- What a program gives while it is unrolled: nodes and chains so far, end signals, what waits for the next NODE, and a
structure fault. -/
structure Unroll where
  nodes : List CNode := []
  chains : List CChain := []
  ends : List (Nat × Nat) := []
  awaits : List (Nat × Nat × Nat) := []
  every : Option (Nat × Nat) := none
  bad : Bool := false

/-- One instruction in loop iteration `i` with its STEP, whose first node is `first` (none outside a loop). -/
def Unroll.one (u : Unroll) (w i step : Nat) (first : Option Nat) : Unroll :=
  match gOp w with
  | 1 =>
    let kind := gfld w 0 12 4
    let n : CNode := { kind := kind, unit := gfld w 0 0 12, nbuf := gfld w 0 16 3
                       block := gfld w 1 0 32 + gfld w 2 0 16 * 2 ^ 32 + i * step, bstride := gfld w 2 16 16
                       awaits := u.awaits, every := u.every.getD (1, 0) }
    { u with nodes := u.nodes ++ [n], awaits := [], every := none
             bad := u.bad || 2 < u.awaits.length || (u.every.isSome && kind ≤ 2) || 1024 ≤ u.nodes.length }
  | 2 => { u with awaits := u.awaits ++ [(gfld w 0 0 15, gfld w 1 0 32, gfld w 2 0 32)] }
  | 3 =>
    let rel := gfld w 0 18 1 == 1
    let base := if rel then first.getD 0 else 0
    let c : CChain := { stripe := gfld w 0 16 1 == 1, prev := gfld w 0 17 1 == 1, src := base + gfld w 0 0 12
                        dst := base + gfld w 1 0 12, ctr := gfld w 1 12 10, outSel := gfld w 1 22 4, inSel := gfld w 1 26 4
                        stripeH := gfld w 2 0 16, start := gfld w 2 16 16
                        mirror := if gfld w 3 31 1 = 1 then some (gfld w 3 0 15) else none }
    { u with chains := u.chains ++ [c], bad := u.bad || (rel && first.isNone) }
  | 4 =>
    let e := (gfld w 0 0 15, gfld w 1 0 32)
    if gfld w 0 16 1 = 1 then { u with ends := u.ends ++ [e] }
    else
      match u.nodes.getLast? with
      | none => { u with bad := true }
      | some n => { u with nodes := u.nodes.dropLast ++ [{ n with signals := n.signals ++ [e] }] }
  | 5 => { u with every := some (gfld w 0 0 8 + 1, gfld w 0 8 8) }
  | _ => u

/-- A loop body `count` times (R138). -/
def Unroll.loop (u : Unroll) (body : List Nat) (step : Nat) (total : Nat) : Nat → Unroll
  | 0 => u
  | k + 1 =>
    let first := u.nodes.length
    Unroll.loop (body.foldl (fun v w => v.one w (total - (k + 1)) step (some first)) u) body step total k

/-- Unroll a program: `open_` is the loop being collected, with its COUNT and STEP and its body so far. -/
def unrollAll (u : Unroll) (open_ : Option (Nat × Nat × List Nat)) : List Nat → Unroll
  | [] => u
  | w :: ws =>
    match open_, gOp w with
    | none, 6 => unrollAll u (some (gfld w 0 0 6 + 1, gfld w 1 0 32, [])) ws
    | none, 7 => u
    | none, _ => unrollAll (u.one w 0 0 none) none ws
    | some _, 6 => { u with bad := true }
    | some (n, step, body), 7 => unrollAll (u.loop body step n n) none ws
    | some (n, step, body), _ => unrollAll u (some (n, step, body ++ [w])) ws

/-- Instructions read from `a` on until the END of the program, at most `fuel`, with their bytes; `open_` says that a loop is
open. The third part is none when the program is not ended. -/
def State.readProgram (s : State) (p : Nat) (open_ : Bool) : Nat → Nat → State × Except Nat (List Nat × List Byte)
  | 0, _ => (s, .error 0x0402)
  | fuel + 1, a =>
    match s.readDva p a 16 with
    | .refused f d => (s.oob p uCrozier none f d, .error 0x0503)
    | .bus d => (s.err p uCrozier 0x0907 d, .error 0x0907)
    | .data b bad =>
      if bad then (s, .error 0x0409)
      else
        let w := ofLE b
        if !gFieldsOk w then (s, .error 0x0401)
        else if gOp w = 7 ∧ !open_ then (s, .ok ([w], b))
        else if gOp w = 6 ∧ open_ then (s, .error 0x0402)
        else
          match State.readProgram s p (if gOp w = 6 then true else if gOp w = 7 then false else open_) fuel (a + 16) with
          | (s1, .error c) => (s1, .error c)
          | (s1, .ok (ws, bs)) => (s1, .ok (w :: ws, b ++ bs))

/-- OUT_SEL of a chain whose predecessor is not an ISP node is 0 (R138). -/
def Unroll.selOk (u : Unroll) : Bool :=
  u.chains.all fun c => c.outSel == 0 || (match u.nodes[c.src]? with
    | some n => n.kind == 2
    | none => true)

/-- The nodes left after taking away, again and again, those without a predecessor among them. -/
def acyclicRest (chains : List CChain) : Nat → List Nat → List Nat
  | 0, l => l
  | fuel + 1, l =>
    let next := l.filter fun k => chains.any fun c => !c.prev && c.dst == k && l.contains c.src
    if next.length = l.length then l else acyclicRest chains fuel next

/-- The rules of R139 that refuse a load with 0x0402. -/
def Unroll.structOk (u : Unroll) : Bool :=
  let kind (k : Nat) : Nat := (u.nodes[k]?.map (·.kind)).getD 0
  !u.bad && u.nodes.length ≤ 1024 &&
  u.chains.all (fun c => c.src < u.nodes.length && c.dst < u.nodes.length && !(c.prev && c.stripe) && 3 ≤ kind c.dst &&
    (!c.stripe || (kind c.src ≤ 3 && (kind c.dst != 3 || c.start == 0)))) &&
  u.chains.all (fun c => !c.stripe || u.chains.all fun d => !d.stripe || d.ctr != c.ctr ||
    (d.src == c.src && d.outSel == c.outSel && d.stripeH == c.stripeH)) &&
  (acyclicRest u.chains (u.nodes.length + 1) (List.range u.nodes.length)).isEmpty

/-- Node records that the graphs of `p` occupy (R132). -/
def State.nodesUsed (s : State) (p : Nat) : Nat :=
  (s.crz.graphs.filter fun e => s.cgPt e.1 == p).foldl (fun a e => a + e.2.nodes.length) 0

/-- Partition `p` owns the counters of every stripe chain for DEPTH slots (R139). -/
def State.ctrsOwned (s : State) (p g : Nat) (chains : List CChain) : Bool :=
  chains.all fun c => !c.stripe || (List.range (s.rdF (Reg.CRZ_GR_CFG g) 1 2 + 1)).all fun k => s.owns p 0x1A (c.ctr + k)

/-- Validate and unroll a program: the graph, or the code with which the load is refused. -/
def State.mkCGraph (s : State) (g p prog : Nat) (ws : List Nat) (bs : List Byte) : Except Nat CGraph :=
  let u := unrollAll {} none ws
  if !u.selOk then .error 0x0401
  else if !u.structOk then .error 0x0402
  else if s.pool.getD (0x18 * 16 + p) 0 < s.nodesUsed p + u.nodes.length ∨ !s.ctrsOwned p g u.chains then .error 0x0403
  else .ok { nodes := u.nodes, chains := u.chains, ends := u.ends, crc := crc32c bs, prog := prog }

/-! ### Commands -/

/-- A refused command or write of graph `g`. -/
def State.crzRefuse (s : State) (g code : Nat) : State := s.crzErr g code

/-- The graph has EN 1 or an instance that has not ended. -/
def State.crzActive (s : State) (g : Nat) : Bool :=
  s.rdB (Reg.CRZ_GR_CFG g) 0 || (match s.cg g with
    | some x => !x.insts.isEmpty
    | none => false)

/-- Slot `g` belongs to a partition; the window of one that does not decode for nobody but the PF, whose commands find no
partition to act for. -/
def State.crzOwned (s : State) (g : Nat) : Bool := (s.ownerOf 0x19 g).isSome

/-- CRZ_LOAD (R132): the load runs; refused with 0x040B while EN is 1 or an instance is active. -/
def execCrzLoad (g : Fin 64) (s : State) : Res :=
  if !s.crzOwned g then .next s
  else if s.crzActive g ∨ (Tab.get? s.crz.loading g).isSome then .next (s.crzRefuse g 0x040B)
  else
    .next { (s.wrF (Reg.CRZ_GR_STATUS g) 1 1 0) with
      crz := { s.crz with graphs := s.crz.graphs.del g, loading := s.crz.loading.put g (s.rdN (Reg.CRZ_GR_PROG g)) } }

/-- A load of graph slot `g` fails with a code (R132, R153): a refused or undecoded read has been reported. -/
def State.crzLoadFail (s : State) (g code : Nat) : State :=
  let s1 := (s.wrF (Reg.CRZ_GR_STATUS g) 1 1 1).wr (Reg.CRZ_GR_ERR g) code
  if code = 0x0503 ∨ code = 0x0907 then s1 else s1.crzErr g code

/-- What a load of graph slot `g` makes of its program as read (R132, R138, R153). -/
def State.crzLoaded (g p prog : Nat) : State × Except Nat (List Nat × List Byte) → State
  | (s1, .error c) => s1.crzLoadFail g c
  | (s1, .ok (ws, bs)) =>
    match s1.mkCGraph g p prog ws bs with
    | .error c => s1.crzLoadFail g c
    | .ok x => (s1.setCg g x).pmrExtend p 1 bs

/-- CRZ_LOAD_COMPLETE (R132, R137 to R139, R448): the program is validated and unrolled; node records are allocated and PMR_1
extended, or LOAD_ERR and ERR tell the code. -/
def execCrzLoadComplete (g : Fin 64) (s : State) : Res :=
  match Tab.get? s.crz.loading g with
  | none => .next s
  | some prog =>
    let s0 := { s with crz := { s.crz with loading := s.crz.loading.del g } }
    if prog % 16 ≠ 0 then .next (s0.crzLoadFail g 0x0401)
    else .next (State.crzLoaded g (s0.cgPt g) prog (s0.readProgram (s0.cgPt g) false 4096 prog))

/-- CRZ_UNLOAD (R132): the node records are free; refused with 0x040B while EN is 1 or an instance is active. -/
def execCrzUnload (g : Fin 64) (s : State) : Res :=
  if !s.crzOwned g then .next s
  else if s.crzActive g then .next (s.crzRefuse g 0x040B)
  else .next { s with crz := { s.crz with graphs := s.crz.graphs.del g } }

/-- Discard an armed instance (R133, R151): its nodes leave their units, and nothing is raised or recorded. -/
def State.instDiscard (s : State) (g seq : Nat) : State :=
  match (s.cg g).bind fun x => x.inst seq with
  | none => s
  | some i =>
    let s1 := (List.range i.nodes.length).foldl (fun s k => s.stopNode ⟨g, seq, k⟩ 0) s
    match s1.cg g with
    | none => s1
    | some x => s1.setCg g { x with insts := x.insts.filter fun j => j.seq != seq }

/-- Discard every armed instance of graph `g` that has not started. -/
def State.discardArmed (s : State) (g : Nat) : State :=
  match s.cg g with
  | none => s
  | some x => (x.insts.filter fun i => i.start.isNone && !i.aborted).foldl (fun s i => s.instDiscard g i.seq) s

/-- Abort every started instance of graph `g` with a code and discard the armed ones (R151). -/
def State.crzAbortAll (s : State) (g code : Nat) : State :=
  match s.cg g with
  | none => s
  | some x =>
    let s1 := s.discardArmed g
    (x.insts.filter fun i => i.start.isSome && !i.aborted).foldl (fun s i => (s.crzErr g code).instAbort g i.seq code) s1

/-- CRZ_ABORT (R151): with 0x0408. -/
def execCrzAbort (g : Fin 64) (s : State) : Res := .next (s.crzAbortAll g 0x0408).crzDrain

/-- CRZ_TRIGGER (R134): the host trigger of a graph whose TRIG is 0; without an armed instance it is lost. -/
def execCrzTrigger (g : Fin 64) (s : State) : Res :=
  if s.rdF (Reg.CRZ_GR_CFG g) 4 4 ≠ 0 then .next s else .next (s.crzFire g).crzDrain

/-- CRZ_TIMER_TRIGGER (R134, R520): device time has reached k × PERIOD + PHASE. -/
def execCrzTimerTrigger (g : Fin 64) (s : State) : Res :=
  let cfg := s.rdN (Reg.CRZ_GR_CFG g)
  if fld cfg 4 4 ≠ 4 ∨ !bitAt cfg 0 then .next s else .next ((s.wake 4).crzFire g).crzDrain

/-- The trigger source and arguments of graph `g` can be used with a CFG value (R134): 0, 0x0401 or 0x0403. -/
def State.trigCode (s : State) (g v : Nat) : Nat :=
  let p := s.cgPt g
  let src := fld v 8 15
  let arg := s.rdN (Reg.CRZ_GR_TRIG_ARG g)
  match fld v 4 4 with
  | 1 => if src < 48 then 0 else 0x0403
  | 2 => if src < 48 then 0 else 0x0403
  | 3 => if s.owns p 0x33 src then 0 else 0x0403
  | 4 => if fld arg 0 32 < 100 ∨ fld arg 0 32 ≤ fld arg 32 32 then 0x0401 else 0
  | 5 => if src < 64 ∧ s.owns p 0x19 src then 0 else 0x0403
  | _ => 0

/-- The instance ring of graph `g` with a CFG value is aligned and lies in a writable region (R153). -/
def State.instRingOk (s : State) (g v : Nat) : Bool :=
  let base := s.rdN (Reg.CRZ_GR_INST_BASE g)
  base % 128 == 0 && s.regionCovers (s.cgPt g) base (2 ^ fld v 23 3 * 128) .write

/-- The code with which a CFG value is refused (R134, R153, R154); 0 when it is taken. -/
def State.cfgCode (s : State) (g v : Nat) : Nat :=
  let old := s.rdN (Reg.CRZ_GR_CFG g)
  let idep := fld v 23 3
  if 5 < fld v 4 4 ∨ idep < 2 ∨ 6 < idep then 0x0401
  else if bitAt old 0 then (if v / 2 % 2 ^ 27 = old / 2 % 2 ^ 27 then 0 else 0x040B)
  else if !bitAt v 0 then 0
  else
    match s.cg g with
    | none => 0x040B
    | some x =>
      let t := s.trigCode g v
      if t ≠ 0 then t
      else if !s.instRingOk g v ∨ !(s.wr (Reg.CRZ_GR_CFG g) v).ctrsOwned (s.cgPt g) g x.chains then 0x0403 else 0

/-- CRZ_CFG_WRITE (R133, R154): setting EN numbers instances from 1 and arms them; clearing it discards the armed ones. -/
def execCrzCfgWrite (g : Fin 64) (value : BitVec 32) (s : State) : Res :=
  let v := value.toNat % 2 ^ 26 &&& 0x3FFFFF7
  if !s.crzOwned g then .next s
  else
    let code := s.cfgCode g v
    if code ≠ 0 then .next (s.crzRefuse g code)
    else
      let was := s.rdB (Reg.CRZ_GR_CFG g) 0
      let s1 := s.wr (Reg.CRZ_GR_CFG g) v
      if bitAt v 0 && !was then
        (match s1.cg g with
          | none => .next s1
          | some x => .next (s1.setCg g { x with base := x.seq, acts := [], lastRec := [] }).crzDrain)
      else if !bitAt v 0 && was then .next (s1.discardArmed g).crzDrain
      else .next s1

/-- CRZ_NODE_START (R144 to R147): a node whose conditions all hold starts on its unit; its handoff is counted. -/
def execCrzNodeStart (g : Fin 64) (inst : Nat) (node : Fin 1024) (ns : Nat) (s : State) : Res :=
  let r : NodeRef := ⟨g, inst, node⟩
  let ready : Bool := match (s.cg g).bind fun x => (x.inst inst).map fun i => (x, i) with
    | some (x, i) => (match x.nodes[node.val]?, i.nodes[node.val]? with
        | some n, some m => s.mayStart x i node n m && !m.told
        | _, _ => false)
    | none => false
  if !ready then .next s
  else
    let s1 := s.bump Reg.CRZ_HANDOFFS 1
    let s2 := (if 56 < ns then s1.bump Reg.CRZ_LATE 1 else s1).rcMax Reg.CRZ_HANDOFF_MAX ns
    .next (s2.crzStart r).crzDrain

/-- CRZ_BUDGET_EXPIRY (R136): an instance that has not ended is aborted with 0x0405. -/
def execCrzBudgetExpiry (g : Fin 64) (slot : Fin 4) (s : State) : Res :=
  if s.rdN (Reg.CRZ_GR_BUDGET g) = 0 then .next s
  else
    match (s.cg g).bind fun x => x.insts.find? fun i => i.slot == slot.val && i.start.isSome with
    | none => .next s
    | some i => if i.aborted then .next s else .next ((s.crzErr g 0x0405).instAbort g i.seq 0x0405).crzDrain

end Sys2Proof.Machine
end

