-- ==== Sys2Proof/Machine/Stop.lean ====
section
/-! DEFINITION. Sys2Proof/Machine/Stop.lean: a job whose remote access was refused stops (R20, R281, R423). -/

namespace Sys2Proof.Machine

/-- The remote access of `agent` at `addr` was refused with a code: an operation stops, a channel treats it as a failed access,
a graph's signal is only reported. -/
def State.stopJob (s : State) (agent : UnitId) (code addr : Nat) : State :=
  if agent.cls = 0x01 then s.frondStop agent.inst code true
  else if agent.cls = 0x21 then s.chRemoteRefused agent.inst code addr
  else s

end Sys2Proof.Machine
end

