-- ==== Sys2Proof/Machine/Link.lean ====
section
/-! DEFINITION. Sys2Proof/Machine/Link.lean: the meanings of the Silair Link's commands (16_silair_multi_device,
R411 to R439, with R280, R281 and R458). -/

namespace Sys2Proof.Machine

/-- Link port `n` as a unit. -/
def uPort (n : Nat) : UnitId := ⟨0x38, n⟩

/-- Link port state `n`. -/
def State.port (s : State) (n : Nat) : LinkPort := s.lnk.ports.getD n {}

/-- Replace the state of port `n`. -/
def State.setPort (s : State) (n : Nat) (p : LinkPort) : State :=
  { s with lnk := { s.lnk with ports := s.lnk.ports.put n p } }

/-- LNK_n_STATUS[1:0]: 0 DOWN, 1 training, 2 up, 3 retraining (R439). -/
def State.portState (s : State) (n : Nat) : Nat := s.rdF (Reg.LNK_PORT_STATUS n) 0 2

/-- Destination number that stands for every device (a flood or broadcast). -/
def everyDevice : Nat := 128

/-- The control and checkpoint packets by kind, beside the TYPE values of R415. -/
def kHeartbeat : Nat := 0x70
/-- Answer to a heartbeat (R428). -/
def kAnswer : Nat := 0x71
/-- Loss notice (R428). -/
def kLoss : Nat := 0x73
/-- Master notice (R431). -/
def kMaster : Nat := 0x74
/-- Standby change (R431). -/
def kStandby : Nat := 0x75
/-- Time-step notice (R426). -/
def kTimeStep : Nat := 0x76
/-- Error report to the master (R432). -/
def kReport : Nat := 0x78
/-- Checkpoint BEGIN (R435). -/
def kBegin : Nat := 0x80
/-- Checkpoint DATA (R435). -/
def kData : Nat := 0x81
/-- Checkpoint COMMIT (R435). -/
def kCommit : Nat := 0x82
/-- Checkpoint acknowledgement (R435). -/
def kAck : Nat := 0x83

/-- The master's identifier (LNK_STATUS[22:16]). -/
def State.masterId (s : State) : Nat := s.rdF Reg.LNK_STATUS 16 7

/-- A link error to PT_0, sent on to the master as a control packet by a device that is not the master (R432, R438). -/
def State.linkErr (s : State) (u : UnitId) (code : Nat) (info : Nat := 0) : State :=
  let s1 := s.report 0 { code := code, subj := u, dev := s.devId, rep := u, info := info }
  if s.lnk.role = .master then s1 else s1.emit (.link s.masterId kReport [code, u.cls, u.inst, s.now] [])

/-- LNK_STATUS[8:7] shows the role (R439). -/
def roleCode : Role → Nat
  | .member => 0
  | .master => 1
  | .standby => 2
  | .standalone => 3

/-- Take a role. -/
def State.setRole (s : State) (r : Role) : State :=
  { s.wrF Reg.LNK_STATUS 7 2 (roleCode r) with lnk := { s.lnk with role := r } }

/-- Step device time forward by `ns`; a window boundary of R476 that the step passes restarts the corrected-error
counts. -/
def State.stepTime (s : State) (ns : Nat) : State :=
  let w := s.rdN Reg.REL_CE_WINDOW * 1000000000
  let s1 := { s with time := s.time + ns * 2 ^ 32 }
  if w ≠ 0 ∧ s.now / w ≠ s1.now / w then { s1 with rel := { s1.rel with ceCount := [] } } else s1

/-- LNK_CTRL_WRITE (R414): EN takes the value written; from 0 to 1 on a DOWN port it starts a training attempt at once,
except on a standalone device (R418). -/
def execLnkCtrlWrite (n : Fin 8) (value : BitVec 32) (s : State) : Res :=
  let en := value.getLsbD 0
  let s1 := s.wr (Reg.LNK_PORT_CTRL n) en.toNat
  .next (if en && !s.rdB (Reg.LNK_PORT_CTRL n) 0 && s.portState n == 0 && s.lnk.strapRole != .standalone
    then s1.wrF (Reg.LNK_PORT_STATUS n) 0 2 1 else s1)

/-- Admission of R426: the joining device steps forward when it is behind, slews when ahead by at most 8 µs; the master
steps the system forward when the joining device is ahead by more, floods the notice and raises 0x0B2F. -/
def State.admitTime (s : State) (joining : Bool) (peerNow : Nat) : State :=
  if joining then
    if s.now < peerNow then s.stepTime (peerNow - s.now)
    else if s.now - peerNow ≤ 8000 then { s with lnk := { s.lnk with slew := (s.now : Int) - peerNow } }
    else s
  else if s.lnk.role = .master ∧ s.now + 8000 < peerNow then
    let d := peerNow - s.now
    ((s.stepTime d).emit (.link everyDevice kTimeStep [d] [])).evt 0 0x0B2F d
  else s

/-- Clear the lost mark of device `d` when it joins anew (R430): the master also increments SYS_GEN. -/
def State.rejoin (s : State) (d : Nat) : State :=
  let a := Reg.LNK_UNREACH (d / 64)
  if s.lnk.role = .master ∧ bitAt (s.rdN a) (d % 64) then
    (s.wrF a (d % 64) 1 0).wr Reg.LNK_SYS_GEN ((s.rdN Reg.LNK_SYS_GEN + 1) % 2 ^ 32)
  else s

/-- TRAINING_COMPLETE (R414, R418, R426, R430, R458): a retraining port is up again as it was; a training port comes up,
admitted unless identifiers or roles conflict (0x0B22) or authentication fails (0x0B21). -/
def execTrainingComplete (n : Fin 8) (neighbour : Fin 128) (nrole : Role) (authOk joining : Bool) (peerNow : Nat)
    (s : State) : Res :=
  if s.portState n = 3 then .next (s.wrF (Reg.LNK_PORT_STATUS n) 0 2 2)
  else if s.portState n = 1 then
    let s1 := (s.wr (Reg.LNK_PORT_STATUS n) (2 + neighbour * 16)).setPort n { s.port n with rxSeq := 255, nakRun := 0, lastFlit := s.now }
    if neighbour.val = s.devId ∨ (nrole = .master ∧ s.lnk.role = .master) ∨ (nrole = .standby ∧ s.lnk.role = .standby)
    then .next (s1.linkErr (uPort n) 0x0B22 neighbour)
    else if !authOk then .next (s1.linkErr (uPort n) 0x0B21 neighbour)
    else
      let s2 := (s1.wrF (Reg.LNK_PORT_STATUS n) 2 1 1).rejoin neighbour
      let s3 := { s2 with lnk := { s2.lnk with
        seqTop := s2.lnk.seqTop.del (neighbour * 2) |>.del (neighbour * 2 + 1)
        seqSeen := s2.lnk.seqSeen.del (neighbour * 2) |>.del (neighbour * 2 + 1)
        alive := s2.lnk.alive.put neighbour s.now, devices := insSorted neighbour s2.lnk.devices } }
      let s4 := if nrole = .master then s3.wrF Reg.LNK_STATUS 16 7 neighbour else s3
      .next (s4.admitTime joining peerNow)
  else .next s

/-- TRAINING_FAILURE (R414): the port is DOWN and 0x0B20 is raised; only an up port that was retraining counts an entry
into DOWN. Its replay buffer goes through another up port, or is dropped (assumption 13). -/
def execTrainingFailure (n : Fin 8) (s : State) : Res :=
  if s.portState n = 1 ∨ s.portState n = 3 then
    let s1 := (s.wr (Reg.LNK_PORT_STATUS n) 0).setPort n { s.port n with lastFail := s.now, nakRun := 0 }
    let s2 := if s.portState n = 3 then s1.bump (Reg.LNK_PORT_DOWNS n) 1 else s1
    .next ((s2.emit (.flit n 3 0)).linkErr (uPort n) 0x0B20)
  else .next s

/-- TRAINING_RETRY (R414): a DOWN port with EN = 1 starts a new attempt. -/
def execTrainingRetry (n : Fin 8) (s : State) : Res :=
  .next (if s.portState n = 0 ∧ s.rdB (Reg.LNK_PORT_CTRL n) 0 ∧ s.lnk.strapRole ≠ .standalone
    then s.wrF (Reg.LNK_PORT_STATUS n) 0 2 1 else s)

/-- The replay window of R416: each SEQ of a key phase once, within the latest 4,096. -/
def State.seqFresh (s : State) (pk : Packet) : Bool :=
  let k := pk.src * 2 + pk.kphase.toNat
  match Tab.get? s.lnk.seqTop k with
  | none => true
  | some top => top < pk.seq || (top < pk.seq + 4096 && !(s.lnk.seqSeen.getD k []).contains pk.seq)

/-- Note an accepted SEQ. -/
def State.seqNote (s : State) (pk : Packet) : State :=
  let k := pk.src * 2 + pk.kphase.toNat
  let top := max (s.lnk.seqTop.getD k 0) pk.seq
  { s with lnk := { s.lnk with
      seqTop := s.lnk.seqTop.put k top
      seqSeen := s.lnk.seqSeen.put k ((pk.seq :: s.lnk.seqSeen.getD k []).filter fun x => top < x + 4096) } }

/-- What becomes of a packet that a flit ends (R415, R416, R419, R428): forwarded, dropped with 0x0B24 or 0x0B23, dropped
without report when its source is lost, or taken in. -/
def State.takePacket (s : State) (n : Nat) (pk : Packet) : State :=
  if pk.dst ≠ s.devId then
    if pk.hops = 7 ∨ !s.reachable pk.dst then s.linkErr (uPort n) 0x0B24 pk.dst
    else (s.txBytes pk.dst pk.src pk.pt pk.tag pk.payload.length).emit (.link pk.dst pk.type [pk.src, pk.pt, pk.bind, pk.tag, pk.addr, pk.seq, pk.hops + 1] pk.payload)
  else if bitAt (s.rdN (Reg.LNK_UNREACH (pk.src / 64))) (pk.src % 64) then s
  else if pk.type = 0 ∨ 8 < pk.type ∨ !pk.authOk ∨ !s.seqFresh pk then
    (s.bump Reg.LNK_AUTH_FAIL 1).linkErr (uPort n) 0x0B23 pk.src
  else
    let s1 := (s.seqNote pk).bump (Reg.LNK_PORT_RX_BYTES n) pk.payload.length
    { s1 with lnk := { s1.lnk with inbox := s1.lnk.inbox ++ [pk] } }

/-- FLIT_RECEIVE (R411 to R413): a flit that fails its CRC or its sequence is dropped and NAKed; otherwise its sequence and
credits are taken and its packets extracted; a control packet wakes with what it turns out to be (R520). -/
def execFlitReceive (n : Fin 8) (check : FlitCheck) (kind : FlitKind) (seq : Fin 256) (creditVc : Fin 4) (credits : Fin 4096)
    (packets : List Packet) (s : State) : Res :=
  if s.portState n ≠ 2 then .next s
  else
    let p := s.port n
    let s0 := if check = .corrected then s.bump (Reg.LNK_PORT_FEC_CE n) 1 else s
    if check = .crcFail ∨ seq.val ≠ (p.rxSeq + 1) % 256 then .next (s0.emit (.flit n 2 p.rxSeq))
    else
      let p1 := { p with rxSeq := seq, lastFlit := s.now,
                         credits := p.credits.modify creditVc (· + credits.val) }
      let s1 := s0.setPort n p1
      let s1 := if kind = .data ∧ packets.any (fun pk => pk.type != 7) then s1.wake 1 else s1
      .next (if kind = .data then packets.foldl (fun s pk => s.takePacket n pk) s1 else s1)

/-- NAK_RECEIVE (R413): the sender replays every flit after the named sequence; NAKs of one flit in a row are counted
(R414). -/
def execNakReceive (n : Fin 8) (lastGood : Fin 256) (s : State) : Res :=
  if s.portState n ≠ 2 then .next s
  else
    let p := s.port n
    let run := if p.nakRun ≠ 0 ∧ p.nakSeq = lastGood.val then p.nakRun + 1 else 1
    .next (((s.setPort n { p with nakSeq := lastGood, nakRun := run }).bump (Reg.LNK_PORT_RETRIES n) 1).emit
      (.flit n 4 lastGood))

/-- NAK_LIMIT (R414): a flit NAKed 16 times in a row starts retraining. -/
def execNakLimit (n : Fin 8) (s : State) : Res :=
  .next (if s.portState n = 2 ∧ 16 ≤ (s.port n).nakRun then
    (s.wrF (Reg.LNK_PORT_STATUS n) 0 2 3).setPort n { s.port n with nakRun := 0 } else s)

/-- FLIT_TIMEOUT (R414): no valid flit for 2 µs starts retraining. -/
def execFlitTimeout (n : Fin 8) (s : State) : Res :=
  .next (if s.portState n = 2 then s.wrF (Reg.LNK_PORT_STATUS n) 0 2 3 else s)

/-- Remove an arrived packet from the inbox. -/
def State.consume (s : State) (pk : Packet) : State := { s with lnk := { s.lnk with inbox := s.lnk.inbox.erase pk } }

/-- The binding of an arriving request and the DVA it reaches, with the checks of R423. -/
def State.bindFor (s : State) (pk : Packet) (write : Bool) : Option (Nat × Nat) :=
  match s.lnk.bindings.find? fun e => e.2.srcDev == pk.src && e.2.srcPt == pk.pt && e.2.index == pk.bind with
  | none => none
  | some (_, b) =>
    if pk.addr + pk.len * 64 ≤ b.size ∧ (if write then b.w else b.r) ∧ s.ptReady b.localPt
    then some (b.localPt, b.base + pk.addr) else none

/-- Write the payload granule by granule, poisoning each granule whose POISON bit is 1 (R416). -/
def State.writeGranules (s : State) (p dva poison : Nat) : Nat → List Byte → Nat → State
  | 0, _, _ => s
  | k + 1, bs, i =>
    match s.writeDva p (uPort 0) (dva + 64 * i) (bs.take 64) (bitAt poison i) with
    | .done s1 => State.writeGranules s1 p dva poison k (bs.drop 64) (i + 1)
    | _ => s

/-- A refused request: status 0x0503 goes back, and LNK_REFUSED counts it (R423, R424). -/
def State.refuseRequest (s : State) (pk : Packet) (kind : Nat) : State :=
  (s.bump Reg.LNK_REFUSED 1).emit (.link pk.src kind [pk.tag, 0x0503] [])

/-- LINK_WRITE (R423): performed in LOCAL_PT under R35 and acknowledged, or refused with status 0x0503. -/
def execLinkWrite (pk : Packet) (s : State) : Res :=
  let s := s.consume pk
  match s.bindFor pk true with
  | none => .next (s.refuseRequest pk 4)
  | some (p, dva) =>
    match s.xlateAll p .write false (pieces dva (pk.len * 64)) with
    | .error _ => .next (s.refuseRequest pk 4)
    | .ok ps =>
      if ps.any fun e => targetOf e.1 == .undecoded then .next (s.refuseRequest pk 4)
      else .next ((s.writeGranules p dva pk.poison pk.len pk.payload 0).emit (.link pk.src 4 [pk.tag, 0] []))

/-- POISON bits of a response: one per granule read. -/
def State.poisonBits (s : State) (p dva len : Nat) : Nat :=
  (List.range len).foldl (fun acc i =>
    match s.readDva p (dva + 64 * i) 64 with
    | .data _ true => acc + 2 ^ i
    | _ => acc) 0

/-- LINK_READ (R423): answered with the data of LOCAL_PT, or with status 0x0503. -/
def execLinkRead (pk : Packet) (s : State) : Res :=
  let s := s.consume pk
  match s.bindFor pk false with
  | none => .next (s.refuseRequest pk 3)
  | some (p, dva) =>
    match s.readDva p dva (pk.len * 64) with
    | .data bs _ => .next ((s.txBytes pk.src s.devId p pk.tag bs.length).emit (.link pk.src 3 [pk.tag, 0, s.poisonBits p dva pk.len] bs))
    | _ => .next (s.refuseRequest pk 3)

/-- The outstanding request with a tag and a kind. -/
def State.remoteOf (s : State) (kind tag : Nat) : Option Remote :=
  s.lnk.outstanding.find? fun r => r.kind == kind && r.tag == tag

/-- Forget an outstanding request. -/
def State.forget (s : State) (r : Remote) : State :=
  { s with lnk := { s.lnk with outstanding := s.lnk.outstanding.erase r } }

/-- A response with status 0x0503: raised to the requesting partition, and the job stops (R423, R281, R20). -/
def State.remoteRefused (s : State) (r : Remote) (status : Nat) : State :=
  ((s.forget r).err r.pt r.agent status r.addr).stopJob r.agent status r.addr

/-- READ_RESP (R415, R416): the data stands at the window address it was read from, each granule whose POISON bit is 1
poisoned; a response that no request waits for is discarded (R425). -/
def execReadResp (tag status : Fin 65536) (poison : Fin 16) (data : List Byte) (s : State) : Res :=
  match s.remoteOf 2 tag with
  | none => .next s
  | some r =>
    if status.val ≠ 0 then .next (s.remoteRefused r status)
    else .next ((List.range ((r.len + 63) / 64)).foldl
      (fun s i => s.storePA (r.addr + 64 * i) ((data.drop (64 * i)).take (min 64 (r.len - 64 * i))) (bitAt poison i)) (s.forget r))

/-- WRITE_ACK (R417): the remote write is globally visible at its source. -/
def execWriteAck (tag status : Fin 65536) (s : State) : Res :=
  match s.remoteOf 1 tag with
  | none => .next s
  | some r => .next (if status.val ≠ 0 then s.remoteRefused r status else s.forget r)

/-- LINK_SIGNAL (R424, R271, R280): a signal on a flag of the SIG binding's LOCAL_PT, acknowledged; without such a
binding, or for a flag that LOCAL_PT does not own, status 0x0503. -/
def execLinkSignal (pk : Packet) (s : State) : Res :=
  let s := s.consume pk
  let flag := fld (getLE pk.payload 0 8) 0 15
  let n := fld (getLE pk.payload 0 8) 32 32
  match s.lnk.bindings.find? fun e => e.2.srcDev == pk.src && e.2.srcPt == pk.pt && e.2.sig with
  | none => .next (s.refuseRequest pk 6)
  | some (_, b) =>
    if !s.owns b.localPt 0x33 flag || !s.ptReady b.localPt then .next (s.refuseRequest pk 6)
    else
      let (s1, code) := s.flagSignal b.localPt flag n ⟨0x38, pk.src⟩ 0 8
      let a := Reg.SYN_PT_REMOTE_IN b.localPt
      let s2 := if code = 0 then
          { s1.wr a ((s1.rdN a + 1) % 2 ^ 32) with gs := { s1.gs with remoteAt := s1.gs.remoteAt.put b.localPt s.now } }
        else s1
      .next (s2.emit (.link pk.src 6 [pk.tag, code] [])).crzDrain

/-- SIGNAL_ACK (R415, R281): the remote signal is done at its sender, or was refused there. -/
def execSignalAck (tag status : Fin 65536) (s : State) : Res :=
  match s.remoteOf 5 tag with
  | none => .next s
  | some r => .next (if status.val ≠ 0 then s.remoteRefused r status else s.forget r)

/-- An unreachable remote access fails by its agent (R425): a channel by a bus error, a signal with 0x0B04, any other
agent with 0x0B2E. -/
def State.failRemote (s : State) (r : Remote) : State :=
  let s1 := s.forget r
  if r.kind = 5 then (s1.err r.pt r.agent 0x0B04 r.addr).stopJob r.agent 0x0B04 r.addr
  else if r.agent.cls = 0x21 then s1.channelBusError r.agent.inst (r.kind == 1) r.addr
  else (s1.err r.pt r.agent 0x0B2E r.addr).stopJob r.agent 0x0B2E r.addr

/-- RESP_TIMEOUT (R425): the request with the tag is unreachable and fails. -/
def execRespTimeout (tag : Fin 65536) (s : State) : Res :=
  match s.lnk.outstanding.find? fun r => r.tag == tag.val with
  | none => .next s
  | some r => .next (s.failRemote r)

/-- Fail every outstanding request to device `d` (R428). -/
def State.failAllTo (s : State) (d : Nat) : State :=
  (s.lnk.outstanding.filter fun r => r.dst == d).foldl (fun s r => s.failRemote r) s

/-- Mark device `d` lost here (R428): LNK_UNREACH, its outstanding requests, and 0x0B26 to PT_0 and to every partition
with a binding that names it. -/
def State.markLost (s : State) (d : Nat) : State :=
  let a := Reg.LNK_UNREACH (d / 64)
  let s1 := (s.wr a (s.rdN a ||| 2 ^ (d % 64))).failAllTo d
  let pts := (s.lnk.bindings.filter fun e => e.2.srcDev == d).foldl (fun l e => insSorted e.2.localPt l) [0]
  s1.errAll pts { code := 0x0B26, subj := ⟨0, 0⟩, dev := d, info := d }

/-- The master declares device `d` lost (R428): SYS_GEN + 1 and a flooded loss notice. -/
def State.declareLost (s : State) (d : Nat) : State :=
  let g := (s.rdN Reg.LNK_SYS_GEN + 1) % 2 ^ 32
  ((s.wr Reg.LNK_SYS_GEN g).emit (.link everyDevice kLoss [d, g] [])).markLost d

/-- HEARTBEAT_BROADCAST (R428): the master sends MEPOCH and SYS_GEN to every device. -/
def execHeartbeatBroadcast (s : State) : Res :=
  .next (if s.lnk.role = .master
    then s.emit (.link everyDevice kHeartbeat [s.rdN Reg.LNK_MEPOCH, s.rdN Reg.LNK_SYS_GEN] []) else s)

/-- Accept `src` as master with `mepoch` (R431): a master becomes a member, raises 0x0B27 and stops its checkpoint
engine. -/
def State.acceptMaster (s : State) (src mepoch : Nat) : State :=
  let changed := s.masterId ≠ src
  let s1 := (s.wr Reg.LNK_MEPOCH mepoch).wrF Reg.LNK_STATUS 16 7 src
  if s.lnk.role = .master then
    ((s1.setRole .member).wrF Reg.LNK_CKPT_CFG 0 1 0).evt 0 0x0B27 src
  else if changed then s1.evt 0 0x0B27 src else s1

/-- HEARTBEAT (R428, R431): a device that hears its master notes the beat and answers; one with a lower MEPOCH is
ignored. -/
def execHeartbeat (src : Fin 128) (mepoch sysGen : BitVec 32) (s : State) : Res :=
  if mepoch.toNat < s.rdN Reg.LNK_MEPOCH ∨ (s.lnk.role = .master ∧ mepoch.toNat = s.rdN Reg.LNK_MEPOCH) then .next s
  else
    let s1 := if mepoch.toNat = s.rdN Reg.LNK_MEPOCH then s.wrF Reg.LNK_STATUS 16 7 src else s.acceptMaster src mepoch.toNat
    let s2 := { s1.wr Reg.LNK_SYS_GEN sysGen.toNat with lnk := { s1.lnk with beat := s.now } }
    .next (s2.emit (.link src kAnswer [] []))

/-- HEARTBEAT_ANSWER (R428): the master notes the device as alive. -/
def execHeartbeatAnswer (src : Fin 128) (s : State) : Res :=
  .next (if s.lnk.role = .master then { s with
    lnk := { s.lnk with alive := s.lnk.alive.put src s.now, devices := insSorted src s.lnk.devices } } else s)

/-- LOSS_TIMEOUT (R428): the master declares a device that has not answered lost. -/
def execLossTimeout (dev : Fin 128) (s : State) : Res :=
  .next (if s.lnk.role = .master ∧ !bitAt (s.rdN (Reg.LNK_UNREACH (dev / 64))) (dev % 64) then s.declareLost dev else s)

/-- LOSS_NOTICE (R428): the device marks the lost device and takes SYS_GEN. -/
def execLossNotice (dev : Fin 128) (sysGen : BitVec 32) (s : State) : Res :=
  let s := s.wake 1
  .next ((s.wr Reg.LNK_SYS_GEN sysGen.toNat).markLost dev)

/-- Discard the open checkpoint epoch (R435, R437). -/
def State.discardEpoch (s : State) : State :=
  { s.wrF Reg.LNK_CKPT_STATUS 16 1 0 with lnk := { s.lnk with ckpt := { s.lnk.ckpt with openEpoch := none, total := 0, got := [] } } }

/-- MASTER_TIMEOUT (R431, R437): the standby promotes itself: MEPOCH + 1, a master notice, the old master lost, 0x0B27;
an open epoch is discarded with 0x0B2B. -/
def execMasterTimeout (s : State) : Res :=
  if s.lnk.role ≠ .standby then .next s
  else
    let old := s.masterId
    let e := (s.rdN Reg.LNK_MEPOCH + 1) % 2 ^ 32
    let s1 := ((s.wr Reg.LNK_MEPOCH e).setRole .master).wrF Reg.LNK_STATUS 16 7 s.devId
    let s2 := (s1.wr Reg.LNK_STANDBY 0).emit (.link everyDevice kMaster [s.devId, e] [])
    let s3 := if s.lnk.ckpt.openEpoch.isSome then s2.discardEpoch.evt 0 0x0B2B else s2
    .next ((s3.declareLost old).evt 0 0x0B27 s.devId)

/-- MASTER_NOTICE (R431): ignored when its MEPOCH is not above this device's; otherwise accepted. -/
def execMasterNotice (src : Fin 128) (mepoch : BitVec 32) (s : State) : Res :=
  let s := s.wake 1
  .next (if mepoch.toNat < s.rdN Reg.LNK_MEPOCH ∨ (mepoch.toNat = s.rdN Reg.LNK_MEPOCH ∧ s.masterId = src)
    then s else s.acceptMaster src mepoch.toNat)

/-- A device named standby takes that role; one named before becomes a member (R418, R431). -/
def State.takeStandby (s : State) (v : Nat) : State :=
  if bitAt v 31 ∧ fld v 0 7 = s.devId ∧ s.lnk.role = .member then s.setRole .standby
  else if s.lnk.role = .standby ∧ (fld v 0 7 ≠ s.devId ∨ !bitAt v 31) then s.setRole .member
  else s

/-- STANDBY_WRITE (R431, R439): on the master the standby is named and the change flooded; elsewhere 0x0B2D. -/
def execStandbyWrite (value : BitVec 32) (s : State) : Res :=
  if s.lnk.role ≠ .master then .next (s.linkErr ⟨0, 0⟩ 0x0B2D)
  else
    let v := value.toNat % 128 + (value.getLsbD 31).toNat * 2 ^ 31
    .next ((s.wr Reg.LNK_STANDBY v).emit (.link everyDevice kStandby [v] []))

/-- STANDBY_NOTICE (R431): the device records the new standby. -/
def execStandbyNotice (value : BitVec 32) (s : State) : Res :=
  let s := s.wake 1
  let v := value.toNat % 128 + (value.getLsbD 31).toNat * 2 ^ 31
  .next ((s.wr Reg.LNK_STANDBY v).takeStandby v)

/-- The nominal DT_RATE (R524). -/
def nominalRate : Nat := 0x29AAAAAAAB

/-- TIME_EXCHANGE (R426): a device that is not the master records the error, corrects its rate by at most 100 ppm (the
amount is free) and tracks the lock: 16 exchanges within 20 ns lock it, four above lose it with 0x0B28. -/
def execTimeExchange (errNs : Int) (s : State) : Res :=
  if s.lnk.role = .master ∨ s.lnk.role = .standalone then .next s
  else
    let lim := nominalRate / 10000
    let (x, s0) := s.fresh
    let s1 := (s0.wr Reg.LNK_TIME_ERR (codeOf 32 errNs)).wr Reg.DT_RATE (nominalRate - lim + x % (2 * lim + 1))
    if errNs.natAbs ≤ 20 then
      let g := s.lnk.goodRun + 1
      let s2 := { s1 with lnk := { s1.lnk with goodRun := g, badRun := 0 } }
      .next (if 16 ≤ g then s2.wrF Reg.LNK_STATUS 9 1 1 else s2)
    else
      let b := s.lnk.badRun + 1
      let s2 := { s1 with lnk := { s1.lnk with goodRun := 0, badRun := b } }
      .next (if 4 ≤ b ∧ s.rdB Reg.LNK_STATUS 9 then (s2.wrF Reg.LNK_STATUS 9 1 0).evt 0 0x0B28 else s2)

/-- TIME_STEP_NOTICE (R426): a locked device steps its time forward, and every device raises 0x0B2F. -/
def execTimeStepNotice (ns : Nat) (s : State) : Res :=
  let s := s.wake 1
  .next ((if s.rdB Reg.LNK_STATUS 9 then s.stepTime ns else s).evt 0 0x0B2F ns)

/-- ERROR_REPORT (R432): the master latches the first report of a code and device, counts later ones, and raises at most
one interrupt per code and millisecond; a fatal report declares its device lost (R428). -/
def execErrorReport (src : Fin 128) (code : BitVec 16) (subjClass subjInst : Fin 256) (info time : BitVec 64) (s : State) : Res :=
  let s := s.wake 1
  if s.lnk.role ≠ .master then .next s
  else
    let k := code.toNat * 128 + src
    let s1 := match Tab.get? s.lnk.storms k with
      | none =>
        { s with lnk := { s.lnk with storms := s.lnk.storms.put k ⟨src, time.toNat, s.now⟩ } }.report 0
          { code := code.toNat, subj := ⟨subjClass, subjInst⟩, dev := src, info := info.toNat, remote := true }
      | some st =>
        let s2 := s.bump Reg.LNK_STORM 1
        if st.lastIrq + 1000000 ≤ s.now then
          { s2 with lnk := { s2.lnk with storms := s2.lnk.storms.put k { st with lastIrq := s.now } } }.irqReg 0 (Reg.QM_PT_ERR_VEC 0)
        else s2
    .next (if code = 0x0D0B#16 ∧ !bitAt (s.rdN (Reg.LNK_UNREACH (src / 64))) (src % 64) then s1.declareLost src else s1)

/-- FREEZE_PACKET (R433, R547): a duplicate is dropped; while frozen it is counted and not forwarded; otherwise it is
forwarded on every other up port and, with RECV, freezes the device. -/
def execFreezePacket (n : Fin 8) (originator : Fin 128) (seq : Fin 65536) (s : State) : Res :=
  let s := s.wake 1
  if s.dbg.seen.contains (originator.val, seq.val) then .next s
  else
    let s1 := { s with dbg := { s.dbg with seen := (originator.val, seq.val) :: s.dbg.seen } }
    if s.isFrozen then .next (s1.count Reg.DBG_FRZ_IGNORED 1)
    else
      let ups := (List.range 8).filter fun k => k != n.val && s.portState k == 2
      let s2 := ups.foldl (fun s k => s.emit (.flit k 5 (originator.val * 65536 + seq.val))) s1
      .next (if s.rdB Reg.DBG_FRZ_CFG 1 then s2.freezeBy 2 originator seq false else s2)

/-- BASE and SIZE follow R163. -/
def rangeOk (base size : Nat) : Bool :=
  base % 4096 == 0 && base < 2 ^ 48 && size % 4096 == 0 && 4096 ≤ size && base + size ≤ 2 ^ 48

/-- The staged binding (R422). -/
def State.stagedBinding (s : State) : Binding :=
  let a := s.rdN Reg.LNK_BIND_ATTR
  ⟨fld a 0 7, fld a 8 4, fld a 12 4, fld a 16 4, s.rdN Reg.LNK_BIND_BASE, s.rdN Reg.LNK_BIND_SIZE, bitAt a 20, bitAt a 21, bitAt a 22⟩

/-- Refuse a binding command: RESULT and 0x0B25 to PT_0 (R438). -/
def State.bindRefuse (s : State) : State := (s.wrF Reg.LNK_BIND_STATUS 16 16 0x0B25).linkErr ⟨0, 0⟩ 0x0B25

/-- Why a binding write is refused (R422, R454). -/
def State.bindBad (s : State) (sel : Nat) (b : Binding) : Bool :=
  !rangeOk b.base b.size || s.isConf b.localPt ||
  s.lnk.bindings.any (fun e => e.1 != sel && e.2.srcDev == b.srcDev && e.2.srcPt == b.srcPt &&
    (e.2.index == b.index || (e.2.sig && b.sig)))

/-- A binding command is running (LNK_BIND_STATUS.BUSY). -/
def State.bindBusy (s : State) : Bool := s.rdB Reg.LNK_BIND_STATUS 0

/-- BIND_WRITE (R422): the staged fields go to the record, in force when the command completes; refused with 0x0B25. -/
def execBindWrite (s : State) : Res :=
  let sel := s.rdF Reg.LNK_BIND_SEL 0 10
  let b := s.stagedBinding
  if s.bindBusy ∨ s.bindBad sel b then .next s.bindRefuse
  else .next { s.wr Reg.LNK_BIND_STATUS 1 with lnk := { s.lnk with bindRun := some 1 } }

/-- BIND_READ (R422, R439): the record's fields are loaded into the staged registers. -/
def execBindRead (s : State) : Res :=
  if s.bindBusy then .next s.bindRefuse
  else
    match Tab.get? s.lnk.bindings (s.rdF Reg.LNK_BIND_SEL 0 10) with
    | none => .next ((((s.wr Reg.LNK_BIND_BASE 0).wr Reg.LNK_BIND_SIZE 0).wr Reg.LNK_BIND_ATTR 0).wr Reg.LNK_BIND_STATUS 0)
    | some b => .next ((((s.wr Reg.LNK_BIND_BASE b.base).wr Reg.LNK_BIND_SIZE b.size).wr Reg.LNK_BIND_ATTR
        (b.srcDev + b.srcPt * 2 ^ 8 + b.index * 2 ^ 12 + b.localPt * 2 ^ 16 + b.r.toNat * 2 ^ 20 + b.w.toNat * 2 ^ 21 +
          b.sig.toNat * 2 ^ 22 + 2 ^ 31)).wr Reg.LNK_BIND_STATUS 0)

/-- BIND_CLEAR (R422): the record becomes invalid when the command completes; a record of a confidential partition is the
security block's (R454). -/
def execBindClear (s : State) : Res :=
  let conf : Bool := match Tab.get? s.lnk.bindings (s.rdF Reg.LNK_BIND_SEL 0 10) with
    | some b => s.isConf b.localPt
    | none => false
  if s.bindBusy ∨ conf then .next s.bindRefuse
  else .next { s.wr Reg.LNK_BIND_STATUS 1 with lnk := { s.lnk with bindRun := some 3 } }

/-- BIND_CMD_COMPLETE (R422): the running write or clear is applied and BUSY clears. -/
def execBindCmdComplete (s : State) : Res :=
  let sel := s.rdF Reg.LNK_BIND_SEL 0 10
  match s.lnk.bindRun with
  | none => .next s
  | some c =>
    let t := if c = 1 ∧ s.rdB Reg.LNK_BIND_ATTR 31 then s.lnk.bindings.put sel s.stagedBinding else s.lnk.bindings.del sel
    .next { s.wr Reg.LNK_BIND_STATUS 0 with lnk := { s.lnk with bindings := t, bindRun := none } }

/-- ALIAS_WRITE (R420): requests issued after the write use the new mapping. -/
def execAliasWrite (d : Fin 128) (value : BitVec 32) (s : State) : Res :=
  .next (s.wr (Reg.LNK_ALIAS d) (value.toNat % 128 + (value.getLsbD 31).toNat * 2 ^ 31))

/-! ### Checkpoint epochs (R434 to R437) -/

/-- The partition of the checkpoint engine (LNK_CKPT_CFG[7:4]). -/
def State.ckptPt (s : State) : Nat := s.rdF Reg.LNK_CKPT_CFG 4 4

/-- The region list: pairs of DVA and length; none when an access fails R35. -/
def State.ckptList (s : State) (p list n : Nat) : Option (List (Nat × Nat)) :=
  match s.readDva p list (16 * n) with
  | .data bs false => some ((List.range n).map fun i => (getLE bs (16 * i) 8, getLE bs (16 * i + 8) 8))
  | _ => none

/-- Every byte of [dva, dva + n) passes R35 for writing. -/
def State.writable (s : State) (p dva n : Nat) : Bool :=
  match s.xlateAll p .write false (pieces dva n) with
  | .ok _ => true
  | .error _ => false

/-- The configuration of R434 for the device's role. -/
def State.ckptOk (s : State) (p n : Nat) : Bool :=
  match s.lnk.role with
  | .master =>
    1 ≤ n && n ≤ 64 && s.rdN Reg.LNK_CKPT_LIST % 16 == 0 &&
    1000 ≤ s.rdN Reg.LNK_CKPT_INTERVAL && s.rdN Reg.LNK_CKPT_INTERVAL ≤ 10000000 &&
    s.owns p 0x33 (s.rdF Reg.LNK_CKPT_FLAGS_A 0 15) && s.owns p 0x33 (s.rdF Reg.LNK_CKPT_FLAGS_A 16 15) &&
    s.owns p 0x33 (s.rdF Reg.LNK_CKPT_FLAGS_B 0 15) &&
    (match s.ckptList p (s.rdN Reg.LNK_CKPT_LIST) n with
      | some l => l.all fun e => e.2 % 64 == 0
      | none => false)
  | .standby =>
    s.owns p 0x33 (s.rdF Reg.LNK_CKPT_FLAGS_B 16 15) &&
    s.writable p (s.rdN Reg.LNK_CKPT_SLOT_0) (s.rdN Reg.LNK_CKPT_SLOT_SIZE) &&
    s.writable p (s.rdN Reg.LNK_CKPT_SLOT_1) (s.rdN Reg.LNK_CKPT_SLOT_SIZE)
  | _ => false

/-- CKPT_ENABLE (R434, R435, R439): a write to LNK_CKPT_CFG. Setting EN checks the configuration and numbers epochs from
1; fields other than EN change only while EN is 0; a breach leaves the register as it was with 0x0B2D. -/
def execCkptEnable (value : BitVec 32) (s : State) : Res :=
  let v := value.toNat % 65536 / 16 * 16 + (value.getLsbD 0).toNat
  let cur := s.rdN Reg.LNK_CKPT_CFG
  if bitAt cur 0 then
    if v / 2 ≠ cur / 2 then .next (s.linkErr ⟨0, 0⟩ 0x0B2D) else .next (s.wr Reg.LNK_CKPT_CFG v)
  else if bitAt v 0 then
    if s.ckptOk (fld v 4 4) (fld v 8 8) then
      .next ({ ((s.wr Reg.LNK_CKPT_CFG v).wr Reg.LNK_CKPT_EPOCH 0) with lnk := { s.lnk with ckpt := {} } })
    else .next (s.linkErr ⟨0, 0⟩ 0x0B2D)
  else .next (s.wr Reg.LNK_CKPT_CFG v)

/-- A signal of 1 on a flag of the checkpoint partition. -/
def State.ckptSignal (s : State) (flag : Nat) : State :=
  s.flagPush { isSet := false, flag := flag, n := 1, pt := s.ckptPt, agent := ⟨0x38, 0⟩ }

/-- CKPT_REQUEST (R435, R436): at the request time the master signals REQ for the next epoch. -/
def execCkptRequest (s : State) : Res :=
  if s.lnk.role ≠ .master ∨ !s.rdB Reg.LNK_CKPT_CFG 0 ∨ s.lnk.ckpt.waiting ∨ !s.lnk.ckpt.acked then .next s
  else
    let s1 := s.wr Reg.LNK_CKPT_EPOCH (s.rdN Reg.LNK_CKPT_EPOCH + 1)
    .next ({ s1 with lnk := { s1.lnk with ckpt := { s1.lnk.ckpt with waiting := true, acked := false, reqTime := s.now } } }.ckptSignal
      (s.rdF Reg.LNK_CKPT_FLAGS_A 0 15))

/-- Record the outcome of the master's epoch and signal DONE (R435). -/
def State.ckptDone (s : State) (code : Nat) : State :=
  let s1 := s.wrF Reg.LNK_CKPT_STATUS 0 16 code
  { s1 with lnk := { s1.lnk with ckpt := { s1.lnk.ckpt with waiting := false, acked := true } } }.ckptSignal (s.rdF Reg.LNK_CKPT_FLAGS_B 0 15)

/-- The bytes of the regions in list order. -/
def State.ckptBytes (s : State) (p : Nat) : List (Nat × Nat) → Option (List Byte)
  | [] => some []
  | (d, n) :: l =>
    match s.readDva p d n with
    | .data bs _ => (State.ckptBytes s p l).map (bs ++ ·)
    | _ => none

/-- CKPT_SNAPSHOT (R435): once READY has reached the epoch, the snapshot time is taken and BEGIN, the regions and COMMIT
go to the standby; an unreachable standby or a refused access abandons the epoch with 0x0B2B. -/
def execCkptSnapshot (s : State) : Res :=
  let e := s.rdN Reg.LNK_CKPT_EPOCH
  let p := s.ckptPt
  if !s.lnk.ckpt.waiting ∨ (s.flag (s.rdF Reg.LNK_CKPT_FLAGS_A 16 15)).value < e then .next s
  else
    let sb := s.rdF Reg.LNK_STANDBY 0 7
    let s1 := { s with lnk := { s.lnk with ckpt := { s.lnk.ckpt with waiting := false, prevSnap := s.lnk.ckpt.snapTime, snapTime := s.now } } }
    let data := (s.ckptList p (s.rdN Reg.LNK_CKPT_LIST) (s.rdF Reg.LNK_CKPT_CFG 8 8)).bind (s.ckptBytes p)
    match data with
    | some bs =>
      if s.rdB Reg.LNK_STANDBY 31 ∧ s.reachable sb then
        .next ((((s1.txBytes sb s1.devId s1.ckptPt 0 bs.length).emit (.link sb kBegin [e, bs.length] [])).emit (.link sb kData [e] bs)).emit
          (.link sb kCommit [e, crc64 bs, s.now] []))
      else .next ((s1.evt 0 0x0B2B e).ckptDone 0x0B2B)
    | none => .next ((s1.evt 0 0x0B2B e).ckptDone 0x0B2B)

/-- The slot that does not hold the committed epoch. -/
def State.openSlot (s : State) : Nat := if s.rdB Reg.LNK_CKPT_STATUS 17 then 0 else 1

/-- The DVA of a slot. -/
def State.slotBase (s : State) (k : Nat) : Nat := if k = 0 then s.rdN Reg.LNK_CKPT_SLOT_0 else s.rdN Reg.LNK_CKPT_SLOT_1

/-- The standby abandons or discards the open epoch with a code, and tells the master. -/
def State.ckptDrop (s : State) (e code : Nat) : State :=
  ((s.discardEpoch.wrF Reg.LNK_CKPT_STATUS 0 16 code).evt 0 code e).emit (.link s.masterId kAck [e, code] [])

/-- CKPT_BEGIN (R435): the standby discards any open epoch and opens the slot that does not hold the committed one; a
stale epoch is ignored with 0x0B2C, and a length above SLOT_SIZE abandons it with 0x0B2B. -/
def execCkptBegin (epoch total : BitVec 64) (s : State) : Res :=
  let e := epoch.toNat
  if s.lnk.role ≠ .standby ∨ !s.rdB Reg.LNK_CKPT_CFG 0 then .next s
  else if e ≤ s.rdN Reg.LNK_CKPT_COMMITTED then .next (s.evt 0 0x0B2C e)
  else if s.rdN Reg.LNK_CKPT_SLOT_SIZE < total.toNat then .next (s.ckptDrop e 0x0B2B)
  else
    let s1 := (s.discardEpoch.wrF Reg.LNK_CKPT_STATUS 16 1 1).wr Reg.LNK_CKPT_EPOCH e
    .next { s1 with lnk := { s1.lnk with ckpt := { s1.lnk.ckpt with openEpoch := some e, total := total.toNat, got := [] } } }

/-- CKPT_DATA (R435): the bytes are written consecutively into the open slot; a refused write abandons the epoch. -/
def execCkptData (epoch : BitVec 64) (data : List Byte) (s : State) : Res :=
  let c := s.lnk.ckpt
  if s.lnk.role ≠ .standby ∨ c.openEpoch ≠ some epoch.toNat then .next s
  else
    match s.writeDva s.ckptPt (uPort 0) (s.slotBase s.openSlot + c.got.length) data with
    | .done s1 => .next { s1 with lnk := { s1.lnk with ckpt := { s1.lnk.ckpt with got := c.got ++ data } } }
    | _ => .next (s.ckptDrop epoch.toNat 0x0B2B)

/-- CKPT_COMMIT (R435, R437): with every byte arrived and the CRC equal, the epoch commits, COMMIT is signalled and the
master told; otherwise it is discarded with 0x0B29. -/
def execCkptCommit (epoch crc snap : BitVec 64) (s : State) : Res :=
  let c := s.lnk.ckpt
  let e := epoch.toNat
  if s.lnk.role ≠ .standby ∨ c.openEpoch ≠ some e then .next s
  else if c.got.length = c.total ∧ crc64 c.got = crc.toNat then
    let s1 := ((s.wr Reg.LNK_CKPT_COMMITTED e).wr Reg.LNK_CKPT_SNAP_TIME snap.toNat).wr Reg.LNK_CKPT_STATUS (s.openSlot * 2 ^ 17)
    let s2 := { s1 with lnk := { s1.lnk with ckpt := { s1.lnk.ckpt with openEpoch := none, total := 0, got := [] } } }
    .next ((s2.ckptSignal (s.rdF Reg.LNK_CKPT_FLAGS_B 16 15)).emit (.link s.masterId kAck [e, 0] []))
  else .next (s.ckptDrop e 0x0B29)

/-- CKPT_ACK (R435, R436): the master records the outcome, signals DONE and computes the next request time; an epoch that
commits later than the previous snapshot plus INTERVAL is late (0x0B2A). -/
def execCkptAck (epoch : BitVec 64) (code : BitVec 16) (s : State) : Res :=
  let e := s.rdN Reg.LNK_CKPT_EPOCH
  let c := s.lnk.ckpt
  if s.lnk.role ≠ .master ∨ epoch.toNat ≠ e ∨ c.acked ∨ c.waiting then .next s
  else if code.toNat ≠ 0 then .next ((s.evt 0 code.toNat e).ckptDone code.toNat)
  else
    let iv := s.rdN Reg.LNK_CKPT_INTERVAL * 1000
    let d := s.now - c.reqTime
    let s1 := { s with lnk := { s.lnk with ckpt := { c with lastD := d, nextReq := max s.now (c.snapTime + iv - d) } } }
    let s2 := if 1 < e ∧ c.prevSnap + iv < s.now then (s1.bump Reg.LNK_CKPT_LATE 1).evt 0 0x0B2A e else s1
    .next (s2.ckptDone 0)

end Sys2Proof.Machine
end

