-- ==== Sys2Proof/Machine/DescCmd.lean ====
section
/-! DEFINITION. Sys2Proof/Machine/DescCmd.lean: the meanings of the descriptor and region commands (07_tensor_descriptors,
R155 to R165, R191). -/

namespace Sys2Proof.Machine

/-- The descriptor unit: block of the memory and system cache (R190). -/
def uDesc : UnitId := ⟨0, 0⟩

/-- BUSY of DSC_PT_p_STATUS. -/
def State.dscBusy (s : State) (p : Nat) : Bool := s.rdB (Reg.DSC_PT_STATUS p) 0

/-- Mark entry (p, h) valid with a kind, or invalid. -/
def State.setEntry (s : State) (p h : Nat) (kind : Option Nat) : State :=
  { s with dsc := { s.dsc with valid := match kind with
    | some k => s.dsc.valid.put (p * 65536 + h) k
    | none => s.dsc.valid.del (p * 65536 + h) } }

/-- Forget the older copies of an entry: the invalidation of R160. -/
def State.dropStale (s : State) (p h : Nat) : State :=
  { s with dsc := { s.dsc with stale := s.dsc.stale.del (p * 65536 + h) } }

/-- Remember the entry's present bytes as a copy that caches may keep (R161). -/
def State.keepStale (s : State) (p h : Nat) (old : List Byte) : State :=
  { s with dsc := { s.dsc with stale := s.dsc.stale.upd (p * 65536 + h) [] (old :: ·) } }

/-- The command starts: BUSY, and the code it completes with (R158). -/
def State.dscStart (s : State) (p h op code : Nat) (item : Option Nat) : State :=
  { s.wr (Reg.DSC_PT_STATUS p) (s.rdN (Reg.DSC_PT_STATUS p) / 2 * 2 + 1) with
    dsc := { s.dsc with running := s.dsc.running.put p ⟨h, op, code, item⟩ } }

/-- The image at DSC_PT_p_SRC, or the code that refuses the command (R158). -/
def State.dscImage (s : State) (p : Nat) : Except Nat (List Byte) :=
  let src := s.rdN (Reg.DSC_PT_SRC p)
  if src % 128 ≠ 0 then .error 0x0504
  else
    match s.readDva p src 128 with
    | .data bs bad => if bad then .error 0x050E else .ok bs
    | _ => .error 0x0502

/-- Write an entry whole (R158): through the translation and a DESC region of the partition. -/
def State.entryWrite (s : State) (p h : Nat) (img : List Byte) : Option State :=
  match s.xlateDesc p (s.entryAddr p h) 128 with
  | .ok pa => some (s.writePA p uDesc pa img false)
  | .error _ => none

/-- CREATE, REPLACE and REPLACE_INV with their image (R158): the new state and the code of the outcome. -/
def State.dscStore (s : State) (p h op : Nat) (img : List Byte) : State × Nat :=
  if s.rdN (Reg.DSC_PT_COUNT p) ≤ h then (s, 0x050B)
  else
    let kind := getLE img 0 2
    let cur := s.entryKind p h
    if (if op = 1 then cur.isSome else cur != some kind) then (s, 0x050A)
    else
      let code := s.validateEntry p img
      if code ≠ 0 then (s, code)
      else
        let old := match s.readDva p (s.entryAddr p h) 128 with
          | .data bs _ => bs
          | _ => []
        match s.entryWrite p h img with
        | none => (s, 0x0502)
        | some s1 =>
          let s2 := s1.setEntry p h (some kind)
          (if op = 2 then s2.keepStale p h old else s2.dropStale p h, 0)

/-- Run one operation of R158 with an image already at hand. -/
def State.dscRun (s : State) (p h op : Nat) (img : Except Nat (List Byte)) : State × Nat :=
  match op with
  | 4 =>
    if s.rdN (Reg.DSC_PT_COUNT p) ≤ h then (s, 0x050B)
    else if (s.entryKind p h).isNone then (s, 0x050A)
    else ((s.setEntry p h none).dropStale p h, 0)
  | 5 => if s.rdN (Reg.DSC_PT_COUNT p) ≤ h then (s, 0x050B) else (s.dropStale p h, 0)
  | 6 => ({ s with dsc := { s.dsc with stale := s.dsc.stale.filter fun e => e.1 / 65536 != p } }, 0)
  | _ =>
    match img with
    | .error c => (s, c)
    | .ok b => s.dscStore p h op b

/-- A write to DSC_PT_p_CMD (R158): ignored with 0x050C while BUSY is 1. -/
def State.dscCommand (s : State) (p h op : Nat) : State :=
  if s.dscBusy p then s.err p uDesc 0x050C
  else
    let (s1, code) := s.dscRun p h op (s.dscImage p)
    s1.dscStart p h op code none

/-- DSC_CREATE (R158): the entry must be invalid; the image is read, validated and written. -/
def execDscCreate (p : Fin 16) (handle : BitVec 16) (s : State) : Res := .next (s.dscCommand p handle.toNat 1)

/-- DSC_REPLACE (R158, R161): a valid entry of the same kind is overwritten; cached copies stay. -/
def execDscReplace (p : Fin 16) (handle : BitVec 16) (s : State) : Res := .next (s.dscCommand p handle.toNat 2)

/-- DSC_REPLACE_INV (R158): as REPLACE, with the cached copies invalidated. -/
def execDscReplaceInv (p : Fin 16) (handle : BitVec 16) (s : State) : Res := .next (s.dscCommand p handle.toNat 3)

/-- DSC_DESTROY (R158): a valid entry becomes invalid, and its copies are invalidated. -/
def execDscDestroy (p : Fin 16) (handle : BitVec 16) (s : State) : Res := .next (s.dscCommand p handle.toNat 4)

/-- DSC_INVAL (R158, R160): the cached copies of one entry are invalidated. -/
def execDscInval (p : Fin 16) (handle : BitVec 16) (s : State) : Res := .next (s.dscCommand p handle.toNat 5)

/-- DSC_INVAL_ALL (R158, R160): the cached copies of every entry of the partition are invalidated. -/
def execDscInvalAll (p : Fin 16) (s : State) : Res := .next (s.dscCommand p 0 6)

/-- DSC_CMD_COMPLETE (R158, R190): RESULT is written, BUSY clears, DSC_PT_p_FLAG is signalled as a release, the counters
count, and a refusal is reported to the partition. -/
def execDscCmdComplete (p : Fin 16) (s : State) : Res :=
  match Tab.get? s.dsc.running p with
  | none => .next s
  | some c =>
    let s0 := { s with dsc := { s.dsc with running := s.dsc.running.del p } }
    let s1 := if c.code = 0 then s0.bump (Reg.DSC_PT_CREATED p) 1
      else (s0.bump (Reg.DSC_PT_REFUSED p) 1).err p uDesc c.code c.handle
    let s2 := if c.code = 0 ∧ 3 ≤ c.op then s1.bump (Reg.DSC_PT_INVALS p) 1 else s1
    let s3 := s2.wr (Reg.DSC_PT_STATUS p) (c.code * 2 ^ 16)
    let s4 := s3.flagReg p (Reg.DSC_PT_FLAG p) 1 uDesc
    .next (match c.item with
      | some k => s4.itemDone k c.code
      | none => s4)

/-- The oldest rewrite of REC_ADDR is made (R162): the entry is written whole and then invalidated. An entry that is not valid is left
alone. -/
def State.rewriteOne (s : State) (w : Rewrite) : State :=
  match s.entryImage w.pt w.handle 0xD35C with
  | none => s
  | some img =>
    match s.entryWrite w.pt w.handle (putBytes img 0x70 (leBytes 8 w.recAddr)) with
    | none => s.err w.pt uDesc 0x0502 w.handle
    | some s1 => (s1.dropStale w.pt w.handle).bump (Reg.DSC_PT_INVALS w.pt) 1

/-! ### Region records (R163 to R165, R191) -/

/-- The staged record. -/
def State.stagedRegion (s : State) : Region :=
  let a := s.rdN Reg.RGN_ATTR
  ⟨s.rdN Reg.RGN_BASE, s.rdN Reg.RGN_SIZE, fld a 0 4, bitAt a 4, bitAt a 5, bitAt a 6⟩

/-- BASE and SIZE follow R163. -/
def Region.rangeOk (r : Region) : Bool :=
  r.base % 4096 == 0 && r.base < 2 ^ 48 && r.size % 4096 == 0 && 4096 ≤ r.size && r.base + r.size ≤ 2 ^ 48 && (!r.desc || r.r)

/-- Two regions of one partition overlap. -/
def Region.meets (a b : Region) : Bool := a.pt == b.pt && decide (a.base < b.base + b.size) && decide (b.base < a.base + a.size)

/-- Refuse a region command (R164, R191). -/
def State.rgnRefuse (s : State) : State :=
  (if s.rdB Reg.RGN_STATUS 0 then s else s.wr Reg.RGN_STATUS (0x050D * 2 ^ 16)).err 0 uDesc 0x050D

/-- RGN_WRITE (R164): the staged fields go to an invalid record, in force when the command completes; refused with 0x050D
otherwise. Records of a confidential partition are the security block's (R454). -/
def execRgnWrite (s : State) : Res :=
  let i := s.rdF Reg.RGN_SEL 0 16
  let r := s.stagedRegion
  if s.rdB Reg.RGN_STATUS 0 ∨ (Tab.get? s.dsc.regions i).isSome ∨ !s.rdB Reg.RGN_ATTR 31 ∨ !r.rangeOk ∨
      s.dsc.regions.any (fun e => r.meets e.2) ∨ s.isConf r.pt then .next s.rgnRefuse
  else .next { s.wr Reg.RGN_STATUS 1 with dsc := { s.dsc with rgnRun := some (1, i) } }

/-- RGN_READ (R191): the record is loaded into the staged fields, 0 for an invalid one. -/
def execRgnRead (s : State) : Res :=
  if s.rdB Reg.RGN_STATUS 0 then .next s.rgnRefuse
  else
    match Tab.get? s.dsc.regions (s.rdF Reg.RGN_SEL 0 16) with
    | none => .next ((((s.wr Reg.RGN_BASE 0).wr Reg.RGN_SIZE 0).wr Reg.RGN_ATTR 0).wr Reg.RGN_STATUS 0)
    | some r => .next ((((s.wr Reg.RGN_BASE r.base).wr Reg.RGN_SIZE r.size).wr Reg.RGN_ATTR
        (r.pt + r.r.toNat * 16 + r.w.toNat * 32 + r.desc.toNat * 64 + 2 ^ 31)).wr Reg.RGN_STATUS 0)

/-- RGN_CLEAR (R164): the record becomes invalid and holds 0 when the command completes. -/
def execRgnClear (s : State) : Res :=
  let i := s.rdF Reg.RGN_SEL 0 16
  let conf : Bool := match Tab.get? s.dsc.regions i with
    | some r => s.isConf r.pt
    | none => false
  if s.rdB Reg.RGN_STATUS 0 ∨ conf then .next s.rgnRefuse
  else .next { s.wr Reg.RGN_STATUS 1 with dsc := { s.dsc with rgnRun := some (3, i) } }

/-- RGN_CMD_COMPLETE (R165, R191, R24): the running WRITE or CLEAR is applied, RESULT is 0x0000 and BUSY clears; a change
of ownership moves the capability table. -/
def execRgnCmdComplete (s : State) : Res :=
  match s.dsc.rgnRun with
  | none => .next s
  | some (c, i) =>
    let t := if c = 1 then s.dsc.regions.put i s.stagedRegion else s.dsc.regions.del i
    let s1 := { s with dsc := { s.dsc with regions := t, rgnRun := none } }
    .next ((if t = s.dsc.regions then s1 else s1.capChange).wr Reg.RGN_STATUS 0)

end Sys2Proof.Machine
end

