-- ==== Sys2Proof/Machine/Queue.lean ====
section
/-! DEFINITION. Sys2Proof/Machine/Queue.lean: the meanings of the commands that assign units and memory, of doorbells, rings
and submission items, of interrupts and of quality of service (15_host_partitions_queues, R376 to R410). The reset of a
partition is in PartReset.lean. -/

namespace Sys2Proof.Machine

/-- An error of the queue manager. -/
def State.qmErr (s : State) (p code : Nat) (info : Nat := 0) : State := s.err p uQm code info

/-- Frond `n` holds a copy of an operation. -/
def State.frondOccupied (s : State) (n : Nat) : Bool := (s.tc n).slot0.isSome || (s.tc n).slot1.isSome || (s.tc n).slot2.isSome

/-- Frond `n` is zeroing (R233). -/
def State.frondZeroing (s : State) (n : Nat) : Bool := (s.tc n).zeroing

/-- Graph slot `g` holds a graph. -/
def State.graphLoaded (s : State) (g : Nat) : Bool := (s.cg g).isSome

/-- Partition `p` has a graph at the scheduler. -/
def State.gsLoaded (s : State) (p : Nat) : Bool := s.gs.graphs.any fun g => g.pt == p

/-- Clear the event ring of a unit (R541). -/
def State.clearRing (s : State) (u : UnitId) : State := { s with dbg := { s.dbg with rings := s.dbg.rings.del (ringKey u) } }

/-! ### Assigning units and memory (R381, R382) -/

/-- Identifiers of a class that ASSIGN takes, and whether it is pooled (R381). -/
def assignClass (c : Nat) : Option (Nat × Bool) :=
  match c with
  | 0x01 => some (32, false)
  | 0x19 => some (64, false)
  | 0x1A => some (1024, false)
  | 0x21 => some (64, false)
  | 0x31 => some (8192, false)
  | 0x32 => some (2048, false)
  | 0x33 => some (32768, false)
  | 0x03 => some (16384, true)
  | 0x18 => some (4096, true)
  | _ => none

/-- Records of pooled class `c` that `p` owns. -/
def State.poolOf (s : State) (c p : Nat) : Nat := s.pool.getD (c * 16 + p) 0

/-- Records of pooled class `c` that no partition owns. -/
def State.poolFree (s : State) (c total : Nat) : Nat := total - (List.range 16).foldl (fun a p => a + s.poolOf c p) 0

/-- Records of pooled class `c` that hold something for `p`. -/
def State.poolUsed (s : State) (c p : Nat) : Nat := if c = 0x03 then s.recordsUsed p else s.nodesUsed p

/-- Unit `i` of class `c` is busy (R381). -/
def State.unitBusy (s : State) (c i : Nat) : Bool :=
  match c with
  | 0x01 => s.frondOccupied i
  | 0x19 => s.graphLoaded i
  | 0x21 => s.chBusy i
  | 0x31 => s.rdB (Reg.RING_CFG i) 0
  | 0x33 => !(s.flag i).waits.isEmpty
  | _ => false

/-- A unit can be assigned: not owned, and a Frond is live and not zeroing (R381, R21). -/
def State.unitFree (s : State) (c i : Nat) : Bool :=
  (s.ownerOf c i).isNone && (c != 0x01 || (!s.rdB Reg.REL_FENCED_MAP i && !s.frondZeroing i))

/-- Offsets of the registers of unit `i` of class `c` that its release returns to reset values: not its counters (R21,
R538). -/
def unitRegs (c i a : Nat) : Bool :=
  match c with
  | 0x19 => decide (Reg.CRZ_GR_CMD i ≤ a ∧ a < Reg.CRZ_GR_CMD i + 0x30)
  | 0x1A => a == Reg.CRZ_SC i
  | 0x21 =>
    (decide (Reg.MOV_CH_CMD i ≤ a ∧ a < Reg.MOV_CH_CMD i + 0x138) &&
      !([Reg.MOV_CH_BYTES i, Reg.MOV_CH_RUNS i, Reg.MOV_CH_PREEMPTED i, Reg.MOV_CH_TAG_STALL i].contains a)) ||
    a == Reg.QM_CH_IVEC i
  | 0x31 => decide (Reg.RING_CFG i ≤ a ∧ a < Reg.RING_CFG i + 0x38)
  | _ => false

/-- Zero what a released unit holds (R21); its event ring is cleared (R541). A Frond starts zeroing (R233). -/
def State.zeroUnit (s : State) (c i : Nat) : State :=
  let s1 := (s.clearRegs (unitRegs c i)).clearRing ⟨c, i⟩
  match c with
  | 0x01 => s1.startZeroing i
  | 0x21 => s1.resetChannel i
  | 0x32 => { s1 with qm := { s1.qm with vecs := s1.qm.vecs.del i } }
  | 0x33 => { s1 with flags := { s1.flags with tab := s1.flags.tab.del i } }
  | _ => s1

/-- Set the owner of `n` units from `first` on. -/
def State.setOwners (s : State) (c first n : Nat) (p : Option Nat) : State :=
  (List.range n).foldl (fun s k =>
    { s with own := match p with
      | some q => s.own.put (ownKey c (first + k)) q
      | none => s.own.del (ownKey c (first + k)) }) s

/-- Why ASSIGN or RELEASE is refused: 0 when it is not (R381). -/
def State.assignRefusal (s : State) (assign : Bool) (c first n p : Nat) : Nat :=
  if !s.ptReady p then 0x0A0B
  else
    match assignClass c with
    | none => 0x0A08
    | some (total, pooled) =>
      if n = 0 then 0x0A08
      else if pooled then
        if first ≠ 0 then 0x0A08
        else if assign then (if s.poolFree c total < n then 0x0A08 else 0)
        else (if s.poolOf c p < n + s.poolUsed c p then 0x0A08 else 0)
      else if total < first + n then 0x0A08
      else if assign then (if (List.range n).all (fun k => s.unitFree c (first + k)) then 0 else 0x0A08)
      else (if (List.range n).all (fun k => s.owns p c (first + k) && !s.unitBusy c (first + k)) then 0 else 0x0A08)

/-- The ownership that an accepted ASSIGN or RELEASE changes. -/
def State.assignApply (s : State) (assign : Bool) (c first n p : Nat) : State :=
  match assignClass c with
  | some (_, true) =>
    let s1 := { s with pool := s.pool.put (c * 16 + p) (if assign then s.poolOf c p + n else s.poolOf c p - n) }
    if c = 0x03 then s1.wr Reg.GS_RECORDS_FREE (s1.poolFree 0x03 16384) else s1
  | _ =>
    if assign then ((List.range n).foldl (fun s k => s.clearRing ⟨c, first + k⟩) s).setOwners c first n (some p)
    else ((List.range n).foldl (fun s k => s.zeroUnit c (first + k)) s).setOwners c first n none

/-- ASSIGN and RELEASE (R381, R24): refused with 0x0A08 or 0x0A0B on the whole range, or carried out with one change of the
capability table; STATUS.BUSY holds until ASSIGN_COMPLETE. -/
def State.assignCmd (s : State) (assign : Bool) (p : Nat) : State :=
  if s.rdB Reg.QM_ASSIGN_STATUS 0 then s.qmErr 0 0x0A08
  else
    let c := s.rdN Reg.QM_ASSIGN_CLASS
    let first := s.rdN Reg.QM_ASSIGN_FIRST
    let n := s.rdN Reg.QM_ASSIGN_COUNT
    let code := s.assignRefusal assign c first n p
    if code ≠ 0 then (s.wr Reg.QM_ASSIGN_STATUS (code * 2 ^ 16)).qmErr 0 code
    else
      let s0 := (s.assignApply assign c first n p).capChange
      let s1 := if c = 0x01 then s0.rejudgeAll p else s0
      { s1.wr Reg.QM_ASSIGN_STATUS 1 with qm := { s1.qm with assignRun := some (if assign then 1 else 2, c, first, n, p) } }

/-- ASSIGN (R381). -/
def execAssign (p : Fin 16) (s : State) : Res := .next (s.assignCmd true p)

/-- UNIT_RELEASE (R381, R21). -/
def execUnitRelease (p : Fin 16) (s : State) : Res := .next (s.assignCmd false p)

/-- ASSIGN_COMPLETE (R381): RESULT is written and BUSY clears; a release of Fronds waits for their zeroing (R233). -/
def execAssignComplete (s : State) : Res :=
  match s.qm.assignRun with
  | none => .next s
  | some (op, c, first, n, _) =>
    if op = 2 ∧ c = 0x01 ∧ (List.range n).any (fun k => s.frondZeroing (first + k)) then .next s
    else .next { s.wr Reg.QM_ASSIGN_STATUS 0 with qm := { s.qm with assignRun := none } }

/-- Chunks of in-package memory (R382). -/
def chunkCount : Nat := 61440

/-- Fill chunk `c` with zero plaintext and valid tags (R382). -/
def State.zeroChunk (s : State) (c : Nat) : State :=
  { s with
    mem := s.mem.filter fun e => e.1 / 0x200000 != c
    memx := { s.memx with
      poison := s.memx.poison.filter fun g => g / 32768 != c
      badTag := s.memx.badTag.filter fun g => g / 32768 != c
      healed := if s.memx.lost.contains (segmentOf (c * 0x200000))
        then (List.range 32768).foldl (fun l k => insSorted (c * 32768 + k) l) s.memx.healed else s.memx.healed } }

/-- QM_PT_p_CHUNKS follows the owner table. -/
def State.countChunks (s : State) (p : Nat) : State :=
  s.wr (Reg.QM_PT_CHUNKS p) (s.chunks.filter fun e => e.2 == p).length

/-- Refuse a grant command. -/
def State.grantRefuse (s : State) (code : Nat) : State := (s.wr Reg.QM_GRANT_STATUS (code * 2 ^ 16)).qmErr 0 code

/-- GRANT (R382): accepted for a range of chunks that no partition owns; each becomes owned as its fill ends. -/
def execGrant (p : Fin 16) (s : State) : Res :=
  let first := s.rdN Reg.QM_GRANT_FIRST
  let n := s.rdN Reg.QM_GRANT_COUNT
  if s.rdB Reg.QM_GRANT_STATUS 0 then .next (s.qmErr 0 0x0A08)
  else if !s.ptReady p then .next (s.grantRefuse 0x0A0B)
  else if n = 0 ∨ chunkCount < first + n ∨ s.isConf p ∨ s.chunks.any (fun e => first ≤ e.1 && e.1 < first + n) then
    .next (s.grantRefuse 0x0A08)
  else .next { s.wr Reg.QM_GRANT_STATUS 1 with qm := { s.qm with grantRun := some (1, first, first + n, p) } }

/-- CHUNK_FILL_COMPLETE (R382): the next chunk of the running grant is zero and owned; after the last, BUSY clears. -/
def execChunkFillComplete (s : State) : Res :=
  match s.qm.grantRun with
  | some (1, next, last, p) =>
    let s1 := s.zeroChunk next
    let s2 := { s1 with chunks := s1.chunks.put next p }.countChunks p
    if next + 1 < last then .next { s2 with qm := { s2.qm with grantRun := some (1, next + 1, last, p) } }
    else .next { s2.wr Reg.QM_GRANT_STATUS 0 with qm := { s2.qm with grantRun := none } }
  | _ => .next s

/-- Free chunks [first, first + n) of `p`. -/
def State.freeChunks (s : State) (first n p : Nat) : State :=
  { s with chunks := s.chunks.filter fun e => !(decide (first ≤ e.1) && decide (e.1 < first + n)) }.countChunks p

/-- CHUNK_RELEASE (R382, R161): the chunks are free; refused with 0x0A08 unless `p` owns every one. -/
def execChunkRelease (p : Fin 16) (s : State) : Res :=
  let first := s.rdN Reg.QM_GRANT_FIRST
  let n := s.rdN Reg.QM_GRANT_COUNT
  if s.rdB Reg.QM_GRANT_STATUS 0 then .next (s.qmErr 0 0x0A08)
  else if !s.ptReady p then .next (s.grantRefuse 0x0A0B)
  else if n = 0 ∨ chunkCount < first + n ∨ s.isConf p ∨
      (s.chunks.filter fun e => first ≤ e.1 && e.1 < first + n && e.2 == p.val).length ≠ n then .next (s.grantRefuse 0x0A08)
  else
    let s1 := s.freeChunks first n p
    .next { s1.wr Reg.QM_GRANT_STATUS 1 with qm := { s1.qm with grantRun := some (2, first, first + n, p) } }

/-- CHUNK_RELEASE_COMPLETE (R382): BUSY clears. -/
def execChunkReleaseComplete (s : State) : Res :=
  match s.qm.grantRun with
  | some (2, _, _, _) => .next { s.wr Reg.QM_GRANT_STATUS 0 with qm := { s.qm with grantRun := none } }
  | _ => .next s

/-- Partition `p` has work present that fixes its fault mode (R384). -/
def State.workPresent (s : State) (p : Nat) : Bool :=
  (List.range 32).any (fun n => s.owns p 0x01 n && s.frondOccupied n) ||
  (List.range 64).any (fun n => s.owns p 0x21 n && s.rdF (Reg.MOV_CH_STATE n) 0 3 != 0) ||
  (List.range 64).any (fun g => s.owns p 0x19 g && s.graphLoaded g) ||
  s.gsLoaded p

/-- MODE_WRITE (R384): the PF sets the fault mode; refused with 0x0A0B with work present or for a confidential partition. -/
def execModeWrite (fn p : Fin 16) (value : BitVec 32) (s : State) : Res :=
  if fn.val ≠ 0 then .next s
  else if s.isConf p ∨ s.workPresent p ∨ !s.ptReady p then .next (s.qmErr 0 0x0A0B)
  else .next (s.wr (Reg.QM_PT_MODE p) (value.getLsbD 0).toNat)

/-! ### Doorbells (R387, R388) -/

/-- The checks that both doorbells share (R387, R388): a code to raise, or none. -/
def State.doorbellCheck (s : State) (p : Nat) (malformed : Bool) (r kind epoch : Nat) : Option Nat :=
  if malformed then some 0x0A03
  else if !s.owns p 0x31 r then some 0x0503
  else if !s.rdB (Reg.RING_CFG r) 0 || s.rdF (Reg.RING_CFG r) 1 1 != kind then some 0x0A03
  else if s.rdF (Reg.RING_EPOCH r) 0 16 != epoch then some 0x0A07
  else none

/-- DOORBELL_TAIL (R387, R388, R402): a new TAIL_RAW of a submission ring. -/
def execDoorbellTail (p : Fin 16) (malformed : Bool) (ring : Fin 8192) (epoch : BitVec 16) (value : BitVec 32) (s : State) : Res :=
  if !s.ptReady p then .next s
  else
    match s.doorbellCheck p malformed ring 0 epoch.toNat with
    | some 0x0503 => .next (s.notOwned p uQm ring)
    | some c => .next (s.qmErr p c ring)
    | none =>
      if (value.toNat + 2 ^ 32 - s.rdN (Reg.RING_TAIL ring)) % 2 ^ 32 ≤ s.ringSize ring - s.ringUsed ring
      then .next (s.wr (Reg.RING_TAIL_RAW ring) value.toNat)
      else .next (s.qmErr p 0x0A04 ring)

/-- DOORBELL_HEAD (R387, R388, R402): a new HEAD of a completion ring. -/
def execDoorbellHead (p : Fin 16) (malformed : Bool) (ring : Fin 8192) (epoch : BitVec 16) (value : BitVec 32) (s : State) : Res :=
  if !s.ptReady p then .next s
  else
    match s.doorbellCheck p malformed ring 1 epoch.toNat with
    | some 0x0503 => .next (s.notOwned p uQm ring)
    | some c => .next (s.qmErr p c ring)
    | none =>
      if (value.toNat + 2 ^ 32 - s.rdN (Reg.RING_HEAD ring)) % 2 ^ 32 ≤ s.ringUsed ring
      then .next (s.wr (Reg.RING_HEAD ring) value.toNat)
      else .next (s.qmErr p 0x0A04 ring)

/-! ### Submission items (R389, R394 to R397) -/

/-- The entries that an opcode's item has, given its first entry (R394); none for a reserved opcode. -/
def itemEntries (e : List Byte) : Option Nat :=
  match getLE e 0 1 with
  | 0x06 => let op := getLE e 0x0A 1
            if 1 ≤ op ∧ op ≤ 3 then some 3 else if 4 ≤ op ∧ op ≤ 6 then some 1 else none
  | 0x01 => some 1 | 0x02 => some 1 | 0x03 => some 1 | 0x04 => some 1 | 0x05 => some 1 | 0x07 => some 1
  | _ => none

/-- The operand bytes that an opcode names: (offset, bytes, bits used) (R394). -/
def itemOperands (opc : Nat) : List (Nat × Nat × Nat) :=
  match opc with
  | 0x01 => [(0x08, 4, 32), (0x10, 8, 64)]
  | 0x02 => [(0x08, 2, 15), (0x0C, 4, 32)]
  | 0x03 => [(0x08, 2, 15), (0x0C, 4, 32)]
  | 0x04 => [(0x08, 1, 6)]
  | 0x05 => [(0x08, 1, 6), (0x10, 8, 64), (0x18, 32, 256)]
  | 0x06 => [(0x08, 2, 16), (0x0A, 1, 8)]
  | _ => []

/-- Operand bytes that the table does not name are 0 (R394). -/
def itemZerosOk (b : List Byte) : Bool :=
  let ops := itemOperands (getLE b 0 1)
  (List.range 52).all (fun k => ops.any (fun o => o.1 ≤ 8 + k && 8 + k < o.1 + o.2.1) || b.getD (8 + k) 0#8 == 0#8) &&
  ops.all fun o => decide (getLE b o.1 o.2.1 < 2 ^ o.2.2)

/-- The CRC of an item: over 0x00 to 0x3B, then its other entries (R394). -/
def itemCrcOk (b : List Byte) : Bool := crc32c (b.take 0x3C ++ b.drop 64) == getLE b 0x3C 4

/-- An item meets R394. -/
def itemValid (b : List Byte) : Bool :=
  match itemEntries b with
  | none => false
  | some n => getLE b 1 1 == n && b.length == 64 * n && getLE b 2 2 < 4 && itemZerosOk b && itemCrcOk b &&
    (getLE b 0 1 != 0x02 || getLE b 0x0C 4 != 0)

/-- Cut whole items off the entries that arrived (R389): an entry whose length is wrong is an item of one entry. -/
def cutItems (ring : Nat) : Nat → Nat → List Byte → List Item
  | 0, _, _ => []
  | fuel + 1, index, bs =>
    if bs.length < 64 then []
    else
      let n := getLE bs 1 1
      let len := match itemEntries bs with
        | some k => if n = k then k else 1
        | none => if getLE bs 0 1 = 0 ∨ 7 < getLE bs 0 1 then (if 1 ≤ n ∧ n ≤ 8 then n else 1) else 1
      if bs.length < 64 * len then []
      else ⟨ring, index, bs.take (64 * len)⟩ :: cutItems ring fuel ((index + len) % 2 ^ 32) (bs.drop (64 * len))

/-- The bytes of one entry: of host memory as they arrived, of device memory as it stands. -/
def State.entryBytes (s : State) (p r k : Nat) (host : List Byte) (hostBad : Bool) : ReadRes × List Byte :=
  match s.readDva p (s.ringEntry r k) 64 .read true with
  | .data bs bad =>
    match s.xlate p (s.ringEntry r k) 64 .read true with
    | .ok pa => if targetOf pa == .host then (.data (host.take 64) hostBad, host.drop 64) else (.data bs bad, host)
    | .error _ => (.data bs bad, host)
  | x => (x, host)

/-- Read `n` entries from count `k` on. -/
def State.readEntries (s : State) (p r : Nat) (hostBad : Bool) : Nat → Nat → List Byte → ReadRes
  | 0, _, _ => .data [] false
  | n + 1, k, host =>
    match s.entryBytes p r k host hostBad with
    | (.data bs bad, host') =>
      match State.readEntries s p r hostBad n ((k + 1) % 2 ^ 32) host' with
      | .data rest bad' => .data (bs ++ rest) (bad || bad')
      | x => x
    | (x, _) => x

/-- What the first entry of an item says of it, for its completion entry. -/
def Item.handed (i : Item) : Handed := ⟨i.ring, i.index, getLE i.bytes 0 1, getLE i.bytes 4 4, getLE i.bytes 2 2⟩

/-- Refuse the invalid items at the front of ring `r` (R397): not executed, 0x0A01, and HEAD passes them. -/
def State.refuseInvalid (s : State) (p r : Nat) : Nat → State
  | 0 => s
  | fuel + 1 =>
    match s.qm.items.find? fun i => i.ring == r with
    | none => s
    | some i =>
      if itemValid i.bytes then s
      else
        let s1 := { s with qm := { s.qm with items := s.qm.items.erase i } }
        State.refuseInvalid (((s1.ringHead p r (i.bytes.length / 64)).qmErr p 0x0A01 i.index).itemFinish i.handed 0x0A01) p r fuel

/-- A ring access is refused: EN clears (R385). -/
def State.ringFault (s : State) (r : Nat) : State := (s.wrF (Reg.RING_CFG r) 0 1 0).wrF (Reg.RING_STATUS r) 16 16 0x0A05

/-- RING_ENTRIES_ARRIVE (R389, R385, R397): TAIL advances past each whole item below TAIL_RAW; a refused or poisoned read
disables the ring with 0x0A05. -/
def execRingEntriesArrive (ring : Fin 8192) (hostData : List Byte) (hostBad : Bool) (s : State) : Res :=
  match s.ownerOf 0x31 ring with
  | none => .next s
  | some p =>
    let tail := s.rdN (Reg.RING_TAIL ring)
    let n := (s.rdN (Reg.RING_TAIL_RAW ring) + 2 ^ 32 - tail) % 2 ^ 32
    if !s.ptReady p ∨ !s.rdB (Reg.RING_CFG ring) 0 ∨ s.rdB (Reg.RING_CFG ring) 1 ∨ n = 0 then .next s
    else
      match s.readEntries p ring hostBad n tail hostData with
      | .refused f a => .next (((s.ringFault ring).oob p uQm none f a).qmErr p 0x0A05 ring)
      | .bus a => .next (((s.ringFault ring).qmErr p 0x0907 a).qmErr p 0x0A05 ring)
      | .data bs bad =>
        if bad then .next ((s.ringFault ring).qmErr p 0x0A05 ring)
        else
          let its := cutItems ring n tail bs
          let k := its.foldl (fun a i => a + i.bytes.length / 64) 0
          let s1 := (s.wr (Reg.RING_TAIL ring) ((tail + k) % 2 ^ 32)).bump (Reg.RING_ITEMS ring) its.length
          .next ({ s1 with qm := { s1.qm with items := s1.qm.items ++ its } }.refuseInvalid p ring (its.length + 1))

/-- Take the next item of ring `r` when it has opcode `opc` and its FENCE allows it (R395): the state after HEAD has
advanced, the owner, the item. -/
def State.takeItem (s : State) (r opc : Nat) : Option (State × Nat × Item) :=
  match s.ownerOf 0x31 r, s.qm.items.find? (fun i => i.ring == r) with
  | some p, some i =>
    if s.ptReady p && getLE i.bytes 0 1 == opc && itemValid i.bytes && (!bitAt (getLE i.bytes 2 2) 1 || s.qm.handed.all fun h => h.ring != r) then
      some ({ s with qm := { s.qm with items := s.qm.items.erase i } }.ringHead p r (i.bytes.length / 64), p, i)
    else none
  | _, _ => none

/-- An item that is done at once with a code; then any invalid item behind it is refused. -/
def State.itemEnd (s : State) (p : Nat) (i : Item) (code : Nat) : State :=
  (s.itemFinish i.handed code).refuseInvalid p i.ring (s.qm.items.length + 1)

/-- ITEM_LAUNCH (R394, R293). -/
def execItemLaunch (ring : Fin 8192) (s : State) : Res :=
  match s.takeItem ring 0x01 with
  | none => .next s
  | some (s1, p, i) =>
    let (s2, code) := s1.launch p (getLE i.bytes 8 4) (getLE i.bytes 0x10 8)
    .next (s2.itemEnd p i code).crzDrain

/-- ITEM_SIGNAL (R394, R270): applied or refused; a refused wrap is no refusal of the item (R271). -/
def execItemSignal (ring : Fin 8192) (s : State) : Res :=
  match s.takeItem ring 0x02 with
  | none => .next s
  | some (s1, p, i) =>
    let (s2, code) := s1.flagSignal p (getLE i.bytes 8 2) (getLE i.bytes 0x0C 4) ⟨0x30, p⟩
    .next (s2.itemEnd p i code).crzDrain

/-- ITEM_SET (R394, R270). -/
def execItemSet (ring : Fin 8192) (s : State) : Res :=
  match s.takeItem ring 0x03 with
  | none => .next s
  | some (s1, p, i) =>
    let (s2, code) := s1.flagSet p (getLE i.bytes 8 2) (getLE i.bytes 0x0C 4) ⟨0x30, p⟩
    .next (s2.itemEnd p i code).crzDrain

/-- ITEM_TRIGGER (R394): delivered as TRIGGER of CRZ_GR_g_CMD, when the ring's owner owns the graph slot (R20). -/
def execItemTrigger (ring : Fin 8192) (s : State) : Res :=
  match s.takeItem ring 0x04 with
  | none => .next s
  | some (s1, p, i) =>
    let g := getLE i.bytes 8 1
    if s1.owns p 0x19 g then
      let s2 := if s1.rdF (Reg.CRZ_GR_CFG g) 4 4 = 0 then s1.crzFire g else s1
      .next (s2.itemEnd p i 0).crzDrain
    else .next ((s1.notOwned p uQm g).itemEnd p i 0x0503)

/-- ITEM_MSTART (R394, R319): the channel's PROG and ARG registers take the operands and START is written. -/
def execItemMstart (ring : Fin 8192) (s : State) : Res :=
  match s.takeItem ring 0x05 with
  | none => .next s
  | some (s1, p, i) =>
    let ch := getLE i.bytes 8 1
    if s1.owns p 0x21 ch then
      let (s2, code) := s1.movStart ch (some (getLE i.bytes 0x10 8, (List.range 4).map fun k => getLE i.bytes (0x18 + 8 * k) 8)) none
      .next (s2.itemEnd p i code).crzDrain
    else .next ((s1.notOwned p uQm ch).itemEnd p i 0x0503)

/-- ITEM_DSC (R394, R158): the image in entries 1 and 2 goes to the descriptor unit as if SRC had named it; the item is
done when the command completes. -/
def execItemDsc (ring : Fin 8192) (s : State) : Res :=
  match s.takeItem ring 0x06 with
  | none => .next s
  | some (s1, p, i) =>
    let h := getLE i.bytes 8 2
    let op := getLE i.bytes 0x0A 1
    if s1.dscBusy p then .next ((s1.err p uDesc 0x050C).itemEnd p i 0x050C)
    else
      let (s2, code) := s1.dscRun p h op (.ok (i.bytes.drop 64))
      let s3 := { s2 with qm := { s2.qm with handed := s2.qm.handed ++ [i.handed] } }
      .next ((s3.dscStart p h op code (some (i.ring * 2 ^ 32 + i.index))).refuseInvalid p i.ring (s3.qm.items.length + 1))

/-- ITEM_NOP (R394): done at once. -/
def execItemNop (ring : Fin 8192) (s : State) : Res :=
  match s.takeItem ring 0x07 with
  | none => .next s
  | some (s1, p, i) => .next (s1.itemEnd p i 0)

/-! ### Completion rings and flushes (R390 to R392, R400) -/

/-- Write the entries of an item from count `k` on. -/
def State.writeEntries (s : State) (p r : Nat) : Nat → Nat → List Byte → WriteRes
  | 0, _, _ => .done s
  | n + 1, k, bs =>
    match s.writeDva p uQm (s.ringEntry r k) (bs.take 64) with
    | .done s1 => State.writeEntries s1 p r n ((k + 1) % 2 ^ 32) (bs.drop 64)
    | x => x

/-- COMPLETION_POST (R391, R392, R385): the oldest item for the ring is written, then TAIL advances past it in one step,
then the write-back and the interrupt; without room the producer stalls and nothing is dropped. -/
def execCompletionPost (ring : Fin 8192) (s : State) : Res :=
  match s.qm.posts.find? fun x => x.ring == ring.val with
  | none => .next s
  | some x =>
    let p := x.pt
    let n := x.bytes.length / 64
    let tail := s.rdN (Reg.RING_TAIL ring)
    if !s.rdB (Reg.RING_CFG ring) 0 ∨ !s.rdB (Reg.RING_CFG ring) 1 ∨ s.ringSize ring < s.ringUsed ring + n then
      .next (s.wrF (Reg.RING_STATUS ring) 5 1 1)
    else
      match s.writeEntries p ring n tail x.bytes with
      | .refused f a => .next (((s.ringFault ring).oob p uQm none f a).qmErr p 0x0A05 ring)
      | .bus a => .next (((s.ringFault ring).qmErr p 0x0907 a).qmErr p 0x0A05 ring)
      | .done s1 =>
        let t := (tail + n) % 2 ^ 32
        let s2 := (({ s1 with qm := { s1.qm with posts := s1.qm.posts.erase x } }.wrF (Reg.RING_STATUS ring) 5 1 0).wr
          (Reg.RING_TAIL ring) t).bump (Reg.RING_ITEMS ring) 1
        .next ((((s2.ringWriteBack p ring t).ringIrq p ring).postAct x.act).gsSettle p).crzDrain

/-- HOLDOFF_EXPIRY (R400): one interrupt if the condition arose during the hold-off, which then runs again. -/
def execHoldoffExpiry (ring : Fin 8192) (s : State) : Res :=
  match Tab.get? s.qm.holdoff ring, s.ownerOf 0x31 ring with
  | some h, some p =>
    let s1 := { s with qm := { s.qm with holdoff := s.qm.holdoff.del ring } }
    .next (if h.due then s1.ringIrq p ring else s1)
  | _, _ => .next s

/-- EPOCH + 1 (R390). -/
def State.epochUp (s : State) (r : Nat) : State := s.wr (Reg.RING_EPOCH r) ((s.rdF (Reg.RING_EPOCH r) 0 16 + 1) % 65536)

/-- QM_RING_FLUSH (R390). -/
def execQmRingFlush (ring : Fin 8192) (s : State) : Res :=
  .next ((if s.rdB (Reg.RING_CFG ring) 1 then s else s.wr (Reg.RING_TAIL_RAW ring) (s.rdN (Reg.RING_TAIL ring))).epochUp ring)

/-- What FLUSH_ALL does to a ring (R390): committed items not yet handed on are discarded without completion entries. -/
def State.ringFlushAll (s : State) (ring : Nat) : State :=
  let tail := s.rdN (Reg.RING_TAIL ring)
  let s1 := s.wr (Reg.RING_HEAD ring) tail
  (if s.rdB (Reg.RING_CFG ring) 1 then s1
    else { s1.wr (Reg.RING_TAIL_RAW ring) tail with qm := { s1.qm with items := s1.qm.items.filter fun i => i.ring != ring } }).epochUp ring

/-- QM_RING_FLUSH_ALL (R390). -/
def execQmRingFlushAll (ring : Fin 8192) (s : State) : Res := .next (s.ringFlushAll ring)

/-- QM_RING_RESET (R390): only with EN = 0; otherwise 0x0A02. -/
def execQmRingReset (ring : Fin 8192) (s : State) : Res :=
  if s.rdB (Reg.RING_CFG ring) 0 then .next (s.qmErr ((s.ownerOf 0x31 ring).getD 0) 0x0A02 ring)
  else
    let s1 := ((s.wr (Reg.RING_HEAD ring) 0).wr (Reg.RING_TAIL ring) 0).wr (Reg.RING_TAIL_RAW ring) 0
    .next ({ s1 with qm := { s1.qm with items := s1.qm.items.filter fun i => i.ring != ring.val } }.epochUp ring)

/-- The checks when EN is set (R385): LOG2, BASE, the region of the owner and the write-back. -/
def State.ringEnOk (s : State) (r v : Nat) : Bool :=
  let log2 := fld v 2 5
  let base := s.rdN (Reg.RING_BASE r)
  match s.ownerOf 0x31 r with
  | none => false
  | some p =>
    2 ≤ log2 && log2 ≤ 16 && base % 64 == 0 &&
    s.oneRegion p base (2 ^ log2 * 64) (!bitAt v 1) (bitAt v 1) &&
    (!bitAt v 7 || (s.rdN (Reg.RING_WB r) % 8 == 0 && s.oneRegion p (s.rdN (Reg.RING_WB r)) 8 false true))

/-- RING_CFG_WRITE (R385, R410): fields other than EN, IRQ_EN and HOLDOFF change only while EN is 0; setting EN checks the
ring; a breach leaves the register with 0x0A02. -/
def execRingCfgWrite (ring : Fin 8192) (value : BitVec 32) (s : State) : Res :=
  let v := value.toNat % 2 ^ 25
  let cur := s.rdN (Reg.RING_CFG ring)
  let p := (s.ownerOf 0x31 ring).getD 0
  if bitAt cur 0 then
    if fld v 1 7 = fld cur 1 7 ∧ fld v 9 8 = fld cur 9 8 then .next (s.wr (Reg.RING_CFG ring) v)
    else .next ((s.wrF (Reg.RING_STATUS ring) 16 16 0x0A02).qmErr p 0x0A02 ring)
  else if bitAt v 0 ∧ !s.ringEnOk ring v then .next ((s.wrF (Reg.RING_STATUS ring) 16 16 0x0A02).qmErr p 0x0A02 ring)
  else .next (s.wr (Reg.RING_CFG ring) v)

/-! ### Interrupts and quality of service -/

/-- VMAP_WRITE (R398): the PF remaps a table entry; a pool vector that `p` does not own, or an index of 128 or more for a VF,
is refused with 0x0A09. -/
def execVmapWrite (fn p : Fin 16) (i : Fin 256) (value : BitVec 32) (s : State) : Res :=
  if fn.val ≠ 0 then .next s
  else if (p.val ≠ 0 ∧ 128 ≤ i.val) ∨ (value.getLsbD 31 ∧ !s.owns p 0x32 (value.toNat % 2048)) then .next (s.qmErr 0 0x0A09 i)
  else .next (s.wr (Reg.QM_PT_VMAP p i) (value.toNat % 2048 + (value.getLsbD 31).toNat * 2 ^ 31))

/-- The sum of a MIN field over the other partitions. -/
def State.minSum (s : State) (a : Nat → Nat) (w p : Nat) : Nat :=
  (List.range 16).foldl (fun t q => if q = p then t else t + s.rdF (a q) 0 w) 0

/-- QOS_MEM_WRITE (R405): refused with 0x0A0A when the MINs would exceed 8,125 or MAX is below MIN. -/
def execQosMemWrite (fn p : Fin 16) (value : BitVec 32) (s : State) : Res :=
  let lo := fld value.toNat 0 16
  let hi := fld value.toNat 16 16
  if fn.val ≠ 0 then .next s
  else if 8125 < s.minSum Reg.QOS_PT_MEM 16 p + lo ∨ (hi ≠ 0 ∧ hi < lo) then .next (s.qmErr 0 0x0A0A p)
  else .next (s.wr (Reg.QOS_PT_MEM p) value.toNat)

/-- QOS_LINK_WRITE (R406): refused with 0x0A0A when the MINs would exceed 350 or MAX is below MIN. -/
def execQosLinkWrite (fn p : Fin 16) (value : BitVec 32) (s : State) : Res :=
  let v := value.toNat &&& 0x0FFF0FFF
  let lo := fld v 0 12
  let hi := fld v 16 12
  if fn.val ≠ 0 then .next s
  else if 350 < s.minSum Reg.QOS_PT_LINK 12 p + lo ∨ (hi ≠ 0 ∧ hi < lo) then .next (s.qmErr 0 0x0A0A p)
  else .next (s.wr (Reg.QOS_PT_LINK p) v)

/-- QOS_INTERVAL (R405): every partition's admission counts restart; one that reached MAX is counted. -/
def execQosInterval (s : State) : Res :=
  let s1 := (List.range 16).foldl (fun s p =>
    let hi := s.rdF (Reg.QOS_PT_MEM p) 16 16
    if hi ≠ 0 ∧ hi ≤ s.qm.admitted.getD p 0 then s.bump (Reg.QOS_PT_CAPPED p) 1 else s) s
  .next { s1 with qm := { s1.qm with admitted := [] } }

/-- PT_DRAIN_READ (R393): the read waits for the earlier writes of `p` to host memory. -/
def execPtDrainRead (p : Fin 16) (s : State) : Res :=
  .next { s with qm := { s.qm with drainReads := s.qm.drainReads ++ [p.val] } }

/-- PT_DRAIN_RETURN (R393): the earlier writes are visible and the read returns 0. -/
def execPtDrainReturn (p : Fin 16) (s : State) : Res :=
  if s.qm.drainReads.contains p.val then
    .next { s with qm := { s.qm with drainReads := s.qm.drainReads.erase p.val }, out := s.out ++ [.readData 0] }
  else .next s

/-- UNEXPECTED_COMPLETION (R402): the completion of an abandoned host read is discarded. -/
def execUnexpectedCompletion (_p : Fin 16) (s : State) : Res := .next s

/-- Deliver what function `fn` has pending on table entry `i`. -/
def State.deliverPending (s : State) (fn i : Nat) : State :=
  let m := s.rdN (Reg.QM_PT_VMAP fn i)
  if bitAt m 31 then
    let v := s.qm.vecs.getD (fld m 0 11) {}
    if v.pend && !v.mask then
      { s with qm := { s.qm with vecs := s.qm.vecs.put (fld m 0 11) { v with pend := false } },
               out := s.out ++ [.msix fn i v.addr v.data] }
    else s
  else s

/-- MSIX_ENABLE_SET (R402, R398): the drain of the function's interrupts ends, and pending unmasked vectors send. -/
def execMsixEnableSet (fn : Fin 16) (s : State) : Res :=
  let s1 := { s with qm := { s.qm with
    msixEn := insSorted fn s.qm.msixEn, draining := s.qm.draining.filter (· != fn.val),
    drainFirst := s.qm.drainFirst.filter (· != fn.val) } }
  .next (if s.qm.fnMask.contains fn.val then s1 else (List.range 256).foldl (fun s i => s.deliverPending fn i) s1)

end Sys2Proof.Machine
end

