-- ==== Sys2Proof/Machine/Crypto.lean ====
section
/-! DEFINITION. Sys2Proof/Machine/Crypto.lean: the key derivation of R441 and the standards that 17_security names: ECDSA and ECDH
over P-384 (R441, R444, R451), and AES-256-GCM (R452) (assumption 20). -/

namespace Sys2Proof.Machine

/-! ### The key derivation (R441) -/

/-- Block `i` of KDF(K, L, C) for an output of `bits` bits. -/
def kdfBlock (key : List Byte) (label : String) (ctx : List Byte) (bits i : Nat) : List Byte :=
  hmac256 key (beBytes 4 i ++ ascii label ++ [0#8] ++ ctx ++ beBytes 4 bits)

/-- KDF(K, L, C) of 256 bits. -/
def kdf (key : List Byte) (label : String) (ctx : List Byte) : List Byte := kdfBlock key label ctx 256 1

/-! ### P-384 -/

/-- The field prime. -/
def ecP : Nat := 2 ^ 384 - 2 ^ 128 - 2 ^ 96 + 2 ^ 32 - 1
/-- The order of the base point. -/
def ecN : Nat := 0xffffffffffffffffffffffffffffffffffffffffffffffffc7634d81f4372ddf581a0db248b0a77aecec196accc52973
/-- The coefficient b. -/
def ecB : Nat := 0xb3312fa7e23ee7e4988e056be3f82d19181d9c6efe8141120314088f5013875ac656398d8a2ed19d2a85c8edd3ec2aef

/-- A point in Jacobian coordinates; z = 0 is the point at infinity. -/
structure EcPt where
  x : Nat
  y : Nat
  z : Nat

/-- The base point. -/
def ecG : EcPt where
  x := 0xaa87ca22be8b05378eb1c71ef320ad746e1d3b628ba79b9859f741e082542a385502f25dbf55296c3a545e3872760ab7
  y := 0x3617de4a96262c6f5d9e98bf9292dc29f8f41dbd289a147ce9da3113b5f0b8c00a60b1ce1d7e819d7a431d7c90ea0e5f
  z := 1

/-- a - b modulo m, of numbers below m. -/
def subMod (m a b : Nat) : Nat := (a + m - b) % m

/-- a to the power of the low `k` bits of e, modulo m. -/
def powMod (m : Nat) : Nat → Nat → Nat → Nat
  | 0, _, _ => 1
  | k + 1, a, e => (if e % 2 = 1 then a else 1) * powMod m k (a * a % m) (e / 2) % m

/-- The inverse modulo a prime. -/
def invMod (m a : Nat) : Nat := powMod m 384 (a % m) (m - 2)

/-- 2P. -/
def EcPt.dbl (p : EcPt) : EcPt :=
  let yy := p.y * p.y % ecP
  let s := 4 * p.x * yy % ecP
  let zz := p.z * p.z % ecP
  let m := 3 * (subMod ecP p.x zz) * (p.x + zz) % ecP
  let x := subMod ecP (m * m % ecP) (2 * s % ecP)
  { x := x, y := subMod ecP (m * subMod ecP s x % ecP) (8 * yy * yy % ecP), z := 2 * p.y * p.z % ecP }

/-- P + Q. -/
def EcPt.add (p q : EcPt) : EcPt :=
  if p.z = 0 then q
  else if q.z = 0 then p
  else
    let z1 := p.z * p.z % ecP
    let z2 := q.z * q.z % ecP
    let u1 := p.x * z2 % ecP
    let u2 := q.x * z1 % ecP
    let s1 := p.y * z2 * q.z % ecP
    let s2 := q.y * z1 * p.z % ecP
    if u1 = u2 then (if s1 = s2 then p.dbl else { x := 1, y := 1, z := 0 })
    else
      let h := subMod ecP u2 u1
      let r := subMod ecP s2 s1
      let h2 := h * h % ecP
      let h3 := h * h2 % ecP
      let v := u1 * h2 % ecP
      let x := subMod ecP (r * r % ecP) ((h3 + 2 * v) % ecP)
      { x := x, y := subMod ecP (r * subMod ecP v x % ecP) (s1 * h3 % ecP), z := h * p.z * q.z % ecP }

/-- The low `n` bits of k times P. -/
def EcPt.mul : Nat → Nat → EcPt → EcPt
  | 0, _, _ => { x := 1, y := 1, z := 0 }
  | n + 1, k, p => if k % 2 = 1 then (EcPt.mul n (k / 2) p.dbl).add p else EcPt.mul n (k / 2) p.dbl

/-- The affine x and y of a point that is not at infinity. -/
def EcPt.affine (p : EcPt) : Nat × Nat :=
  let i := invMod ecP p.z
  (p.x * (i * i % ecP) % ecP, p.y * (i * i % ecP * i % ecP) % ecP)

/-- x ‖ y of the public key of d (R444). -/
def ecPub (d : Nat) : List Byte :=
  let a := ((EcPt.mul 384 d ecG).affine)
  beBytes 48 a.1 ++ beBytes 48 a.2

/-- The point that 96 bytes name, when it is on the curve. -/
def ecPoint (b : List Byte) : Option EcPt :=
  let x := ofBE (b.take 48)
  let y := ofBE ((b.drop 48).take 48)
  if b.length = 96 ∧ x < ecP ∧ y < ecP ∧ y * y % ecP = (x * x * x + (ecP - 3) * x + ecB) % ecP then some { x := x, y := y, z := 1 }
  else none

/-- The private key that 512 derived bits form (R441). -/
def ecPriv (bits : List Byte) : Nat := ofBE bits % (ecN - 1) + 1

/-- A P-384 private key by KDF(K, L, C) (R441). -/
def kdfPriv (key : List Byte) (label : String) (ctx : List Byte) : Nat :=
  ecPriv (kdfBlock key label ctx 512 1 ++ kdfBlock key label ctx 512 2)

/-- Z: the x-coordinate of the ECDH of d with a public key (R451). -/
def ecdh (d : Nat) (pub : List Byte) : Option (List Byte) :=
  (ecPoint pub).bind fun p =>
    let q := EcPt.mul 384 d p
    if q.z = 0 then none else some (beBytes 48 q.affine.1)

/-- ECDSA with SHA-384: r ‖ s by d over a message, with the random number k. -/
def ecdsaSign (d k : Nat) (msg : List Byte) : List Byte :=
  let r := (EcPt.mul 384 k ecG).affine.1 % ecN
  beBytes 48 r ++ beBytes 48 (invMod ecN k * (ofBE (sha384 msg) + r * d) % ecN)

/-- A signature verifies (R445). -/
def ecdsaOk (pub msg sig : List Byte) : Bool :=
  let r := ofBE (sig.take 48)
  let s := ofBE ((sig.drop 48).take 48)
  match ecPoint pub with
  | none => false
  | some q =>
    if r = 0 ∨ ecN ≤ r ∨ s = 0 ∨ ecN ≤ s ∨ sig.length ≠ 96 then false
    else
      let w := invMod ecN s
      let t := (EcPt.mul 384 (ofBE (sha384 msg) * w % ecN) ecG).add (EcPt.mul 384 (r * w % ecN) q)
      t.z != 0 && t.affine.1 % ecN == r

/-! ### AES-256-GCM -/

/-- The product in the field of AES. -/
def gmul : Nat → BitVec 8 → BitVec 8 → BitVec 8
  | 0, _, _ => 0#8
  | n + 1, a, b =>
    (if b.getLsbD 0 then a else 0#8) ^^^ gmul n (if a.getLsbD 7 then (a <<< 1) ^^^ 0x1B#8 else a <<< 1) (b >>> 1)

/-- a to the power of 2ⁿ - 2: for n = 8 the inverse. -/
def ginv : Nat → BitVec 8 → BitVec 8
  | 0, _ => 1#8
  | 1, _ => 1#8
  | n + 1, a => gmul 8 (gmul 8 a a) (let b := ginv n a; gmul 8 b b)

/-- The S-box. -/
def sbox (a : BitVec 8) : BitVec 8 :=
  let b := ginv 8 a
  b ^^^ b.rotateLeft 1 ^^^ b.rotateLeft 2 ^^^ b.rotateLeft 3 ^^^ b.rotateLeft 4 ^^^ 0x63#8

/-- XOR of byte strings. -/
def xorBytes (a b : List Byte) : List Byte := (a.zip b).map fun x => x.1 ^^^ x.2

/-- The round keys of AES-256 as words of 4 bytes, latest first, from word 8 on. -/
def keyWords : Nat → Nat → BitVec 8 → List (List Byte) → List (List Byte)
  | 0, _, _, ws => ws
  | n + 1, i, rc, ws =>
    let t := ws.headD []
    let u := if i % 8 = 0 then xorBytes ((t.drop 1 ++ t.take 1).map sbox) [rc, 0#8, 0#8, 0#8]
      else if i % 8 = 4 then t.map sbox else t
    keyWords n (i + 1) (if i % 8 = 0 then gmul 8 rc 2#8 else rc) (xorBytes u (ws.getD 7 []) :: ws)

/-- The 15 round keys. -/
def roundKeys (key : List Byte) : List (List Byte) :=
  let first := (List.range 8).reverse.map fun i => (key.drop (4 * i)).take 4
  let ws := (keyWords 52 8 1#8 first).reverse
  (List.range 15).map fun r => ((ws.drop (4 * r)).take 4).flatten

/-- SubBytes and ShiftRows. -/
def subShift (b : List Byte) : List Byte := (List.range 16).map fun k => sbox (b.getD ((k + 4 * (k % 4)) % 16) 0#8)

/-- MixColumns. -/
def mixColumns (b : List Byte) : List Byte :=
  (List.range 16).map fun k =>
    let at_ (i : Nat) : BitVec 8 := b.getD (k / 4 * 4 + (k + i) % 4) 0#8
    gmul 8 (at_ 0) 2#8 ^^^ gmul 8 (at_ 1) 3#8 ^^^ at_ 2 ^^^ at_ 3

/-- The rounds of one block. -/
def aesRounds (b : List Byte) : List (List Byte) → List Byte
  | [] => b
  | [k] => xorBytes (subShift b) k
  | k :: ks => aesRounds (xorBytes (mixColumns (subShift b)) k) ks

/-- AES-256 of one block. -/
def aes (keys : List (List Byte)) (b : List Byte) : List Byte := aesRounds (xorBytes b (keys.headD [])) (keys.drop 1)

/-- The product of GHASH: bit 0 of a block is its most significant bit. -/
def ghMul : Nat → Nat → Nat → Nat
  | 0, _, _ => 0
  | n + 1, x, v => (if x / 2 ^ n % 2 = 1 then v else 0) ^^^ ghMul n x (if v % 2 = 1 then v / 2 ^^^ 0xE1 * 2 ^ 120 else v / 2)

/-- Blocks of 16 bytes, the last filled with zeros. -/
def blocks16 : Nat → List Byte → List Nat
  | 0, _ => []
  | n + 1, b => if b.isEmpty then [] else ofBE ((b ++ leBytes 16 0).take 16) :: blocks16 n (b.drop 16)

/-- GHASH of the additional data and the ciphertext. -/
def ghash (h : Nat) (aad ct : List Byte) : Nat :=
  (blocks16 (aad.length / 16 + 1) aad ++ blocks16 (ct.length / 16 + 1) ct ++ [aad.length * 8 * 2 ^ 64 + ct.length * 8]).foldl
    (fun y x => ghMul 128 (y ^^^ x) h) 0

/-- Counter mode from counter `i` on. -/
def ctrMode (keys : List (List Byte)) (iv : List Byte) : Nat → Nat → List Byte → List Byte
  | 0, _, _ => []
  | n + 1, i, b =>
    if b.isEmpty then [] else xorBytes (b.take 16) (aes keys (iv ++ beBytes 4 i)) ++ ctrMode keys iv n (i + 1) (b.drop 16)

/-- The ciphertext of a plaintext, or the other way round. -/
def gcmCrypt (key iv b : List Byte) : List Byte := ctrMode (roundKeys key) iv (b.length / 16 + 1) 2 b

/-- The tag of a ciphertext. -/
def gcmTag (key iv aad ct : List Byte) : List Byte :=
  let ks := roundKeys key
  xorBytes (aes ks (iv ++ beBytes 4 1)) (beBytes 16 (ghash (ofBE (aes ks (leBytes 16 0))) aad ct))

end Sys2Proof.Machine
end

