-- ==== Sys2Proof/Machine/IspCore.lean ====
section
/-! DEFINITION. Sys2Proof/Machine/IspCore.lean: what the ISP contexts share (03_image_pipeline, R58 to R77): configuration, the
parameter set, output descriptors, frame starts, faults and stripe advances. -/

namespace Sys2Proof.Machine

/-! ### Configuration of context `u` = 4n + c (R79) -/

/-- ISP_n_CTX_c_CFG. -/
def State.ictxCfg (s : State) (u : Nat) : Nat := s.rdN (Reg.ISP_CTX_CFG (u / 4) (u % 4))

/-- CFG.PT. -/
def State.ictxPt (s : State) (u : Nat) : Nat := fld (s.ictxCfg u) 12 4

/-- The number of exposures. -/
def State.ictxExp (s : State) (u : Nat) : Nat := fld (s.ictxCfg u) 1 2 + 1

/-- PATTERN. -/
def State.ictxPattern (s : State) (u : Nat) : Nat := fld (s.ictxCfg u) 4 4

/-- The pipe and the context are enabled. -/
def State.ictxOn (s : State) (u : Nat) : Bool := s.rdB (Reg.ISP_CTRL (u / 4)) 0 && bitAt (s.ictxCfg u) 0

/-- The stream that SRC names for exposure `e`. -/
def State.ictxSrc (s : State) (u e : Nat) : Nat := s.rdF (Reg.ISP_CTX_SRC (u / 4) (u % 4)) (8 * e) 6

/-- The streams a CFG and a SRC value name, by exposure (R78). -/
def ctxStreams (cfg src : Nat) : List Nat :=
  if bitAt cfg 3 then (List.range (fld cfg 1 2 + 1)).map fun e => fld src (8 * e) 6 else [fld src 0 6]

/-- The streams of context `u`. -/
def State.ictxStreams (s : State) (u : Nat) : List Nat := ctxStreams (s.ictxCfg u) (s.rdN (Reg.ISP_CTX_SRC (u / 4) (u % 4)))

/-- The enabled context that takes stream `m`, with the exposure (R58: at most one). -/
def State.ictxOf (s : State) (m : Nat) : Option (Nat × Nat) :=
  let n := fld (s.st m).cfg 8 4
  (List.range 4).findSome? fun c =>
    let u := 4 * n + c
    if !s.ictxOn u then none
    else ((s.ictxStreams u).zipIdx.find? fun e => e.1 == m).map fun e => (u, e.2)

/-- Report an ISP error to CFG.PT and set its bit in ISP_n_ERR (R76). -/
def State.ispErr (s : State) (u code : Nat) (info : Nat := 0) : State :=
  (s.sticky (Reg.ISP_ERR (u / 4)) (code - 0x0201)).err (s.ictxPt u) (uIsp (u / 4)) code info

/-! ### The parameter set (R67) -/

/-- OUT_FMT. -/
def setFmt (b : List Byte) : Nat := getLE b 3 1

/-- Stage `i` is enabled. -/
def setStage (b : List Byte) (i : Nat) : Bool := bitAt (getLE b 8 4) i

/-- TCH. -/
def setTch (b : List Byte) : Nat := getLE b 0x40E1 1

/-- The bits per sample of a RAW data type (R40); nothing for other types. -/
def rawBits (dt : Nat) : Option Nat :=
  match dt with
  | 0x2A => some 8
  | 0x2B => some 10
  | 0x2C => some 12
  | 0x2D => some 14
  | 0x2E => some 16
  | 0x2F => some 20
  | 0x27 => some 24
  | _ => none

/-- A pattern accepts a data type (R61). -/
def dtAccepted (pattern dt : Nat) : Bool :=
  if pattern = 6 then dt == 0x1E || dt == 0x1F || dt == 0x24 else (rawBits dt).isSome

/-- A pattern has a fourth plane (R60). -/
def hasFourth (pattern : Nat) : Bool := 1 ≤ pattern && pattern ≤ 4

/-! ### Output descriptors (R71, R72, R76) -/

/-- An image that any ISP output must be: writable, unscaled, neither indexed nor sharded. -/
def Desc.ispPlain (t : Desc) : Bool := t.canWrite && !t.isIndexed && !t.isSharded && t.scaleType == 0

/-- The dimensions of a descriptor. -/
def Desc.dims (t : Desc) : List Nat := t.dim.take t.rank

/-- The primary descriptor matches OUT_FMT for a W × H image (R71): element width and dimensions. -/
def primaryOk (fmt w h : Nat) (t : Desc) : Bool :=
  t.ispPlain &&
  (match fmt with
    | 1 => t.bits == 8 && t.dims == [w, h + h / 2]
    | 2 => t.bits == 16 && t.dims == [w, h + h / 2]
    | 3 => t.bits == 8 && t.dims == [2 * w, h]
    | 4 => t.bits == 8 && (t.dims == [3 * w, h] || t.dims == [3, w, h])
    | 5 => t.bits == 16 && t.dims == [w, h, 3]
    | 6 => t.bits == 8 && t.dims == [w, h]
    | 7 => t.bits == 16 && t.dims == [w, h]
    | _ => false)

/-- The tensor descriptor meets R72. -/
def tensorOk (tch w h : Nat) (t : Desc) : Bool :=
  t.ispPlain && (t.etype == 0x08 || t.etype == 0x02) && t.layout == 1 && t.dims == [w, h, tch]

/-- The auxiliary descriptor is U16, or UINT8 (R71). -/
def auxOk (w h : Nat) (t : Desc) : Bool := t.ispPlain && (t.bits == 16 || t.etype == 0x09) && t.dims == [w, h]

/-- Capture one output of a frame: handle 0 is none; otherwise its image, when it can be captured and meets `ok`. -/
def State.ispOut (s : State) (p h : Nat) (ok : Desc → Bool) : Option (Nat × List Byte) × State :=
  if h = 0 then (some (0, []), s)
  else
    match s.capture p h 0xD35C with
    | (.error _, s1) => (none, s1)
    | (.ok b, s1) => (if ok (Desc.ofBytes b) then some (h, b) else none, s1)

/-- The three outputs of a frame (R71, R72): nothing when one is refused. -/
def State.ispOuts (s : State) (p pattern w h : Nat) (set launch : List Byte) : Option (List (Nat × List Byte)) × State :=
  let tch := setTch set
  let (a, s1) := s.ispOut p (getLE launch 8 2) (primaryOk (setFmt set) w h)
  let (b, s2) := s1.ispOut p (getLE launch 10 2) fun t => tensorOk tch w h t && (tch != 4 || hasFourth pattern) && (pattern != 5 || tch == 1)
  let (c, s3) := s2.ispOut p (getLE launch 12 2) fun t => auxOk w h t && (hasFourth pattern || pattern == 5)
  match a, b, c with
  | some x, some y, some z => (some [x, y, z], s3)
  | _, _, _ => (none, s3)

/-! ### Faults (R77) -/

/-- The frame of context `u` ends before its last row: the node ends with the code. -/
def State.ispStop (s : State) (u code : Nat) : State :=
  let x := s.ictx u
  match x.frame with
  | none => s
  | some f => ((s.setIctx u { x with frame := none }).event (uIsp (u / 4)) 0x04 f.pt code f.seq 0).crzDone f.node code

/-- A frame fault of context `u` (R77): the error; in the native mode the frame ends, in the marking mode input row `row` is faulty,
or an exposure is missing. -/
def State.ispFault (s : State) (u code row : Nat) (missing : Bool) : State :=
  let s1 := s.ispErr u code row
  if !s1.rdB (Reg.QM_PT_MODE (s1.ictxPt u)) 0 then s1.ispStop u code
  else
    let x := s1.ictx u
    s1.setIctx u { x with frame := x.frame.map fun f =>
      { f with missing := f.missing || missing, badRows := if missing then f.badRows else insSorted row f.badRows } }

/-! ### Stripe advances (R63, R73, R173) -/

/-- The handles of a frame's outputs. -/
def IspFrame.handles (f : IspFrame) : List Nat := (f.out.map (·.1)).filter (· != 0)

/-- Rows of output `k` that an advance may cover after `rows` rows: a blocked output goes by multiples of BR (R173). -/
def IspFrame.rowsOf (f : IspFrame) (k : Nat) : Nat :=
  let t := Desc.ofBytes ((f.out.getD k (0, [])).2)
  if f.rows = f.height ∨ (f.out.getD k (0, [])).1 = 0 ∨ t.layout = 0 then f.rows else f.rows / t.br * t.br

/-- Advance the counters of the outputs of context `u` over the rows written, unless the rewrites of its descriptors are on their
way (R73). -/
def State.ispAdvance (s : State) (u : Nat) : State :=
  match (s.ictx u).frame with
  | none => s
  | some f =>
    if s.rewriting f.pt f.handles then s
    else (List.range 3).foldl (fun s k => s.crzAdvance f.node (f.rowsOf k) (f.rows == f.height) (some k)) s

/-! ### Frame starts (R65, R67, R73) -/

/-- Static defects of a table in ascending raster order, up to the first entry out of order: an entry is 4 bytes, x in [15:0] and y in
[31:16]. -/
def defectScan : List Byte → Option Nat → Nat → List Nat → List Nat × Bool
  | _, _, 0, acc => (acc, true)
  | b, last, n + 1, acc =>
    let k := getLE b 0 4
    let bad := match last with
      | some l => decide (k ≤ l)
      | none => false
    if bad then (acc, false) else defectScan (b.drop 4) (some k) n (acc ++ [k])

/-- A READY pending set becomes active (R65). -/
def State.ispTake (s : State) (u : Nat) : State :=
  let x := s.ictx u
  let n := u / 4
  let c := u % 4
  match x.ready with
  | none => s
  | some b =>
    let s1 := s.setIctx u { x with active := some b, post := none, ready := none }
    ((s1.wr (Reg.ISP_CTX_PB_STATUS n c) 4).wr (Reg.ISP_CTX_ACTIVE_ID n c) (getLE b 4 4)).bump (Reg.ISP_CTX_TAKEN n c) 1

/-- A frame that context `u` does not process: SKIPPED, the error, and the node ends with it (R76). -/
def State.ispSkip (s : State) (u code : Nat) (r : NodeRef) : State :=
  ((s.ispErr u code).bump (Reg.ISP_CTX_SKIPPED (u / 4) (u % 4)) 1).crzDone r code

/-- Read the static defect table of a frame (R67, R76). -/
def State.ispDefects (s : State) (u : Nat) (f : IspFrame) : State :=
  let count := getLE f.set 0x50 4
  if count = 0 ∨ !setStage f.set 2 then s
  else
    match s.readDva f.pt (getLE f.set 0x48 8) (4 * count) with
    | .refused e d => (s.oob f.pt (uIsp (u / 4)) none e d).ispStop u 0x0503
    | .bus d => (s.err f.pt (uIsp (u / 4)) 0x0907 d).ispStop u 0x0907
    | .data b bad =>
      if bad then s.ispFault u 0x0209 0 true
      else
        let (l, ok) := defectScan b none count []
        let x := s.ictx u
        let s1 := s.setIctx u { x with frame := x.frame.map fun g => { g with defects := l } }
        if ok then s1 else s1.ispErr u 0x0206

/-- The frame start of context `u` (R65): the FS of its exposure 0 with the record at `recA`. -/
def State.ispStart (s : State) (u : Nat) (r : NodeRef) (launch : List Byte) (recA seq dt w : Nat) : State :=
  let h := s.ispHeight u
  let p := s.ictxPt u
  let s1 := s.ispTake u
  let x := s1.ictx u
  let s2 := s1.setIctx u { x with node := none, early := [], earlyBad := [], earlyBound := [], earlyEnded := [] }
  if !dtAccepted (s.ictxPattern u) dt then s2.ispSkip u 0x0202 r
  else
    match x.active with
    | none => s2.ispSkip u 0x0204 r
    | some set =>
      match s2.ispOuts p (s.ictxPattern u) w h set launch with
      | (none, s3) => s3.ispSkip u 0x0207 r
      | (some outs, s3) =>
        let f : IspFrame := { node := r, pt := p, recA := recA, seq := seq, fsTime := s.now, dt := dt, width := w, height := h, set := set,
                              lines := x.early, ended := x.earlyEnded, bound := insSorted 0 x.earlyBound, out := outs }
        let s4 := s3.setIctx u { s3.ictx u with frame := some f }
        let s5 := s4.event (uIsp (u / 4)) 0x01 p 0 seq (getLE launch 0x10 8)
        let s6 := x.earlyBad.foldl (fun s y => s.ispFault u 0x0209 y false) s5
        (f.handles.foldl (fun s h => s.pushRewrite p h recA) s6).ispDefects u f

/-! ### Input (R62, R76) -/

/-- Exposure `e` of the frame that node `r` launched in context `u` sends raw row `y`; `bad` is a line that carries poison. -/
def State.ispLine (s : State) (u e y : Nat) (r : NodeRef) (line : List Byte) (bad : Bool) : State :=
  let x := s.ictx u
  let key := e * 65536 + y
  match x.frame with
  | some f =>
    if f.node = r then
      let s1 := s.setIctx u { x with frame := some { f with lines := f.lines.put key line } }
      let s2 := if bad then s1.ispFault u 0x0209 y false else s1
      let skew := fld (s.ictxCfg u) 16 6
      if e ≠ 0 ∨ y ≤ skew ∨ f.missing then s2
      else
        let z := y - skew - 1
        (List.range (s.ictxExp u)).foldl (fun (s : State) k =>
          match (s.ictx u).frame with
          | none => s
          | some g =>
            if k = 0 ∨ g.missing ∨ (Tab.get? g.lines (k * 65536 + z)).isSome then s
            else s.ispFault u 0x0205 z (!g.bound.contains k)) s2
    else if (x.node.map (·.1)) = some r then
      s.setIctx u { x with early := x.early.put key line, earlyBad := if bad then insSorted y x.earlyBad else x.earlyBad }
    else s
  | none =>
    if (x.node.map (·.1)) = some r then
      s.setIctx u { x with early := x.early.put key line, earlyBad := if bad then insSorted y x.earlyBad else x.earlyBad }
    else s

/-- The stream frame of exposure `e` has ended well: a further exposure that never came by the end of exposure 0 is missing (R76). -/
def State.ispInputEnd (s : State) (u e : Nat) (r : NodeRef) : State :=
  let x := s.ictx u
  let mark (l : List Nat) : List Nat := if bitAt (s.ictxCfg u) 3 then insSorted e l else List.range (s.ictxExp u)
  match x.frame with
  | some f =>
    if f.node = r then
      let s1 := s.setIctx u { x with frame := some { f with ended := mark f.ended } }
      if e = 0 ∧ bitAt (s.ictxCfg u) 3 ∧ !f.missing ∧ (List.range (s.ictxExp u)).any (fun k => !f.bound.contains k)
      then s1.ispFault u 0x0205 0 true else s1
    else if (x.node.map (·.1)) = some r then s.setIctx u { x with earlyEnded := mark x.earlyEnded }
    else s
  | none => if (x.node.map (·.1)) = some r then s.setIctx u { x with earlyEnded := mark x.earlyEnded } else s

end Sys2Proof.Machine
end

