-- ==== Sys2Proof/Machine/NumFmt.lean ====
section
/-! DEFINITION. Sys2Proof/Machine/NumFmt.lean: number formats, conversions and arithmetic (08_number_formats, R192 to
R211, R600), from the input bits alone. -/

namespace Sys2Proof.Machine

/-- The exact value of an element (R192): NaN, an infinity, or ± num / den × 2^e with a sign of its own for zero. -/
inductive Val where
  | nan
  | inf (neg : Bool)
  | fin (neg : Bool) (num den : Nat) (e : Int)
deriving DecidableEq, Repr

/-- A floating-point layout (R192): exponent and mantissa bits, bias, the code of the largest finite magnitude, the code of
infinity and the canonical NaN, where there is one. -/
structure Fmt where
  eb : Nat
  mb : Nat
  bias : Nat
  maxFin : Nat
  inf : Option Nat
  nan : Option Nat
deriving DecidableEq, Repr

/-- The floating-point layouts by element code (R192, R193). -/
def fmtOf (t : Nat) : Option Fmt :=
  match t with
  | 0x00 => some ⟨8, 23, 127, 0x7F7FFFFF, some 0x7F800000, some 0x7FC00000⟩
  | 0x01 => some ⟨8, 7, 127, 0x7F7F, some 0x7F80, some 0x7FC0⟩
  | 0x02 => some ⟨5, 10, 15, 0x7BFF, some 0x7C00, some 0x7E00⟩
  | 0x03 => some ⟨4, 3, 7, 0x7E, none, some 0x7F⟩
  | 0x04 => some ⟨5, 2, 15, 0x7B, some 0x7C, some 0x7E⟩
  | 0x05 => some ⟨2, 3, 1, 0x1F, none, none⟩
  | 0x06 => some ⟨3, 2, 3, 0x1F, none, none⟩
  | 0x07 => some ⟨2, 1, 1, 0x7, none, none⟩
  | 0x0D => some ⟨5, 3, 15, 0xFE, none, some 0xFF⟩
  | _ => none

/-- FP32. -/
def fp32 : Fmt := ⟨8, 23, 127, 0x7F7FFFFF, some 0x7F800000, some 0x7FC00000⟩

/-- The UE5M3 scale. -/
def ue5m3 : Fmt := ⟨5, 3, 15, 0xFE, none, some 0xFF⟩

/-- Bits of an unscaled element code (R168). -/
def codeBits (t : Nat) : Nat :=
  match t with
  | 0x00 => 32 | 0x0B => 32 | 0x01 => 16 | 0x02 => 16 | 0x05 => 6 | 0x06 => 6 | 0x07 => 4 | 0x0A => 4 | _ => 8

/-- The element encoding of a scaled type (R195, R196), or the type itself. -/
def elemType (t : Nat) : Nat :=
  match t with
  | 0x10 => 0x03 | 0x11 => 0x04 | 0x12 => 0x05 | 0x13 => 0x06 | 0x14 => 0x07 | 0x15 => 0x08 | 0x18 => 0x07 | _ => t

/-- A type with a block scale. -/
def isScaled (t : Nat) : Bool := (0x10 ≤ t && t ≤ 0x15) || t == 0x18

/-- The value of a magnitude code of a layout (R192). -/
def Fmt.magVal (f : Fmt) (neg : Bool) (c : Nat) : Val :=
  if f.maxFin < c then (if f.inf = some c then .inf neg else .nan)
  else if c / 2 ^ f.mb = 0 then .fin neg c 1 (1 - (f.bias : Int) - f.mb)
  else .fin neg (2 ^ f.mb + c % 2 ^ f.mb) 1 ((c / 2 ^ f.mb : Nat) - (f.bias : Int) - f.mb)

/-- The value of an integer. -/
def Val.ofInt (i : Int) : Val := .fin (decide (i < 0)) i.natAbs 1 0

/-- The value of an unscaled element code (R192 to R194, R201). -/
def decodeVal (t c : Nat) : Val :=
  match t with
  | 0x08 => .ofInt (signedOf 8 c)
  | 0x09 => .ofInt (c % 256 : Nat)
  | 0x0A => .ofInt (signedOf 4 c)
  | 0x0B => .ofInt (signedOf 32 c)
  | 0x0C => if c % 256 = 255 then .nan else .fin false 1 1 ((c % 256 : Nat) - 127)
  | 0x0D => ue5m3.magVal false (c % 256)
  | _ =>
    match fmtOf t with
    | some f => f.magVal (bitAt c (f.eb + f.mb)) (c % 2 ^ (f.eb + f.mb))
    | none => .nan

/-- The value of an FP32 code. -/
def val32 (c : Nat) : Val := decodeVal 0x00 c

/-- The value of an element times its block scale, without the tensor scale (R195 to R197). -/
def scaledVal (t code scale : Nat) : Val :=
  if !isScaled t then decodeVal t code
  else
    let s := if t = 0x18 then decodeVal 0x0D scale else decodeVal 0x0C scale
    match s, decodeVal (elemType t) code with
    | .fin _ n d e, .fin neg m k x => .fin neg (m * n) (k * d) (x + e - (if t = 0x15 then 6 else 0))
    | .fin _ _ _ _, .inf neg => .inf neg
    | _, _ => .nan

/-! ### Rounding (R198, R199) -/

/-- ⌊log₂(n / d)⌋ for n, d > 0. -/
def ilog (n d : Nat) : Int :=
  let k : Int := (Nat.log2 n : Nat) - (Nat.log2 d : Nat)
  if 0 ≤ k then (if n < d * 2 ^ k.toNat then k - 1 else k)
  else (if n * 2 ^ (-k).toNat < d then k - 1 else k)

/-- n / d × 2^s as a fraction. -/
def scaleQ (n d : Nat) (s : Int) : Nat × Nat := if 0 ≤ s then (n * 2 ^ s.toNat, d) else (n, d * 2 ^ (-s).toNat)

/-- n / d rounded to an integer: RM 0 to nearest with ties to even, 1 toward zero, 2 stochastic with 24 random bits. -/
def roundInt (rm r n d : Nat) : Nat :=
  let q := n / d
  let x := n % d
  if rm = 0 then (if d < 2 * x ∨ (2 * x = d ∧ q % 2 = 1) then q + 1 else q)
  else if rm = 1 then q
  else if 2 ^ 24 ≤ x * 2 ^ 24 / d + r then q + 1 else q

/-- The magnitude code of n / d × 2^e in a layout whose exponent has no upper limit. -/
def Fmt.roundMag (f : Fmt) (rm r n d : Nat) (e : Int) : Nat :=
  if n = 0 then 0
  else
    let emin : Int := 1 - (f.bias : Int)
    let x := max (ilog n d + e) emin
    let (n', d') := scaleQ n d (e - (x - f.mb))
    (x - emin).toNat * 2 ^ f.mb + roundInt rm r n' d'

/-- The 24 random bits of stochastic rounding (R199). -/
def srBits (seed idx : Nat) : Nat :=
  let m := 2 ^ 32
  let x0 := (seed % m) ^^^ (idx % m * 0x9E3779B9 % m)
  let x1 := (x0 ^^^ (x0 / 2 ^ 16)) * 0x85EBCA6B % m
  let x2 := (x1 ^^^ (x1 / 2 ^ 13)) * 0xC2B2AE35 % m
  (x2 ^^^ (x2 / 2 ^ 16)) / 2 ^ 8

/-! ### Conversion (R200, R600). Status bits: 1 INV, 2 OVF, 4 SAT (R211) -/

/-- The range of an integer destination. -/
def intRange (t : Nat) : Option (Int × Int) :=
  match t with
  | 0x08 => some (-128, 127)
  | 0x09 => some (0, 255)
  | 0x0A => some (-8, 7)
  | 0x0B => some (-(2 ^ 31), 2 ^ 31 - 1)
  | _ => none

/-- Conversion to a floating-point layout. -/
def Fmt.convert (f : Fmt) (v : Val) (rm : Nat) (sat : Bool) (r : Nat) : Nat × Nat :=
  let sg (neg : Bool) (c : Nat) := if neg then c + 2 ^ (f.eb + f.mb) else c
  match v with
  | .nan =>
    match f.nan with
    | some c => (c, 0)
    | none => (0, 1)
  | .inf neg =>
    match f.inf, f.nan with
    | some c, _ => if sat then (sg neg f.maxFin, 4) else (sg neg c, 0)
    | none, some c => if sat then (sg neg f.maxFin, 4) else (c, 1)
    | none, none => (sg neg f.maxFin, 4)
  | .fin neg n d e =>
    let c := f.roundMag rm r n d e
    if c ≤ f.maxFin then (sg neg c, 0)
    else if rm = 1 ∨ sat then (sg neg f.maxFin, 4)
    else
      match f.inf, f.nan with
      | some c, _ => (sg neg c, 2)
      | none, some c => (c, 2)
      | none, none => (sg neg f.maxFin, 4)

/-- Conversion to an integer type of `w` bits with range [lo, hi]. -/
def convertInt (w : Nat) (lo hi : Int) (v : Val) (rm r : Nat) : Nat × Nat :=
  match v with
  | .nan => (0, 1)
  | .inf neg => (codeOf w (if neg then lo else hi), 4)
  | .fin neg n d e =>
    let (n', d') := scaleQ n d e
    let k : Int := roundInt rm r n' d'
    let i := if neg then -k else k
    if i < lo then (codeOf w lo, 4) else if hi < i then (codeOf w hi, 4) else (codeOf w i, 0)

/-- Conversion of an exact value to a destination type (R198 to R200, R600): the code and the status bits. -/
def convert (t : Nat) (v : Val) (rm : Nat) (sat : Bool) (r : Nat) : Nat × Nat :=
  match intRange t with
  | some (lo, hi) => convertInt (codeBits t) lo hi v rm r
  | none =>
    match fmtOf t with
    | some f => f.convert v rm sat r
    | none => (0, 0)

/-- Round a value to FP32 to nearest even (R204, R206). -/
def to32 (v : Val) : Nat × Nat := fp32.convert v 0 false 0

/-! ### Exact operations (R204) -/

/-- The opposite value. -/
def Val.neg : Val → Val
  | .nan => .nan
  | .inf s => .inf !s
  | .fin s n d e => .fin (!s) n d e

/-- The value is NaN. -/
def Val.isNan : Val → Bool
  | .nan => true
  | _ => false

/-- The value is an infinity. -/
def Val.isInf : Val → Bool
  | .inf _ => true
  | _ => false

/-- The value is ±0. -/
def Val.isZero : Val → Bool
  | .fin _ 0 _ _ => true
  | _ => false

/-- The sign of a value. -/
def Val.sign : Val → Bool
  | .nan => false
  | .inf s => s
  | .fin s _ _ _ => s

/-- The exact product, and whether it is an invalid operation. -/
def Val.mul (a b : Val) : Val × Bool :=
  match a, b with
  | .nan, _ => (.nan, false)
  | _, .nan => (.nan, false)
  | .fin s n d e, .fin s' n' d' e' => (.fin (s != s') (n * n') (d * d') (e + e'), false)
  | _, _ => if a.isZero || b.isZero then (.nan, true) else (.inf (a.sign != b.sign), false)

/-- The exact sum: an exact zero sum is +0 unless both operands are -0. -/
def Val.add (a b : Val) : Val × Bool :=
  match a, b with
  | .nan, _ => (.nan, false)
  | _, .nan => (.nan, false)
  | .inf s, .inf s' => if s = s' then (.inf s, false) else (.nan, true)
  | .inf s, _ => (.inf s, false)
  | _, .inf s => (.inf s, false)
  | .fin s n d e, .fin s' n' d' e' =>
    let m := min e e'
    let x : Int := (n * d' * 2 ^ (e - m).toNat : Nat)
    let y : Int := (n' * d * 2 ^ (e' - m).toNat : Nat)
    let z := (if s then -x else x) + (if s' then -y else y)
    (.fin (if z = 0 then s && s' else decide (z < 0)) z.natAbs (d * d') m, false)

/-- The exact quotient. -/
def Val.div (a b : Val) : Val × Bool :=
  match a, b with
  | .nan, _ => (.nan, false)
  | _, .nan => (.nan, false)
  | .inf _, .inf _ => (.nan, true)
  | .inf s, .fin s' _ _ _ => (.inf (s != s'), false)
  | .fin s _ _ _, .inf s' => (.fin (s != s') 0 1 0, false)
  | .fin s n d e, .fin s' n' d' e' =>
    if n' = 0 then (if n = 0 then (.nan, true) else (.inf (s != s'), false))
    else (.fin (s != s') (n * d') (d * n') (e - e'), false)

/-- ⌊√n⌋ for n below 2^(2k), bit by bit. -/
def isqrt (n : Nat) : Nat → Nat → Nat
  | 0, r => r
  | k + 1, r => isqrt n k (if (r + 2 ^ k) * (r + 2 ^ k) ≤ n then r + 2 ^ k else r)

/-- The square root of a value with den 1, close enough that one rounding to FP32 is correct: 64 bits and a sticky bit. -/
def Val.sqrt (a : Val) : Val × Bool :=
  match a with
  | .nan => (.nan, false)
  | .inf false => (.inf false, false)
  | .inf true => (.nan, true)
  | .fin s n d e =>
    if n = 0 then (.fin s 0 1 0, false)
    else if s then (.nan, true)
    else
      let k : Nat := 128 + (e % 2).toNat
      let m := n * d * 2 ^ k
      let w := (Nat.log2 m) / 2 + 1
      let r := isqrt m w 0
      (.fin false (2 * r + (if r * r = m then 0 else 1)) d ((e - k) / 2 - 1), false)

/-- An FP32 result with INV as the operation gives it; an overflow of a vector operation sets no bit (R211). -/
def res32 (x : Val × Bool) : Nat × Nat := ((to32 x.1).1, if x.2 then 1 else 0)

/-- FP32 addition (R204). -/
def add32 (a b : Nat) : Nat × Nat := res32 ((val32 a).add (val32 b))
/-- FP32 subtraction. -/
def sub32 (a b : Nat) : Nat × Nat := res32 ((val32 a).add (val32 b).neg)
/-- FP32 multiplication. -/
def mul32 (a b : Nat) : Nat × Nat := res32 ((val32 a).mul (val32 b))
/-- FP32 division, correctly rounded. -/
def div32 (a b : Nat) : Nat × Nat := res32 ((val32 a).div (val32 b))
/-- FP32 square root. -/
def sqrt32 (a : Nat) : Nat × Nat := res32 (val32 a).sqrt
/-- FP32 fused multiply-add: one rounding; an invalid product with a NaN addend has a NaN operand (R211). -/
def fma32 (a b c : Nat) : Nat × Nat :=
  let (p, i) := (val32 a).mul (val32 b)
  let (z, j) := p.add (val32 c)
  res32 (z, (i && !(val32 c).isNan) || j)

/-- The place of a non-NaN FP32 code in the order of R204, -0 below +0. -/
def ordKey (c : Nat) : Int := if bitAt c 31 then -((c % 2 ^ 31 : Nat) : Int) - 1 else (c % 2 ^ 31 : Nat)

/-- An FP32 code is a NaN. -/
def isNan32 (c : Nat) : Bool := (val32 c).isNan

/-- The canonical NaN of FP32 (R193). -/
def nan32 : Nat := 0x7FC00000

/-- FP32 minimum (R204). -/
def min32 (a b : Nat) : Nat × Nat :=
  if isNan32 a || isNan32 b then (nan32, 0) else (if ordKey b < ordKey a then b else a, 0)
/-- FP32 maximum (R204). -/
def max32 (a b : Nat) : Nat × Nat :=
  if isNan32 a || isNan32 b then (nan32, 0) else (if ordKey a < ordKey b then b else a, 0)

/-- The place of a non-NaN FP32 code in comparisons: -0 equals +0 (R254). -/
def cmpKey (c : Nat) : Int := if bitAt c 31 then -((c % 2 ^ 31 : Nat) : Int) else (c % 2 ^ 31 : Nat)

/-- FP32 comparison by FN: EQ, NE, LT, LE; quiet (R254). -/
def cmp32 (fn a b : Nat) : Bool :=
  if isNan32 a || isNan32 b then fn == 1
  else
    match fn with
    | 0 => cmpKey a == cmpKey b
    | 1 => cmpKey a != cmpKey b
    | 2 => cmpKey a < cmpKey b
    | _ => cmpKey a ≤ cmpKey b

/-! ### Quantisation (R202, R203) -/

/-- EMAX of an MX type (R195). -/
def emaxOf (t : Nat) : Int :=
  match t with
  | 0x10 => 8 | 0x11 => 15 | 0x12 => 2 | 0x13 => 4 | 0x14 => 2 | _ => 0

/-- The value is finite. -/
def Val.isFin : Val → Bool
  | .fin _ _ _ _ => true
  | _ => false

/-- One block of FP32 codes (none: an inactive lane): element codes, scale byte and status, for an MX type; `rnd i` are the
random bits of element i. -/
def quantMx (t : Nat) (vs : List (Option Nat)) (rm : Nat) (rnd : Nat → Nat) : List Nat × Nat × Nat :=
  let live := vs.filterMap id
  if !live.all (fun c => (val32 c).isFin) then (vs.map fun _ => 0, 0xFF, 1)
  else
    let amax := live.foldl (fun a c => max a (c % 2 ^ 31)) 0
    let scale : Nat :=
      match val32 amax with
      | .fin _ n d e => if n = 0 then 0 else (min 254 (max 0 (ilog n d + e - emaxOf t + 127))).toNat
      | _ => 0
    let sh : Int := (scale : Int) - 127 - (if t = 0x15 then 6 else 0)
    let out := (vs.zipIdx).map fun (v, i) =>
      match v with
      | none => (0, 0)
      | some c =>
        match val32 c with
        | .fin s n d e => convert (elemType t) (.fin s n d (e - sh)) rm true (rnd i)
        | _ => (0, 0)
    (out.map (·.1), scale, out.foldl (fun a x => a ||| x.2) 0)

/-- One block of FP32 codes for A4 with TSCALE code `ts`. -/
def quantA4 (ts : Nat) (vs : List (Option Nat)) (rm : Nat) (rnd : Nat → Nat) : List Nat × Nat × Nat :=
  let live := vs.filterMap id
  let tOk := match val32 ts with
    | .fin s n _ _ => !s && n != 0
    | _ => false
  if !tOk || !live.all (fun c => (val32 c).isFin) then (vs.map fun _ => 0, 0xFF, 1)
  else
    let amax := live.foldl (fun a c => max a (c % 2 ^ 31)) 0
    if amax = 0 then (vs.map fun _ => 0, 0, 0)
    else
      let t := (div32 (div32 amax 0x40C00000).1 ts).1
      let (sc, st) := match val32 t with
        | .fin _ n d e =>
          let c := ue5m3.roundMag 0 0 n d e
          if 0xFE < c then (0xFE, 4) else if c = 0 then (1, 0) else (c, 0)
        | _ => (0xFE, 4)
      let d := (mul32 (to32 (decodeVal 0x0D sc)).1 ts).1
      let out := (vs.zipIdx).map fun (v, i) =>
        match v with
        | none => (0, 0)
        | some c =>
          if c % 2 ^ 31 = 0 then (if bitAt c 31 then 8 else 0, 0)
          else convert 0x07 (val32 (div32 c d).1) rm true (rnd i)
      (out.map (·.1), sc, out.foldl (fun a x => a ||| x.2) st)

/-! ### Matrix arithmetic (R205 to R209) -/

/-- An integer type of the integer path (R209). -/
def isIntType (t : Nat) : Bool := t == 0x08 || t == 0x09 || t == 0x0A

/-- A type that a matrix operand may have (R248). -/
def mmaType (t : Nat) : Bool := (1 ≤ t && t ≤ 0x0A) || isScaled t

/-- The chunk length L (R205). -/
def chunkLen (a b : Nat) : Nat :=
  let wa := codeBits (elemType a)
  let wb := codeBits (elemType b)
  if wa = 16 ∨ wb = 16 then 32 else if wa = 4 ∧ wb = 4 then 128 else 64

/-- The exact sum of values known to be finite. -/
def sumFin (vs : List Val) : Val := vs.foldl (fun a v => (a.add v).1) (.fin false 0 1 0)

/-- The tensor-scale factor P of R206 rule 4: its value and the status its forming sets. -/
def tensorScale (a b ta tb : Nat) : Val × Nat :=
  if a = 0x18 ∧ b = 0x18 then
    let (p, i) := (val32 ta).mul (val32 tb)
    let (c, o) := to32 p
    (val32 c, o ||| (if i then 1 else 0))
  else if a = 0x18 then (val32 ta, 0)
  else if b = 0x18 then (val32 tb, 0)
  else (.fin false 1 1 0, 0)

/-- One chunk on the floating-point path (R206): its FP32 code and status. -/
def chunkFloat (ps : List (Val × Val)) (p : Val × Nat) : Nat × Nat :=
  if ps.any fun x => x.1.isNan || x.2.isNan then (nan32, 0)
  else
    let prods := ps.map fun x => x.1.mul x.2
    let infs := prods.filter fun x => x.1.isInf
    if prods.any (·.2) || (infs.any (fun x => x.1.sign) && infs.any fun x => !x.1.sign) then (nan32, 1)
    else
      match infs with
      | x :: _ => to32 x.1
      | [] =>
        let (v, i) := p.1.mul (sumFin (prods.map (·.1)))
        let (c, o) := to32 v
        (if v.isZero then 0 else c, p.2 ||| o ||| (if i then 1 else 0))

/-- ACC + c in FP32 (R207): an overflow sets OVF. -/
def accFloat (acc c : Nat) : Nat × Nat :=
  let (v, i) := (val32 acc).add (val32 c)
  let (x, o) := to32 v
  (x, o ||| (if i then 1 else 0))

/-- The exact integer value of a code. -/
def intVal (t c : Nat) : Int :=
  match t with
  | 0x08 => signedOf 8 c
  | 0x09 => (c % 256 : Nat)
  | 0x0A => signedOf 4 c
  | _ => signedOf 32 c

/-- Saturate to INT32, with SAT (R209, R254). -/
def satInt (i : Int) : Nat × Nat :=
  if i < -(2 ^ 31) then (0x80000000, 4) else if 2 ^ 31 - 1 < i then (0x7FFFFFFF, 4) else (codeOf 32 i, 0)

/-- ACC + c in INT32 with saturation (R209). -/
def accInt (acc : Nat) (c : Int) : Nat × Nat := satInt (signedOf 32 acc + c)

end Sys2Proof.Machine
end

