-- ==== Sys2Proof/Machine/Isp.lean ====
section
/-! DEFINITION. Sys2Proof/Machine/Isp.lean: the ISP pipes (03_image_pipeline, R58 to R79): configuration, parameter sets, the
fourteen stages bit by bit, output rows and statistics. -/

namespace Sys2Proof.Machine

/-! ### Configuration (R58 to R60) -/

/-- WIDTH × exposures of a context's CFG and SRC (R58). -/
def State.ctxLoad (s : State) (cfg src : Nat) : Nat := fld (s.st (fld src 0 6)).geom 0 16 * (fld cfg 1 2 + 1)

/-- A CFG value with a SRC value may be enabled in context `u` (R58, R60). -/
def State.ctxOk (s : State) (u cfg src : Nat) : Bool :=
  let n := u / 4
  let e := fld cfg 1 2 + 1
  let pat := fld cfg 4 4
  let mine := ctxStreams cfg src
  let others := ((List.range 4).map (4 * n + ·)).filter fun v => v != u && bitAt (s.ictxCfg v) 0
  let all := mine ++ others.flatMap s.ictxStreams
  let g := (s.st (fld src 0 6)).geom
  let w := fld g 0 16
  let hh := fld g 16 16
  let h := if bitAt cfg 3 then hh else hh / e
  let load := others.foldl (fun a v => a + s.ctxLoad (s.ictxCfg v) (s.rdN (Reg.ISP_CTX_SRC (v / 4) (v % 4)))) (s.ctxLoad cfg src)
  pat ≤ 6 && (n < 4 || !(1 ≤ pat && pat ≤ 4)) && (!(pat == 0 || pat == 2 || pat == 3) || (fld cfg 8 2 ≤ 1 && fld cfg 10 2 ≤ 1)) &&
  fld cfg 16 6 ≤ 32 && mine.all (fun m => m < 48 && !bitAt (s.st m).cfg 6 && fld (s.st m).cfg 8 4 == n) &&
  all.length ≤ 4 && all.all (fun m => (all.filter (· == m)).length == 1) && load ≤ 16384 &&
  w % 2 == 0 && 64 ≤ w && w ≤ 8192 && (bitAt cfg 3 || hh % e == 0) && h % 2 == 0 && 16 ≤ h && h ≤ 8192

/-- ISP_CTX_CFG_WRITE (R58 to R60, R79): ignored with 0x0201 while EN is 1; a reserved PATTERN or SKEW is refused; setting EN checks
the configuration, and a wrong one leaves the context disabled. -/
def execIspCtxCfgWrite (u : Fin 48) (src : Bool) (value : BitVec 32) (s : State) : Res :=
  let a := if src then Reg.ISP_CTX_SRC (u / 4) (u % 4) else Reg.ISP_CTX_CFG (u / 4) (u % 4)
  let v := if src then value.toNat &&& 0x3F3F3F3F else value.toNat &&& 0x3FFFFF
  if bitAt (s.ictxCfg u) 0 then .next (s.ispErr u 0x0201)
  else if src then .next (s.wr a v)
  else if 6 < fld v 4 4 ∨ 32 < fld v 16 6 then .next (s.ispErr u 0x0201)
  else if bitAt v 0 && !s.ctxOk u v (s.rdN (Reg.ISP_CTX_SRC (u / 4) (u % 4))) then
    .next ((s.wr a (v - 1)).ispErr u 0x0201)
  else .next (s.wr a v)

/-! ### Parameter sets (R64 to R67) -/

/-- PB_POST (R64): the set is pending, in place of any earlier one. -/
def execPbPost (u : Fin 48) (dva : BitVec 64) (s : State) : Res := .next (s.ispPost u dva.toNat)

/-- The reserved bytes of a set (R67). -/
def setReserved : List (Nat × Nat) :=
  [(0x0E, 46), (0x54, 12), (0xD0, 48), (0x3348, 56), (0x3388, 8), (0x3394, 12), (0x33B8, 8), (0x33D2, 2), (0x3E86, 2), (0x3E89, 3),
   (0x3E8E, 2), (0x40D2, 2), (0x40F8, 8)]

/-- OUT_FMT agrees with STAGE_EN and PATTERN (R66, R71). -/
def outFmtOk (fmt pattern : Nat) (stage13 : Bool) : Bool :=
  match fmt with
  | 0 => true
  | 1 => stage13
  | 2 => stage13
  | 3 => stage13
  | 4 => !stage13
  | 5 => !stage13
  | 6 => pattern == 5
  | 7 => pattern == 5
  | _ => false

/-- A set passes validation for a CFG value (R66). -/
def setOk (cfg : Nat) (b : List Byte) : Bool :=
  let pat := fld cfg 4 4
  let count := getLE b 0x50 4
  getLE b 0 2 == 0x15B0 && getLE b 2 1 == 1 &&
  getLE b 0x3C 4 == crc32c (b.take 0x3C ++ (b.drop 0x40).take 0x40C0) &&
  setReserved.all (fun r => ((b.drop r.1).take r.2).all (· == 0#8)) && getLE b 8 4 &&& 0xFFFEC003 == 0 &&
  (List.range (fld cfg 1 2)).all (fun e => getLE b (0xB0 + 4 * e) 4 + 257 ≤ getLE b (0xA0 + 4 * e) 4 && getLE b (0xC8 + 2 * e) 2 != 0) &&
  getLE b 0xC0 2 == 0x0100 && count ≤ 4096 && (count == 0 || getLE b 0x48 8 % 4 == 0) &&
  getLE b 0x0C 1 ≤ 8 && getLE b 0x0D 1 ≤ 8 && 1 ≤ getLE b 0x3E80 1 && 1 ≤ getLE b 0x3E90 1 && getLE b 0x3E88 1 ≤ 11 &&
  getLE b 0x3E8C 2 ≤ 256 && (List.range 4).all (fun k => fld (getLE b (0x40E8 + 4 * k) 4) 23 8 != 255) &&
  (4 < pat || setStage b 8) && outFmtOk (setFmt b) pat (setStage b 13) && getLE b 0x40E0 1 ≤ 1 && [1, 3, 4].contains (setTch b)

/-- A pending set is discarded (R64): REJECTED and 0x0203. -/
def State.setReject (s : State) (u : Nat) : State :=
  let x := s.ictx u
  let a := Reg.ISP_CTX_PB_STATUS (u / 4) (u % 4)
  (((s.setIctx u { x with post := none, ready := none }).wr a (s.rdN a / 4 * 4)).bump (Reg.ISP_CTX_REJECTED (u / 4) (u % 4)) 1).ispErr u 0x0203

/-- PB_FETCH_COMPLETE (R64, R66): the set is READY, or discarded. -/
def execPbFetchComplete (u : Fin 48) (s : State) : Res :=
  let x := s.ictx u
  match x.post with
  | none => .next s
  | some dva =>
    if x.ready.isSome then .next s
    else
      match s.readDva (s.ictxPt u) dva 16640 with
      | .refused f d => .next ((s.oob (s.ictxPt u) (uIsp (u / 4)) none f d).setReject u)
      | .bus d => .next ((s.err (s.ictxPt u) (uIsp (u / 4)) 0x0907 d).setReject u)
      | .data b bad =>
        if bad || dva % 256 != 0 || !setOk (s.ictxCfg u) b then .next (s.setReject u)
        else .next ((s.setIctx u { x with ready := some b }).wrF (Reg.ISP_CTX_PB_STATUS (u / 4) (u % 4)) 1 1 1)

/-! ### Arithmetic (R68) -/

/-- `a >> k`, a floor shift. -/
def fsh (a : Int) (k : Nat) : Int := a / (2 ^ k : Nat)

/-- rnd(a, k). -/
def rnd (a : Int) (k : Nat) : Int := if k = 0 then a else (a + (2 ^ (k - 1) : Nat)) / (2 ^ k : Nat)

/-- clamp(a, lo, hi). -/
def clamp (a lo hi : Int) : Int := if a < lo then lo else if hi < a then hi else a

/-- U24. -/
def u24 (a : Int) : Int := clamp a 0 16777215

/-- U16. -/
def u16 (a : Int) : Int := clamp a 0 65535

/-- The mirrored coordinate of `i` in 0 to n - 1 (R68). -/
def mirror (n : Nat) (i : Int) : Nat :=
  if i < 0 then (-i).toNat else if (n : Int) ≤ i then (2 * ((n : Int) - 1) - i).toNat else i.toNat

/-- Unsigned and signed fields of the set. -/
def setU (b : List Byte) (o n : Nat) : Int := (getLE b o n : Int)

/-- A signed field of `n` bytes. -/
def setS (b : List Byte) (o n : Nat) : Int := signedOf (8 * n) (getLE b o n)

/-! ### Patterns (R60) -/

/-- The period of a pattern. -/
def patPeriod (pat : Nat) : Nat := if pat = 1 ∨ pat = 4 then 4 else if pat = 5 ∨ pat = 6 then 1 else 2

/-- The channels of a pattern, row by row. -/
def patRows (pat : Nat) : List Nat :=
  match pat with
  | 0 => [0, 1, 1, 2]
  | 1 => [0, 1, 2, 1, 1, 3, 1, 3, 2, 1, 0, 1, 1, 3, 1, 3]
  | 2 => [0, 1, 1, 2]
  | 3 => [0, 1, 1, 2]
  | 4 => [3, 0, 3, 1, 2, 3, 1, 3, 3, 1, 3, 0, 1, 3, 2, 3]
  | _ => [0]

/-- The guide channel; none for Mono and Pass. -/
def patGuide (pat : Nat) : Nat := if pat = 4 then 3 else 1

/-- The number of channels. -/
def patChannels (pat : Nat) : Nat := if pat = 1 ∨ pat = 4 then 4 else if pat = 5 then 1 else 3

/-- What the stages of a frame read: the set, geometry, pattern and phases, bits per sample, exposures, the raw sample of exposure e
at (x, y), and the static defects. -/
structure IspIn where
  b : List Byte
  w : Nat
  h : Nat
  pat : Nat
  px : Nat
  py : Nat
  bits : Nat
  exps : Nat
  raw : Nat → Nat → Nat → Int
  defects : List Nat

/-- The channel at pixel (x, y). -/
def IspIn.chan (i : IspIn) (x y : Nat) : Nat :=
  let p := patPeriod i.pat
  (patRows i.pat).getD ((y + i.py) % p * p + (x + i.px) % p) 0

/-! ### Stage 1: unpacking (R61; CSI-2 packing: PRESUMED, assumption 30) -/

/-- Sample `x` of a RAW line with `n` bits per sample. -/
def unpackRaw (l : List Byte) (n x : Nat) : Nat :=
  let at_ (o : Nat) : Nat := getLE l o 1
  match n with
  | 8 => at_ x
  | 10 => let o := x / 4 * 5
          at_ (o + x % 4) * 4 + fld (at_ (o + 4)) (2 * (x % 4)) 2
  | 12 => let o := x / 2 * 3
          at_ (o + x % 2) * 16 + fld (at_ (o + 2)) (4 * (x % 2)) 4
  | 14 => let o := x / 4 * 7
          at_ (o + x % 4) * 64 + fld (getLE l (o + 4) 3) (6 * (x % 4)) 6
  | 16 => at_ (2 * x) * 256 + at_ (2 * x + 1)
  | 20 => let o := x / 2 * 5
          at_ (o + 2 * (x % 2)) * 4096 + at_ (o + 2 * (x % 2) + 1) * 16 + fld (at_ (o + 4)) (4 * (x % 2)) 4
  | _ => at_ (3 * x) * 65536 + at_ (3 * x + 1) * 256 + at_ (3 * x + 2)

/-- The bytes a RAW line needs to hold sample `x`. -/
def rawNeed (n x : Nat) : Nat :=
  match n with
  | 8 => x + 1
  | 10 => x / 4 * 5 + 5
  | 12 => x / 2 * 3 + 3
  | 14 => x / 4 * 7 + 7
  | 16 => 2 * x + 2
  | 20 => x / 2 * 5 + 5
  | _ => 3 * x + 3

/-- Raw sample (x, y) of exposure `e` of a frame; a sample that never came is free. -/
def IspFrame.sample (f : IspFrame) (n e x y : Nat) : Int :=
  let k := e * 65536 + y
  match Tab.get? f.lines k with
  | some l => if rawNeed n x ≤ l.length then (unpackRaw l n x : Nat) else (Config.missingSample k x % 2 ^ n : Nat)
  | none => (Config.missingSample k x % 2 ^ n : Nat)

/-! ### Stages 2 to 7 on one site (R69) -/

/-- The 25 offsets of a 5 × 5 window. -/
def window5 : List (Int × Int) := (List.range 25).map fun (k : Nat) => (((k % 5 : Nat) : Int) - 2, ((k / 5 : Nat) : Int) - 2)

/-- The nearest same-channel sample of exposure `e` from (x, y) in steps of `d` along the row. -/
def IspIn.near (i : IspIn) (e x y : Nat) (d : Int) : Nat → Int → Int
  | 0, _ => i.raw e x y
  | fuel + 1, o =>
    let q := mirror i.w ((x : Int) + o)
    if i.chan q y = i.chan x y then i.raw e q y else IspIn.near i e x y d fuel (o + d)

/-- Stage 2 for exposure `e`. -/
def IspIn.defect (i : IspIn) (e x y : Nat) : Int :=
  let v := i.raw e x y
  if !setStage i.b 2 then v
  else if i.defects.contains (y * 65536 + x) then fsh (i.near e x y (-1) 4 (-1) + i.near e x y 1 4 1 + 1) 1
  else
    let ns := window5.filterMap fun o =>
      if o = (0, 0) then none
      else
        let qx := mirror i.w ((x : Int) + o.1)
        let qy := mirror i.h ((y : Int) + o.2)
        if i.chan qx qy = i.chan x y then some (i.raw e qx qy) else none
    match ns with
    | [] => v
    | a :: rest =>
      let mn := rest.foldl min a
      let mx := rest.foldl max a
      if mx + setU i.b 0x40 4 < v then mx else if v < mn - setU i.b 0x44 4 then mn else v

/-- Stages 3 and 4 for exposure `e`. -/
def IspIn.linear (i : IspIn) (e x y : Nat) : Int :=
  let v := i.defect e x y
  let xb := if setStage i.b 3 then max 0 (v - setU i.b (0x60 + 16 * e + 4 * i.chan x y) 4) else v
  if !setStage i.b 4 then xb
  else
    let sh := i.bits - 8
    let k := (fsh xb sh).toNat
    let f := xb - (k * 2 ^ sh : Nat)
    let at_ (j : Nat) : Int := setU i.b (0x100 + 1040 * e + 4 * j) 4
    u24 (at_ k + rnd ((at_ (k + 1) - at_ k) * f) sh)

/-- Stage 5: one value per site. -/
def IspIn.merge (i : IspIn) (x y : Nat) : Int :=
  if i.exps ≤ 1 ∨ !setStage i.b 5 then i.linear 0 x y
  else
    let z (e : Nat) : Int := u24 (rnd (i.linear e x y * setU i.b (0xC0 + 2 * e) 2) 8)
    let e := ((List.range (i.exps - 1)).find? fun e => decide (i.raw e x y < setU i.b (0xA0 + 4 * e) 4)).getD (i.exps - 1)
    let k := setU i.b (0xB0 + 4 * e) 4
    if e < i.exps - 1 ∧ k ≤ i.raw e x y then
      let a := min 256 (fsh ((i.raw e x y - k) * setU i.b (0xC8 + 2 * e) 2) 16)
      rnd (z e * (256 - a) + z (e + 1) * a) 8
    else z e

/-- The interpolated gain of a 33 × 33 grid at byte `o` of the set (stage 6). -/
def IspIn.grid (i : IspIn) (o x y : Nat) : Int :=
  let u := x * (32 * 65536 / (i.w - 1))
  let v := y * (32 * 65536 / (i.h - 1))
  let a := min 31 (u / 65536)
  let c := min 31 (v / 65536)
  let fu : Int := (min 256 ((u - a * 65536) / 256) : Nat)
  let fv : Int := (min 256 ((v - c * 65536) / 256) : Nat)
  let g (j k : Nat) : Int := setU i.b (o + 2 * (k * 33 + j)) 2
  rnd (g a c * ((256 - fu) * (256 - fv)) + g (a + 1) c * (fu * (256 - fv)) + g a (c + 1) * ((256 - fu) * fv) + g (a + 1) (c + 1) * (fu * fv)) 16

/-- Stage 6. -/
def IspIn.shade (i : IspIn) (x y : Nat) : Int :=
  let v := i.merge x y
  if setStage i.b 6 then u24 (rnd (v * i.grid (0x1140 + 2178 * i.chan x y) x y) 12) else v

/-- Stage 7. -/
def IspIn.white (i : IspIn) (x y : Nat) : Int :=
  let v := i.shade x y
  if setStage i.b 7 then u24 (rnd (v * setU i.b (0x3380 + 2 * i.chan x y) 2) 12) else v

/-! ### Stage 8 (R70) -/

/-- The value of the site at mirrored coordinates. -/
def IspIn.site (i : IspIn) (x y : Int) : Int := i.white (mirror i.w x) (mirror i.h y)

/-- The guide value G′ at (x, y). -/
def IspIn.guide (i : IspIn) (x y : Nat) : Int :=
  if i.pat = 5 ∨ i.chan x y = patGuide i.pat then i.white x y
  else
    let X : Int := x
    let Y : Int := y
    let v := i.white x y
    let l := i.site (X - 1) Y
    let r := i.site (X + 1) Y
    let t := i.site X (Y - 1)
    let d := i.site X (Y + 1)
    let cx := 2 * v - i.site (X - 2) Y - i.site (X + 2) Y
    let cy := 2 * v - i.site X (Y - 2) - i.site X (Y + 2)
    let bayer : Bool := i.pat == 0
    let hh : Int := ((l - r).natAbs : Nat) + (if bayer then (cx.natAbs : Nat) else 0)
    let vv : Int := ((t - d).natAbs : Nat) + (if bayer then (cy.natAbs : Nat) else 0)
    let gh := if bayer then fsh (2 * (l + r) + cx + 2) 2 else rnd (l + r) 1
    let gv := if bayer then fsh (2 * (t + d) + cy + 2) 2 else rnd (t + d) 1
    let e := setU i.b 0x3390 4
    u24 (if hh + e < vv then gh else if vv + e < hh then gv else rnd (gh + gv) 1)

/-- Channel `k` at (x, y). -/
def IspIn.channel (i : IspIn) (k x y : Nat) : Int :=
  if k = patGuide i.pat then i.guide x y
  else if i.chan x y = k then i.white x y
  else
    let ds := window5.filterMap fun o =>
      let qx := mirror i.w ((x : Int) + o.1)
      let qy := mirror i.h ((y : Int) + o.2)
      if i.chan qx qy = k then some (i.white qx qy - i.guide qx qy) else none
    let n : Int := ds.length
    if n = 0 then i.guide x y else u24 (i.guide x y + (ds.foldl (· + ·) 0 + n / 2) / n)

/-- The fourth plane (R60, R70). -/
def IspIn.fourth (i : IspIn) (x y : Nat) : Int := i.channel (if i.pat = 2 ∨ i.pat = 3 then 1 else 3) x y

/-- The three planes that leave stage 8, or the one plane of Mono. -/
def IspIn.recon (i : IspIn) (r x y : Nat) : Int :=
  if i.pat = 5 then i.white x y
  else if i.pat = 0 then i.channel r x y
  else u24 (rnd ((List.range (patChannels i.pat)).foldl (fun a k => a + setS i.b (0x33A0 + 8 * r + 2 * k) 2 * i.channel k x y) 0) 12)

/-! ### Stages 9 to 13 (R69) -/

/-- Stage 9. -/
def IspIn.colour (i : IspIn) (r x y : Nat) : Int :=
  if i.pat = 5 ∨ !setStage i.b 9 then i.recon r x y
  else u24 (rnd ((List.range 3).foldl (fun a k => a + setS i.b (0x33C0 + 6 * r + 2 * k) 2 * i.recon k x y) 0) 12 +
    setS i.b (0x33D4 + 4 * r) 4)

/-- q(Y) of stage 10. -/
def toneIdx (y : Nat) : Nat :=
  if y < 256 then y
  else
    let k := Nat.log2 y - 7
    128 * (k + 1) + y / 2 ^ k - 128

/-- Stage 10, global and local. -/
def IspIn.tone (i : IspIn) (r x y : Nat) : Int :=
  let v := i.colour r x y
  let t : Int :=
    if setStage i.b 10 then
      let q := toneIdx v.toNat
      let k := q / 9
      let f : Int := (q % 9 : Nat)
      let at_ (j : Nat) : Int := setU i.b (0x33E0 + 2 * j) 2
      u16 (at_ k + ((at_ (k + 1) - at_ k) * f + 4) / 9)
    else u16 (fsh v (getLE i.b 0x0C 1))
  if setStage i.b 16 then u16 (rnd (t * i.grid 0x35F0 x y) 12) else t

/-- The index d of SW for a squared distance. -/
def swIndex (d2 : Nat) : Nat := if d2 ≤ 2 then d2 else if d2 = 4 then 3 else if d2 = 5 then 4 else 5

/-- Stage 11. -/
def IspIn.denoise (i : IspIn) (r x y : Nat) : Int :=
  let c := i.tone r x y
  if !setStage i.b 11 then c
  else
    let ws := window5.map fun o =>
      let p := i.tone r (mirror i.w ((x : Int) + o.1)) (mirror i.h ((y : Int) + o.2))
      let d2 := o.1.natAbs * o.1.natAbs + o.2.natAbs * o.2.natAbs
      let w : Int := setU i.b (0x3E80 + swIndex d2) 1 * setU i.b (0x3E90 + min 31 ((p - c).natAbs / 2 ^ getLE i.b 0x3E88 1)) 1
      (w, p)
    let sw := ws.foldl (fun (a : Int) e => a + e.1) 0
    let sp := ws.foldl (fun (a : Int) e => a + e.1 * e.2) 0
    let f := (sp + sw / 2) / sw
    c + fsh ((f - c) * setU i.b 0x3E8C 2 + 128) 8

/-- Stage 12: the data that enters stage 13. -/
def IspIn.gamma (i : IspIn) (r x y : Nat) : Int :=
  let v := i.denoise r x y
  if !setStage i.b 12 then v
  else
    let k := (v / 256).toNat
    let at_ (j : Nat) : Int := setU i.b (0x3EB0 + 2 * j) 2
    at_ k + rnd ((at_ (k + 1) - at_ k) * (v % 256)) 8

/-- Component `r` of Pass input at (x, y) (R61): nothing where the line has not reached. -/
def passIn (l : List Byte) (dt r x : Nat) : Option Int :=
  let at_ (o : Nat) : Int := (getLE l o 1 : Nat)
  if dt = 0x1E then
    let o := x / 2 * 4
    let k := if r = 0 then o + 2 * (x % 2) + 1 else o + 2 * (r - 1)
    if o + 4 ≤ l.length then some (at_ k * 257) else none
  else if dt = 0x1F then
    let o := x / 2 * 5
    let j := if r = 0 then 2 * (x % 2) + 1 else 2 * (r - 1)
    if o + 5 ≤ l.length then some ((at_ (o + j) * 4 + (fld (getLE l (o + 4) 1) (2 * j) 2 : Nat)) * 64) else none
  else if 3 * x + 3 ≤ l.length then some (at_ (3 * x + 2 - r) * 257) else none

/-- What enters stage 13 at (x, y), component `r`. -/
def IspFrame.pre (f : IspFrame) (i : IspIn) (r x y : Nat) : Int :=
  if i.pat = 6 then
    (match (Tab.get? f.lines y).bind fun l => passIn l f.dt r x with
      | some v => v
      | none => (Config.missingSample y (3 * x + r) % 65536 : Nat))
  else i.gamma r x y

/-- What leaves stage 13 at (x, y), component `r`. -/
def IspFrame.post (f : IspFrame) (i : IspIn) (r x y : Nat) : Int :=
  if i.pat = 5 ∨ !setStage i.b 13 then f.pre i r x y
  else u16 (rnd ((List.range 3).foldl (fun a k => a + setS i.b (0x40C0 + 6 * r + 2 * k) 2 * f.pre i k x y) 0) 12 +
    setS i.b (0x40D4 + 4 * r) 4)

/-! ### Stage 14 (R71, R72) -/

/-- An 8-bit component. -/
def comp8 (v : Int) : Nat := (min 255 (rnd v 8)).toNat

/-- A 10-bit component, in bits [15:6]. -/
def comp10 (v : Int) : Nat := (min 1023 (rnd v 6)).toNat * 64

/-- The elements of one output row, by coordinates: those of primary row `y`; UV rows follow the Y rows and come with every second
row (R71). -/
def IspFrame.primary (f : IspFrame) (i : IspIn) (rank3 : Bool) (y : Nat) : List (List Nat × Nat) :=
  let xs := List.range f.width
  let sum4 (r x y : Nat) : Int := rnd (f.post i r x y + f.post i r (x + 1) y + f.post i r x (y + 1) + f.post i r (x + 1) (y + 1)) 2
  let planar (c : Int → Nat) : List (List Nat × Nat) :=
    xs.map (fun x => ([x, y], c (f.post i 0 x y))) ++
      (if y % 2 = 0 then [] else xs.map fun x => ([x, f.height + y / 2], c (sum4 (1 + x % 2) (x / 2 * 2) (y - 1))))
  match setFmt f.set with
  | 1 => planar comp8
  | 2 => planar comp10
  | 3 => xs.flatMap fun x =>
      let r := 1 + x % 2
      let a := x / 2 * 2
      [([2 * x, y], comp8 (f.post i 0 x y)), ([2 * x + 1, y], comp8 (rnd (f.post i r a y + f.post i r (a + 1) y) 1))]
  | 4 => xs.flatMap fun x => (List.range 3).map fun r => (if rank3 then [r, x, y] else [3 * x + r, y], comp8 (f.post i r x y))
  | 5 => (List.range 3).flatMap fun r => xs.map fun x => ([x, y, r], (f.post i r x y).toNat)
  | 6 => xs.map fun x => ([x, y], comp8 (f.post i 0 x y))
  | 7 => xs.map fun x => ([x, y], (f.post i 0 x y).toNat)
  | _ => []

/-- The elements of row `y` of the tensor planes (R72). -/
def IspFrame.tensor (f : IspFrame) (i : IspIn) (etype y : Nat) : List (List Nat × Nat) :=
  (List.range (setTch f.set)).flatMap fun k => (List.range f.width).map fun x =>
    let v : Int := if k = 3 then fsh (i.fourth x y) 8 else if getLE f.set 0x40E0 1 = 0 then f.pre i k x y else f.post i k x y
    let d := v - setU f.set (0x40E2 + 2 * (if k = 3 then 0 else k)) 2
    let t := (mul32 (to32 (Val.ofInt d)).1 (getLE f.set (0x40E8 + 4 * k) 4)).1
    ([x, y, k], (convert etype (val32 t) 0 true 0).1)

/-- The elements of row `y` of the auxiliary plane (R71). -/
def IspFrame.aux (f : IspFrame) (i : IspIn) (u8 : Bool) (y : Nat) : List (List Nat × Nat) :=
  (List.range f.width).map fun x =>
    let v := u16 (fsh (if i.pat = 5 then f.post i 0 x y else i.fourth x y) (getLE f.set 0x0D 1))
    ([x, y], if u8 then comp8 v else v.toNat)

/-- Bytes at an address, joined to the run before when they follow it. -/
def joinRun (runs : List (Nat × List Byte)) (e : Nat × List Byte) : List (Nat × List Byte) :=
  match runs with
  | (a, bs) :: rest => if a + bs.length = e.1 then (a, bs ++ e.2) :: rest else e :: runs
  | [] => [e]

/-- The writes of one row of elements of a descriptor. -/
def Desc.rowRuns (t : Desc) (els : List (List Nat × Nat)) : List (Nat × List Byte) :=
  (els.foldl (fun runs e => joinRun runs ((t.elemAddr e.1).1, leBytes (t.bits / 8) e.2)) []).reverse

/-- The padding that a blocked plane gets with row `y` (R173): the columns beyond the last, and the rows below the last row. -/
def padEls (t : Desc) (w h y : Nat) (planes : List Nat) : List (List Nat × Nat) :=
  let wide := ceilDiv w t.bc * t.bc
  let tall := ceilDiv h t.br * t.br
  planes.flatMap fun k =>
    ((List.range (wide - w)).map fun j => ([w + j, y, k], 0)) ++
    (if y + 1 = h then (List.range (tall - h)).flatMap fun j => (List.range wide).map fun x => ([x, h + j, k], 0) else [])

/-- Write runs for context `u`, until one is refused (R20). -/
def State.ispWrite (s : State) (u : Nat) (p : Nat) (bad : Bool) : List (Nat × List Byte) → Option State
  | [] => some s
  | (a, bs) :: rest =>
    match s.writeDva p (uIsp (u / 4)) a bs bad with
    | .done s' => State.ispWrite s' u p bad rest
    | _ => none

/-- The inputs of the stages for the frame of context `u`. -/
def State.ispIn (s : State) (u : Nat) (f : IspFrame) : IspIn :=
  let cfg := s.ictxCfg u
  let n := (rawBits f.dt).getD 8
  { b := f.set, w := f.width, h := f.height, pat := fld cfg 4 4, px := fld cfg 8 2, py := fld cfg 10 2, bits := n, exps := fld cfg 1 2 + 1,
    raw := fun e x y => f.sample n e x y, defects := f.defects }

/-- Input row `y` of exposure `e` is there, or will not come. -/
def IspFrame.rowReady (f : IspFrame) (e y : Nat) : Bool :=
  (Tab.get? f.lines (e * 65536 + y)).isSome || f.ended.contains e || f.missing || f.badRows.contains y

/-- The input that output row `y` needs is there: the stages together reach 8 rows down. -/
def IspFrame.ready (f : IspFrame) (exps y : Nat) : Bool :=
  (List.range exps).all fun e => (List.range (min (y + 9) f.height)).all fun r => f.rowReady e r

/-- Output row `y` is poisoned in the marking mode (R77): a faulty or missing input row within 6 rows, or a missing exposure. -/
def IspFrame.rowBad (f : IspFrame) (exps y : Nat) : Bool :=
  f.missing || f.badRows.any (fun r => r ≤ y + 6 && y ≤ r + 6) ||
    (List.range (y + 7)).any (fun r => y ≤ r + 6 && r < f.height &&
      (List.range exps).any fun e => (Tab.get? f.lines (e * 65536 + r)).isNone)

/-- The runs of the next row of frame `f` of context `u`: of the primary, tensor and auxiliary outputs that it has (R71 to R73). -/
def State.ispRow (s : State) (u : Nat) (f : IspFrame) :=
  let y := f.rows
  let i := s.ispIn u f
  let img (k : Nat) : Desc := Desc.ofBytes (f.out.getD k (0, [])).2
  let on (k : Nat) : Bool := (f.out.getD k (0, [])).1 != 0
  let pr := if on 0 then (img 0).rowRuns (f.primary i ((img 0).rank == 3) y) else []
  let te := if on 1 then
      (img 1).rowRuns (f.tensor i (img 1).etype y ++ padEls (img 1) f.width f.height y (List.range (setTch f.set))) else []
  let au := if on 2 then (img 2).rowRuns (f.aux i ((img 2).etype == 0x09) y ++
      (if (img 2).layout = 1 then (padEls (img 2) f.width f.height y [0]) else [])) else []
  pr ++ te ++ au

/-- ISP_ROW_OUTPUT (R63, R71 to R73, R77): the next row of every output is computed and written, and the counters advance. -/
def execIspRowOutput (u : Fin 48) (s : State) : Res :=
  let x := s.ictx u
  match x.frame with
  | none => .next s
  | some f =>
    let exps := s.ictxExp u
    let y := f.rows
    if f.height ≤ y ∨ !f.ready exps y then .next s
    else
      match s.ispWrite u f.pt (f.rowBad exps y) (s.ispRow u f) with
      | none => .next ((s.err f.pt (uIsp (u / 4)) 0x0503 y).ispStop u 0x0503).crzDrain
      | some s1 =>
        let s2 := s1.setIctx u { s1.ictx u with frame := some { f with rows := y + 1 } }
        .next (s2.ispAdvance u).crzDrain

/-! ### Statistics (R75) -/

/-- The bins of HIST: 256 counts. -/
def IspFrame.hist (f : IspFrame) (i : IspIn) : List Byte :=
  let bins := (List.range f.height).foldl (fun (t : Tab Nat) (y : Nat) => (List.range f.width).foldl (fun (t : Tab Nat) (x : Nat) =>
    let v : Int := if i.pat = 5 then i.white x y else rnd (i.colour 0 x y + 2 * i.colour 1 x y + i.colour 2 x y) 2
    t.upd (toneIdx v.toNat / 9) 0 (· + 1)) t) []
  (List.range 256).flatMap fun k => leBytes 4 (bins.getD k 0)

/-- The 8 × 8 zones of SHARP. -/
def IspFrame.sharp (f : IspFrame) (i : IspIn) : List Byte :=
  let sums := (List.range f.height).foldl (fun (t : Tab Nat) (y : Nat) => (List.range f.width).foldl (fun (t : Tab Nat) (x : Nat) =>
    let g (dx dy : Int) : Int := i.guide (mirror i.w ((x : Int) + dx)) (mirror i.h ((y : Int) + dy))
    let d := (4 * g 0 0 - g (-1) 0 - g 1 0 - g 0 (-1) - g 0 1).natAbs
    t.upd (y * 8 / f.height * 8 + x * 8 / f.width) 0 (· + d)) t) []
  (List.range 64).flatMap fun k => leBytes 8 (sums.getD k 0)

/-- The 32 × 32 zones of ZONE. -/
def IspFrame.zones (f : IspFrame) (i : IspIn) : List Byte :=
  let t := (List.range f.height).foldl (fun (t : Tab Nat) (y : Nat) => (List.range f.width).foldl (fun (t : Tab Nat) (x : Nat) =>
    let z := (y * 32 / f.height * 32 + x * 32 / f.width) * 5
    let t1 := t.upd (z + i.chan x y) 0 (· + (fsh (i.shade x y) 8).toNat)
    if (List.range i.exps).all fun e => decide (setU i.b (0xA0 + 4 * e) 4 ≤ i.raw e x y) then t1.upd (z + 4) 0 (· + 1) else t1) t) []
  (List.range 1024).flatMap fun k => ((List.range 5).flatMap fun j => leBytes 4 (t.getD (k * 5 + j) 0)) ++ leBytes 12 0

/-- The statistics slot (R75): 0x8640 bytes. Of Pass input, which has no stage 1 to 12, the spec gives no statistics: free values. -/
def State.statsSlot (s : State) (f : IspFrame) (i : IspIn) : List Byte × State :=
  let (free, s1) := s.fresh
  let head := leBytes 8 (f.seq % 2 ^ 48) ++ leBytes 8 f.recA ++ leBytes 4 (getLE f.set 4 4) ++
    leBytes 4 (1 + (if f.missing || !f.badRows.isEmpty then 2 else 0)) ++ leBytes 8 f.fsTime ++ leBytes 28 0
  let body := if i.pat = 6 then leBytes 0x8600 free else f.hist i ++ f.sharp i ++ f.zones i
  (head ++ leBytes 4 (crc32c (head ++ body)) ++ body, s1)

/-- The statistics ring of context `u` meets R75. -/
def State.statsRingOk (s : State) (u : Nat) : Bool :=
  let base := s.rdN (Reg.ISP_CTX_STATS_BASE (u / 4) (u % 4))
  base % 4096 == 0 && s.regionCovers (s.ictxPt u) base (s.rdF (Reg.ISP_CTX_STATS_CFG (u / 4) (u % 4)) 0 5 * 0x9000) .write

/-- Write the statistics of a frame (R75): STATS_FLAG follows the slot; a ring that breaks the rules raises 0x0208. -/
def State.ispStats (s : State) (u : Nat) (f : IspFrame) : State :=
  let n := u / 4
  let c := u % 4
  let depth := s.rdF (Reg.ISP_CTX_STATS_CFG n c) 0 5
  if depth = 0 then s
  else if !s.statsRingOk u then s.ispErr u 0x0208
  else
    let k := (s.ictx u).slot % depth
    let (b, s1) := s.statsSlot f (s.ispIn u f)
    match s1.writeDva f.pt (uIsp n) (s1.rdN (Reg.ISP_CTX_STATS_BASE n c) + k * 0x9000) b with
    | .done s2 => (s2.setIctx u { s2.ictx u with slot := (k + 1) % depth }).flagReg f.pt (Reg.ISP_CTX_STATS_FLAG n c) 1 (uIsp n)
    | .refused e d => s1.oob f.pt (uIsp n) none e d
    | .bus d => s1.err f.pt (uIsp n) 0x0907 d

/-- ISP_STATS_WRITE (R75, R140): after the last row, and once the rewrites of the frame are complete, the statistics are written and the
node ends. -/
def execIspStatsWrite (u : Fin 48) (s : State) : Res :=
  match (s.ictx u).frame with
  | none => .next s
  | some f =>
    if f.rows < f.height ∨ s.rewriting f.pt f.handles then .next s
    else
      let s1 := (s.ispAdvance u).ispStats u f
      let s2 := (s1.setIctx u { s1.ictx u with frame := none }).bump (Reg.ISP_CTX_FRAMES (u / 4) (u % 4)) 1
      .next ((s2.event (uIsp (u / 4)) 0x02 f.pt 0 f.seq 0).crzDone f.node 0).crzDrain

end Sys2Proof.Machine
end

