-- ==== Sys2Proof/Machine/BrkCalc.lean ====
section
/-! DEFINITION. Sys2Proof/Machine/BrkCalc.lean: the arithmetic of the Bracken engines bit by bit (04_pyramids_filters_warps_features,
R87 to R108; 05_flow_and_stereo, R113 to R126). A sample carries whether a poisoned granule was read for it (R111, R129). -/

namespace Sys2Proof.Machine

/-- A sample: its value, and whether it is tainted by poison. -/
abbrev Px := Int × Bool

/-- Rows of a plane at hand. -/
abbrev Rows := Tab (List Px)

/-- Sample (x, y). -/
def rowPx (t : Rows) (x y : Nat) : Px := (t.getD y []).getD x (0, false)

/-- Combine the taint of a list of samples. -/
def anyBad (l : List Px) : Bool := l.any (·.2)

/-- The range of a pixel format (R87). -/
def pixClamp (pix : Nat) (v : Int) : Int :=
  if pix = 0 then clamp v 0 255 else if pix = 1 then clamp v 0 65535 else clamp v (-32768) 32767

/-- Bytes of a pixel (R82). -/
def pixBytes (pix : Nat) : Nat := if pix = 0 then 1 else 2

/-- The value of a pixel's code (R82). -/
def pixVal (pix code : Nat) : Int := if pix = 2 then signedOf 16 code else (code : Int)

/-- The code of a pixel's value. -/
def pixCode (pix : Nat) (v : Int) : Nat := codeOf (8 * pixBytes pix) v

/-- The position a border mode takes for index `i` of 0 to n - 1 (R87): 0 mirror, 1 replicate, else none. -/
def borderIdx (mode n : Nat) (i : Int) : Option Nat :=
  if 0 ≤ i ∧ i < n then some i.toNat
  else if mode = 0 then some (mirror n i)
  else if mode = 1 then some (clamp i 0 ((n : Int) - 1)).toNat
  else none

/-- The sample at (x, y) under a border mode; the constant is never tainted. -/
def borderPx (rows : Rows) (w h mode : Nat) (const : Int) (x y : Int) : Px :=
  match borderIdx mode w x, borderIdx mode h y with
  | some a, some b => rowPx rows a b
  | _, _ => (const, false)

/-- A weighted sum of samples. -/
def wsum (l : List (Int × Px)) : Px := (l.foldl (fun a e => a + e.1 * e.2.1) 0, l.any fun e => e.2.2)

/-! ### Pyramid (R89, R90) -/

/-- The weights g of R89. -/
def gaussW (i : Nat) : Int := [1, 4, 6, 4, 1].getD i 0

/-- The 25 products of R89 round (cx, cy) in a w × h plane with mirror borders. -/
def gaussSum (rows : Rows) (w h : Nat) (cx cy : Int) : Px :=
  wsum ((List.range 25).map fun k =>
    (gaussW (k % 5) * gaussW (k / 5), borderPx rows w h 0 0 (cx + ((k % 5 : Nat) : Int) - 2) (cy + ((k / 5 : Nat) : Int) - 2)))

/-- A Gaussian sample of the next level (R89). -/
def gaussPx (rows : Rows) (w h x y : Nat) : Px :=
  let a := gaussSum rows w h (2 * x) (2 * y)
  (fsh (a.1 + 128) 8, a.2)

/-- The weights of R90 along one axis. -/
def expandW (x : Nat) : List (Int × Int) :=
  let k : Int := (x / 2 : Nat)
  if x % 2 = 0 then [(k - 1, 1), (k, 6), (k + 1, 1)] else [(k, 4), (k + 1, 4)]

/-- A sample of the expansion of a w × h level (R90). -/
def expandPx (rows : Rows) (w h x y : Nat) : Px :=
  let a := wsum ((expandW y).flatMap fun r => (expandW x).map fun c => (r.2 * c.2, borderPx rows w h 0 0 c.1 r.1))
  (fsh (a.1 + 32) 6, a.2)

/-! ### Filter (R92, R93) -/

/-- The k-th smallest, counted from 0. -/
def kth (l : List Int) (k : Nat) : Int :=
  let le (a b : Int) : Bool := decide (a ≤ b)
  (l.mergeSort le).getD k 0

/-- A sample of a filter job (R93). -/
def filterPx (b : List Byte) (rows : Rows) (w h x y : Nat) : Px :=
  let mode := getLE b 0x14 1
  let nh := getLE b 0x15 1
  let nv := if mode = 0 then getLE b 0x16 1 else nh
  let s (i j : Nat) : Px := borderPx rows w h (getLE b 0x17 1) (pixVal (getLE b 0x18 1) (getLE b 0x20 2 % 2 ^ (8 * pixBytes (getLE b 0x18 1))))
    ((x : Int) + i - ((nh - 1) / 2 : Nat)) ((y : Int) + j - ((nv - 1) / 2 : Nat))
  let cells := (List.range (nh * nv)).map fun k => (k % nh, k / nh)
  if mode = 2 then
    let l := cells.map fun c => s c.1 c.2
    (kth (l.map (·.1)) (nh * nh / 2), anyBad l)
  else
    let coef (i j : Nat) : Int :=
      if mode = 0 then signedOf 16 (getLE b (0x30 + 2 * i) 2) * signedOf 16 (getLE b (0x50 + 2 * j) 2)
      else signedOf 16 (getLE b (0x30 + 2 * (j * nh + i)) 2)
    let a := wsum (cells.map fun c => (coef c.1 c.2, s c.1 c.2))
    (pixClamp (getLE b 0x19 1) (rnd a.1 (getLE b 0x1A 1) + signedOf 32 (getLE b 0x1C 4)), a.2)

/-! ### Warp (R95 to R99) -/

/-- An integer in FP32. -/
def intTo32 (i : Int) : Nat := (to32 (Val.ofInt i)).1

/-- An FP32 code to the nearest integer, ties to even. -/
def roundEven (c : Nat) : Int := signedOf 32 (convert 0x0B (val32 c) 0 true 0).1

/-- The three sums of R97 for point (x, y): u, v, w. -/
def homoSums (c : Nat → Nat) (x y : Int) : Nat × Nat × Nat :=
  let row (k : Nat) : Nat := (add32 (add32 (mul32 (c k) (intTo32 x)).1 (mul32 (c (k + 1)) (intTo32 y)).1).1 (c (k + 2))).1
  (row 0, row 3, row 6)

/-- sx and sy of R97; nothing when w ≤ 0 or a result is NaN. -/
def homography (c : Nat → Nat) (x y : Int) : Option (Nat × Nat) :=
  let (u, v, w) := homoSums c x y
  let sx := (div32 u w).1
  let sy := (div32 v w).1
  if isNan32 w || isNan32 sx || isNan32 sy || decide (cmpKey w ≤ 0) then none else some (sx, sy)

/-- |c| of an FP32 code is 2^k or more. -/
def absAtLeast (c k : Nat) : Bool := decide ((127 + k) * 2 ^ 23 ≤ c % 2 ^ 31)

/-- P of R97 for output pixel (x, y); nothing is FILL. -/
def homoPos (c : Nat → Nat) (x y : Nat) : Option (Int × Int) :=
  match homography c x y with
  | none => none
  | some (sx, sy) =>
    if absAtLeast sx 19 || absAtLeast sy 19 then none
    else some (roundEven (mul32 sx (intTo32 4096)).1, roundEven (mul32 sy (intTo32 4096)).1)

/-- A mesh node (R96): nothing for an invalid one; and its taint. -/
abbrev MeshNode := Option (Int × Int) × Bool

/-- P of R96 from the four nodes of output pixel (x, y). -/
def meshPos (node : Nat → Nat → MeshNode) (x y : Nat) : Option (Int × Int) × Bool :=
  let i := x / 16
  let j := y / 16
  let fx : Int := (x % 16 : Nat)
  let fy : Int := (y % 16 : Nat)
  let a := node i j
  let b := node (i + 1) j
  let c := node i (j + 1)
  let d := node (i + 1) (j + 1)
  let bad := a.2 || b.2 || c.2 || d.2
  match a.1, b.1, c.1, d.1 with
  | some a, some b, some c, some d =>
    let mix (f : Int × Int → Int) : Int :=
      rnd (f a * ((16 - fx) * (16 - fy)) + f b * (fx * (16 - fy)) + f c * ((16 - fx) * fy) + f d * (fx * fy)) 8
    (some (mix (·.1), mix (·.2)), bad)
  | _, _, _, _ => (none, bad)

/-- The taps of position `p` along one axis, with their weights (R98). -/
def warpTaps (cubic : Bool) (p : Int) : List (Int × Int) :=
  let xi := fsh p 12
  let f := fsh p 6 % 64
  if cubic then
    [(xi - 1, -(f * f * f) + 128 * (f * f) - 4096 * f), (xi, 3 * (f * f * f) - 320 * (f * f) + 524288),
     (xi + 1, -3 * (f * f * f) + 256 * (f * f) + 4096 * f), (xi + 2, f * f * f - 64 * (f * f))]
  else [(xi, 64 - f), (xi + 1, f)]

/-- A sample of a warp job at position `p` of the source (R98, R99). -/
def warpPx (rows : Rows) (w h pix : Nat) (cubic edge : Bool) (fill : Int) (p : Option (Int × Int)) : Px :=
  match p with
  | none => (fill, false)
  | some (px, py) =>
    let tx := warpTaps cubic px
    let ty := warpTaps cubic py
    if edge && (tx.any (fun t => decide (t.1 < 0 ∨ (w : Int) ≤ t.1)) || ty.any (fun t => decide (t.1 < 0 ∨ (h : Int) ≤ t.1))) then (fill, false)
    else
      let a := wsum (ty.flatMap fun r => tx.map fun c => (r.2 * c.2, borderPx rows w h 1 0 c.1 r.1))
      (pixClamp pix (rnd a.1 (if cubic then 38 else 12)), a.2)

/-! ### Features (R103 to R107) -/

/-- Sobel responses at (x, y) (R103). -/
def sobel (I : Int → Int → Int) (x y : Int) : Int × Int :=
  ((I (x + 1) (y - 1) + 2 * I (x + 1) y + I (x + 1) (y + 1)) - (I (x - 1) (y - 1) + 2 * I (x - 1) y + I (x - 1) (y + 1)),
   (I (x - 1) (y + 1) + 2 * I x (y + 1) + I (x + 1) (y + 1)) - (I (x - 1) (y - 1) + 2 * I x (y - 1) + I (x + 1) (y - 1)))

/-- SCORE of a Harris candidate (R103). -/
def harris (I : Int → Int → Int) (k : Int) (x y : Int) : Nat :=
  let t := (List.range 25).map fun n =>
    let g := sobel I (x + ((n % 5 : Nat) : Int) - 2) (y + ((n / 5 : Nat) : Int) - 2)
    (gaussW (n % 5) * gaussW (n / 5), g)
  let sum (f : Int × Int → Int) : Int := fsh (t.foldl (fun a e => a + e.1 * f e.2) 0) 8
  let a := sum fun g => g.1 * g.1
  let b := sum fun g => g.1 * g.2
  let c := sum fun g => g.2 * g.2
  (clamp (fsh (a * c - b * b - fsh (k * (a + c) * (a + c)) 8) 8) 0 0xFFFFFFFF).toNat

/-- The circle of R104. -/
def circle16 : List (Int × Int) :=
  [(0, -3), (1, -3), (2, -2), (3, -1), (3, 0), (3, 1), (2, 2), (1, 3), (0, 3), (-1, 3), (-2, 2), (-3, 1), (-3, 0), (-3, -1), (-2, -2), (-1, -3)]

/-- The least of a list. -/
def minOf (l : List Int) : Int :=
  match l with
  | [] => 0
  | a :: r => r.foldl min a

/-- SCORE of the segment test (R104). -/
def segment (I : Int → Int → Int) (arc : Nat) (x y : Int) : Nat :=
  let p (i : Nat) : Int := let o := circle16.getD (i % 16) (0, 0)
                           I (x + o.1) (y + o.2) - I x y
  let runs := (List.range 16).flatMap fun st =>
    let l := (List.range arc).map fun i => p (st + i)
    [minOf l, minOf (l.map fun v => -v)]
  (runs.foldl max 0).toNat

/-- A candidate: raster position and score. -/
structure Cand where
  y : Nat
  x : Nat
  score : Nat
deriving DecidableEq, Repr

/-- Survivors of the suppression of R105, in raster order. -/
def survivors (r : Nat) (l : List Cand) : List Cand :=
  l.filter fun c => !l.any fun d =>
    (d.x ≤ c.x + r && c.x ≤ d.x + r && d.y ≤ c.y + r && c.y ≤ d.y + r) && (d.x != c.x || d.y != c.y) &&
    (decide (c.score < d.score) || (c.score == d.score && (decide (d.y < c.y) || (d.y == c.y && decide (d.x < c.x)))))

/-- The order of emission within cells (R106): descending score, ties in raster order, which a stable sort keeps. -/
def byScore (l : List Cand) : List Cand :=
  let le (a b : Cand) : Bool := decide (b.score ≤ a.score)
  l.mergeSort le

/-- The survivors kept, in the order of R106, and whether a cell had more than CAP. -/
def emitOrder (w cw ch cap : Nat) (l : List Cand) : List Cand × Bool :=
  if cw = 0 then (l, false)
  else
    let nx := ceilDiv w cw
    let cell (c : Cand) : Nat := c.y / ch * nx + c.x / cw
    let ids := l.foldl (fun a c => insSorted (cell c) a) []
    let per := ids.map fun k => byScore (l.filter fun c => cell c == k)
    (per.flatMap fun g => g.take cap, per.any fun g => decide (cap < g.length))

/-- One step of the generator of R107. -/
def xorshift (st : Nat) : Nat :=
  let a := st ^^^ (st * 2 ^ 13 % 2 ^ 32)
  let b := a ^^^ (a / 2 ^ 17)
  b ^^^ (b * 2 ^ 5 % 2 ^ 32)

/-- The emitted values of R107 from state `st` on. -/
def pairVals : Nat → Nat → List Int
  | 0, _ => []
  | n + 1, st => let t := xorshift st
                 (((t % 31 : Nat) : Int) - 15) :: pairVals n t

/-- The 256 pairs of sample offsets (R107). -/
def descPairs : List (Int × Int × Int × Int) :=
  let v := pairVals 1024 0x2545F491
  (List.range 256).map fun i => (v.getD (4 * i) 0, v.getD (4 * i + 1) 0, v.getD (4 * i + 2) 0, v.getD (4 * i + 3) 0)

/-- The moments M10 and M01 round (x, y) (R107). -/
def moments (I : Int → Int → Int) (x y : Int) : Int × Int :=
  let ds : List Int := (List.range 31).map fun i => ((i : Nat) : Int) - 15
  ds.foldl (fun (a : Int × Int) dy => ds.foldl (fun (a : Int × Int) dx =>
    if dx * dx + dy * dy ≤ 225 then (a.1 + dx * I (x + dx) (y + dy), a.2 + dy * I (x + dx) (y + dy)) else a) a) (0, 0)

/-- The 32 bytes of a descriptor (R107): S is the smoothed plane. -/
def descriptor (S : Int → Int → Int) (x y : Int) : List Byte :=
  let bits := descPairs.map fun q => decide (S (x + q.1) (y + q.2.1) < S (x + q.2.2.1) (y + q.2.2.2))
  (List.range 32).map fun k => BitVec.ofNat 8 ((List.range 8).foldl (fun a j => a + if bits.getD (8 * k + j) false then 2 ^ j else 0) 0)

/-! ### Flow (R115 to R119) -/

/-- SAD of an 8 × 8 tile between CUR and a reference sample function (R117), with its taint. -/
def sadTile (cur ref_ : Int → Int → Px) (i j : Nat) (dx dy : Int) : Nat × Bool :=
  (List.range 64).foldl (fun (a : Nat × Bool) k =>
    let x : Int := ((8 * i + k % 8 : Nat) : Int)
    let y : Int := ((8 * j + k / 8 : Nat) : Int)
    let p := cur x y
    let q := ref_ (x + dx) (y + dy)
    (a.1 + (p.1 - q.1).natAbs, a.2 || p.2 || q.2)) (0, false)

/-- The 825 candidates round centre c in search order (R117): displacement and J; and the taint. -/
def flowCands (cur ref_ : Int → Int → Px) (lambda i j : Nat) (cx cy : Int) : List (Int × Int × Nat) × Bool :=
  let l := (List.range 825).map fun k =>
    let dx := cx + ((k % 33 : Nat) : Int) - 16
    let dy := cy + ((k / 33 : Nat) : Int) - 12
    let d := sadTile cur ref_ i j dx dy
    ((dx, dy, d.1 + lambda * ((dx - cx).natAbs + (dy - cy).natAbs)), d.2)
  (l.map (·.1), l.any (·.2))

/-- The first candidate of the lowest J. -/
def bestCand (l : List (Int × Int × Nat)) : Int × Int × Nat :=
  match l with
  | [] => (0, 0, 0)
  | a :: r => r.foldl (fun b c => if c.2.2 < b.2.2 then c else b) a

/-- REFq of R118. -/
def refQuarter (ref_ : Int → Int → Px) (X Y : Int) : Px :=
  let xi := fsh X 2
  let yi := fsh Y 2
  let fx := X % 4
  let fy := Y % 4
  let a := wsum [((4 - fx) * (4 - fy), ref_ xi yi), (fx * (4 - fy), ref_ (xi + 1) yi), ((4 - fx) * fy, ref_ xi (yi + 1)),
    (fx * fy, ref_ (xi + 1) (yi + 1))]
  (rnd a.1 4, a.2)

/-- SQ of a quarter-pixel position (R118). -/
def sqTile (cur ref_ : Int → Int → Px) (i j : Nat) (q : Int × Int) : Nat × Bool :=
  (List.range 64).foldl (fun (a : Nat × Bool) k =>
    let x : Int := ((8 * i + k % 8 : Nat) : Int)
    let y : Int := ((8 * j + k / 8 : Nat) : Int)
    let p := cur x y
    let r := refQuarter ref_ (4 * x + q.1) (4 * y + q.2)
    (a.1 + (p.1 - r.1).natAbs, a.2 || p.2 || r.2)) (0, false)

/-- The eight steps of R118 in order, as (sx, sy). -/
def steps8 : List (Int × Int) := [(-1, -1), (0, -1), (1, -1), (-1, 0), (1, 0), (-1, 1), (0, 1), (1, 1)]

/-- One refinement step of size `d` (R118): the position and the taint of what was read. -/
def refineStep (cur ref_ : Int → Int → Px) (i j : Nat) (d : Int) (q : Int × Int) : (Int × Int) × Bool :=
  let c := sqTile cur ref_ i j q
  let r := steps8.foldl (fun (b : (Int × Int) × Nat × Bool) st =>
    let z := (q.1 + d * st.1, q.2 + d * st.2)
    let v := sqTile cur ref_ i j z
    if v.1 < b.2.1 then (z, v.1, b.2.2 || v.2) else (b.1, b.2.1, b.2.2 || v.2)) (q, c.1, c.2)
  (r.1, r.2.2)

/-- P0 of PRED 2 for the level-0 point (x0, y0) (R116); nothing when it falls back. -/
def flowHomo (c : Nat → Nat) (x0 y0 : Int) : Option (Int × Int) :=
  match homography c x0 y0 with
  | none => none
  | some (sx, sy) =>
    let f (v : Nat) (o : Int) : Nat := (mul32 (sub32 v (intTo32 o)).1 (intTo32 4)).1
    let a := f sx x0
    let b := f sy y0
    if isNan32 a || isNan32 b || absAtLeast a 15 || absAtLeast b 15 then none
    else
      let px := roundEven a
      let py := roundEven b
      if 32768 ≤ px.natAbs ∨ 32768 ≤ py.natAbs then none else some (px, py)

/-! ### Stereo (R122 to R126) -/

/-- Ones among the low 48 bits. -/
def popcount (v : Nat) : Nat := (List.range 48).foldl (fun a i => a + v / 2 ^ i % 2) 0

/-- The census at (x, y) with radius rc (R123), and its taint. -/
def census (rows : Rows) (w h rc x y : Nat) : Nat × Bool :=
  let n := 2 * rc + 1
  let c := rowPx rows x y
  let l := (List.range (n * n)).filterMap fun k =>
    if k = n * n / 2 then none
    else some (borderPx rows w h 0 0 ((x : Int) + ((k % n : Nat) : Int) - rc) ((y : Int) + ((k / n : Nat) : Int) - rc))
  (((l.zipIdx).foldl (fun a e => a + if e.1.1 < c.1 then 2 ^ e.2 else 0) 0), c.2 || anyBad l)

/-- The costs of one pixel over its window (R123). -/
def stereoCost (rc base x : Nat) (cl : Nat) (cr : List Nat) : List Nat :=
  let nb := (2 * rc + 1) * (2 * rc + 1) - 1
  (List.range 128).map fun k => if base + k ≤ x then popcount (cl ^^^ cr.getD (x - (base + k)) 0) else nb

/-- A pixel on a path: its left intensity, window base and path costs. -/
structure PathPx where
  il : Int
  base : Nat
  cost : List Nat
deriving DecidableEq, Repr

/-- L_r of one pixel from its predecessor (R124). -/
def pathStep (p1 p2 grad : Nat) (il : Int) (base : Nat) (c : List Nat) (q : Option PathPx) : List Nat :=
  match q with
  | none => c
  | some q =>
    let m := q.cost.foldl min (q.cost.headD 0)
    let a (k : Int) : Option Nat := if (q.base : Int) ≤ k ∧ k < q.base + 128 then some (q.cost.getD (k - q.base).toNat 0) else none
    let p2e := max (p1 + 1) (p2 - (il - q.il).natAbs * grad / 16)
    (c.zipIdx).map fun e =>
      let d : Int := ((base + e.2 : Nat) : Int)
      let best := [(a d), (a (d - 1)).map (· + p1), (a (d + 1)).map (· + p1)].foldl (fun (b : Nat) o => match o with
        | some v => min b v
        | none => b) (m + p2e)
      e.1 + best - m

/-- One row of a path whose predecessor lies in the row `prev` at x + dx. -/
def pathRow (p1 p2 grad : Nat) (dx : Int) (prev : List PathPx) (row : List PathPx) : List PathPx :=
  (row.zipIdx).map fun e =>
    let k := (e.2 : Int) + dx
    let q := if 0 ≤ k ∧ k < row.length then prev[k.toNat]? else none
    { e.1 with cost := pathStep p1 p2 grad e.1.il e.1.base e.1.cost q }

/-- One row of the path that comes from the left. -/
def pathRight (p1 p2 grad : Nat) (row : List PathPx) : List PathPx :=
  (row.foldl (fun (a : List PathPx) e => { e with cost := pathStep p1 p2 grad e.il e.base e.cost a.head? } :: a) []).reverse

/-- Sums of path costs. -/
def addCosts (a b : List PathPx) : List PathPx := (a.zip b).map fun e => { e.1 with cost := (e.1.cost.zip e.2.cost).map fun c => c.1 + c.2 }

/-- The place and value of the first least entry. -/
def argmin (l : List Nat) : Nat × Nat :=
  match l with
  | [] => (0, 0)
  | a :: r => (r.zipIdx).foldl (fun (b : Nat × Nat) e => if e.1 < b.2 then (e.2 + 1, e.1) else b) (0, a)

/-- Disparity and confidence of pixel x of a row of sums (R125, R126). -/
def stereoPick (npath lr confMin : Nat) (row : List PathPx) (x : Nat) : Nat × Nat :=
  match row[x]? with
  | none => (0xFFFF, 0)
  | some p =>
    let (k, best) := argmin p.cost
    let d := p.base + k
    let at_ (j : Nat) : Int := (p.cost.getD j 0 : Nat)
    let off : Int :=
      if 0 < k ∧ k < 127 then
        let den := at_ (k - 1) + at_ (k + 1) - 2 * at_ k
        if 0 < den then clamp (((at_ (k - 1) - at_ (k + 1)) * 16 + den) / (2 * den)) (-8) 8 else 0
      else 0
    let far := ((p.cost.zipIdx).filter fun e => k + 2 ≤ e.2 || e.2 + 2 ≤ k).map (·.1)
    let s2 := far.foldl min (far.headD 0)
    let conf := min 255 ((s2 - best) * 256 / (best + 8 * npath))
    let xr := x - d
    let back := (List.range 512).foldl (fun (b : Option (Nat × Nat)) e =>
      match row[xr + e]? with
      | none => b
      | some q =>
        if q.base ≤ e ∧ e < q.base + 128 then
          let v := q.cost.getD (e - q.base) 0
          match b with
          | some (_, w) => if v < w then some (e, v) else b
          | none => some (e, v)
        else b) none
    let dr := (back.getD (d, 0)).1
    let lrFail := lr != 0 && !(decide (d ≤ dr + (lr - 1)) && decide (dr ≤ d + (lr - 1)))
    let disp :=
      if x < d then 0xFFFF
      else if (k = 0 ∧ 0 < p.base) ∨ (k = 127 ∧ p.base < 384) then 0xFFFE
      else if lrFail then 0xFFFF
      else if conf < confMin then 0xFFFF
      else (((d * 16 : Nat) : Int) + off).toNat
    (disp, conf)

end Sys2Proof.Machine
end

