-- ==== Sys2Proof/Machine/Bracken.lean ====
section
/-! DEFINITION. Sys2Proof/Machine/Bracken.lean: the Bracken engines (04_pyramids_filters_warps_features and 05_flow_and_stereo, R80 to
R130): job acceptance, scheduling, units of work and completion. Engine e by R112: 0, 1 pyramid; 2, 3 filter; 4, 5 warp; 6
feature; 7, 8 flow; 9, 10 stereo. -/

namespace Sys2Proof.Machine

/-! ### Job blocks (R81, R88, R92, R95, R102, R114, R121) -/

/-- KIND of the jobs of engine `e`. -/
def engKind (e : Nat) : Nat := if e < 2 then 1 else if e < 4 then 2 else if e < 6 then 3 else if e = 6 then 4 else if e < 9 then 5 else 6

/-- Bytes of a job block. -/
def jobSize (kind : Nat) : Nat := if kind = 1 then 64 else if kind = 2 then 160 else 128

/-- Bytes lo to hi - 1 of a block are 0. -/
def zeroBlk (b : List Byte) (lo hi : Nat) : Bool := ((b.drop lo).take (hi - lo)).all (· == 0#8)

/-- A pyramid block's fields (R88). -/
def pyrFieldsOk (b : List Byte) : Bool :=
  let n := getLE b 0x12 1
  let mode := getLE b 0x13 1
  2 ≤ n && n ≤ 8 && mode ≤ 2 && getLE b 0x14 1 ≤ 1 && zeroBlk b 0x15 0x18 && zeroBlk b 0x34 0x40 &&
  (List.range 7).all (fun k => getLE b (0x18 + 2 * k) 2 == 0 || (if mode = 1 then k + 1 == n - 1 else k + 1 ≤ n - 1)) &&
  (List.range 7).all (fun k => getLE b (0x26 + 2 * k) 2 == 0 || (mode != 0 && k + 2 ≤ n))

/-- A filter block's fields (R92). -/
def filterFieldsOk (b : List Byte) : Bool :=
  let mode := getLE b 0x14 1
  let nh := getLE b 0x15 1
  let nv := getLE b 0x16 1
  let odd15 (v : Nat) : Bool := v % 2 == 1 && v ≤ 15
  mode ≤ 2 && getLE b 0x17 1 ≤ 2 && getLE b 0x18 1 ≤ 2 && getLE b 0x19 1 ≤ 2 && getLE b 0x1A 1 ≤ 40 && zeroBlk b 0x1B 0x1C &&
  zeroBlk b 0x22 0x30 && zeroBlk b 0x92 0xA0 &&
  (if mode = 0 then odd15 nh && odd15 nv && zeroBlk b (0x30 + 2 * nh) 0x50 && zeroBlk b (0x50 + 2 * nv) 0x92
   else if mode = 1 then (nh == 3 || nh == 5 || nh == 7) && nv == 0 && zeroBlk b (0x30 + 2 * nh * nh) 0x92
   else (nh == 3 || nh == 5) && nv == 0 && getLE b 0x18 1 == getLE b 0x19 1 && zeroBlk b 0x30 0x92 && zeroBlk b 0x1A 0x1B && zeroBlk b 0x1C 0x20)

/-- A warp block's fields (R95), but for MESH_STRIDE against the output width. -/
def warpFieldsOk (b : List Byte) : Bool :=
  let n := getLE b 0x20 1
  let mode := getLE b 0x21 1
  1 ≤ n && n ≤ 4 && mode ≤ 1 && getLE b 0x22 1 ≤ 1 && getLE b 0x23 1 ≤ 1 && getLE b 0x24 1 ≤ 2 && zeroBlk b 0x25 0x28 &&
  zeroBlk b 0x2A 0x30 && zeroBlk b 0x3C 0x40 && zeroBlk b 0x64 0x80 && zeroBlk b (0x10 + 2 * n) 0x18 && zeroBlk b (0x18 + 2 * n) 0x20 &&
  (if mode = 0 then getLE b 0x30 8 % 8 == 0 && getLE b 0x38 4 % 8 == 0 && zeroBlk b 0x40 0x64 else zeroBlk b 0x30 0x3C)

/-- A feature block's fields (R102). -/
def featFieldsOk (b : List Byte) : Bool :=
  let det := getLE b 0x14 1
  let cw := getLE b 0x20 2
  let ch := getLE b 0x22 2
  let cap := getLE b 0x24 2
  let cell (v : Nat) : Bool := 16 ≤ v && v ≤ 256 && v % 16 == 0
  zeroBlk b 0x12 0x14 && det ≤ 1 && (if det = 0 then getLE b 0x15 1 == 0 && getLE b 0x1C 1 ≤ 64
    else 9 ≤ getLE b 0x15 1 && getLE b 0x15 1 ≤ 12 && getLE b 0x18 4 ≤ 255 && getLE b 0x1C 1 == 0) &&
  1 ≤ getLE b 0x16 1 && getLE b 0x16 1 ≤ 3 && getLE b 0x17 1 ≤ 1 && zeroBlk b 0x1E 0x20 &&
  ((cw == 0 && ch == 0 && cap == 0) || (cell cw && cell ch && 1 ≤ cap && cap ≤ 256)) &&
  1 ≤ getLE b 0x26 2 && getLE b 0x26 2 ≤ 16384 && getLE b 0x28 8 % 64 == 0 && zeroBlk b 0x34 0x80

/-- A flow block's fields (R114). -/
def flowFieldsOk (b : List Byte) : Bool :=
  let n := getLE b 0x34 1
  let o := getLE b 0x35 1
  let pred := getLE b 0x36 1
  1 ≤ n && n ≤ 8 && o ≤ 3 && o < n && pred ≤ 3 && zeroBlk b 0x39 0x40 && zeroBlk b 0x64 0x80 && (pred ≥ 2 || zeroBlk b 0x40 0x64) &&
  (pred == 1 || pred == 3 || getLE b 0x32 2 == 0) &&
  (List.range 8).all (fun l => (o ≤ l && l < n) || (getLE b (0x10 + 2 * l) 2 == 0 && getLE b (0x20 + 2 * l) 2 == 0))

/-- A stereo block's fields (R121). -/
def stereoFieldsOk (b : List Byte) : Bool :=
  let pred := getLE b 0x1E 1
  let p1 := getLE b 0x22 1
  let band := getLE b 0x26 2
  getLE b 0x1C 1 ≤ 1 && (getLE b 0x1D 1 == 4 || getLE b 0x1D 1 == 8) && pred ≤ 2 && getLE b 0x1F 1 ≤ 4 && getLE b 0x20 2 ≤ 384 &&
  1 ≤ p1 && p1 ≤ 63 && p1 + 1 ≤ getLE b 0x23 1 && getLE b 0x24 1 ≤ 16 && 16 ≤ band && band ≤ 256 && band % 8 == 0 &&
  zeroBlk b 0x28 0x80 && (pred == 1 || getLE b 0x18 2 == 0) && (pred == 2 || getLE b 0x1A 2 == 0)

/-- The header and the fields of a block of a kind (R81). -/
def jobFieldsOk (kind : Nat) (b : List Byte) : Bool :=
  getLE b 0 2 == 0xB4AC && getLE b 2 1 == kind && getLE b 3 1 == 1 && zeroBlk b 0x0C 0x10 &&
  (match kind with
    | 1 => pyrFieldsOk b
    | 2 => filterFieldsOk b
    | 3 => warpFieldsOk b
    | 4 => featFieldsOk b
    | 5 => flowFieldsOk b
    | _ => stereoFieldsOk b)

/-- The homography of a warp or flow block is finite where it is used (R97, R114). -/
def jobFinite (kind : Nat) (b : List Byte) : Bool :=
  let used := (kind == 3 && getLE b 0x21 1 == 1) || (kind == 5 && 2 ≤ getLE b 0x36 1)
  !used || (List.range 9).all fun k => fld (getLE b (0x40 + 4 * k) 4) 23 8 != 255

/-! ### Planes (R82) -/

/-- A plane that a job names: its key in the job, handle, pixel format, whether it is an output, and its least width. -/
structure PlaneUse where
  key : Nat
  handle : Nat
  pix : Nat
  isOut : Bool
  minW : Nat := 16

/-- The planes of a job. -/
def jobPlanes (kind : Nat) (b : List Byte) : List PlaneUse :=
  let h (o : Nat) : Nat := getLE b o 2
  match kind with
  | 1 =>
    let n := getLE b 0x12 1
    let mode := getLE b 0x13 1
    [⟨0, h 0x10, getLE b 0x14 1, false, 16⟩] ++
    ((List.range (n - 1)).filter (fun k => mode != 1 || k + 1 == n - 1)).map (fun k => ⟨k + 1, h (0x18 + 2 * k), getLE b 0x14 1, true, 4⟩) ++
    (if mode = 0 then [] else (List.range (n - 1)).map fun k => ⟨8 + k, h (0x26 + 2 * k), 2, true, 4⟩)
  | 2 => [⟨0, h 0x10, getLE b 0x18 1, false, 16⟩, ⟨1, h 0x12, getLE b 0x19 1, true, 16⟩]
  | 3 =>
    let n := getLE b 0x20 1
    (List.range n).map (fun k => ⟨k, h (0x10 + 2 * k), getLE b 0x24 1, false, 16⟩) ++
    (List.range n).map (fun k => ⟨4 + k, h (0x18 + 2 * k), getLE b 0x24 1, true, 16⟩)
  | 4 => [⟨0, h 0x10, 0, false, 16⟩]
  | 5 =>
    let ls := (List.range (getLE b 0x34 1)).filter fun l => decide (getLE b 0x35 1 ≤ l)
    ls.map (fun l => ⟨l, h (0x10 + 2 * l), 0, false, 16⟩) ++ ls.map (fun l => ⟨8 + l, h (0x20 + 2 * l), 0, false, 16⟩) ++
    [⟨16, h 0x30, 2, true, 8⟩] ++ (if getLE b 0x36 1 % 2 = 1 then [⟨17, h 0x32, 2, false, 8⟩] else [])
  | _ =>
    [⟨0, h 0x10, 0, false, 16⟩, ⟨1, h 0x12, 0, false, 16⟩, ⟨2, h 0x14, 1, true, 16⟩] ++
    (if h 0x16 = 0 then [] else [⟨3, h 0x16, 0, true, 16⟩]) ++
    (if getLE b 0x1E 1 = 1 then [⟨4, h 0x18, 1, false, 2⟩] else []) ++
    (if getLE b 0x1E 1 = 2 then [⟨5, h 0x1A, 1, false, 16⟩] else [])

/-- A descriptor is a plane of the pixel format (R82). A level of a pyramid may be as small as its section allows. -/
def planeOk (kind : Nat) (u : PlaneUse) (t : Desc) : Bool :=
  let es := pixBytes u.pix
  let minH := if kind = 1 ∧ u.isOut then 4 else 16
  t.layout == 0 && t.rank == 2 && t.bits == 8 * es && t.scaleType == 0 && t.strideAt 0 == es && t.base % 64 == 0 && t.strideAt 1 % 64 == 0 &&
  !t.isWindow && !t.isIndexed && !t.isSharded && (if u.isOut then t.canWrite else t.canRead) &&
  u.minW ≤ t.dimAt 0 && t.dimAt 0 ≤ 8192 && minH ≤ t.dimAt 1 && t.dimAt 1 ≤ 8192

/-- Capture the planes of a job: nothing when one is refused. -/
def State.capturePlanes (s : State) (p kind : Nat) : List PlaneUse → Tab (List Byte) → Option (Tab (List Byte)) × State
  | [], t => (some t, s)
  | u :: us, t =>
    match s.capture p u.handle 0xD35C with
    | (.error _, s1) => (none, s1)
    | (.ok b, s1) => if planeOk kind u (Desc.ofBytes b) then State.capturePlanes s1 p kind us (t.put u.key b) else (none, s1)

/-- The descriptor of a job's plane. -/
def BrkJob.plane (j : BrkJob) (k : Nat) : Desc := Desc.ofBytes (j.planes.getD k [])

/-- Width and height of a job's plane. -/
def BrkJob.size (j : BrkJob) (k : Nat) : Nat × Nat := ((j.plane k).dimAt 0, (j.plane k).dimAt 1)

/-- Two byte ranges meet. -/
def meet (a b : Nat × Nat) : Bool := decide (a.1 < b.1 + b.2) && decide (b.1 < a.1 + a.2)

/-- W_l or H_l of a pyramid (R88). -/
def halfUp : Nat → Nat → Nat
  | 0, n => n
  | l + 1, n => halfUp l (ceilDiv n 2)

/-- NX and NY of the mesh of a warp (R96). -/
def BrkJob.meshSize (j : BrkJob) : Nat × Nat := (ceilDiv (j.size 4).1 16 + 1, ceilDiv (j.size 4).2 16 + 1)

/-- The shapes of the planes of a job: 0, or the code that refuses it (R82, R88, R92, R95, R102, R115, R119, R121). -/
def BrkJob.shapeCode (j : BrkJob) (kind : Nat) : Nat :=
  let b := j.block
  let uses := jobPlanes kind b
  let foot (u : PlaneUse) : Nat × Nat := ((j.plane u.key).base, (j.plane u.key).extent)
  let ins := (uses.filter fun u => !u.isOut).map foot
  let outs := (uses.filter (·.isOut)).map foot
  let mesh := if kind = 3 ∧ getLE b 0x21 1 = 0 then [(getLE b 0x30 8, (j.meshSize.2 - 1) * getLE b 0x38 4 + 8 * j.meshSize.1)] else []
  let buf := if kind = 4 then [(getLE b 0x28 8, 64 + 64 * getLE b 0x26 2)] else []
  if outs.any (fun o => (ins ++ mesh).any (meet o)) ∨ buf.any (fun o => ins.any (meet o)) then 0x0303
  else
    match kind with
    | 1 =>
      let (w, h) := j.size 0
      let n := getLE b 0x12 1
      if !(uses.drop 1).all (fun u => let l := if u.key < 8 then u.key else u.key - 8
                                      j.size u.key == (halfUp l w, halfUp l h)) then 0x0303
      else if halfUp (n - 1) w < 4 ∨ halfUp (n - 1) h < 4 then 0x0304 else 0
    | 2 => if j.size 0 = j.size 1 then 0 else 0x0303
    | 3 =>
      let n := getLE b 0x20 1
      if !(List.range n).all (fun k => j.size k == j.size 0 && j.size (4 + k) == j.size 4) then 0x0303
      else if getLE b 0x21 1 = 0 ∧ getLE b 0x38 4 < 8 * j.meshSize.1 then 0x0301 else 0
    | 4 =>
      let (w, h) := j.size 0
      let m := if getLE b 0x17 1 = 1 then 17 else 3
      if w ≤ 2 * m ∨ h ≤ 2 * m ∨ (getLE b 0x20 2 ≠ 0 ∧ 8192 < ceilDiv w (getLE b 0x20 2) * getLE b 0x24 2) then 0x0304
      else if getLE b 0x30 4 < 64 + 64 * getLE b 0x26 2 then 0x0306 else 0
    | 5 =>
      let o := getLE b 0x35 1
      let n := getLE b 0x34 1
      let ls := (List.range n).filter fun l => decide (o ≤ l)
      let tw := ceilDiv (j.size o).1 8
      let th := ceilDiv (j.size o).2 8
      if !ls.all (fun l => j.size l == j.size (8 + l) && (l + 1 == n || j.size (l + 1) == (ceilDiv (j.size l).1 2, ceilDiv (j.size l).2 2)))
      then 0x0320
      else if j.size 16 ≠ (4 * tw, th) ∨ (getLE b 0x36 1 % 2 = 1 ∧ j.size 17 ≠ j.size 16) then 0x0321 else 0
    | _ =>
      let sz := j.size 0
      if !((uses.filter fun u => u.key != 4).all fun u => j.size u.key == sz) ∨ 4096 < sz.1 then 0x0322
      else if getLE b 0x1E 1 = 1 ∧ j.size 4 ≠ (ceilDiv sz.1 8, ceilDiv sz.2 8) then 0x0323 else 0

/-! ### Acceptance (R80 to R83) -/

/-- The stripe counters that the chains into a node bind (R84). -/
def State.brkIns (s : State) (r : NodeRef) : List (Option Nat) :=
  match s.cg r.slot with
  | none => []
  | some x =>
    match x.inst r.inst with
    | none => []
    | some i => (x.chains.filter fun c => c.stripe && c.dst == r.node).map fun c => some (c.ctr + i.slot)

/-- The stripe height of the chains from a node; 0 when it binds no output counter. -/
def State.brkStripe (s : State) (r : NodeRef) : Nat :=
  match s.cg r.slot with
  | none => 0
  | some x => ((x.chains.find? fun c => c.stripe && c.src == r.node).map (·.stripeH)).getD 0

/-- A refused job (R110): the error, and its node ends with the code. -/
def State.brkRefuse (s : State) (e p code : Nat) (r : NodeRef) : State :=
  ((s.brkErr e p code).bump (Reg.ENG_ABORTED e) 1).crzDone r code

/-- Read a job block (R80): the code that refuses it, or its bytes. -/
def State.readJob (s : State) (e p dva : Nat) : State × Except Nat (List Byte) :=
  match s.readDva p dva (jobSize (engKind e)) with
  | .refused f d => (s.oob p (uBrk e) none f d, .error 0x0302)
  | .bus d => (s.err p (uBrk e) 0x0907 d, .error 0x0302)
  | .data b bad => (s, if bad then .error 0x0305 else if dva % 64 != 0 || !jobFieldsOk (engKind e) b then .error 0x0301 else .ok b)

/-- BRACKEN_JOB_ACCEPT (R80 to R83): the engine takes the first presented job into its lowest free context, reads the whole block and
captures its planes, or refuses it. -/
def execBrackenJobAccept (e : Fin 11) (s : State) : Res :=
  let x := s.eng e
  match x.queue, (List.range 4).find? fun k => (Tab.get? x.ctx k).isNone with
  | r :: rest, some k =>
    let p := s.cgPt r.slot
    let dva := ((s.nodeRun r).map (·.block)).getD 0
    let s0 := s.needP0.setEng e { x with queue := rest }
    let kind := engKind e
    (match s0.readJob e p dva with
      | (s1, .error c) => .next (s1.brkRefuse e p c r).crzDrain
      | (s1, .ok b) =>
        if !jobFinite kind b then .next (s1.brkRefuse e p 0x0308 r).crzDrain
        else
          match s1.capturePlanes p kind (jobPlanes kind b) [] with
          | (none, s2) => .next (s2.brkRefuse e p 0x0303 r).crzDrain
          | (some t, s2) =>
            let j : BrkJob := { node := r, pt := p, dva := dva, block := b, planes := t, ins := s2.brkIns r, stripeH := s2.brkStripe r,
                                order := x.accepted + 1 }
            let c := j.shapeCode kind
            if c ≠ 0 then .next (s2.brkRefuse e p c r).crzDrain
            else
              let y := s2.eng e
              let s3 := s2.setEng e { y with ctx := y.ctx.put k j, accepted := x.accepted + 1 }
              .next (s3.setNode r fun n => { n with phase := .accepted }).crzDrain)
  | _, _ => .next s

/-! ### Units of work (R83, R91, R109, R120, R127) -/

/-- The row blocks of a pyramid job in order: whether they are Laplacian rows, the level, and the number of rows. -/
def BrkJob.pyrBlocks (j : BrkJob) : List (Bool × Nat × Nat) :=
  let n := getLE j.block 0x12 1
  let h := (j.size 0).2
  ((List.range (n - 1)).map fun k => (false, k + 1, halfUp (k + 1) h)) ++
    (if getLE j.block 0x13 1 = 0 then [] else (List.range (n - 1)).map fun k => (true, k, halfUp k h))

/-- The block and row of unit `u`. -/
def pickBlock : List (Bool × Nat × Nat) → Nat → Option (Bool × Nat × Nat)
  | [], _ => none
  | (l, k, n) :: rest, u => if u < n then some (l, k, u) else pickBlock rest (u - n)

/-- The levels of a flow job from the top down, each with its tile rows. -/
def BrkJob.flowLevels (j : BrkJob) : List (Nat × Nat) :=
  let n := getLE j.block 0x34 1
  let o := getLE j.block 0x35 1
  (List.range (n - o)).map fun k => (n - 1 - k, ceilDiv (j.size (n - 1 - k)).2 8)

/-- The level and tile row of unit `u` of a flow job. -/
def pickLevel : List (Nat × Nat) → Nat → Option (Nat × Nat)
  | [], _ => none
  | (l, n) :: rest, u => if u < n then some (l, u) else pickLevel rest (u - n)

/-- BAND of a stereo job. -/
def BrkJob.band (j : BrkJob) : Nat := getLE j.block 0x26 2

/-- Rows of band `b` of a stereo job. -/
def BrkJob.bandRows (j : BrkJob) (b : Nat) : Nat := min j.band ((j.size 0).2 - b * j.band)

/-- The band of unit `u` of a stereo job, and whether the unit is the last of its band: two sweeps over the rows of each band. -/
def BrkJob.stereoUnit (j : BrkJob) (u : Nat) : Nat × Bool :=
  let b := u / (2 * j.band)
  (b, u - 2 * b * j.band + 1 == 2 * j.bandRows b)

/-- The units of a job. -/
def BrkJob.units (j : BrkJob) (kind : Nat) : Nat :=
  match kind with
  | 1 => j.pyrBlocks.foldl (fun a e => a + e.2.2) 0
  | 2 => (j.size 0).2
  | 3 => (j.size 4).2
  | 4 => (j.size 0).2
  | 5 => j.flowLevels.foldl (fun a e => a + e.2) 0
  | _ => 2 * (j.size 0).2

/-- BK clocks of unit `u` (R91, R94, R101, R109, R120, R127). -/
def BrkJob.cycles (j : BrkJob) (kind u : Nat) : Nat :=
  let b := j.block
  let w := (j.size 0).1
  (if u = 0 then 2000 else 0) +
  (match kind with
    | 1 =>
      let lam := if getLE b 0x13 1 = 0 then 4 else 2
      (match pickBlock j.pyrBlocks u with
        | some (false, l, r) => if l = 0 then 0 else
            (ceilDiv (halfUp (l - 1) w) lam + 16) * (min 2 (halfUp (l - 1) (j.size 0).2 - 2 * r))
        | _ => 0)
    | 2 =>
      let m := max (getLE b 0x15 1) (getLE b 0x16 1)
      let p := match getLE b 0x14 1 with
        | 0 => if m ≤ 7 then 4 else 2
        | 1 => if m = 3 then 4 else if m = 5 then 2 else 1
        | _ => if m = 3 then 4 else 1
      ceilDiv w p + 16
    | 3 => getLE b 0x20 1 * (ceilDiv (j.size 4).1 (if getLE b 0x22 1 = 0 then 2 else 1) + 16)
    | 4 => ceilDiv w 4 + 16
    | 5 =>
      (match pickLevel j.flowLevels u with
        | some (l, _) => 108 * ceilDiv (j.size l).1 8 + (if l = getLE b 0x35 1 then 4 * ceilDiv (j.size l).1 8 else 0)
        | none => 0)
    | _ => if u % 2 = 0 then 0 else w * (if getLE b 0x1D 1 = 4 then 1 else 2) + 32)

/-- Bytes at a DVA with the poison of each 64-byte granule; nothing when refused. -/
def State.readGrans (s : State) (p dva : Nat) : Nat → Nat → Option (List (Byte × Bool))
  | _, 0 => some []
  | 0, _ => some []
  | fuel + 1, n =>
    let k := min n (64 - dva % 64)
    match s.readDva p dva k with
    | .data bs bad => (State.readGrans s p (dva + k) fuel (n - k)).map fun r => bs.map (fun b => (b, bad)) ++ r
    | _ => none

/-- Row `y` of a plane. -/
def State.planeRow (s : State) (p : Nat) (t : Desc) (pix y : Nat) : Option (List Px) :=
  let es := pixBytes pix
  let n := t.dimAt 0 * es
  (s.readGrans p (t.base + y * t.strideAt 1) (n / 64 + 2) n).map fun l => (List.range (t.dimAt 0)).map fun x =>
    let e := (l.drop (x * es)).take es
    (pixVal pix (ofLE (e.map (·.1))), e.any (·.2))

/-- Rows of a plane; nothing when one is refused. -/
def State.planeRows' (s : State) (p : Nat) (t : Desc) (pix : Nat) (ys : List Nat) : Option Rows :=
  ys.foldl (fun (a : Option Rows) y => a.bind fun r =>
    if (Tab.get? r y).isSome then some r else (s.planeRow p t pix y).map fun l => r.put y l) (some [])

/-- Rows lo to hi of a plane, as far as it has them. -/
def State.rowsFrom (s : State) (p : Nat) (t : Desc) (pix : Nat) (lo hi : Int) : Option Rows :=
  s.planeRows' p t pix ((List.range (t.dimAt 1)).filter fun y => decide (lo ≤ (y : Int)) && decide ((y : Int) ≤ hi))

/-- The mesh node (i, j) of a warp, from node rows at hand. -/
def meshNode (t : Tab (List (Byte × Bool))) (i j : Nat) : MeshNode :=
  let e := ((t.getD j []).drop (8 * i)).take 8
  let bs := e.map (·.1)
  let bad := e.any (·.2)
  if getLE bs 0 4 = 0x80000000 then (none, bad) else (some (signedOf 32 (getLE bs 0 4), signedOf 32 (getLE bs 4 4)), bad)

/-- Node rows of the mesh of a job. -/
def State.meshRows (s : State) (j : BrkJob) (ys : List Nat) : Option (Tab (List (Byte × Bool))) :=
  let n := 8 * j.meshSize.1
  ys.foldl (fun (a : Option (Tab (List (Byte × Bool)))) y => a.bind fun r =>
    (s.readGrans j.pt (getLE j.block 0x30 8 + y * getLE j.block 0x38 4) (n / 64 + 2) n).map fun l => r.put y l) (some [])

/-- FP32 coefficient k of the homography of a block. -/
def homoCoef (b : List Byte) (k : Nat) : Nat := getLE b (0x40 + 4 * k) 4

/-- D of the output stripe that holds row `y` of a warp (R100). -/
def State.warpNeed (s : State) (j : BrkJob) (y : Nat) : Int :=
  let (w, h) := j.size 4
  let hin : Int := (j.size 0).2
  let sh := if j.stripeH = 0 then h else j.stripeH
  let y0 := y / sh * sh
  let y1 := min (y0 + sh) h - 1
  let lim (m : Int) : Int := min (m + 1 + getLE j.block 0x22 1) (hin - 1)
  if getLE j.block 0x21 1 = 0 then
    let js := (List.range (ceilDiv y1 16 + 1)).filter fun k => decide (y0 / 16 ≤ k)
    match s.meshRows j js with
    | none => -1
    | some t =>
      let vs := js.flatMap fun k => (List.range j.meshSize.1).filterMap fun i => ((meshNode t i k).1).map fun n => fsh n.2 12
      match vs with
      | [] => -1
      | a :: r => lim (r.foldl max a)
  else
    let c := homoCoef j.block
    let corners := [(0, y0), (w - 1, y0), (0, y1), (w - 1, y1)].map fun q => homography c q.1 q.2
    if corners.any (·.isNone) then hin - 1
    else
      let vs := corners.filterMap fun q => q.map fun v => fsh (roundEven (mul32 v.2 (intTo32 4096)).1) 12
      lim (vs.foldl max (vs.headD 0))

/-- The last input row that unit `u` needs (R84, R91, R94, R100, R109, R120, R127); flow needs its counter's target. -/
def State.brkNeed (s : State) (j : BrkJob) (kind u : Nat) : Int :=
  let b := j.block
  let h : Int := (j.size 0).2
  match kind with
  | 1 =>
    (match pickBlock j.pyrBlocks u with
      | some (false, 1, r) => min (2 * (r : Int) + 2) (h - 1)
      | _ => h - 1)
  | 2 =>
    let r := if getLE b 0x14 1 = 0 then (getLE b 0x16 1 - 1) / 2 else (getLE b 0x15 1 - 1) / 2
    min ((u : Int) + r) (h - 1)
  | 3 => s.warpNeed j u
  | 4 => min ((u : Int) + (if getLE b 0x17 1 = 1 then 17 else 3)) (h - 1)
  | 5 => 0
  | _ =>
    let bd := (j.stereoUnit u).1
    min (((bd * j.band + j.band - 1 + (if getLE b 0x1C 1 = 0 then 2 else 3) : Nat) : Int)) (h - 1)

/-- The input that the next unit of a job needs is complete (R84). -/
def State.brkReady (s : State) (j : BrkJob) (kind : Nat) : Bool :=
  j.ins.all fun o =>
    match o with
    | none => true
    | some c => if kind = 5 then s.scValue c == s.scTarget c else decide (s.brkNeed j kind j.unit < (s.scValue c : Int))

/-- A job can start a unit: started, not aborted, with units left and its input there. -/
def State.brkCanRun (s : State) (j : BrkJob) (kind : Nat) : Bool :=
  j.started && !j.busy && j.aborting.isNone && decide (j.unit < j.units kind) && s.brkReady j kind

/-! ### The choice of a context (R83, R407) -/

/-- WEIGHT of partition `p`. -/
def State.brkWeight (s : State) (p : Nat) : Nat := s.rdF (Reg.QOS_PT_BK p) 0 8

/-- The next job of partition `p` in turn among contexts that can run. -/
def nextOf (x : Engine) (cs : List (Nat × BrkJob)) (p : Nat) : Option (Nat × BrkJob) :=
  let mine := cs.filter fun c => c.2.pt == p
  let later := mine.filter fun c => decide (x.turn.getD p 0 < c.2.order)
  let least (l : List (Nat × BrkJob)) : Option (Nat × BrkJob) := l.foldl (fun (a : Option (Nat × BrkJob)) c => match a with
    | some b => if c.2.order < b.2.order then some c else some b
    | none => some c) none
  if later.isEmpty then least mine else least later

/-- The partition to serve, and the deficits after the choice (R407): rounds are added until one partition can pay. -/
def State.brkChoose (s : State) (x : Engine) (kind : Nat) (cs : List (Nat × BrkJob)) : Option (Nat × BrkJob × Tab Nat) :=
  let ps := (List.range 16).filter fun p => cs.any fun c => c.2.pt == p
  let cyc := (ps.filter fun p => decide (x.last ≤ p)) ++ ps.filter fun p => decide (p < x.last)
  let pay := cyc.filter fun p => decide (0 < s.brkWeight p)
  let cost (p : Nat) : Nat := match nextOf x cs p with
    | some c => c.2.cycles kind c.2.unit
    | none => 0
  if pay.isEmpty then
    ((ps.filter fun p => decide (x.last < p)) ++ ps).head?.bind fun p => (nextOf x cs p).map fun c => (c.1, c.2, x.deficit)
  else
    let rounds (p : Nat) : Nat := ceilDiv (cost p - x.deficit.getD p 0) (64 * s.brkWeight p)
    let n := pay.foldl (fun a p => min a (rounds p)) (rounds (pay.headD 0))
    let d := pay.foldl (fun (t : Tab Nat) p => t.upd p 0 (· + n * 64 * s.brkWeight p)) x.deficit
    (pay.find? fun p => decide (cost p ≤ d.getD p 0)).bind fun p =>
      (nextOf x cs p).map fun c => (c.1, c.2, d.upd p 0 (· - cost p))

/-- BRACKEN_ROW_START (R83, R84): the engine is free, and takes the next unit of a context whose input is there; with the first one
a job that waits for counters takes its record address (R85). -/
def execBrackenRowStart (e : Fin 11) (s : State) : Res :=
  let x := s.eng e
  let kind := engKind e
  let cs := x.ctx.filter fun c => s.brkCanRun c.2 kind
  if x.ctx.any (fun c => c.2.busy) then .next s
  else
    match s.brkChoose x kind cs with
    | none => .next s
    | some (k, j, d) =>
      let x1 := { x with ctx := x.ctx.put k { j with busy := true }, deficit := d, last := j.pt, turn := x.turn.put j.pt j.order }
      let s1 := s.setEng e x1
      let s2 := if j.unit = 0 then s1.event (uBrk e) 0x01 j.pt 0 (getLE j.block 4 4) j.dva else s1
      .next (if j.recA.isNone then s2.brkTakeRec e k else s2)

/-! ### What a unit computes -/

/-- What a unit leaves: what the engine holds on chip, the runs it writes (DVA, bytes per element, elements), counters, output rows
written, and whether a poisoned granule was read. -/
structure UnitRes where
  chip : Tab (List (Nat × Bool)) := []
  runs : List (Nat × Nat × List (Nat × Bool)) := []
  counts : List (Nat × Nat) := []
  rows : Nat := 0
  bad : Bool := false
deriving DecidableEq, Repr

/-- Samples as the engine holds them on chip. -/
def chipOf (l : List Px) : List (Nat × Bool) := l.map fun p => (codeOf 32 p.1, p.2)

/-- Samples held on chip. -/
def ofChip (l : List (Nat × Bool)) : List Px := l.map fun p => (signedOf 32 p.1, p.2)

/-- An output row of a plane. -/
def outRow (t : Desc) (pix y : Nat) (l : List Px) : Nat × Nat × List (Nat × Bool) :=
  (t.base + y * t.strideAt 1, pixBytes pix, l.map fun p => (pixCode pix p.1, p.2))

/-- Rows of level `l` of a pyramid job: level 0 from memory, the others from the engine. -/
def State.pyrLevel (s : State) (j : BrkJob) (l : Nat) (lo hi : Int) : Option Rows :=
  if l = 0 then s.rowsFrom j.pt (j.plane 0) (getLE j.block 0x14 1) lo hi
  else some ((List.range (halfUp l (j.size 0).2)).filterMap fun (y : Nat) =>
    if lo ≤ (y : Int) ∧ (y : Int) ≤ hi then some (y, ofChip (j.chip.getD (l * 65536 + y) [])) else none)

/-- A unit of a pyramid job (R89, R90). -/
def State.pyrUnit (s : State) (j : BrkJob) (u : Nat) : Option UnitRes :=
  let (w, h) := j.size 0
  let mode := getLE j.block 0x13 1
  let n := getLE j.block 0x12 1
  match pickBlock j.pyrBlocks u with
  | none => some { chip := j.chip }
  | some (false, l, y) =>
    (s.pyrLevel j (l - 1) (2 * (y : Int) - 4) (2 * (y : Int) + 4)).map fun rows =>
      let row := (List.range (halfUp l w)).map fun x => gaussPx rows (halfUp (l - 1) w) (halfUp (l - 1) h) x y
      let written : Bool := mode != 1 || l == n - 1
      { chip := j.chip.put (l * 65536 + y) (chipOf row), runs := if written then [outRow (j.plane l) (getLE j.block 0x14 1) y row] else [],
        rows := if written then 1 else 0, bad := anyBad row }
  | some (true, l, y) =>
    (s.pyrLevel j l y y).bind fun g =>
      (s.pyrLevel j (l + 1) ((y / 2 : Nat) - 2 : Int) ((y / 2 : Nat) + 2 : Int)).map fun up =>
        let row := (List.range (halfUp l w)).map fun x =>
          let a := rowPx g x y
          let b := expandPx up (halfUp (l + 1) w) (halfUp (l + 1) h) x y
          (clamp (a.1 - b.1) (-32768) 32767, a.2 || b.2)
        { chip := j.chip, runs := [outRow (j.plane (8 + l)) 2 y row], rows := 1, bad := anyBad row }

/-- A unit of a filter job (R93). -/
def State.filterUnit (s : State) (j : BrkJob) (y : Nat) : Option UnitRes :=
  let (w, h) := j.size 0
  (s.rowsFrom j.pt (j.plane 0) (getLE j.block 0x18 1) ((y : Int) - 7) ((y : Int) + 7)).map fun rows =>
    let row := (List.range w).map fun x => filterPx j.block rows w h x y
    { chip := j.chip, runs := [outRow (j.plane 1) (getLE j.block 0x19 1) y row], rows := 1, bad := anyBad row }

/-- The positions of output row `y` of a warp job, with the taint of the mesh. -/
def State.warpRowPos (s : State) (j : BrkJob) (y : Nat) : Option (List (Option (Int × Int) × Bool)) :=
  let w := (j.size 4).1
  if getLE j.block 0x21 1 = 0 then
    (s.meshRows j [y / 16, y / 16 + 1]).map fun t => (List.range w).map fun x => meshPos (meshNode t) x y
  else some ((List.range w).map fun x => (homoPos (homoCoef j.block) x y, false))

/-- A unit of a warp job (R96 to R99): one output row of every plane. -/
def State.warpUnit (s : State) (j : BrkJob) (y : Nat) : Option UnitRes :=
  let b := j.block
  let pix := getLE b 0x24 1
  let (w, h) := j.size 0
  let cubic : Bool := getLE b 0x22 1 == 1
  let edge : Bool := getLE b 0x23 1 == 1
  let fill := pixVal pix (getLE b 0x28 2 % 2 ^ (8 * pixBytes pix))
  (s.warpRowPos j y).bind fun ps =>
    let need := ps.foldl (fun (a : List Nat) p => match p.1 with
      | some q => (warpTaps cubic q.2).foldl (fun a t => insSorted (clamp t.1 0 ((h : Int) - 1)).toNat a) a
      | none => a) []
    (List.range (getLE b 0x20 1)).foldl (fun (a : Option UnitRes) k => a.bind fun r =>
      (s.planeRows' j.pt (j.plane k) pix need).map fun rows =>
        let row := ps.map fun p => let v := warpPx rows w h pix cubic edge fill p.1
                                   (v.1, v.2 || p.2)
        { r with runs := r.runs ++ [outRow (j.plane (4 + k)) pix y row], bad := r.bad || anyBad row })
      (some { chip := j.chip, rows := 1 })

/-- The candidates of a feature job on its plane (R102 to R104). -/
def featCands (b : List Byte) (w h : Nat) (I : Int → Int → Int) : List Cand :=
  let m := if getLE b 0x17 1 = 1 then 17 else 3
  let thr := getLE b 0x18 4
  (List.range (h - 2 * m)).flatMap fun yy => (List.range (w - 2 * m)).filterMap fun xx =>
    let y := yy + m
    let x := xx + m
    let sc := if getLE b 0x14 1 = 0 then harris I (getLE b 0x1C 1) x y else segment I (getLE b 0x15 1) x y
    if (if getLE b 0x14 1 = 0 then 0 < sc ∧ thr ≤ sc else thr < sc) then some ⟨y, x, sc⟩ else none

/-- A 64-byte feature record (R108). -/
def featRecord (b : List Byte) (w : Nat) (I S : Int → Int → Int) (c : Cand) : List Byte :=
  let desc : Bool := getLE b 0x17 1 == 1
  let mo : Int × Int := if desc then moments I c.x c.y else (0, 0)
  let cw := getLE b 0x20 2
  let cell := if cw = 0 then 0 else c.y / getLE b 0x22 2 * ceilDiv w cw + c.x / cw
  leBytes 2 c.x ++ leBytes 2 c.y ++ leBytes 4 c.score ++ leBytes 4 (codeOf 32 mo.1) ++ leBytes 4 (codeOf 32 mo.2) ++
    leBytes 1 (getLE b 0x1D 1) ++ leBytes 1 (desc.toNat + 2 * getLE b 0x14 1) ++ leBytes 2 cell ++ leBytes 12 0 ++
    (if desc then descriptor S c.x c.y else leBytes 32 0)

/-- What a feature job writes once every row is scanned (R105 to R108): records, then the header. -/
def featOutput (j : BrkJob) (rows : Rows) : List (Nat × Nat × List (Nat × Bool)) :=
  let b := j.block
  let (w, h) := j.size 0
  let I (x y : Int) : Int := (rowPx rows x.toNat y.toNat).1
  let S (x y : Int) : Int := fsh ((gaussSum rows w h x y).1 + 128) 8
  let r := if getLE b 0x17 1 = 1 then 17 else 3
  let bad (c : Cand) : Bool := (List.range (2 * r + 1)).any fun dy => (List.range (2 * r + 1)).any fun dx =>
    (rowPx rows (c.x + dx - r) (c.y + dy - r)).2
  let sv := survivors (getLE b 0x16 1) (featCands b w h I)
  let (em, more) := emitOrder w (getLE b 0x20 2) (getLE b 0x22 2) (getLE b 0x24 2) sv
  let recs := em.take (getLE b 0x26 2)
  let bytes := recs.map fun c => (featRecord b w I S c, bad c)
  let flags := (decide (recs.length < em.length)).toNat + 2 * more.toNat + 4 * (bytes.any (·.2)).toNat
  let head := leBytes 4 recs.length ++ leBytes 4 sv.length ++ leBytes 4 flags ++ leBytes 4 (getLE b 4 4) ++ leBytes 8 (j.recA.getD 0) ++
    leBytes 2 w ++ leBytes 2 h ++ leBytes 1 (getLE b 0x1D 1) ++ leBytes 31 0
  let hd := head ++ leBytes 4 (crc32c (head ++ bytes.flatMap (·.1)))
  let at_ := getLE b 0x28 8
  ((bytes.zipIdx).map fun e => (at_ + 64 + 64 * e.2, 1, e.1.1.map fun (v : Byte) => (v.toNat, e.1.2))) ++
    [(at_, 1, hd.map fun (v : Byte) => (v.toNat, false))]

/-- A unit of a feature job: input row `y` is scanned; the last one ends detection. -/
def State.featUnit (s : State) (j : BrkJob) (y : Nat) : Option UnitRes :=
  let (_, h) := j.size 0
  let m := if getLE j.block 0x17 1 = 1 then 17 else 3
  let top := min (y + m) (h - 1)
  let fresh := (List.range (top + 1)).filter fun k => (Tab.get? j.chip k).isNone
  (s.planeRows' j.pt (j.plane 0) 0 fresh).map fun rows =>
    let chip := rows.foldl (fun (t : Tab (List (Nat × Bool))) e => t.put e.1 (chipOf e.2)) j.chip
    let all : Rows := chip.map fun e => (e.1, ofChip e.2)
    { chip := chip, runs := if y + 1 = h then featOutput { j with chip := chip } all else [], rows := 0, bad := rows.any fun e => anyBad e.2 }

/-- The result of a flow tile: V, whether its top-level ancestor fell back, and its taint. -/
structure FlowTile where
  v : Int × Int
  fell : Bool
  bad : Bool

/-- A flow tile as the engine holds it. -/
def FlowTile.pack (t : FlowTile) : List (Nat × Bool) := [(codeOf 32 t.v.1, t.bad), (codeOf 32 t.v.2, t.bad), (t.fell.toNat, t.bad)]

/-- Tile `i` of a row held on chip. -/
def flowTileOf (l : List (Nat × Bool)) (i : Nat) : FlowTile :=
  let a := l.getD (3 * i) (0, false)
  ⟨(signedOf 32 a.1, signedOf 32 (l.getD (3 * i + 1) (0, false)).1), (l.getD (3 * i + 2) (0, false)).1 == 1, a.2⟩

/-- P0 of a top-level tile (R116): quarter pixels at level 0, whether it fell back, and the taint of PREV. -/
def State.flowPred (s : State) (j : BrkJob) (i jj : Nat) : Option ((Int × Int) × Bool × Bool) :=
  let b := j.block
  let lt := getLE b 0x34 1 - 1
  let o := getLE b 0x35 1
  let pred := getLE b 0x36 1
  let homo : (Int × Int) × Bool :=
    match flowHomo (homoCoef b) (((8 * i + 4) * 2 ^ lt : Nat) : Int) (((8 * jj + 4) * 2 ^ lt : Nat) : Int) with
    | some p => (p, false)
    | none => ((0, 0), true)
  match pred with
  | 0 => some ((0, 0), false, false)
  | 2 => some (homo.1, homo.2, false)
  | _ =>
    let (pw, ph) := j.size 17
    let x := min ((8 * i + 4) * 2 ^ (lt - o) / 8) (pw / 4 - 1)
    let y := min ((8 * jj + 4) * 2 ^ (lt - o) / 8) (ph - 1)
    (s.planeRow j.pt (j.plane 17) 2 y).map fun row =>
      let g (k : Nat) : Px := row.getD (4 * x + k) (0, false)
      let bad := (g 0).2 || (g 1).2 || (g 3).2
      let flags := codeOf 16 (g 3).1 / 256
      if bitAt flags 0 then (((g 0).1 * 2 ^ o, (g 1).1 * 2 ^ o), false, bad)
      else if pred = 1 then ((0, 0), true, bad) else (homo.1, homo.2, bad)

/-- Confidence of a flow tile (R119). -/
def flowConf (l : List (Int × Int × Nat)) (best : Int × Int × Nat) : Nat :=
  let far := (l.filter fun c => 2 ≤ (c.1 - best.1).natAbs || 2 ≤ (c.2.1 - best.2.1).natAbs).map fun c => c.2.2
  let c2 := far.foldl min (far.headD 0)
  min 255 ((c2 - best.2.2) * 256 / (best.2.2 + 256))

/-- A unit of a flow job: tile row `jj` of level `l` (R116 to R119, R129). -/
def State.flowUnit (s : State) (e : Nat) (j : BrkJob) (u : Nat) : Option UnitRes :=
  let b := j.block
  match pickLevel j.flowLevels u with
  | none => some { chip := j.chip }
  | some (l, jj) =>
    let (w, h) := j.size l
    let lt := getLE b 0x34 1 - 1
    let o := getLE b 0x35 1
    let tw := ceilDiv w 8
    (s.rowsFrom j.pt (j.plane l) 0 0 h).bind fun cr => (s.rowsFrom j.pt (j.plane (8 + l)) 0 0 h).bind fun rr =>
      let cur (x y : Int) : Px := borderPx cr w h 1 0 x y
      let ref_ (x y : Int) : Px := borderPx rr w h 1 0 x y
      let centre (i : Nat) : Option ((Int × Int) × Bool × Bool) :=
        if l = lt then (s.flowPred j i jj).map fun p => ((rnd p.1.1 (lt + 2), rnd p.1.2 (lt + 2)), p.2.1, p.2.2)
        else
          let t := flowTileOf (j.chip.getD ((l + 1) * 65536 + jj / 2) []) (i / 2)
          some ((fsh (2 * t.v.1 + 2) 2, fsh (2 * t.v.2 + 2) 2), t.fell, t.bad)
      let tiles := (List.range tw).foldl (fun (a : Option (List (FlowTile × List Nat))) i => a.bind fun acc =>
        (centre i).map fun c =>
          let (cands, bad1) := flowCands cur ref_ (getLE b 0x37 1) i jj c.1.1 c.1.2
          let best := bestCand cands
          if l ≠ o then acc ++ [(⟨(4 * best.1, 4 * best.2.1), c.2.1, c.2.2 || bad1⟩, [])]
          else
            let (q1, bad2) := refineStep cur ref_ i jj 2 (4 * best.1, 4 * best.2.1)
            let (q2, bad3) := refineStep cur ref_ i jj 1 q1
            let conf := flowConf cands best
            let edge : Bool := (best.1 - c.1.1).natAbs == 16 || (best.2.1 - c.1.2).natAbs == 12
            let bad := c.2.2 || bad1 || bad2 || bad3
            let valid : Bool := decide (getLE b 0x38 1 ≤ conf) && !edge && !bad
            let cost := (sqTile cur ref_ i jj q2).1
            acc ++ [(⟨q2, c.2.1, bad⟩, [codeOf 16 q2.1, codeOf 16 q2.2, cost % 65536,
              conf + 256 * (valid.toNat + 2 * edge.toNat + 4 * c.2.1.toNat + 8 * bad.toNat)])]) (some [])
      tiles.map fun ts =>
        let f := j.plane 16
        let flag (k : Nat) (v : Bool) : Nat := (ts.filter fun t => bitAt (t.2.getD 3 0 / 256) k == v).length
        { chip := j.chip.put (l * 65536 + jj) (ts.flatMap fun t => t.1.pack)
          runs := if l ≠ o then [] else [(f.base + jj * f.strideAt 1, 2, ts.flatMap fun t => t.2.map fun v => (v, t.1.bad))]
          counts := [(Reg.ENG_CANDIDATES e, 825 * tw + (if l = o then 16 * tw else 0)),
            (Reg.ENG_FALLBACK e, if l = lt then (ts.filter fun t => t.1.fell).length else 0),
            (Reg.ENG_EDGE e, if l = o then flag 1 true else 0), (Reg.ENG_INVALID e, if l = o then flag 0 false else 0)]
          rows := if l = o then 1 else 0
          bad := ts.any fun t => t.1.bad }

/-- The window base of stereo tile (i, jj), whether it fell back, and the taint of what it read (R122, R129). -/
def State.stereoBase (s : State) (j : BrkJob) (i jj : Nat) : Option (Nat × Bool × Bool) :=
  let b := j.block
  let dbase := getLE b 0x20 2
  let pick (v : Px) (lim : Int) (c : Int) : Nat × Bool × Bool :=
    if v.2 then (dbase, true, true) else if v.1 ≤ lim then ((clamp (c - 64) 0 384).toNat, false, false) else (dbase, true, false)
  match getLE b 0x1E 1 with
  | 0 => some (dbase, false, false)
  | 1 => (s.planeRow j.pt (j.plane 4) 1 jj).map fun row => let v := row.getD i (0, false)
                                                           pick v 511 v.1
  | _ =>
    let (w, h) := j.size 0
    (s.planeRow j.pt (j.plane 5) 1 (min (8 * jj + 4) (h - 1))).map fun row =>
      let v := row.getD (min (8 * i + 4) (w - 1)) (0, false)
      pick v 0x1FFF (fsh (v.1 + 8) 4)

/-- Path state of one row as the engine holds it: per pixel the intensity, the base and 128 costs. -/
def packPath (l : List PathPx) : List (Nat × Bool) := l.flatMap fun p => (codeOf 32 p.il, false) :: (p.base, false) :: p.cost.map fun c => (c, false)

/-- The row of path state held on chip. -/
def unpackPath (w : Nat) (l : List (Nat × Bool)) : List PathPx :=
  if l.isEmpty then []
  else (List.range w).map fun x =>
    let e := (l.drop (130 * x)).take 130
    ⟨signedOf 32 (e.getD 0 (0, false)).1, (e.getD 1 (0, false)).1, (e.drop 2).map (·.1)⟩

/-- A band of a stereo job (R122 to R127, R129), computed whole with its last unit. -/
def State.stereoBand (s : State) (e : Nat) (j : BrkJob) (bd : Nat) : Option UnitRes :=
  let b := j.block
  let (w, h) := j.size 0
  let rc : Nat := if getLE b 0x1C 1 = 0 then 2 else 3
  let np := getLE b 0x1D 1
  let p1 := getLE b 0x22 1
  let p2 := getLE b 0x23 1
  let gr := getLE b 0x24 1
  let y0 := bd * j.band
  let n := j.bandRows bd
  let ys := (List.range n).map (y0 + ·)
  (s.rowsFrom j.pt (j.plane 0) 0 ((y0 : Int) - rc) ((y0 + n : Nat) + rc : Int)).bind fun lr =>
  (s.rowsFrom j.pt (j.plane 1) 0 ((y0 : Int) - rc) ((y0 + n : Nat) + rc : Int)).bind fun rr =>
  let tileRows := (List.range (ceilDiv n 8)).map (y0 / 8 + ·)
  let bases := tileRows.foldl (fun (a : Option (Tab (List (Nat × Bool × Bool)))) t => a.bind fun m =>
    ((List.range (ceilDiv w 8)).foldl (fun (c : Option (List (Nat × Bool × Bool))) i => c.bind fun l =>
      (s.stereoBase j i t).map fun v => l ++ [v]) (some [])).map fun l => m.put t l) (some [])
  bases.map fun bs =>
    let cens (rows : Rows) (y : Nat) : List (Nat × Bool) := (List.range w).map fun x => census rows w h rc x y
    let cl := ys.map fun y => (y, cens lr y)
    let cr := ys.map fun y => (y, cens rr y)
    let dirty := (j.chip.getD 5 []).any (·.2) || cl.any (fun r => r.2.any (·.2)) || cr.any (fun r => r.2.any (·.2))
    let row (y : Nat) : List PathPx :=
      let l := cl.getD (y - y0) (0, [])
      let r := (cr.getD (y - y0) (0, [])).2.map (·.1)
      (List.range w).map fun x =>
        let base := ((bs.getD (y / 8) []).getD (x / 8) (0, false, false)).1
        ⟨(rowPx lr x y).1, base, stereoCost rc base x (l.2.getD x (0, false)).1 r⟩
    let rows := ys.map row
    let sweep (dx : Int) (first : List PathPx) (l : List (List PathPx)) : List (List PathPx) :=
      (l.foldl (fun (a : List (List PathPx)) r => pathRow p1 p2 gr dx (a.headD first) r :: a) []).reverse
    let held (k : Nat) : List PathPx := unpackPath w (j.chip.getD k [])
    let down (k : Nat) (dx : Int) : List (List PathPx) := sweep dx (held k) rows
    let up (dx : Int) : List (List PathPx) := (sweep dx [] rows.reverse).reverse
    let right := rows.map fun r => pathRight p1 p2 gr r
    let left := rows.map fun r => (pathRight p1 p2 gr r.reverse).reverse
    let dn := down 2 0
    let dr := down 3 (-1)
    let dl := down 4 1
    let paths := if np = 4 then [right, left, dn, up 0] else [right, left, dn, up 0, dr, dl, up (-1), up 1]
    let sums := (List.range n).map fun k => match paths.map fun p => p.getD k [] with
      | [] => []
      | a :: r => r.foldl addCosts a
    let picks := sums.map fun r => (List.range w).map fun x => stereoPick np (getLE b 0x1F 1) (getLE b 0x25 1) r x
    let out (k : Nat) (es : Nat) (f : Nat × Nat → Nat) : List (Nat × Nat × List (Nat × Bool)) :=
      (picks.zipIdx).map fun r => ((j.plane k).base + (y0 + r.2) * (j.plane k).strideAt 1, es, r.1.map fun v => (f v, dirty))
    let count (v : Nat) : Nat := picks.foldl (fun a r => a + (r.filter fun p => p.1 == v).length) 0
    let fell := bs.foldl (fun a t => a + (t.2.filter fun v => v.2.1).length) 0
    { chip := [(2, packPath (dn.getLastD [])), (3, packPath (dr.getLastD [])), (4, packPath (dl.getLastD [])), (5, [(0, dirty)])]
      runs := out 2 2 (·.1) ++ (if getLE b 0x16 2 = 0 then [] else out 3 1 (·.2))
      counts := [(Reg.ENG_CANDIDATES e, 128 * w * n), (Reg.ENG_FALLBACK e, fell), (Reg.ENG_EDGE e, count 0xFFFE), (Reg.ENG_INVALID e, count 0xFFFF)]
      rows := n
      bad := dirty || bs.any fun t => t.2.any fun v => v.2.2 }

/-- What unit `u` of a job computes; nothing when a read is refused. -/
def State.brkUnit (s : State) (e : Nat) (j : BrkJob) : Option UnitRes :=
  match engKind e with
  | 1 => s.pyrUnit j j.unit
  | 2 => s.filterUnit j j.unit
  | 3 => s.warpUnit j j.unit
  | 4 => s.featUnit j j.unit
  | 5 => s.flowUnit e j j.unit
  | _ =>
    let (bd, last) := j.stereoUnit j.unit
    if last then s.stereoBand e j bd else some { chip := j.chip }

/-- Write the elements of a run granule by granule; a granule that holds a tainted element is poisoned (R111). Nothing when refused. -/
def State.brkWrite (s : State) (p e dva es : Nat) : Nat → List (Nat × Bool) → Option State
  | _, [] => some s
  | 0, _ => some s
  | fuel + 1, l =>
    let k := (64 - dva % 64) / es
    let now := l.take k
    match s.writeDva p (uBrk e) dva (now.flatMap fun v => leBytes es v.1) (now.any (·.2)) with
    | .done s' => State.brkWrite s' p e (dva + k * es) es fuel (l.drop k)
    | _ => none

/-- Write every run of a unit. -/
def State.brkWriteAll (s : State) (p e : Nat) : List (Nat × Nat × List (Nat × Bool)) → Option State
  | [] => some s
  | (dva, es, l) :: rest =>
    match s.brkWrite p e dva es (l.length + 1) l with
    | none => none
    | some s1 => State.brkWriteAll s1 p e rest

/-! ### Rows done, time-outs and completion (R84, R85, R110, R111) -/

/-- Advance the output counter of a job over what it has written, unless its rewrites are on their way (R85, R127). -/
def State.brkAdvance (s : State) (e k : Nat) : State :=
  match Tab.get? (s.eng e).ctx k with
  | none => s
  | some j =>
    if j.recA.isNone || s.rewriting j.pt (brkOutputs j.block) then s
    else
      match engKind e with
      | 2 => s.crzAdvance j.node j.unit false
      | 3 => s.crzAdvance j.node j.unit false
      | 6 => s.crzAdvance j.node (min (j.size 0).2 (j.unit / (2 * j.band) * j.band +
          (if j.unit < 2 * (j.size 0).2 then 0 else (j.size 0).2))) false none true
      | _ => s

/-- Abort a job between rows (R110). -/
def State.brkAbort (s : State) (e k code : Nat) : State :=
  match Tab.get? (s.eng e).ctx k with
  | none => s
  | some j => (((if 0x0301 ≤ code ∧ code ≤ 0x0323 then s.brkErr e j.pt code else s)).event (uBrk e) 0x04 j.pt code (getLE j.block 4 4) 0).brkEnd e k code

/-- BRACKEN_ROW_DONE (R83, R85, R111): the unit that runs is computed and written, its counter advances, and an abort that waited for
it takes effect. -/
def execBrackenRowDone (e : Fin 11) (s : State) : Res :=
  match (s.eng e).ctx.find? fun c => c.2.busy with
  | none => .next s
  | some (k, j) =>
    match s.brkUnit e j with
    | none => .next ((s.err j.pt (uBrk e) 0x0503 j.unit).brkAbort e k (if engKind e = 3 then 0x0302 else 0x0503)).crzDrain
    | some r =>
      if r.bad && !s.rdB (Reg.QM_PT_MODE j.pt) 0 then .next (s.brkAbort e k 0x0305).crzDrain
      else
        match s.brkWriteAll j.pt e r.runs with
        | none => .next ((s.err j.pt (uBrk e) 0x0503 j.unit).brkAbort e k 0x0503).crzDrain
        | some s1 =>
          let fault := r.bad && !j.poison
          let s2 := if fault then s1.brkErr e j.pt 0x0305 else s1
          let x := s2.eng e
          let s3 := s2.setEng e { x with ctx := x.ctx.put k { j with busy := false, unit := j.unit + 1, chip := r.chip, since := s.now,
                                                                     poison := j.poison || r.bad } }
          let s4 := (r.counts.foldl (fun s c => s.bump c.1 c.2) (s3.bump (Reg.ENG_ROWS e) r.rows)).bump (Reg.BRK_PT_BUSY j.pt)
            (j.cycles (engKind e) j.unit)
          (match j.aborting with
            | some c => .next (s4.brkAbort e k c).crzDrain
            | none => .next (s4.brkAdvance e k).crzDrain)

/-- BRACKEN_WAIT_TIMEOUT (R84): a requirement has been waited for longer than WAIT_US: the job aborts with 0x0307. -/
def execBrackenWaitTimeout (e : Fin 11) (k : Fin 4) (s : State) : Res :=
  match Tab.get? (s.eng e).ctx k with
  | none => .next s
  | some j =>
    if getLE j.block 8 4 = 0 ∨ !j.started ∨ j.busy ∨ j.units (engKind e) ≤ j.unit ∨ s.brkReady j (engKind e) then .next s
    else .next (s.brkAbort e k 0x0307).crzDrain

/-- BRACKEN_JOB_COMPLETE (R85): every unit is done and the rewrites are complete: the counter advances to its final value, and the node
ends behind the writes. -/
def execBrackenJobComplete (e : Fin 11) (k : Fin 4) (s : State) : Res :=
  match Tab.get? (s.eng e).ctx k with
  | none => .next s
  | some j =>
    if !j.started ∨ j.busy ∨ j.unit < j.units (engKind e) ∨ s.rewriting j.pt (brkOutputs j.block) then .next s
    else .next ((s.crzAdvance j.node 0 true).brkEnd e k 0).crzDrain

end Sys2Proof.Machine
end

