-- ==== Sys2Proof/Machine/SafeCore.lean ====
section
/-! DEFINITION. Sys2Proof/Machine/SafeCore.lean: the Yarre checker's tasks, the hold, release items and safety restarts
(19_functional_safety, R495 to R511), what aborts the work of a partition (R402, R510), and the fatal state (R479). -/

namespace Sys2Proof.Machine

/-! ### Aborting the work of a partition (R402, R479, R510) -/

/-- The units of class `c` among `n` that partition `p` owns. -/
def State.unitsOf (s : State) (p c n : Nat) : List Nat := (List.range n).filter fun i => s.owns p c i

/-- Discard the spore requests of channel `n` (R343). -/
def State.dropSpores (s : State) (n : Nat) : State :=
  if (s.ch n).spores.isEmpty then s
  else (s.setCh n { s.ch n with spores := [] }).wrF (Reg.MOV_CH_SPORE_STATUS n) 0 16 0

/-- Abort what runs for partition `p`: Crozier instances, graph runs, channels, Bracken jobs, ISP frames (R151, R314, R343). -/
def State.abortWork (s : State) (p : Nat) : State :=
  let s1 := (s.unitsOf p 0x19 64).foldl (fun s g => s.crzAbortAll g 0x0408) s
  let s2 := (s1.gs.graphs.filter fun g => g.pt == p).foldl (fun s g => s.abortGraph g 0x0708) s1
  let s3 := (s.unitsOf p 0x21 64).foldl (fun s n => (s.chAbort n 0x0806).dropSpores n) s2
  let s4 := (List.range 11).foldl (fun s e =>
    ((s.eng e).ctx.filter fun c => c.2.pt == p).foldl (fun s c =>
      if c.2.busy then s.setEng e { s.eng e with ctx := (s.eng e).ctx.put c.1 { c.2 with aborting := some 0x0309 } }
      else s.brkAbort e c.1 0x0309) s) s3
  ((List.range 48).foldl (fun s u => if s.ictxPt u = p then s.ispStop u 0x0407 else s) s4).crzDrain

/-- The accesses of partition `p` that are outstanding complete or are abandoned (R402, R510): what was aborting ends. -/
def State.abandonAccesses (s : State) (p : Nat) : State :=
  let s1 := { s with lnk := { s.lnk with outstanding := s.lnk.outstanding.filter fun r => r.pt != p } }
  let s2 := (s.unitsOf p 0x01 32).foldl (fun s n =>
    (s.setTc n { s.tc n with loads := [], stores := [], rels := [] }).abortComplete n) s1
  let s3 := (s.unitsOf p 0x21 64).foldl (fun s n =>
    let c := s.ch n
    (s.setCh n { c with reads := [], ready := [], writes := [], redo := [], cur := none, drains := []
                        rels := c.rels.map fun (r : ChRel) => { r with needs := [] } }).chRunComplete n) s2
  let s4 := (List.range 11).foldl (fun s e =>
    ((s.eng e).ctx.filter fun c => c.2.pt == p && c.2.aborting.isSome).foldl (fun s c => s.brkAbort e c.1 0x0309) s) s3
  (s4.gsSettle p).crzDrain

/-- Flags of `p` return to 0 and their waits end as aborted (R402, R510, R544). -/
def State.clearFlags (s : State) (p : Nat) : State :=
  let mine := s.flags.tab.filter fun e => s.owns p 0x33 e.1
  let s1 := mine.foldl (fun s e => (e.2.waits.filter fun w => w.ended.isNone).foldl (fun s w =>
    s.trace w.pt 7 w.agent e.1 false ⟨0, 0⟩ e.2.value w.target w.ctx) s) s
  { s1 with flags := { tab := s1.flags.tab.filter fun e => !s.owns p 0x33 e.1, queue := s1.flags.queue.filter fun o => o.pt != p } }

/-- The Fronds of `p` hold zeros (R233); one that is being fenced goes on with its sequence. -/
def State.zeroFronds (s : State) (p : Nat) : State :=
  (s.unitsOf p 0x01 32).foldl (fun s n =>
    if (s.tc n).fencing.isSome then s.startZeroing n else s.setTc n { placed := (s.tc n).placed, kak := (s.tc n).kak }) s

/-- The stripe counters of `p` return to their reset values. -/
def State.clearCounters (s : State) (p : Nat) : State :=
  (s.unitsOf p 0x1A 1024).foldl (fun s i => s.clearRegs (· == Reg.CRZ_SC i)) s

/-- The copies of descriptors and the rewrites that the units hold for `p` are gone. -/
def State.dropCaches (s : State) (p : Nat) : State :=
  { s with dsc := { s.dsc with stale := s.dsc.stale.filter fun e => e.1 / 65536 != p, rewrites := s.dsc.rewrites.filter fun w => w.pt != p } }

/-! ### Tasks (R499) -/

/-- The entry of task `t`; an undefined task has none. -/
def State.task (s : State) (t : Nat) : Option (List Byte) := Tab.get? s.safe.table t

/-- PT. -/
def taskPt (e : List Byte) : Nat := getLE e 2 1 % 16
/-- A bit of MODE. -/
def taskMode (e : List Byte) (i : Nat) : Bool := bitAt (getLE e 3 1) i
/-- PROG. -/
def taskProg (e : List Byte) : Nat := getLE e 4 1
/-- RING. -/
def taskRing (e : List Byte) : Nat := getLE e 6 2 % 8192
/-- T_LATENCY_US in ns. -/
def taskLatency (e : List Byte) : Nat := getLE e 0x0C 4 * 1000
/-- READ_MAX. -/
def taskReadMax (e : List Byte) : Nat := getLE e 0x18 4

/-- An entry of the task table keeps to its ranges (R499). -/
def taskOk (e : List Byte) : Bool :=
  e.length == 64 && 1 ≤ getLE e 0 2 && getLE e 0 2 ≤ 255 && getLE e 2 1 < 16 && getLE e 3 1 < 128 &&
  (taskProg e < 64 || taskProg e == 0xFF) && getLE e 5 1 == 0 && getLE e 6 2 < 8192 && 10 ≤ getLE e 0x14 4 && getLE e 0x14 4 ≤ 5000 &&
  taskReadMax e ≤ 0x400000 && (taskMode e 4 || taskMode e 5) && (e.drop 0x20).all (· == 0#8)

/-- A task table keeps to R499: no TASK twice. -/
def tableOk (l : List (List Byte)) : Bool :=
  l.length ≤ 255 && l.all taskOk && decide ((l.map fun e => getLE e 0 2).Nodup)

/-! ### The pin (R495, R496) -/

/-- The pairs that work. -/
def State.pairsWorking (s : State) : Nat := (!s.safe.retA).toNat + (!s.safe.retB).toNat

/-- The two pairs run different images (R464). -/
def State.pairsDiffer (s : State) : Bool :=
  match s.sec.upd with
  | some u => 3 ≤ u.type && u.have_.length == 1 && s.pairsWorking == 2
  | none => false

/-- The checker is degraded (R495). -/
def State.degraded (s : State) : Bool := s.safe.retA || s.safe.retB

/-- The checker serves its queue: it is present, powered, and neither restarting nor without a pair. -/
def State.checkerRuns (s : State) : Bool := !s.safe.noFw && !s.safe.down && !s.safe.vddBad && s.pairsWorking != 0

/-- SAFE_HOLD_N is asserted (R496). -/
def State.mustHold (s : State) : Bool :=
  !s.safe.hold.isEmpty || s.safe.down || s.safe.noFw || s.safe.noTable || s.pairsWorking == 0 || s.rdB Reg.REL_STATUS 0 ||
  s.safe.holdTest.isSome || s.safe.clkBad || s.safe.vddBad || s.safe.limit

/-- [2:0] of SAFE_TASK_t_STATE (R515). -/
def State.taskState (s : State) (t : Nat) : Nat :=
  if s.safe.runs.any fun r => r.task == t && r.asked then 4
  else if s.safe.runs.any fun r => r.task == t && (r.prog.isSome || !r.recs.isEmpty) then 3
  else if s.safe.hold.contains t then 1 else 2

/-- The status registers of the checker and the pin follow its state (R496, R515, R563): the first cause of a hold is kept, and each
change of the pin is an event. -/
def State.safeSync (s : State) (cause task : Nat) : State :=
  let x := s.safe
  let hold := s.mustHold
  let s1 := s.wr Reg.SAFE_STATUS (hold.toNat + s.degraded.toNat * 2 + x.dutyB.toNat * 4 + x.retA.toNat * 8 + x.retB.toNat * 16 +
    s.pairsDiffer.toNat * 32 + x.holdTest.isSome.toNat * 64 + x.hold.length * 2 ^ 16 + x.table.length * 2 ^ 24)
  let s2 := (List.range 16).foldl (fun s p =>
    let mine := x.table.filter fun e => taskPt e.2 == p
    s.wr (Reg.SAFE_PT_STATUS p) ((mine.any fun e => x.hold.contains e.1).toNat + (x.restarts.contains p).toNat * 2 + mine.length * 256)) s1
  let s3 := x.table.foldl (fun s e =>
    (s.wrF (Reg.SAFE_TASK_STATE e.1) 0 3 (s.taskState e.1)).wrF (Reg.SAFE_TASK_STATE e.1) 8 4 (taskPt e.2)) s2
  match hold, x.heldSince with
  | true, none =>
    let s4 := (s3.wr Reg.SAFE_HOLD_CAUSE (cause + task * 2 ^ 16)).wr Reg.SAFE_HOLD_TIME s.now
    { s4 with safe := { s4.safe with heldSince := some s.now } }.mgtEvent 5 (leBytes 8 (cause + task * 2 ^ 16) ++ leBytes 8 s.now)
  | false, some t =>
    let s4 := s3.bump Reg.SAFE_HOLD_US ((s.now - t) / 1000)
    { s4 with safe := { s4.safe with heldSince := none } }.mgtEvent 5
      (leBytes 8 (s.rdN Reg.SAFE_HOLD_CAUSE) ++ leBytes 8 (s.rdN Reg.SAFE_HOLD_TIME))
  | _, _ => s3

/-- Put task `t` into HOLD with a code (R506, R509). -/
def State.enterHold (s : State) (t code : Nat) : State :=
  let s1 := s.wrF (Reg.SAFE_TASK_STATE t) 16 16 code
  if s.safe.hold.contains t then s1
  else { s1.wr (Reg.SAFE_TASK_HOLD_TIME t) s.now with safe := { s1.safe with hold := insSorted t s1.safe.hold } }

/-- Every defined task enters HOLD (R493, R494, R507, R514). -/
def State.holdAll (s : State) (code : Nat) : State :=
  (s.safe.table.foldl (fun s e => s.enterHold e.1 code) s).safeSync code 0

/-! ### Release items (R508) -/

/-- The 64-byte release or reject item. -/
def releaseItem (ty code t p fl run digest fs judge : Nat) (result : List Byte) (seq : Nat) : List Byte :=
  let b := leBytes 1 ty ++ leBytes 1 0 ++ leBytes 2 code ++ leBytes 2 t ++ leBytes 1 p ++ leBytes 1 fl ++ leBytes 8 run ++
    leBytes 8 digest ++ leBytes 8 fs ++ leBytes 8 judge ++ (result ++ leBytes 16 0).take 16 ++ leBytes 4 seq
  b ++ leBytes 4 (crc32c b)

/-- The ring of a task takes release items (R508). -/
def State.ringTakes (s : State) (e : List Byte) : Bool :=
  !taskMode e 4 ||
  (s.rdB (Reg.RING_CFG (taskRing e)) 0 && s.rdB (Reg.RING_CFG (taskRing e)) 1 && s.owns (taskPt e) 0x31 (taskRing e))

/-- An item of task `t` can be posted without a stall (R508, R563). -/
def State.postRoom (s : State) (e : List Byte) : Bool :=
  let r := taskRing e
  (!taskMode e 4 || !s.ringTakes e ||
    s.ringUsed r + (s.qm.posts.filter fun x => x.ring == r).foldl (fun (a : Nat) x => a + x.bytes.length / 64) 0 < s.ringSize r) &&
  (!taskMode e 5 || s.mgt.events.length < 64)

/-- Post an item of task `t` (R508): to its ring, and to the management port. -/
def State.postRelease (s : State) (t : Nat) (e : List Byte) (ty code fl run digest fs : Nat) (result : List Byte) : State :=
  let seq := (s.safe.seq.getD t 0 + 1) % 2 ^ 32
  let b := releaseItem ty code t (taskPt e) (fl + s.degraded.toNat * 4) run digest fs s.now result seq
  let s1 := { s with safe := { s.safe with seq := s.safe.seq.put t seq } }
  let s2 := if taskMode e 4 && s.ringTakes e then s1.postItem (taskPt e) (taskRing e) b else s1
  if taskMode e 5 then s2.mgtEvent 1 b else s2

/-- Post the reject item that R507 holds back and those of failures. -/
def State.postReject (s : State) (t : Nat) (e : List Byte) (code run digest fs : Nat) (resolved wasHold : Bool) : State :=
  s.postRelease t e 0x11 code (resolved.toNat + wasHold.toNat * 2) run digest fs []

/-! ### Safety restarts (R509 to R511) -/

/-- A safety restart of partition `p` begins (R510): its work is aborted; an entry into a lower rung is cancelled (R507). -/
def State.safetyRestart (s : State) (p code t : Nat) : State :=
  if s.safe.restarts.contains p || !s.ptReady p then s
  else
    let s0 := match s.pwr.entry with
      | some _ => { s.wrF Reg.PWR_STATUS 3 1 0 with pwr := { s.pwr with entry := none, exiting := true } }
      | none => s
    let s1 := { (s0.wrF (Reg.QM_PT_STATE p) 0 3 5).wr (Reg.SAFE_PT_RESTART_CODE p) (code + t * 2 ^ 16) with
      safe := { s0.safe with restarts := insSorted p s0.safe.restarts } }
    let s2 := s1.errAll (if p = 0 then [0] else [0, p]) { code := 0x0E09, event := true, info := t }
    (s2.abortWork p).safeSync code t

/-- Report a code of task `t` to PT_0 and to its partition (R509, R514). -/
def State.taskErr (s : State) (p t code run : Nat) (event : Bool := false) (subj : UnitId := ⟨0, 0⟩) : State :=
  s.errAll (if p = 0 then [0] else [0, p]) { code := code, subj := subj, info := t + run % 2 ^ 48 * 2 ^ 16, event := event }

/-- A run or a timer of task `t` fails with a code (R509); `timer` is an expiry of the arrival timer; INFO of 0x0E04 holds the program's
reason in place of the task (R505). -/
def State.failTask (s : State) (t : Nat) (e : List Byte) (code run digest fs : Nat) (resolved timer : Bool) (reason : Nat := 0) : State :=
  let was := s.safe.hold.contains t
  let s1 := (s.enterHold t code).safeSync code t
  let s2 := s1.postReject t e code run digest fs resolved was
  let s3 := ((s2.bump Reg.SAFE_REJECTED 1).bump (Reg.SAFE_TASK_REJECTS t) 1).taskErr (taskPt e) (if reason = 0 then t else reason) code run
  let s4 := { s3 with safe := { s3.safe with armAt := s3.safe.armAt.put t s.now } }
  if taskMode e 6 || (timer && was) || code == 0x0E0F then s4 else s4.safetyRestart (taskPt e) code t

/-! ### The task table (R499) -/

/-- A task table becomes active (R499): unchanged tasks keep their state, new and changed ones start in HOLD, and every arrival timer
starts. -/
def State.activateTable (s : State) (l : List (List Byte)) : State :=
  let t : Tab (List Byte) := l.foldl (fun (t : Tab (List Byte)) e => t.put (getLE e 0 2) e) []
  let same (k : Nat) : Bool := (Tab.get? s.safe.table k).isSome && Tab.get? s.safe.table k == Tab.get? t k
  let s1 := { s with safe := { s.safe with
    table := t, noTable := false, hold := s.safe.hold.filter same, runs := s.safe.runs.filter fun r => same r.task
    pers := s.safe.pers.filter fun x => same x.1, armAt := t.map fun (e : Nat × List Byte) => (e.1, s.now), seq := s.safe.seq.filter fun x => same x.1 } }
  let s2 := (s.safe.table.filter fun e => (Tab.get? t e.1).isNone).foldl (fun s e => s.wr (Reg.SAFE_TASK_STATE e.1) 1) s1
  ((t.filter fun (e : Nat × List Byte) => !same e.1).foldl (fun (s : State) e => s.enterHold e.1 0) s2).safeSync 0 0

/-! ### The fatal state (R479) -/

/-- The device becomes fatal with a cause and its subject (R479): dispatch stops, work is aborted, the cause goes to PT_0 and then
0x0D0B to every partition, the master is told, the checker holds, and recording freezes when DBG_FRZ_CFG says so (R547). A device
that is fatal stays as it is. -/
def State.deviceFatal (s : State) (code : Nat) (subj : UnitId) : State :=
  if s.rdB Reg.REL_STATUS 0 then s
  else
    let s1 := (s.wrF Reg.REL_STATUS 0 1 1).wr Reg.REL_FATAL_INFO (code + subj.cls * 2 ^ 16 + subj.inst * 2 ^ 24)
    let s2 := { s1 with boot := { s1.boot with fatalAt := some s.now } }.report 0 { code := code, subj := subj, rep := ⟨0, 0⟩, fatal := true }
    let s3 := s2.errAll (List.range 16) { code := 0x0D0B, subj := subj, fatal := true }
    let s4 := (s3.safeSync 0x0D0B 0).mgtEvent 3 (leBytes 8 (s1.rdN Reg.REL_FATAL_INFO) ++ leBytes 8 s.now)
    let s5 : State := (List.range 16).foldl (fun s p => s.abortWork p) s4
    let s6 := if s5.lnk.role = .master then s5
      else { s5 with out := s5.out ++ [.link (s5.rdF Reg.LNK_STATUS 16 7) 0x78 [0x0D0B, subj.cls, subj.inst, s.now] []] }
    if s6.rdB Reg.DBG_FRZ_CFG 2 then s6.freezeLocal 3 else s6

end Sys2Proof.Machine
end

