-- ==== Sys2Proof/Machine/SecCore.lean ====
section
/-! DEFINITION. Sys2Proof/Machine/SecCore.lean: images, measurements, derived keys and the boot flash (17_security, R440 to R447,
R464; 23_boot_reset, R570 to R573). -/

namespace Sys2Proof.Machine

/-- Report a code of the security block to PT_0 and to the partition named (R465). -/
def State.secErr (s : State) (p code : Nat) : State := s.errAll (if p = 0 then [0] else [0, p]) { code := code }

/-- `n` bytes of the random source (R443): free values. -/
def State.freshBytes (s : State) (n : Nat) : List Byte × State :=
  let (x, s1) := s.fresh
  (leBytes n x, s1)

/-- A random P-384 private key. -/
def State.freshPriv (s : State) : Nat × State :=
  let (x, s1) := s.fresh
  (x % (ecN - 1) + 1, s1)

/-! ### Fuses and images (R440, R444, R445) -/

/-- The SVN floor of type `t`. -/
def State.svnFloor (s : State) (t : Nat) : Nat := s.sec.floor.getD t 0

/-- A public key is the one of hash `i` (0 to 3 AKH, 4 to 7 OKH, 8 and 9 DKH) and is not revoked. -/
def State.keyOk (s : State) (i : Nat) (pub : List Byte) : Bool :=
  Tab.get? s.sec.keyHash i == some (sha384 pub) && !bitAt s.sec.revoke i

/-- The code with which an image of type `t` is refused (R445); 0 when it is accepted. -/
def State.imageCode (s : State) (t : Nat) (b : List Byte) : Nat :=
  let size := getLE b 0x0C 4
  let k := getLE b 6 1
  let good := 256 ≤ b.length && getLE b 0 4 == 0xA8101A6E && getLE b 4 1 == t && getLE b 5 1 == 1 && k < 4 && getLE b 7 1 < 128 &&
    size % 64 == 0 && size ≤ 0x400000 && b.length == 256 + size &&
    s.keyOk (if t = 4 then 4 + k else k) ((b.drop 0x40).take 96) &&
    ecdsaOk ((b.drop 0x40).take 96) (b.take 0xA0) ((b.drop 0xA0).take 96) && sha384 (b.drop 256) == (b.drop 0x10).take 48
  if !good then 0x0C03 else if getLE b 7 1 < s.svnFloor t then 0x0C04 else 0

/-- What an accepted image becomes when it runs. -/
def runImg (b : List Byte) (slotB : Bool) : RunImg where
  svn := getLE b 7 1
  build := getLE b 8 4
  hash := sha384 b
  slotB := slotB

/-- The measurement of the image of type `t` that runs. -/
def State.imgHash (s : State) (t : Nat) : List Byte :=
  match Tab.get? s.sec.imgs t with
  | some i => i.hash
  | none => Config.noImageHash t

/-- The SVN of the image of type `t` that runs. -/
def State.imgSvn (s : State) (t : Nat) : Nat :=
  match Tab.get? s.sec.imgs t with
  | some i => i.svn
  | none => 0

/-! ### Derived keys (R441, R442, R446, R447) -/

/-- H_CFG (R442). -/
def State.hCfg (s : State) : List Byte :=
  sha384 (Config.cfgBytes (s.rdN Reg.GLB_STRAPS) s.sec.lcs s.sec.revoke
    ((List.range 10).flatMap fun i => s.sec.keyHash.getD i (leBytes 48 0)) ((List.range 4).map fun i => s.svnFloor (i + 1)))

/-- CDI_1 and L1K, from UDS and the measured SFW. -/
def State.deriveL1 (s : State) : State :=
  let cdi := kdf s.sec.uds "CDI1" (s.imgHash 1 ++ leBytes 1 s.sec.lcs)
  { s with sec := { s.sec with cdi1 := cdi, l1k := kdfPriv cdi "L1K" [] } }

/-- CDI_2 and AK, from CDI_1 and the measurements of layer 2. -/
def State.deriveL2 (s : State) : State :=
  let cdi := kdf s.sec.cdi1 "CDI2" (s.imgHash 2 ++ s.imgHash 3 ++ s.imgHash 4 ++ s.hCfg ++ leBytes 1 s.sec.dbg.toNat)
  { s with sec := { s.sec with cdi2 := cdi, ak := kdfPriv cdi "AK" [] } }

/-- A live update or a debug grant changes CDI_2: a new AK, and SEC_MEAS_GEN counts (R447). -/
def State.remeasure (s : State) : State :=
  s.deriveL2.wr Reg.SEC_MEAS_GEN ((s.rdN Reg.SEC_MEAS_GEN + 1) % 2 ^ 32)

/-! ### The boot flash (R570, R571) -/

/-- `n` bytes of the flash from `a` on; a byte that nobody programmed is erased. -/
def State.readFlash (s : State) (a n : Nat) : List Byte := (List.range n).map fun k => s.boot.flash.getD (a + k) 0xFF#8

/-- Erase and program bytes of the flash. -/
def State.writeFlash (s : State) (a : Nat) (b : List Byte) : State :=
  { s with boot := { s.boot with flash := (b.zipIdx).foldl (fun (t : Tab Byte) x => Tab.write (fun _ => 0xFF#8) t (a + x.2) x.1) s.boot.flash } }

/-- A copy of the boot directory passes (R571). -/
def dirOk (d : List Byte) : Bool := getLE d 0 4 == 0xB007D1E5 && getLE d 0xFFC 4 == crc32c (d.take 0xFFC)

/-- The directory that the boot ROM uses, and whether it is copy 2 (R571). -/
def State.bootDir (s : State) : Option (List Byte × Bool) :=
  let a := s.readFlash 0 4096
  let b := s.readFlash 4096 4096
  if dirOk a && (!dirOk b || getLE b 4 4 ≤ getLE a 4 4) then some (a, false) else if dirOk b then some (b, true) else none

/-- Offset of slot A or B of type `t`. -/
def dirSlot (d : List Byte) (t : Nat) (b : Bool) : Nat := getLE d (0x10 + (t - 1) * 16 + (if b then 4 else 0)) 4

/-- The image in a slot: its header and the payload that SIZE names, at most what the slot holds. -/
def State.slotImage (s : State) (d : List Byte) (t : Nat) (b : Bool) : List Byte :=
  let a := dirSlot d t b
  let h := s.readFlash a 256
  h ++ s.readFlash (a + 256) (min (getLE h 0x0C 4) (getLE d (0x10 + (t - 1) * 16 + 8) 4 - 256))

/-- Mark a slot of type `t` as preferred in the copy of the directory that the boot ROM did not use, with GEN + 1 (R571). -/
def State.preferSlot (s : State) (t : Nat) (b : Bool) : State :=
  match s.bootDir with
  | none => s
  | some (d, _) =>
    let body := putBytes (putBytes d 4 (leBytes 4 (getLE d 4 4 + 1))) 8 (leBytes 4 (setFld (getLE d 8 4) (t - 1) 1 b.toNat))
    s.writeFlash (if s.rdB Reg.GLB_BOOT_STATUS 8 then 0 else 4096) (body.take 0xFFC ++ leBytes 4 (crc32c (body.take 0xFFC)))

/-! ### Live updates of the checker's images (R464) -/

/-- The live update in progress is abandoned (R464, R495): the old image stays. -/
def State.updAbandon (s : State) : State := { s with sec := { s.sec with upd := none } }.secErr 0 0x0C08

/-- The new image of the update becomes the running one. -/
def State.updRun (s : State) (u : Update) : State :=
  let s1 := { s with sec := { s.sec with imgs := s.sec.imgs.put u.type u.img } }
  if u.type = 4 then
    (if tableOk (Config.taskTable u.payload) then s1.activateTable (Config.taskTable u.payload) else s1)
  else s1

/-- An update completes: its slot is preferred, and R447 applies. -/
def State.updDone (s : State) (u : Update) : State :=
  ({ s with sec := { s.sec with upd := none } }.preferSlot u.type u.img.slotB).remeasure

/-- Pair `k` (0 A, 1 B) goes off duty and loads the new image, when it is in its slot (R464). -/
def State.updLoad (s : State) (k : Nat) : State :=
  match s.sec.upd with
  | some u =>
    if 3 ≤ u.type ∧ u.inSlot ∧ !u.have_.contains k then { s with sec := { s.sec with upd := some { u with loading := [k] } } } else s
  | none => s

/-- Pair `k` takes duty: with the new image for the first time, it becomes the measured one; when both pairs have it, the update
completes (R464). -/
def State.updTakes (s : State) (k : Nat) : State :=
  match s.sec.upd with
  | some u => if !u.have_.contains k then s else if u.have_.length = 1 then s.updRun u else s.updDone u
  | none => s

end Sys2Proof.Machine
end

