-- ==== Sys2Proof/Machine/Checker.lean ====
section
/-! DEFINITION. Sys2Proof/Machine/Checker.lean: the meanings of the Yarre checker's commands (19_functional_safety, R488 to R515):
gathering and judging runs, safety restarts, duty, the safe state. -/

namespace Sys2Proof.Machine

/-! ### Gathering (R500 to R504) -/

/-- What names the run of an operation-end item (R503): LARG; HANDLE and RUN under NOFRAME. -/
def runKey (e item : List Byte) : Nat :=
  if taskMode e 3 then getLE item 4 4 * 2 ^ 64 + getLE item 8 8 else getLE item 0x30 8

/-- The run of task `t` that `key` names. -/
def State.safeRun (s : State) (t key : Nat) : Option SafeRun := s.safe.runs.find? fun r => r.task == t && r.key == key

/-- Replace a run. -/
def State.setSafeRun (s : State) (r : SafeRun) : State :=
  { s with safe := { s.safe with runs := s.safe.runs.map fun x => if x.task = r.task ∧ x.key = r.key then r else x } }

/-- A launch notice arrives: a later one with the same INST_REC replaces it. -/
def State.takeNotice (s : State) (p : Nat) (b : List Byte) : State :=
  let rest := s.safe.notices.filter fun n => !(n.1 == p && getLE n.2 0x10 8 == getLE b 0x10 8)
  { s with safe := { s.safe with notices := rest ++ [(p, b)] } }

/-- The scheduler's answer about copy 2 (R301, R504): a refusal is noted at the run that asked. -/
def State.takeAnswer (s : State) (b : List Byte) : State :=
  if getLE b 2 2 = 0 then s
  else
    let hit (r : SafeRun) : Bool := r.asked && r.pt == getLE b 1 1 && (match Tab.get? r.items 0 with
      | some x => getLE x 4 12 == getLE b 4 12 && getLE x 0x10 2 == getLE b 0x10 2
      | none => false)
    { s with safe := { s.safe with runs := s.safe.runs.map fun r => if hit r then { r with refused := true } else r } }

/-- An operation-end item of a CHECK operation arrives (R500, R503, R514). An item of the run judged last, and one of a copy that a task
without REDUNDANT does not compare and whose run is not gathered, have no judgement left to serve. -/
def State.takeItemEnd (s : State) (p : Nat) (b : List Byte) : State :=
  let t := getLE b 0x16 2
  match s.task t with
  | none => s.errAll (if p = 0 then [0] else [0, p]) { code := 0x0E11, info := t }
  | some e =>
    if taskPt e ≠ p then s.errAll (if p = 0 then [0] else [0, p]) { code := 0x0E11, info := t }
    else if Tab.get? s.safe.judged t = some (getLE b 4 4, getLE b 8 8) then s
    else
      let copy := getLE b 0x12 1
      match s.safeRun t (runKey e b) with
      | some r => s.setSafeRun { r with items := if (Tab.get? r.items copy).isSome then r.items else r.items.put copy b }
      | none =>
        if copy ≠ 0 ∧ !taskMode e 0 then s
        else
          let r : SafeRun := { task := t, pt := p, key := runKey e b, items := [(copy, b)], firstAt := s.now }
          { s with safe := { s.safe with runs := s.safe.runs ++ [r] } }

/-- CHECKER_ITEM (R500, R501, R510, R468): the oldest message leaves the queue; one of a partition in a safety restart is discarded;
an uncorrectable error loses it, and every task enters HOLD with 0x0E0D. -/
def execCheckerItem (bad : Bool) (s : State) : Res :=
  match s.safe.mailbox with
  | [] => .next s
  | (p, b) :: rest =>
    if !s.checkerRuns then .next s
    else
      let s1 := { s with safe := { s.safe with mailbox := rest } }
      if bad then .next ((s1.err 0 ⟨0, 0⟩ 0x0E0D).holdAll 0x0E0D)
      else if s1.safe.restarts.contains p then .next s1
      else if getLE b 0 1 = 0x20 then .next (s1.takeNotice p b)
      else if getLE b 0 1 = 0x21 then .next ((s1.takeAnswer b).safeSync 0 0)
      else .next ((s1.takeItemEnd p b).safeSync 0 0)

/-! ### Judging (R502 to R505) -/

/-- The digest records of an item, 32 bytes each. -/
def itemDigests (b : List Byte) : List (List Byte) := (List.range (getLE b 1 1)).map fun k => (b.drop (0x40 + 32 * k)).take 32

/-- An item carries an error, or a digest record of it COUNT_ERR or POISON (R503). -/
def itemFlagged (b : List Byte) : Bool := getLE b 2 2 != 0 || (itemDigests b).any fun d => getLE d 2 1 % 4 != 0

/-- Two items hold the same NDIG and for each digest record the same HANDLE, DIGEST and COUNT (R504). -/
def itemsAgree (a b : List Byte) : Bool :=
  (itemDigests a).map (fun d => (getLE d 0 2, getLE d 8 8, getLE d 0x10 8)) ==
    (itemDigests b).map (fun d => (getLE d 0 2, getLE d 8 8, getLE d 0x10 8))

/-- The notice of a run (R503): by partition and INST_REC, which equals LARG. -/
def State.noticeFor (s : State) (r : SafeRun) : Option (List Byte) :=
  (s.safe.notices.find? fun n => n.1 == r.pt && getLE n.2 0x10 8 == r.key).map (·.2)

/-- REC of a notice: record DVA and FS_TIME. -/
def noticeRecs (b : List Byte) : List (Nat × Nat) :=
  (List.range (getLE b 1 1)).map fun k => (getLE b (0x20 + 16 * k) 8, getLE b (0x28 + 16 * k) 8)

/-- What the reading of the records finds (R503). -/
inductive RecRes where
  | good (l : List (List Byte)) | wait | bad

/-- STATUS bits of the codes 0x010B to 0x010E. -/
def sealBits : Nat := 0x3C00

/-- Read and check records (R502, R503). -/
def State.checkRecs (s : State) (p mask : Nat) : List (Nat × Nat) → RecRes
  | [] => .good []
  | (a, t) :: rest =>
    match s.readDva p a 64 with
    | .data b false =>
      if getLE b 0 8 ≠ t then .wait
      else if crc32c (b.take 60) ≠ getLE b 0x3C 4 ∨ getLE b 0x28 4 &&& (sealBits ||| mask) ≠ 0 then .bad
      else
        match State.checkRecs s p mask rest with
        | .good l => .good (b :: l)
        | x => x
    | _ => .bad

/-- The records of a run (R503): those once read, or what a reading of all of them gives, with the MAC check of the trigger's. -/
def State.runRecs (s : State) (e : List Byte) (r : SafeRun) : RecRes :=
  if taskMode e 3 then .good []
  else if !r.recs.isEmpty then .good r.recs
  else
    match s.noticeFor r with
    | none => .bad
    | some n =>
      if getLE n 1 1 = 0 then .bad
      else
        match s.checkRecs r.pt (getLE e 0x1C 4) (noticeRecs n) with
        | .good l => if taskMode e 2 && !bitAt (getLE (l.headD []) 0x37 1) 1 then .bad else .good l
        | x => x

/-- FS_TIME of the trigger frame, or START_TIME under NOFRAME (R499): of the first copy that arrived. -/
def State.runOrigin (s : State) (e : List Byte) (r : SafeRun) : Nat :=
  if taskMode e 3 then getLE ((r.items.headD (0, [])).2) 0x18 8
  else
    match s.noticeFor r with
    | some n => if getLE n 1 1 = 0 then 0 else getLE n 0x28 8
    | none => 0

/-- Where the procedure of R503 stands for a run. -/
inductive JudgeRes where
  /-- An input is missing. -/
  | gather
  /-- A record has not been written yet. -/
  | waitRec
  /-- The copies differ and copy 2 is to be requested. -/
  | ask
  /-- Copy 2 has been requested and is awaited. -/
  | wait2
  /-- The program runs. -/
  | program
  /-- The run fails. -/
  | fail (code : Nat)
  /-- The run passes so far as the latency. -/
  | pass

/-- compare() (R504). -/
def State.compareRun (s : State) (e : List Byte) (r : SafeRun) : JudgeRes :=
  if !taskMode e 0 then .pass
  else
    match Tab.get? r.items 0, Tab.get? r.items 1 with
    | some a, some b =>
      if itemsAgree a b || r.resolved then .pass
      else if !taskMode e 1 then .fail 0x0E02
      else if !r.asked then (if s.safe.restarts.contains r.pt then .fail 0x0E02 else .ask)
      else
        match Tab.get? r.items 2 with
        | some c => if itemsAgree a c then .pass else .fail 0x0E02
        | none => if r.refused then .fail 0x0E02 else .wait2
    | _, _ => .gather

/-- The procedure of R503 up to the program and the latency. -/
def State.judgeRun (s : State) (e : List Byte) (r : SafeRun) : JudgeRes :=
  match s.runRecs e r with
  | .bad => .fail 0x0E07
  | .wait => .waitRec
  | .good _ =>
    if r.items.any fun x => x.1 < 2 && itemFlagged x.2 then .fail 0x0E03
    else if (Tab.get? r.items 0).isNone then .gather
    else
      match s.compareRun e r with
      | .pass => if taskProg e ≠ 0xFF then .program else .pass
      | x => x

/-- DIGEST of copy 0's first digest record (R508). -/
def runDigest (r : SafeRun) : Nat :=
  match Tab.get? r.items 0 with
  | some b => getLE ((itemDigests b).headD []) 8 8
  | none => 0

/-- RUN of a run's items. -/
def runNumber (r : SafeRun) : Nat := getLE ((r.items.headD (0, [])).2) 8 8

/-- A run is judged: it leaves the gathering, and SAFE_JUDGED counts. -/
def State.runOver (s : State) (r : SafeRun) : State :=
  let b := (r.items.headD (0, [])).2
  { s with safe := { s.safe with
    runs := s.safe.runs.filter fun x => !(x.task == r.task && x.key == r.key)
    judged := s.safe.judged.put r.task (getLE b 4 4, getLE b 8 8) } }.bump Reg.SAFE_JUDGED 1

/-- A run fails with a code (R503, R509). -/
def State.failRun (s : State) (e : List Byte) (r : SafeRun) (code : Nat) (reason : Nat := 0) : State :=
  ((s.runOver r).failTask r.task e code (runNumber r) (runDigest r) (s.runOrigin e r) r.resolved false reason).crzDrain

/-- A run passes (R506, R508): its release item is posted, or the run counts as failed with 0x0E0F; the task leaves HOLD with a fresh
result. -/
def State.passRun (s : State) (e : List Byte) (r : SafeRun) (result kept : List Byte) : State :=
  let t := r.task
  let origin := s.runOrigin e r
  if !s.ringTakes e then s.failRun e r 0x0E0F
  else
    let was := s.safe.hold.contains t
    let s1 := (s.runOver r).postRelease t e 0x10 0 (r.resolved.toNat + was.toNat * 2) (runNumber r) (runDigest r) origin result
    let s2 := ((s1.bump Reg.SAFE_RELEASED 1).wr (Reg.SAFE_TASK_LAST_PASS t) s.now).wrF (Reg.SAFE_TASK_STATE t) 16 16 0
    let fresh := decide (s.rdN (Reg.SAFE_TASK_HOLD_TIME t) < origin)
    let s3 := { s2 with safe := { s2.safe with
      hold := if fresh then s2.safe.hold.filter (· != t) else s2.safe.hold
      armAt := s2.safe.armAt.put t s.now
      pers := if taskProg e = 0xFF then s2.safe.pers else s2.safe.pers.put t kept } }
    s3.safeSync 0 0

/-- Copy 2 resolves the disagreement (R504): SAFE_RESOLVED and the event 0x0E01 with TC of copy 1 as subject. -/
def State.resolveRun (s : State) (e : List Byte) (r : SafeRun) : State × SafeRun :=
  match Tab.get? r.items 0, Tab.get? r.items 1, Tab.get? r.items 2 with
  | some a, some b, some c =>
    if r.asked && !r.resolved && !itemsAgree a b && itemsAgree a c && taskMode e 0 then
      let r1 := { r with resolved := true }
      ((((s.setSafeRun r1).bump Reg.SAFE_RESOLVED 1).taskErr r.pt r.task 0x0E01 (runNumber r) true ⟨0x01, getLE b 0x13 1 % 32⟩), r1)
    else (s, r)
  | _, _, _ => (s, r)

/-- Act on where a judgement stands; `ended` is the end of the program. -/
def State.judgeStep (s : State) (e : List Byte) (r : SafeRun) (ended : Option ProgEnd) : State :=
  let late := decide (s.runOrigin e r + taskLatency e < s.now)
  match s.judgeRun e r with
  | .gather => s
  | .waitRec => (s.setSafeRun { r with waitRec := true }).safeSync 0 0
  | .ask => (s.setSafeRun { r with asked := true }).safeSync 0 0
  | .wait2 => s
  | .fail c => s.failRun e r c
  | .pass => if late then s.failRun e r 0x0E05 else if s.postRoom e then s.passRun e r [] [] else s
  | .program =>
    match r.prog, ended with
    | none, _ => (s.setSafeRun { r with prog := some (s.now, 0) }).safeSync 0 0
    | some _, none => s
    | some _, some x =>
      if x.fault then s.failRun e r 0x0E08
      else if x.reason ≠ 0#16 then s.failRun e r 0x0E04 x.reason.toNat
      else if late then s.failRun e r 0x0E05
      else if s.postRoom e then s.passRun e r (x.result.take 16) (x.kept.take 1024) else s

/-- The task entry and the run that a command names, while the checker runs. -/
def State.runOf (s : State) (t key : Nat) : Option (List Byte × SafeRun) :=
  if !s.checkerRuns then none
  else
    match s.task t, s.safeRun t key with
    | some e, some r => some (e, r)
    | _, _ => none

/-- Keep the records of a run that are written by now. -/
def State.keepRecs (s : State) (e : List Byte) (r : SafeRun) : State × SafeRun :=
  match s.runRecs e r with
  | .good l => let r1 := { r with recs := l, waitRec := false }; (s.setSafeRun r1, r1)
  | _ => (s, r)

/-- RUN_JUDGEMENT (R503 to R509). -/
def execRunJudgement (task : Fin 256) (key : Nat) (ended : Option ProgEnd) (s : State) : Res :=
  match s.runOf task key with
  | none => .next s
  | some (e, r) =>
    let (s1, r1) := s.keepRecs e r
    let (s2, r2) := s1.resolveRun e r1
    .next (s2.judgeStep e r2 ended)

/-- RECORD_REREAD (R503): a run that waits for a record reads it again; one that cannot be read, or is wrong, fails it. -/
def execRecordReread (task : Fin 256) (key : Nat) (s : State) : Res :=
  match s.runOf task key with
  | none => .next s
  | some (e, r) =>
    if !r.waitRec then .next s
    else
      match s.runRecs e r with
      | .bad => .next (s.failRun e r 0x0E07)
      | .wait => .next s
      | .good l => .next ((s.setSafeRun { r with recs := l, waitRec := false }).safeSync 0 0)

/-- PROGRAM_READ (R502, R505): READ returns its data, or fails the run with 0x0E08. -/
def execProgramRead (task : Fin 256) (key : Nat) (dva : BitVec 64) (length : BitVec 32) (s : State) : Res :=
  match s.runOf task key with
  | none => .next s
  | some (e, r) =>
    match r.prog with
    | none => .next s
    | some (t0, n) =>
      if taskReadMax e < n + length.toNat then .next (s.failRun e r 0x0E08)
      else
        match s.readDva r.pt dva.toNat length.toNat with
        | .data b false =>
          let s1 := s.setSafeRun { r with prog := some (t0, n + length.toNat) }
          .next { s1 with out := s1.out ++ [.progData task b] }
        | _ => .next (s.failRun e r 0x0E08)

/-- PROGRAM_TIMEOUT (R505). -/
def execProgramTimeout (task : Fin 256) (key : Nat) (s : State) : Res :=
  match s.runOf task key with
  | none => .next s
  | some (e, r) => .next (if r.prog.isSome then s.failRun e r 0x0E08 else s)

/-- COPY_TIMEOUT (R504): the second copy is missing: 0x0E06, unless an earlier step of R503 fails. -/
def execCopyTimeout (task : Fin 256) (key : Nat) (s : State) : Res :=
  match s.runOf task key with
  | none => .next s
  | some (e, r) =>
    if !taskMode e 0 ∨ ((Tab.get? r.items 0).isSome ∧ (Tab.get? r.items 1).isSome) then .next s
    else
      match s.judgeRun e r with
      | .fail c => .next (s.failRun e r c)
      | _ => .next (s.failRun e r 0x0E06)

/-- LATENCY_TIMEOUT (R503, R504): a record that was awaited fails the run with 0x0E07, copy 2 with 0x0E02, anything else with
0x0E05. -/
def execLatencyTimeout (task : Fin 256) (key : Nat) (s : State) : Res :=
  match s.runOf task key with
  | none => .next s
  | some (e, r) =>
    match s.judgeRun e r with
    | .fail c => .next (s.failRun e r c)
    | .waitRec => .next (s.failRun e r 0x0E07)
    | .wait2 => .next (s.failRun e r 0x0E02)
    | _ => .next (s.failRun e r 0x0E05)

/-- ARRIVAL_TIMEOUT (R506, R509): 0x0E06 and a reject item; a task that was in HOLD causes no restart, and its timer runs again. -/
def execArrivalTimeout (task : Fin 256) (s : State) : Res :=
  match s.task task, Tab.get? s.safe.armAt task with
  | some e, some _ => if !s.checkerRuns then .next s else .next (s.failTask task e 0x0E06 0 0 0 false true).crzDrain
  | _, _ => .next s

/-! ### Safety restarts (R510) -/

/-- What the scheduler and the Crozier still hold of the runs and instances of `p` is gone. -/
def State.dropRuns (s : State) (p : Nat) : State :=
  let gs := { s.gs with
    graphs := s.gs.graphs.map fun g => if g.pt = p then { g with cur := none, queue := [], runs := 0 } else g
    ready := s.gs.ready.filter fun (e : Nat × List CopyId) => e.1 / 8 != p
    delay := s.gs.delay.del p
    ends := s.gs.ends.filter fun e => e.pt != p }
  let mine (g : Nat) : Bool := s.cgPt g == p && s.crzOwned g
  let crz := { s.crz with
    graphs := s.crz.graphs.map fun (e : Nat × CGraph) => if mine e.1 then (e.1, { e.2 with insts := [] }) else e
    queue := s.crz.queue.filter fun r => !mine r.slot
    done := s.crz.done.filter fun r => !mine r.1.slot
    holds := s.crz.holds.filter fun h => !mine h.graph }
  { s with gs := gs, crz := crz }.gsStatus.gsReady p

/-- Every ring of `p` is flushed as FLUSH_ALL, keeping EN (R510, R390); the checker's own items are still to be posted. -/
def State.flushRings (s : State) (p : Nat) : State :=
  let mine := s.unitsOf p 0x31 8192
  let s1 := mine.foldl (fun s r => s.ringFlushAll r) s
  { s1 with qm := { s1.qm with
    posts := s1.qm.posts.filter fun x => x.pt != p || getLE x.bytes 0 1 == 0x10 || getLE x.bytes 0 1 == 0x11
    handed := s1.qm.handed.filter fun h => !mine.contains h.ring } }

/-- RESTART_ACCESSES_DONE (R510): accesses are over; Fronds, stripe counters, flags, rings, caches and task state of `p` are scrubbed. -/
def execRestartAccessesDone (p : Fin 16) (s : State) : Res :=
  if !s.safe.restarts.contains p.val then .next s
  else
    let s1 := (((((s.abandonAccesses p).zeroFronds p).clearCounters p).clearFlags p).flushRings p).dropCaches p
    let s2 := s1.dropRuns p
    .next { s2 with safe := { s2.safe with pers := s2.safe.pers.filter fun (e : Nat × List Byte) => match s.task e.1 with
      | some x => taskPt x != p.val
      | none => true } }

/-- Reload one graph from its images (R288, R297, R314): it keeps handle and priorities; a refused reload leaves it unloaded. -/
def State.reloadGraph (s : State) (g : Graph) : State :=
  match s.graphImages g.pt g.dva with
  | (s1, .error c) => (s1.dropGraph g).gsErr g.pt c g.handle
  | (s1, .ok (h, b)) =>
    let rest := { s1 with gs := { s1.gs with graphs := s1.gs.graphs.filter fun x => x.hdr != g.hdr } }
    let code := if getLE h 0x7C 4 ≠ g.crc then 0x0701 else rest.graphCode g.pt h b
    if code ≠ 0 then (s1.dropGraph g).gsErr g.pt code g.handle
    else
      let n := s1.mkGraph g.pt g.dva g.hdr g.recs h b
      s1.setGraph { n with ops := n.ops.zipIdx.map fun (o, i) => { o with prio := (g.opAt i).prio } }

/-- Reload one Crozier program (R132): another CRC is refused with 0x0402. -/
def State.reloadProgram (s : State) (k : Nat) (x : CGraph) : State :=
  let p := s.cgPt k
  let fail (s : State) (code : Nat) : State :=
    let s1 := ({ s with crz := { s.crz with graphs := s.crz.graphs.del k } }.wrF (Reg.CRZ_GR_STATUS k) 1 1 1).wr (Reg.CRZ_GR_ERR k) code
    if code = 0x0503 ∨ code = 0x0907 then s1 else s1.crzErr k code
  match s.readProgram p false 4096 x.prog with
  | (s1, .error c) => fail s1 c
  | (s1, .ok (ws, bs)) =>
    if crc32c bs ≠ x.crc then fail s1 0x0402
    else
      match { s1 with crz := { s1.crz with graphs := s1.crz.graphs.del k } }.mkCGraph k p x.prog ws bs with
      | .error c => fail s1 c
      | .ok y => s1.setCg k y

/-- RESTART_RELOAD_COMPLETE (R510, R506): graphs and programs are reloaded, the partition is READY, enabled graphs arm, and what
entered the mailbox before is discarded. -/
def execRestartReloadComplete (p : Fin 16) (s : State) : Res :=
  if !s.safe.restarts.contains p.val then .next s
  else
    let s1 := (s.gs.graphs.filter fun g => g.pt == p.val).foldl (fun s g => s.reloadGraph g) s
    let s2 := (s1.crz.graphs.filter fun e => s1.crzOwned e.1 && s1.cgPt e.1 == p.val).foldl (fun s e => s.reloadProgram e.1 e.2) s1
    let s3 := ((s2.wrF (Reg.QM_PT_STATE p) 0 3 1).bump (Reg.SAFE_PT_RESTARTS p) 1).wr (Reg.SAFE_PT_LAST_READY p) s.now
    let s4 := { s3 with safe := { s3.safe with
      restarts := s3.safe.restarts.filter (· != p.val)
      mailbox := s3.safe.mailbox.filter fun m => m.1 != p.val
      notices := s3.safe.notices.filter fun n => n.1 != p.val
      runs := s3.safe.runs.filter fun r => r.pt != p.val
      judged := s3.safe.judged.filter fun (e : Nat × Nat × Nat) => match s3.task e.1 with
        | some x => taskPt x != p.val
        | none => false
      armAt := s3.safe.table.foldl (fun (t : Tab Nat) (e : Nat × List Byte) => if taskPt e.2 = p.val then t.put e.1 s.now else t) s3.safe.armAt } }
    .next (s4.safeSync 0 0).crzDrain

/-! ### Duty and the pairs (R491 to R495, R464) -/

/-- A request of the duty pair is in progress (R491). -/
def State.dutyBusy (s : State) : Bool := s.safe.runs.any fun r => r.prog.isSome

/-- DUTY_SWAP (R491, R464): duty passes to the other pair; the one that goes off duty may take a new image. -/
def execDutySwap (deferred : BitVec 32) (s : State) : Res :=
  if !s.checkerRuns ∨ s.degraded ∨ s.dutyBusy then .next s
  else
    let off := s.safe.dutyB.toNat
    let s1 := ({ s with safe := { s.safe with dutyB := !s.safe.dutyB } }.bump Reg.SAFE_SWAPS 1).rcMax Reg.SAFE_SWAP_DEFER_MAX deferred.toNat
    .next (((s1.updTakes (1 - off)).updLoad off).safeSync 0 0)

/-- The old image of an update returns from the other slot (R464). -/
def State.updRestore (s : State) (u : Update) : State :=
  if u.have_.isEmpty then s.updAbandon
  else
    match s.bootDir with
    | none => s.updAbandon
    | some (d, _) =>
      let b := s.slotImage d u.type (!u.img.slotB)
      (s.updRun { u with img := runImg b (!u.img.slotB), payload := b.drop 256 }).updAbandon

/-- A pair that survives alone with an update in progress (R464, R495): it completes the update when it holds the new image, and
otherwise the update is abandoned. -/
def State.updSurvive (s : State) (k : Nat) : State :=
  match s.sec.upd with
  | some u =>
    if u.type < 3 then s
    else if u.have_.contains k then (s.updRun u).updDone u else s.updRestore u
  | none => s

/-- HEARTBEAT stops: its level while stopped is unspecified (R497). -/
def State.beatStops (s : State) : State :=
  let (x, s1) := s.fresh
  { s1 with safe := { s1.safe with beat := x % 2 == 1 } }

/-- Pair `k` is retired (R492, R493): 0x0E0A or 0x0E0B to PT_0; the other one has duty. -/
def State.retirePair (s : State) (k code : Nat) : State :=
  let both := s.degraded
  let s0 := if both then s.beatStops else s
  let s1 := { s0 with safe := { s0.safe with
    retA := s.safe.retA || k == 0, retB := s.safe.retB || k == 1
    dutyB := if s.safe.dutyB.toNat = k ∧ !both then !s.safe.dutyB else s.safe.dutyB } }
  let s2 := s1.err 0 ⟨0, 0⟩ code
  (if both then s2 else s2.updSurvive (1 - k)).safeSync code 0

/-- SELFTEST_COMPLETE (R492, R464): the off-duty pair passes or is retired with 0x0E0B; one that fails with a new image takes the old one
again and the update is abandoned. -/
def execSelftestComplete (pass : Bool) (s : State) : Res :=
  if !s.checkerRuns ∨ s.degraded then .next s
  else
    let k := 1 - s.safe.dutyB.toNat
    let loading := match s.sec.upd with
      | some u => u.loading.contains k
      | none => false
    let s1 := s.wrF Reg.SAFE_SELFTEST (16 + k) 1 pass.toNat
    if pass then
      .next (match s1.sec.upd with
        | some u =>
          let u1 := { u with loading := [], have_ := insSorted k u.have_ }
          if loading then State.safeSync { s1 with sec := { s1.sec with upd := some u1 } } 0 0 else s1
        | none => s1)
    else
      let s2 := s1.wrF Reg.SAFE_SELFTEST 0 16 0x0E0B
      .next (match s2.sec.upd with
        | some u => if loading then (s2.updRestore u).safeSync 0 0 else s2.retirePair k 0x0E0B
        | none => s2.retirePair k 0x0E0B)

/-- LOCKSTEP_MISMATCH (R493): of the duty pair: the other pair takes duty, the request in progress is discarded, every task enters
HOLD with 0x0E0A; of the pair off duty: a failed self-test. -/
def execLockstepMismatch (pairB : Bool) (s : State) : Res :=
  let k := pairB.toNat
  if !s.checkerRuns ∨ (if pairB then s.safe.retB else s.safe.retA) then .next s
  else if pairB = s.safe.dutyB then
    let s1 := { s with safe := { s.safe with runs := s.safe.runs.map fun (r : SafeRun) => { r with prog := none } } }
    .next ((s1.retirePair k 0x0E0A).holdAll 0x0E0A)
  else execSelftestComplete false s

/-- WATCHDOG_EXPIRY (R494, R497): the checker restarts with every task in HOLD; SAFE SRAM keeps only the images, and HEARTBEAT stops. -/
def execWatchdogExpiry (s : State) : Res :=
  if !s.checkerRuns then .next s
  else
    let s0 := s.beatStops
    let s1 := { s0 with safe := { s0.safe with
      down := true, runs := [], notices := [], judged := [], pers := [], seq := [], armAt := [], heldBack := [] } }
    .next ((s1.err 0 ⟨0, 0⟩ 0x0E0C).holdAll 0x0E0C)

/-- The arrival timers of all tasks start (R506). -/
def State.armAll (s : State) : State :=
  { s with safe := { s.safe with armAt := s.safe.table.map fun (e : Nat × List Byte) => (e.1, s.now) } }

/-- CHECKER_RESTART_COMPLETE (R494, R506). -/
def execCheckerRestartComplete (s : State) : Res :=
  if !s.safe.down then .next s else .next ({ s.armAll with safe := { s.armAll.safe with down := false } }.safeSync 0 0)

/-- DEGRADED_LIMIT (R495): the hold stays until a whole-device restart. -/
def execDegradedLimit (s : State) : Res :=
  if !s.degraded ∨ s.safe.limit then .next s
  else .next (({ s with safe := { s.safe with limit := true } }.err 0 ⟨0, 0⟩ 0x0E0B).safeSync 0x0E0B 0)

/-- HEARTBEAT_TOGGLE (R497): while the duty pair kicks the watchdog. -/
def execHeartbeatToggle (s : State) : Res :=
  if !s.checkerRuns then .next s else .next { s with safe := { s.safe with beat := !s.safe.beat } }

/-! ### The pin (R496, R498, R512) -/

/-- A hold test begins or restarts (R498). -/
def State.startHoldTest (s : State) : State := { s with safe := { s.safe with holdTest := some s.now } }.safeSync 0 0

/-- HOLD_TEST (R498). -/
def execHoldTest (s : State) : Res := .next s.startHoldTest

/-- HOLD_TEST_END (R498): the pin is released only if no other cause holds. -/
def execHoldTestEnd (s : State) : Res :=
  if s.safe.holdTest.isNone then .next s else .next ({ s with safe := { s.safe with holdTest := none } }.safeSync 0 0)

/-- VDD_SAFE_FAULT (R496, R512, R590): the checker and what it held lose their supply. -/
def execVddSafeFault (s : State) : Res :=
  let s0 := s.beatStops
  let s1 := { s0 with safe := { s0.safe with
    vddBad := true, mailbox := [], runs := [], notices := [], judged := [], pers := [], seq := [], armAt := [], heldBack := []
    holdTest := none } }
  .next (s1.safeSync 0 0)

/-- VDD_SAFE_RETURN (R496, R506): the checker powers up with every task in HOLD. -/
def execVddSafeReturn (s : State) : Res :=
  if !s.safe.vddBad then .next s
  else .next ({ s.armAll with safe := { s.armAll.safe with vddBad := false, down := false } }.holdAll 0)

/-- SAFE_CLOCK_FAULT (R512): 0x0E10 and the hold. -/
def execSafeClockFault (s : State) : Res :=
  .next (({ s with safe := { s.safe with clkBad := true } }.err 0 ⟨0, 0⟩ 0x0E10).safeSync 0x0E10 0)

/-- SAFE_CLOCK_RECOVERY (R496). -/
def execSafeClockRecovery (s : State) : Res :=
  if !s.safe.clkBad then .next s else .next ({ s with safe := { s.safe with clkBad := false } }.safeSync 0 0)

end Sys2Proof.Machine
end

