-- ==== Sys2Proof/Machine/Counters.lean ====
section
/-! DEFINITION. Sys2Proof/Machine/Counters.lean: the counters of R538 in the register map. Generated from the register maps of
spec/. -/

namespace Sys2Proof.Machine

/-- A row of counters (R538): the address of the first, the stride and count of each index, and whether its name carries PT_p, which
is then its first index. -/
structure CntRow where
  base : Nat
  dims : List (Nat × Nat)
  pt : Bool
deriving DecidableEq, Repr

/-- Counters, part 0. -/
def counters0 : List CntRow := [
  ⟨0xD00010, [(0x4000, 12)], false⟩,
  ⟨0xD00018, [(0x4000, 12)], false⟩,
  ⟨0xD00138, [(0x4000, 12), (0x100, 4)], false⟩,
  ⟨0xD00140, [(0x4000, 12), (0x100, 4)], false⟩,
  ⟨0xC00120, [(0x10000, 12), (0x100, 4)], false⟩,
  ⟨0xC00128, [(0x10000, 12), (0x100, 4)], false⟩,
  ⟨0xC00130, [(0x10000, 12), (0x100, 4)], false⟩,
  ⟨0xC00138, [(0x10000, 12), (0x100, 4)], false⟩,
  ⟨0xC00150, [(0x10000, 12), (0x100, 4)], false⟩,
  ⟨0x800100, [(0x8, 16)], true⟩,
  ⟨0x810010, [(0x10000, 11)], false⟩,
  ⟨0x810018, [(0x10000, 11)], false⟩,
  ⟨0x810020, [(0x10000, 11)], false⟩,
  ⟨0x880040, [(0x10000, 4)], false⟩,
  ⟨0x880048, [(0x10000, 4)], false⟩,
  ⟨0x880050, [(0x10000, 4)], false⟩,
  ⟨0x880058, [(0x10000, 4)], false⟩,
  ⟨0x1000008, [], false⟩,
  ⟨0x1000010, [], false⟩,
  ⟨0x1001030, [(0x80, 64)], false⟩,
  ⟨0x1001038, [(0x80, 64)], false⟩,
  ⟨0x1001040, [(0x80, 64)], false⟩,
  ⟨0x1001048, [(0x80, 64)], false⟩,
  ⟨0x1480030, [(0x100, 16)], true⟩,
  ⟨0x1480038, [(0x100, 16)], true⟩,
  ⟨0x1480040, [(0x100, 16)], true⟩,
  ⟨0x100030, [(0x10000, 32)], false⟩,
  ⟨0x100038, [(0x10000, 32)], false⟩,
  ⟨0x100040, [(0x10000, 32)], false⟩,
  ⟨0x100048, [(0x10000, 32)], false⟩,
  ⟨0x100050, [(0x10000, 32)], false⟩,
  ⟨0x100058, [(0x10000, 32)], false⟩,
  ⟨0x100060, [(0x10000, 32)], false⟩,
  ⟨0x100068, [(0x10000, 32)], false⟩,
  ⟨0x100070, [(0x10000, 32)], false⟩,
  ⟨0x1380000, [(0x40, 16)], true⟩,
  ⟨0x1380008, [(0x40, 16)], true⟩,
  ⟨0x1380010, [(0x40, 16)], true⟩,
  ⟨0x1380018, [(0x40, 16)], true⟩,
  ⟨0x1100008, [], false⟩]

/-- Counters, part 1. -/
def counters1 : List CntRow := [
  ⟨0x1100010, [], false⟩,
  ⟨0x1110040, [(0x1000, 16)], true⟩,
  ⟨0x1110048, [(0x1000, 16)], true⟩,
  ⟨0x1110050, [(0x1000, 16)], true⟩,
  ⟨0x1110058, [(0x1000, 16)], true⟩,
  ⟨0x1110060, [(0x1000, 16)], true⟩,
  ⟨0x1110068, [(0x1000, 16)], true⟩,
  ⟨0x1110070, [(0x1000, 16)], true⟩,
  ⟨0x400008, [(0x40000, 4)], false⟩,
  ⟨0x400010, [(0x40000, 4)], false⟩,
  ⟨0x401088, [(0x40000, 4), (0x1000, 16)], false⟩,
  ⟨0x401090, [(0x40000, 4), (0x1000, 16)], false⟩,
  ⟨0x401098, [(0x40000, 4), (0x1000, 16)], false⟩,
  ⟨0x4010A0, [(0x40000, 4), (0x1000, 16)], false⟩,
  ⟨0x401138, [(0x40000, 4), (0x1000, 16)], false⟩,
  ⟨0x1400018, [], false⟩,
  ⟨0x1400020, [], false⟩,
  ⟨0x1400028, [], false⟩,
  ⟨0x1400030, [], false⟩,
  ⟨0x1400050, [], false⟩,
  ⟨0x1400100, [(0x10, 32)], false⟩,
  ⟨0x1400108, [(0x10, 32)], false⟩,
  ⟨0x1410050, [(0x100, 16)], true⟩,
  ⟨0x1410058, [(0x100, 16)], true⟩,
  ⟨0x1410068, [(0x100, 16)], true⟩,
  ⟨0x1201018, [(0x100, 16)], true⟩,
  ⟨0x1201020, [(0x100, 16)], true⟩,
  ⟨0x1201028, [(0x100, 16)], true⟩,
  ⟨0x1230010, [(0x20, 16)], true⟩,
  ⟨0x1230018, [(0x20, 16)], true⟩,
  ⟨0x1280038, [(0x40, 8192)], false⟩,
  ⟨0x1600030, [], false⟩,
  ⟨0x1600038, [], false⟩,
  ⟨0x1600040, [], false⟩,
  ⟨0x1601008, [(0x100, 8)], false⟩,
  ⟨0x1601010, [(0x100, 8)], false⟩,
  ⟨0x1601018, [(0x100, 8)], false⟩,
  ⟨0x1601020, [(0x100, 8)], false⟩,
  ⟨0x1601028, [(0x100, 8)], false⟩,
  ⟨0x1604050, [], false⟩]

/-- Counters, part 2. -/
def counters2 : List CntRow := [
  ⟨0x1800050, [], false⟩,
  ⟨0x1800058, [], false⟩,
  ⟨0x1900020, [], false⟩,
  ⟨0x1900028, [], false⟩,
  ⟨0x1900030, [], false⟩,
  ⟨0x1910018, [(0x1000, 16)], true⟩,
  ⟨0x1910028, [(0x1000, 16)], true⟩,
  ⟨0x1C00018, [], false⟩,
  ⟨0x1C00020, [], false⟩,
  ⟨0x1C00028, [], false⟩,
  ⟨0x1C00030, [], false⟩,
  ⟨0x1C00038, [], false⟩,
  ⟨0x1C00040, [], false⟩,
  ⟨0x1C00118, [(0x20, 256)], false⟩,
  ⟨0x1C08008, [(0x800, 16)], true⟩,
  ⟨0x1B00028, [], false⟩,
  ⟨0x1B00030, [(0x8, 4)], false⟩,
  ⟨0x1B00050, [(0x8, 4)], false⟩,
  ⟨0x1B003A8, [], false⟩,
  ⟨0x1A20000, [(0x200, 32), (0x8, 25)], false⟩,
  ⟨0x1A200D0, [(0x200, 32)], false⟩,
  ⟨0x1A200D8, [(0x200, 32)], false⟩,
  ⟨0x1A200E0, [(0x200, 32)], false⟩,
  ⟨0x1A200E8, [(0x200, 32)], false⟩,
  ⟨0x1A20100, [(0x200, 32)], false⟩,
  ⟨0x1A20108, [(0x200, 32)], false⟩,
  ⟨0x1A20110, [(0x200, 32)], false⟩,
  ⟨0x1A20118, [(0x200, 32)], false⟩,
  ⟨0x1A20120, [(0x200, 32)], false⟩,
  ⟨0x1A20128, [(0x200, 32)], false⟩,
  ⟨0x1A20130, [(0x200, 32)], false⟩,
  ⟨0x1A20138, [(0x200, 32)], false⟩,
  ⟨0x1A20140, [(0x200, 32)], false⟩,
  ⟨0x1A20148, [(0x200, 32)], false⟩,
  ⟨0x1A20150, [(0x200, 32)], false⟩,
  ⟨0x1A20158, [(0x200, 32)], false⟩,
  ⟨0x1A00020, [], false⟩,
  ⟨0x1A10018, [(0x1000, 16)], true⟩,
  ⟨0x1A10020, [(0x1000, 16)], true⟩,
  ⟨0x1A10028, [(0x1000, 16)], true⟩]

/-- Counters, part 3. -/
def counters3 : List CntRow := [
  ⟨0x1A10030, [(0x1000, 16)], true⟩,
  ⟨0x1B00408, [], false⟩,
  ⟨0x1B00410, [], false⟩,
  ⟨0x1B00418, [], false⟩,
  ⟨0x1B00420, [], false⟩]

/-- Every counter of R538. -/
def counterRows : List CntRow := counters0 ++ counters1 ++ counters2 ++ counters3

/-- The row puts a counter at `a`. -/
def CntRow.holds (r : CntRow) (a : Nat) : Bool := decide (r.base ≤ a) && (Reg.within r.dims 1 (a - r.base)).isSome

/-- The register at `a` is a counter. -/
def isCounter (a : Nat) : Bool := counterRows.any fun r => r.holds a

/-- The register at `a` is a counter whose name carries the partition identifier of `p`. -/
def ptCounter (p a : Nat) : Bool := counterRows.any fun r => r.pt && r.holds a && (match r.dims with
  | (stride, _) :: _ => (a - r.base) / stride == p
  | [] => false)

end Sys2Proof.Machine
end

