-- ==== Sys2Proof/Machine/PartReset.lean ====
section
/-! DEFINITION. Sys2Proof/Machine/PartReset.lean: partition resets (15_host_partitions_queues, R401 to R404), and what follows a reset
of a confidential partition or before debug level 3 (17_security, R454, R462). -/

namespace Sys2Proof.Machine

/-- Partition `p` is resetting (R402): RESETTING, SCRUBBING or ZEROING. -/
def State.resetting (s : State) (p : Nat) : Bool :=
  let k := s.rdF (Reg.QM_PT_STATE p) 0 3
  decide (2 ≤ k ∧ k ≤ 4)

/-- Set the STATE of a partition. -/
def State.setPtState (s : State) (p k : Nat) : State := s.wrF (Reg.QM_PT_STATE p) 0 3 k

/-- An assignment or grant of `p` that runs completes before the reset's first step (R404). -/
def State.finishRuns (s : State) (p : Nat) : State :=
  let s1 := match s.qm.assignRun with
    | some (_, _, _, _, q) => if q = p then { s.wr Reg.QM_ASSIGN_STATUS 0 with qm := { s.qm with assignRun := none } } else s
    | none => s
  match s1.qm.grantRun with
  | some (op, next, last, q) =>
    if q ≠ p then s1
    else
      let s2 := if op = 1 then (List.range (last - next)).foldl (fun s k =>
          let s' := s.zeroChunk (next + k)
          { s' with chunks := s'.chunks.put (next + k) p }) s1 else s1
      { (s2.countChunks p).wr Reg.QM_GRANT_STATUS 0 with qm := { s2.qm with grantRun := none } }
  | none => s1

/-- A safety restart of `p` that has not finished is abandoned (R404, R511). -/
def State.dropRestart (s : State) (p : Nat) : State :=
  if s.safe.restarts.contains p then
    (({ s with safe := { s.safe with restarts := s.safe.restarts.filter (· != p) } }.errAll (if p = 0 then [0] else [0, p])
      { code := 0x0E0E }).safeSync 0 0)
  else s

/-- The reset of partition `p` begins (R402): RESETTING, its interrupts drain, its work is aborted, its ISP contexts are disabled. A
partition that is resetting already stays as it is (R401). -/
def State.resetPartition (s : State) (p : Nat) : State :=
  if s.resetting p then s
  else
    let s1 := (((s.finishRuns p).dropRestart p).setPtState p 2)
    let s2 := { s1 with qm := { s1.qm with
      draining := insSorted p s1.qm.draining, drainFirst := s1.qm.drainFirst.filter (· != p) } }
    let units := (List.range 48).filter fun u => s.ictxPt u == p
    let s3 := s2.abortWork p
    (units.foldl (fun s u => s.wrF (Reg.ISP_CTX_CFG (u / 4) (u % 4)) 0 1 0) s3).crzDrain

/-- PARTITION_RESET (R401, R402): PT_0 resets PT_1 to PT_15. -/
def execPartitionReset (p : Fin 16) (s : State) : Res := if p.val = 0 then .next s else .next (s.resetPartition p)

/-- VF Enable clears (R401): every VF partition is reset and will lose what it owns. -/
def State.vfClear (s : State) : State :=
  let s1 := { s with qm := { s.qm with vfEnable := false, vfClearing := (List.range 16).drop 1 } }
  ((List.range 16).drop 1).foldl (fun s p => s.resetPartition p) s1

/-- FLR (R401): of a VF its partition's reset; of the PF that of every partition. -/
def execFunctionReset (fn : Fin 16) (s : State) : Res :=
  if fn.val = 0 then .next ((s.resetPartition 0).vfClear) else .next (s.resetPartition fn)

/-- VF_ENABLE_CLEAR (R401). -/
def execVfEnableClear (s : State) : Res := .next s.vfClear

/-- PT_RESET_ACCESSES_DONE (R402): accesses are over or abandoned: SCRUBBING. -/
def execPtResetAccessesDone (p : Fin 16) (s : State) : Res :=
  if s.rdF (Reg.QM_PT_STATE p) 0 3 ≠ 2 then .next s else .next ((s.abandonAccesses p).setPtState p 3)

/-- Registers of `p`'s windows of the scheduler and of the descriptor unit (R314, R190). -/
def ptWindows (p a : Nat) : Bool :=
  decide (Reg.GS_PT_CFG p ≤ a ∧ a < Reg.GS_PT_CFG p + 0x1000) || decide (Reg.DSC_PT_TABLE p ≤ a ∧ a < Reg.DSC_PT_TABLE p + 0x100)

/-- What the units of `p` hold returns to reset values (R402): channels but for their counters, rings with EPOCH + 1, stripe counters,
graph slots. -/
def State.scrubUnits (s : State) (p : Nat) : State :=
  let s1 := (s.unitsOf p 0x21 64).foldl (fun s i => (s.clearRegs (unitRegs 0x21 i)).resetChannel i) s
  let s2 := (s1.unitsOf p 0x31 8192).foldl (fun s i =>
    (s.clearRegs (unitRegs 0x31 i)).wr (Reg.RING_EPOCH i) ((s.rdF (Reg.RING_EPOCH i) 0 16 + 1) % 65536)) s1
  let s3 := s2.clearCounters p
  (s3.unitsOf p 0x19 64).foldl (fun s g =>
    { s.clearRegs (unitRegs 0x19 g) with crz := { s.crz with graphs := s.crz.graphs.del g, loading := s.crz.loading.del g } }) s3

/-- What the queue manager holds of `p` is gone. -/
def State.scrubQueues (s : State) (p : Nat) : State :=
  let mine := s.unitsOf p 0x31 8192
  { s with qm := { s.qm with
    posts := s.qm.posts.filter fun x => x.pt != p
    items := s.qm.items.filter fun i => !mine.contains i.ring
    handed := s.qm.handed.filter fun h => !mine.contains h.ring
    holdoff := s.qm.holdoff.filter fun (e : Nat × Holdoff) => !mine.contains e.1 } }

/-- PMRs of `p` are zero and its session is discarded (R448, R456). -/
def State.dropMeasures (s : State) (p : Nat) : State :=
  { s with sec := { s.sec with pmr := s.sec.pmr.filter fun (e : Nat × List Byte) => e.1 / 4 != p, sess := s.sec.sess.del p } }

/-- PT_SCRUB_COMPLETE (R402, R233, R190, R314, R538, R541, R457): the state of `p` is scrubbed, its keys are replaced: ZEROING. -/
def execPtScrubComplete (p : Fin 16) (s : State) : Res :=
  if s.rdF (Reg.QM_PT_STATE p) 0 3 ≠ 3 then .next s
  else
    let s1 := (((s.zeroFronds p).dropRuns p).clearFlags p).dropCaches p
    let s2 := (s1.gs.graphs.filter fun g => g.pt == p.val).foldl (fun s g => s.dropGraph g) s1
    let s3 := (((s2.scrubUnits p).scrubQueues p).clearRegs fun a => ptWindows p a || ptCounter p a).clearRing (uSched p)
    let s4 := { s3 with
      gs := { s3.gs with loading := s3.gs.loading.del p, quiet := s3.gs.quiet.del p, hostAt := s3.gs.hostAt.del p, remoteAt := s3.gs.remoteAt.del p }
      dsc := { s3.dsc with running := s3.dsc.running.del p, valid := s3.dsc.valid.filter fun (e : Nat × Nat) => e.1 / 65536 != p.val }
      memx := { s3.memx with
        cacheRun := s3.memx.cacheRun.del p, xlatRun := s3.memx.xlatRun.del p, keyGen := s3.memx.keyGen.put p (s3.memx.keyGen.getD p 0 + 1) }
      rel := { s3.rel with seq := s3.rel.seq.del p }
      dbg := { s3.dbg with dump := s3.dbg.dump.del p } }
    .next ((s4.dropMeasures p).setPtState p 4)

/-- Partition `p` owns nothing any more (R401). -/
def State.stripPartition (s : State) (p : Nat) : State :=
  let vecs := s.unitsOf p 0x32 2048
  let s1 := { s with
    own := s.own.filter fun (e : Nat × Nat) => e.2 != p
    pool := s.pool.filter fun (e : Nat × Nat) => e.1 % 16 != p
    chunks := s.chunks.filter fun (e : Nat × Nat) => e.2 != p
    dsc := { s.dsc with regions := s.dsc.regions.filter fun (e : Nat × Region) => e.2.pt != p }
    qm := { s.qm with vecs := vecs.foldl (fun (t : Tab PoolVec) v => t.del v) s.qm.vecs, vfClearing := s.qm.vfClearing.filter (· != p) } }
  ((s1.countChunks p).wr Reg.GS_RECORDS_FREE (s1.poolFree 0x03 16384)).capChange

/-- What CONF_DISABLE does once the reset of `p` is over (R454): chunks, region records and bindings are released and the partition is
not confidential any more. -/
def State.confRelease (s : State) (p : Nat) : State :=
  let s1 := { s with
    chunks := s.chunks.filter fun (e : Nat × Nat) => e.2 != p
    dsc := { s.dsc with regions := s.dsc.regions.filter fun (e : Nat × Region) => e.2.pt != p }
    lnk := { s.lnk with bindings := s.lnk.bindings.filter fun (e : Nat × Binding) => e.2.localPt != p } }
  let s2 := ((s1.countChunks p).wrF (Reg.QM_PT_STATE p) 8 1 0).wr Reg.SEC_CONF (setFld (s1.rdN Reg.SEC_CONF) p 1 0)
  s2.dropMeasures p

/-- Debug level 3 is entered once every reset has reached READY (R460, R462): confidential partitions are disabled, DBG is set, R447
applies. -/
def State.debugEnter (s : State) : State :=
  if s.sec.entering && (List.range 16).all fun p => s.ptReady p then
    let s1 := (List.range 16).foldl (fun s p => if s.isConf p then s.confRelease p else s) s
    { s1 with sec := { s1.sec with entering := false, level := 3, dbg := true } }.remeasure
  else s

/-- PT_ZEROING_COMPLETE (R402, R506): the chunks of `p` hold zeros: READY; the function's configuration space has its reset values, and
a VF partition whose VF Enable was cleared loses what it owns. -/
def execPtZeroingComplete (p : Fin 16) (s : State) : Res :=
  if s.rdF (Reg.QM_PT_STATE p) 0 3 ≠ 4 then .next s
  else
    let mine := (s.chunks.filter fun e => e.2 == p.val).map (·.1)
    let s1 := ((mine.foldl (fun s c => s.zeroChunk c) s).setPtState p 1).bump (Reg.QM_PT_RESETS p) 1
    let s2 := { s1 with
      qm := { s1.qm with
        msixEn := s1.qm.msixEn.filter (· != p.val), fnMask := s1.qm.fnMask.filter (· != p.val), d3hot := s1.qm.d3hot.filter (· != p.val) }
      safe := { s1.safe with armAt := s1.safe.armAt.map fun (e : Nat × Nat) => match s1.task e.1 with
        | some x => if taskPt x = p.val then (e.1, s1.now) else e
        | none => e } }
    let s3 := if s2.qm.vfClearing.contains p.val then s2.stripPartition p else s2
    .next s3.debugEnter

end Sys2Proof.Machine
end

