-- ==== Sys2Proof/Machine/Power.lean ====
section
/-! DEFINITION. Sys2Proof/Machine/Power.lean: the power ladder, throttling, the PPS servo, the audio ring and the keyword detector
(20_power_clocks_rhizoid). -/

namespace Sys2Proof.Machine

/-- An error of the power block (R534). -/
def State.pwrErr (s : State) (code : Nat) (info : Nat := 0) : State := s.err 0 ⟨0, 0⟩ code info

/-! ### The ladder (R516 to R522) -/

/-- The conditions of R518. -/
def State.idleNow (s : State) : Bool :=
  (List.range 12).all (fun n => !s.rdB (Reg.CSI_CTRL n) 0) &&
  (List.range 32).all (fun n => !s.frondOccupied n) &&
  (List.range 48).all (fun u => (s.ictx u).node.isNone && (s.ictx u).frame.isNone) &&
  s.brk.all (fun (e : Nat × Engine) => e.2.ctx.isEmpty) &&
  (List.range 64).all (fun n => (s.chState n == 0 || s.chState n == 3) && (s.ch n).spores.isEmpty) &&
  s.own.all (fun (e : Nat × Nat) => e.1 / 65536 != 0x31 || !s.rdB (Reg.RING_CFG (e.1 % 65536)) 0 ||
    s.rdB (Reg.RING_CFG (e.1 % 65536)) 1 || s.ringUsed (e.1 % 65536) == 0) &&
  s.crz.graphs.all (fun (e : Nat × CGraph) => e.2.insts.all fun i => i.start.isNone) &&
  s.sec.cmd.isNone && s.dsc.running.isEmpty && s.dsc.rgnRun.isNone

/-- P1_ENTRY (R518). -/
def execP1Entry (s : State) : Res :=
  if s.rung = 0 ∧ s.pwr.entry.isNone ∧ !s.pwr.exiting ∧ s.idleNow then
    .next ((s.setRung 1).bump (Reg.PWR_ENTRIES 1) 1)
  else .next s

/-- A request for rung `k` is admitted (R519). -/
def State.rungOk (s : State) (k : Nat) : Bool :=
  s.rung ≤ 1 && s.pwr.entry.isNone && !s.pwr.exiting && s.idleNow &&
  (List.range 16).all (fun p => !s.resetting p && !s.safe.restarts.contains p) &&
  (k == 2 || (List.range 8).all fun n => !s.rdB (Reg.LNK_PORT_CTRL n) 0) &&
  (k != 4 || (s.qm.d3hot.contains 0 && (!s.qm.vfEnable || ((List.range 16).drop 1).all fun f => s.qm.d3hot.contains f)))

/-- The checker is told that an entry begins (R507, R522): every task is in HOLD, the timers stop, 0x0E12 goes to PT_0. -/
def State.checkerSleep (s : State) : State :=
  if !s.checkerRuns then s
  else
    let new := (s.safe.table.map fun (e : Nat × List Byte) => e.1).filter fun t => !s.safe.hold.contains t
    let s1 := new.foldl (fun s t => s.enterHold t 0x0E12) s
    let s2 := { s1 with safe := { s1.safe with armAt := [], heldBack := new.foldl (fun l t => insSorted t l) s1.safe.heldBack } }
    (s2.safeSync 0x0E12 0).evt 0 0x0E12

/-- Request rung `k` (R519): the entry begins, or 0x0F01 refuses it; says whether it was admitted. -/
def State.rungRequest (s : State) (k : Nat) : State × Bool :=
  if s.rungOk k then
    let s1 := { s.wrF Reg.PWR_STATUS 3 1 1 with pwr := { s.pwr with entry := some (k, s.now), late := false } }
    (s1.checkerSleep, true)
  else (s.pwrErr 0x0F01 k, false)

/-- A request of the ladder waits while a CFW switch runs (R464). -/
def State.askRung (s : State) (k : Nat) : State :=
  if s.mgt.switching then { s with pwr := { s.pwr with asked := s.pwr.asked ++ [k] } } else (s.rungRequest k).1

/-- PWR_CMD_P2 (R519). -/
def execPwrCmdP2 (s : State) : Res := .next (s.askRung 2)

/-- PWR_CMD_P3 (R519). -/
def execPwrCmdP3 (s : State) : Res := .next (s.askRung 3)

/-- PWR_CMD_P4 (R519). -/
def execPwrCmdP4 (s : State) : Res := .next (s.askRung 4)

/-- AUTO_P2_REQUEST (R519, R536). -/
def execAutoP2Request (s : State) : Res :=
  if s.rdB Reg.PWR_CFG 0 ∧ s.rung = 1 then .next (s.askRung 2) else .next s

/-- MAIN_UP (R554). -/
def State.mainUp (s : State) : Bool := s.rung ≤ 1 && !s.mgt.mainGone

/-- What the island takes of the main side (R560): Tj, k, power in 100 mW, SAFE_STATUS, SAFE_HOLD_CAUSE and device time. -/
def State.mainValues (s : State) : List Byte :=
  leBytes 1 (s.rdF Reg.PWR_TJ 0 8) ++ leBytes 1 (s.rdF Reg.PWR_STATUS 4 5) ++ leBytes 2 (s.rdN Reg.PWR_PKG_MW / 100) ++
    leBytes 4 (s.rdN Reg.SAFE_STATUS) ++ leBytes 4 (s.rdN Reg.SAFE_HOLD_CAUSE) ++ leBytes 8 s.now

/-- RUNG_ENTRY_COMPLETE (R521, R516): the rung is reached and counted; a wake that came late starts the exit; in P3 and P4 the PCIe link
is in L1 or down. -/
def execRungEntryComplete (s : State) : Res :=
  match s.pwr.entry with
  | none => .next s
  | some (k, _) =>
    let s1 := ((s.wrF Reg.PWR_STATUS 3 1 0).setRung k).bump (Reg.PWR_ENTRIES k) 1
    .next { s1 with
      pwr := { s1.pwr with entry := none, exiting := s1.pwr.late, late := false }
      mgt := { s1.mgt with kept := if s.mainUp then s.mainValues else s.mgt.kept }
      boot := { s1.boot with linkUp := s1.boot.linkUp && k != 4, inL1 := if k = 4 then false else s1.boot.inL1 || k == 3 } }

/-- What P3 and P4 do not retain is zero (R517). -/
def State.wakeFronds (s : State) : State :=
  (List.range 32).foldl (fun s n => s.setTc n { s.tc n with
    s := [], sBad := [], v := [], vBad := [], acc := [], accInt := [], accBad := [], scratch := [], lineBad := [], line := none }) s

/-- The PASR segments that P4 did not keep are lost (R370). -/
def State.losePasr (s : State) : State :=
  let keep := s.rdF Reg.MEM_PASR 0 8
  { s.wr Reg.MEM_PASR_LOST (255 - keep) with
    memx := { s.memx with lost := (List.range 8).filter fun k => !bitAt keep k, healed := [] } }

/-- Deliver a keyword record (R530): into the FIFO, to the management port under ALERT, and a message to PT_0. -/
def State.kwDeliver (s : State) (b : List Byte) : State :=
  let s1 := { s with pwr := { s.pwr with fifo := s.pwr.fifo ++ [b] } }
  let s2 := if s1.rdB Reg.KWS_CFG 7 then s1.mgtEvent 2 b else s1
  s2.irq 0 (s2.rdF Reg.KWS_CFG 8 8)

/-- The checker at the arrival in P1 (R507): the reject items held back are posted and the timers start. -/
def State.checkerWake (s : State) : State :=
  let s1 := s.safe.heldBack.foldl (fun s t => match s.task t with
    | some e => s.postReject t e 0x0E12 0 0 0 false false
    | none => s) s
  let s2 := { s1 with safe := { s1.safe with heldBack := [] } }
  if s2.checkerRuns then s2.armAll else s2

/-- CSI enables that waited for P0 take effect (R38, R56). -/
def State.servePorts (s : State) : State :=
  s.pwr.waitEn.foldl (fun s x => ((s.needP0.wr (Reg.CSI_CTRL x.1) x.2).wrF (Reg.CSI_STATUS x.1) 0 2 0))
    { s with pwr := { s.pwr with waitEn := [] } }

/-- RUNG_EXIT_COMPLETE (R516, R517, R520, R521, R507, R530): the arrival in P1. -/
def execRungExitComplete (s : State) : Res :=
  if !s.pwr.exiting then .next s
  else
    let old := s.rung
    let s1 := { s.setRung 1 with pwr := { (s.setRung 1).pwr with exiting := false } }
    let s2 := if 3 ≤ old then s1.wakeFronds else s1
    let s3 := if old = 4 then s2.losePasr else s2
    let s4 := (s3.checkerWake.pwr.kwWait.foldl (fun s b => s.kwDeliver b)
      { s3.checkerWake with pwr := { s3.checkerWake.pwr with kwWait := [] } })
    .next s4.servePorts

/-! ### Throttling (R532, R533) -/

/-- k in force: the lower of the two levels, capped by NE_K_MAX. -/
def State.kNow (s : State) : Nat := min (min s.pwr.kHeat s.pwr.kPower) (s.rdF Reg.PWR_CFG 24 5)

/-- PWR_STATUS shows k, and PWR_THROTTLED_US the time with k below the cap. -/
def State.kSync (s : State) : State :=
  let k := s.kNow
  let s1 := (s.wrF Reg.PWR_STATUS 4 5 k).wrF Reg.PWR_STATUS 9 5 k
  match s1.pwr.throttledAt, decide (k < s.rdF Reg.PWR_CFG 24 5) with
  | none, true => { s1 with pwr := { s1.pwr with throttledAt := some s.now } }
  | some t, false => { s1.bump Reg.PWR_THROTTLED_US ((s.now - t) / 1000) with pwr := { s1.pwr with throttledAt := none } }
  | _, _ => s1

/-- A thermal event for the management port (R563). -/
def State.thermalEvent (s : State) (code tj : Nat) : State :=
  (s.evt 0 code tj).mgtEvent 4 (leBytes 4 code ++ leBytes 4 tj ++ leBytes 8 s.now)

/-- THERMAL_SAMPLE (R532): Tj; at 105 °C k is 4, and at 115 °C the clocks stop until a cold reset. -/
def execThermalSample (tj : Fin 256) (sensor : Fin 24) (s : State) : Res :=
  let old := s.rdF Reg.PWR_TJ 0 8
  let s1 := (s.wr Reg.PWR_TJ (tj + sensor * 256)).rcMax Reg.PWR_TJ_MAX tj
  let s2 := if s.rdF Reg.PWR_TJ_THR 0 8 ≤ tj then s1 else { s1 with pwr := { s1.pwr with heatSteps := false } }
  let s3 := if 105 ≤ tj.val then
      { (if old < 105 then s2.thermalEvent 0x0F04 tj else s2) with pwr := { s2.pwr with kHeat := 4 } }
    else s2
  let s4 := if 115 ≤ tj.val && !s3.pwr.stopped then
      { (s3.wrF Reg.PWR_STATUS 14 1 1).thermalEvent 0x0F05 tj with pwr := { s3.pwr with stopped := true } }
    else s3
  .next s4.kSync

/-- A level of k after a step down (R532). -/
def State.stepDown (s : State) (k : Nat) : Nat := max 4 (min k (s.rdF Reg.PWR_CFG 24 5) - 1)

/-- THROTTLE_STEP (R532, R533): a thermal period steps k down above the threshold and up 3 °C below it; a power period steps k up when
the average is 5 % or more below the limit. -/
def execThrottleStep (power : Bool) (s : State) : Res :=
  let tj := s.rdF Reg.PWR_TJ 0 8
  let thr := s.rdF Reg.PWR_TJ_THR 0 8
  if power then
    (if s.rdN Reg.PWR_PKG_MW * 100 ≤ s.rdF Reg.PWR_LIMIT 0 7 * 95000 then
      .next { s with pwr := { s.pwr with kPower := min 16 (s.pwr.kPower + 1) } }.kSync
    else .next s)
  else if thr ≤ tj then
    let s1 := if s.pwr.heatSteps then s else s.evt 0 0x0F03 tj
    .next { s1 with pwr := { s1.pwr with kHeat := s.stepDown s.pwr.kHeat, heatSteps := true } }.kSync
  else if tj + 3 ≤ thr then .next { s with pwr := { s.pwr with kHeat := min 16 (s.pwr.kHeat + 1) } }.kSync
  else .next s

/-- POWER_SAMPLE (R533): above the limit k steps down, with 0x0F06 at the first step. -/
def execPowerSample (mw : BitVec 32) (s : State) : Res :=
  let s1 := s.wr Reg.PWR_PKG_MW mw.toNat
  if s.rdF Reg.PWR_LIMIT 0 7 * 1000 < mw.toNat then
    let s2 := if s1.pwr.powerSteps then s1 else s1.evt 0 0x0F06 mw.toNat
    .next { s2 with pwr := { s2.pwr with kPower := s.stepDown s.pwr.kPower, powerSteps := true } }.kSync
  else .next { s1 with pwr := { s1.pwr with powerSteps := false } }

/-! ### The PPS input (R525) -/

/-- This device disciplines its device time to PPS_IN (R525, R427). -/
def State.ppsActive (s : State) : Bool :=
  s.rdB Reg.PPS_CFG 0 && (s.lnk.role == .master || s.lnk.role == .standalone)

/-- The servo's new rate: free within 100 ppm of nominal (R524, R525). -/
def State.ppsSlew (s : State) : State :=
  let lim := nominalRate / 10000
  let (x, s1) := s.fresh
  s1.wr Reg.DT_RATE (nominalRate - lim + x % (2 * lim + 1))

/-- The lock: 8 edges in a row within 50 ns gain it, 4 above lose it with 0x0F08. -/
def State.ppsLock (s : State) (e : Int) : State :=
  if e.natAbs ≤ 50 then
    let s1 := { s with pwr := { s.pwr with ppsGood := s.pwr.ppsGood + 1, ppsBad := 0 } }
    if 8 ≤ s1.pwr.ppsGood then s1.wrF Reg.PPS_STATUS 0 1 1 else s1
  else
    let s1 := { s with pwr := { s.pwr with ppsGood := 0, ppsBad := s.pwr.ppsBad + 1 } }
    if 4 ≤ s1.pwr.ppsBad ∧ s1.rdB Reg.PPS_STATUS 0 then (s1.wrF Reg.PPS_STATUS 0 1 0).evt 0 0x0F08 else s1

/-- PPS_EDGE (R525, R520): the capture, the wake, and on the master or a standalone device the servo. -/
def execPpsEdge (jitter : Fin 9) (s : State) : Res :=
  let t := s.now + jitter.val - 4
  let s1 := s.wr Reg.PPS_LAST t
  let s2 := if s1.rdB Reg.PPS_CFG 1 then s1.wake 5 else s1
  if !s2.ppsActive then .next s2
  else
    let d : Int := (t : Int) - s2.rdN Reg.PPS_OFFSET
    let e := d - (d + 500000000) / 1000000000 * 1000000000
    let s3 := (s2.wr Reg.PPS_ERR (codeOf 32 e)).wrF Reg.PPS_STATUS 1 1 0
    let s4 := if s3.pwr.ppsFirst && decide (e < 0) then s3.stepTime e.natAbs else s3.ppsSlew
    .next ({ s4 with pwr := { s4.pwr with ppsFirst := false } }.ppsLock e)

/-- PPS_TIMEOUT (R525): 0x0F07; DT_RATE stays. -/
def execPpsTimeout (s : State) : Res :=
  if s.ppsActive && !s.rdB Reg.PPS_STATUS 1 then .next ((s.wrF Reg.PPS_STATUS 1 1 1).evt 0 0x0F07) else .next s

/-! ### The audio ring (R526, R527) -/

/-- Samples that the ring holds of each microphone (R527). -/
def audioDepth : Nat := 32000

/-- AUDIO_SAMPLE (R526, R527): sample AUD_NEXT of every microphone, 0 where MICS does not enable it. -/
def execAudioSample (samples : List (BitVec 16)) (s : State) : Res :=
  if !s.rdB Reg.AUD_CFG 0 then .next s
  else
    let n := s.rdN Reg.AUD_NEXT
    let x := (List.range 8).map fun m => if s.rdB Reg.AUD_CFG (8 + m) then (samples.getD m 0#16).toNat else 0
    let s1 := if n = 0 then s.wr Reg.AUD_T0 s.now else s
    let s2 := s1.wr Reg.AUD_T0_ERR (codeOf 32 ((s.now : Int) - (s1.rdN Reg.AUD_T0 + n * 62500 : Nat)))
    let a := s2.pwr.audio.put n x
    .next { s2.wr Reg.AUD_NEXT ((n + 1) % 2 ^ 48) with
      pwr := { s2.pwr with audio := if audioDepth ≤ n then a.del (n - audioDepth) else a } }

/-- The ring holds samples `first` to first + n - 1. -/
def State.audioHas (s : State) (first n : Nat) : Bool :=
  s.rdN Reg.AUD_NEXT ≤ first + audioDepth && first + n ≤ s.rdN Reg.AUD_NEXT

/-- AUD_COPY (R527). -/
def execAudCopy (s : State) : Res :=
  let first := s.rdN Reg.AUD_FIRST
  let n := s.rdN Reg.AUD_COUNT
  let dst := s.rdN Reg.AUD_DST
  if s.pwr.copying.isSome then .next (s.pwrErr 0x0F0A)
  else if s.rung ≤ 1 ∧ 1 ≤ n ∧ n ≤ audioDepth ∧ dst % 64 = 0 ∧ s.audioHas first n then
    .next { s.wr Reg.AUD_STATUS 1 with pwr := { s.pwr with copying := some (first, n, dst) } }
  else .next ((s.wr Reg.AUD_STATUS (0x0F0A * 65536)).pwrErr 0x0F0A)

/-- AUD_COPY_COMPLETE (R527): the samples stand in memory, eight microphones interleaved, or 0x0F0A. -/
def execAudCopyComplete (s : State) : Res :=
  match s.pwr.copying with
  | none => .next s
  | some (first, n, dst) =>
    let s0 := { s with pwr := { s.pwr with copying := none } }
    let bytes := (List.range n).flatMap fun k => (s.pwr.audio.getD (first + k) []).flatMap (leBytes 2)
    let fail (s : State) := (s.wr Reg.AUD_STATUS (0x0F0A * 65536)).pwrErr 0x0F0A
    if !s.audioHas first n then .next (fail s0)
    else
      match s0.writeDva 0 ⟨0, 0⟩ dst bytes with
      | .done s1 => .next (s1.wr Reg.AUD_STATUS 0)
      | .refused f a => .next (fail (s0.oob 0 ⟨0, 0⟩ none f a))
      | .bus _ => .next (fail s0)

/-! ### The keyword detector (R528 to R531) -/

/-- Frames that the network reads. -/
def kwsFrames : Nat := 100

/-- KWS_FRAME_END (R528): 160 samples have come since the last frame: the 40 features of frame f. -/
def execKwsFrameEnd (s : State) : Res :=
  let n := s.rdN Reg.AUD_NEXT
  if !s.rdB Reg.KWS_CFG 0 || !s.rdB Reg.AUD_CFG 0 || n = 0 || n % 160 != 0 then .next s
  else
    let mic := s.rdF Reg.KWS_CFG 1 3
    let win := (List.range 400).map fun i =>
      if n + i < 400 then none else some (signedOf 16 ((s.pwr.audio.getD (n + i - 400) []).getD mic 0))
    let row := (List.range 40).map fun j => codeOf 8 (max (-128) (min 127 (Config.kwsFeature win j)))
    .next { s with pwr := { s.pwr with feats := (row :: s.pwr.feats).take kwsFrames, frame := some (n / 160 - 1, s.rung) } }

/-- An INT32 accumulation; what leaves the range is free (R528). -/
def kwsAcc (x : Int) : Int :=
  if -(2 ^ 31 : Nat) ≤ x ∧ x < (2 ^ 31 : Nat) then x else signedOf 32 (Config.kwsOverflow x)

/-- Model memory as an array. -/
def kwsModel (t : Tab Byte) : Array Int :=
  t.foldl (fun (a : Array Int) (e : Nat × Byte) => a.setIfInBounds e.1 e.2.toInt) (Array.replicate 65536 (0 : Int))

/-- The INT32 bias at byte `o`. -/
def kwsBias (m : Array Int) (o : Nat) : Int :=
  signedOf 32 ((List.range 4).foldl (fun a i => a + codeOf 8 (m.getD (o + i) 0) * 256 ^ i) 0)

/-- A convolution over time, kernel 8 and stride 2 (R528): `inp` holds time × nIn codes, the weights stand at `w`. -/
def kwsConv (m : Array Int) (w bias shift nIn nOut t : Nat) (inp : Array Int) : Array Int :=
  ((List.range t).flatMap fun x => (List.range nOut).map fun o =>
    let a := (List.range (8 * nIn)).foldl (fun a k => a + m.getD (w + o * 8 * nIn + k) 0 * inp.getD (x * 2 * nIn + k) 0)
      (kwsBias m (bias + o * 4))
    max 0 (min 127 (rnd (max 0 (kwsAcc a)) shift))).toArray

/-- The mean over time of 20 codes, rounded down or up (R528). -/
def kwsMean (sum : Int) : Int := if sum % 20 ≠ 0 ∧ Config.kwsMeanUp sum then sum / 20 + 1 else sum / 20

/-- The K scores of the network for the latest 100 frames, newest first (R528); frames before the first have no samples. -/
def kwsScores (model : Tab Byte) (feats : List (List Nat)) (sh1 sh2 nk : Nat) : List Int :=
  let m := kwsModel model
  let none40 := (List.range 40).map fun j => codeOf 8 (max (-128) (min 127 (Config.kwsFeature (List.replicate 400 none) j)))
  let rows := List.replicate (kwsFrames - feats.length) none40 ++ feats.reverse
  let inp := ((rows.flatMap id).map fun c => signedOf 8 c).toArray
  let b := 53248 + 64 * nk
  let l1 := kwsConv m 0 b sh1 40 64 47 inp
  let l2 := kwsConv m 20480 (b + 256) sh2 64 64 20 l1
  let mean := ((List.range 64).map fun c => kwsMean ((List.range 20).foldl (fun a t => a + l2.getD (t * 64 + c) 0) 0)).toArray
  (List.range nk).map fun o => kwsAcc ((List.range 64).foldl (fun a c => a + m.getD (53248 + o * 64 + c) 0 * mean.getD c 0)
    (kwsBias m (b + 512 + o * 4)))

/-- The record of a detection of keyword `k` at frame `f` (R531). -/
def State.kwRecord (s : State) (k f rung seq : Nat) (score : Int) (flags : Nat) : List Byte :=
  let last : Int := 160 * f + 159
  let len : Int := s.rdF (Reg.KWS_LEN k) 0 32
  let tEnd := (s.rdN Reg.AUD_T0 : Int) + last * 62500 + signedOf 32 (s.rdN Reg.AUD_T0_ERR)
  leBytes 1 k ++ leBytes 1 flags ++ leBytes 1 rung ++ leBytes 1 0 ++ leBytes 4 (codeOf 32 score) ++
    leBytes 8 (codeOf 64 (tEnd - len * 1000000)) ++ leBytes 8 (codeOf 64 tEnd) ++ leBytes 4 (codeOf 32 (last - len * 16)) ++
    leBytes 4 (seq % 2 ^ 32)

/-- A detection (R529, R530): counted; discarded with 0x0F09 when the FIFO is full; below P1 it is a wake source and its record waits
for P1; otherwise it is delivered. -/
def State.kwDetect (s : State) (k f rung : Nat) (score : Int) : State :=
  let seq := s.pwr.seq + 1
  let s1 : State := { s.bump Reg.KWS_DETECTIONS 1 with pwr := { s.pwr with seq := seq, hold := s.pwr.hold.put k f } }
  let below := decide (2 ≤ s1.rung)
  let woke := below && s1.rdB Reg.PWR_WAKE_EN 3 && !s1.pwr.exiting
  let s2 := s1.wake 3
  if 16 ≤ s2.pwr.fifo.length + s2.pwr.kwWait.length then { s2.pwrErr 0x0F09 k with pwr := { s2.pwr with lost := true } }
  else
    let b := s2.kwRecord k f rung seq score (woke.toNat + (decide (2 ≤ rung)).toNat * 2 + s2.pwr.lost.toNat * 4)
    let s3 := { s2 with pwr := { s2.pwr with lost := false } }
    if below then { s3 with pwr := { s3.pwr with kwWait := s3.pwr.kwWait ++ [b] } } else s3.kwDeliver b

/-- KWS_EVALUATION_COMPLETE (R528, R529): the scores of the frame; a keyword whose score reaches its threshold after being below it in
the frame before is detected, unless its hold-off runs. -/
def execKwsEvaluationComplete (s : State) : Res :=
  match s.pwr.frame with
  | none => .next s
  | some (f, rung) =>
    let nk := s.rdF Reg.KWS_CFG 4 3 + 1
    let now := kwsScores s.pwr.model s.pwr.feats (s.rdF Reg.KWS_SHIFT 0 5) (s.rdF Reg.KWS_SHIFT 8 5) nk
    let s1 := { s with pwr := { s.pwr with frame := none, scores := now } }
    .next ((List.range nk).foldl (fun st k =>
      let thr := signedOf 32 (st.rdN (Reg.KWS_THRESH k))
      let held := match Tab.get? st.pwr.hold k with
        | some g => decide ((f - g) * 10 < st.rdF Reg.KWS_CFG 16 12)
        | none => false
      match s.pwr.scores[k]?, now[k]? with
      | some a, some b => if a < thr && thr ≤ b && !held then st.kwDetect k f rung b else st
      | _, _ => st) s1)

/-- KWS_POP (R531). -/
def execKwsPop (s : State) : Res := .next { s with pwr := { s.pwr with fifo := s.pwr.fifo.drop 1 } }

/-- KWS_MODEL_DATA (R528, R534): 4 bytes of the model; refused with 0x0F02 while the detector is enabled. -/
def execKwsModelData (value : BitVec 32) (s : State) : Res :=
  if s.rdB Reg.KWS_CFG 0 then .next (s.pwrErr 0x0F02)
  else
    let a := s.rdF Reg.KWS_MODEL_ADDR 0 16
    let m := (List.range 4).foldl (fun (t : Tab Byte) i => Tab.write (fun _ => 0#8) t (a + i) (BitVec.ofNat 8 (value.toNat / 256 ^ i))) s.pwr.model
    .next { s.wr Reg.KWS_MODEL_ADDR ((a + 4) % 65536) with pwr := { s.pwr with model := m } }

end Sys2Proof.Machine
end

