-- ==== Sys2Proof/Machine/Restart.lean ====
section
/-! DEFINITION. Sys2Proof/Machine/Restart.lean: what a cold reset and a whole-device restart clear and keep, and how a boot starts
(23_boot_reset, R567 to R574). -/

namespace Sys2Proof.Machine

/-- A register that a whole-device restart keeps (R568): RWS, or of the Rhizoid island and no counter. -/
def restartKeeps (a : Nat) : Bool :=
  (match Reg.find a with
    | some (r, _) => r.acc == .rws
    | none => false) || (decide (0x1B00000 ≤ a ∧ a < 0x1C00000) && !isCounter a)

/-- What a reset of the device leaves of memory: host memory is no part of the device. -/
def State.hostMem (s : State) : List Host.Cell := s.mem.filter fun c => targetOf c.1 == .host

/-- Poison of host memory. -/
def State.hostPoison (s : State) : MemX := { poison := s.memx.poison.filter fun g => targetOf (g * 64) == .host }

/-- What every reset of the device keeps of the security block: the fuses (R568). -/
def State.fuses (s : State) : SecState :=
  { uds := s.sec.uds, lcs := s.sec.lcs, keyHash := s.sec.keyHash, revoke := s.sec.revoke, floor := s.sec.floor }

/-- A power loss while SVN_COMMIT fuses leaves a floor between the old one and the new one (R463). -/
def State.fuseLoss (s : State) : State :=
  match s.sec.cmd with
  | some c =>
    if c.op = 0x0B ∧ c.code = 0 then
      let lo := s.svnFloor c.arg
      let (x, s1) := s.fresh
      { s1 with sec := { s1.sec with floor := s1.sec.floor.put c.arg (lo + x % (s.imgSvn c.arg - lo + 1)) } }
    else s
  | none => s

/-- The device in cold reset (R568): all but fuses, the flash and what is outside the device. -/
def State.coldState (s : State) (porst : Bool) : State :=
  let s1 := s.fuseLoss
  { State.reset with
    pending := s1.pending, mem := s1.hostMem, memx := s1.hostPoison, freeCtr := s1.freeCtr, out := s1.out, sec := s1.fuses
    boot := { flash := s1.boot.flash, perst := s1.boot.perst, porst := porst } }

/-- What a whole-device restart clears (R568): all but the Rhizoid island, RWS fields, the debug grant, the thermal trip and the seal
keys. -/
def State.clearMain (s : State) : State :=
  let s1 := if s.pwr.copying.isSome then s.wr Reg.AUD_STATUS (0x0F0A * 65536) else s
  { State.reset with
    pending := s.pending, regs := s1.regs.filter fun e => restartKeeps e.1
    mem := s.hostMem, memx := s.hostPoison, time := s.time, freeCtr := s.freeCtr, out := s.out
    mgt := { s.mgt with switching := false }
    pwr := { s.pwr with entry := none, late := false, exiting := false, waitEn := [], asked := [], copying := none }
    sec := { s.fuses with dbg := s.sec.dbg, level := s.sec.level, challenge := s.sec.challenge, locked := s.sec.locked
                          entering := s.sec.entering, sealKeys := s.sec.sealKeys, rngBad := s.sec.rngBad, rngFails := s.sec.rngFails }
    safe := { vddBad := s.safe.vddBad, clkBad := s.safe.clkBad, heldSince := some (s.safe.heldSince.getD s.now) }
    boot := { s.boot with next := 0, linkUp := false, inL1 := false, subsys := 0, fatalAt := none } }

/-! ### Starting a boot (R569 to R574) -/

/-- STAGE. -/
def State.stage (s : State) : Nat := s.rdF Reg.GLB_BOOT_STATUS 0 4

/-- The boot halts (R573), with the code of the refusal when one is known. -/
def State.halt (s : State) (code : Nat) : State :=
  let s1 := (s.wrF Reg.GLB_BOOT_STATUS 0 4 0xF).wrF Reg.GLB_BOOT_STATUS 16 16 code
  { s1 with boot := { s1.boot with next := 0 } }

/-- The role of STRAP_ROLE (R418). -/
def strapRoleOf (k : Nat) : Role := if k = 1 then .master else if k = 2 then .standby else if k = 3 then .standalone else .member

/-- The straps are sampled, and the boot ROM reads the directory (R569 to R571, R573). -/
def State.startBoot (s : State) (straps : Nat) : State :=
  let id := fld straps 0 7
  let role := strapRoleOf (fld straps 8 2)
  let s1 := (((s.wr Reg.GLB_STRAPS (id + fld straps 8 4 * 256)).wr Reg.CAP_DEVID id).wrF Reg.LNK_STATUS 0 7 id).wrF Reg.LNK_STATUS 16 7
    (if role = .master then id else 0)
  let s2 := ({ s1 with lnk := { s1.lnk with strapRole := role } }.setRole role).wrF Reg.GLB_BOOT_STATUS 0 4 1
  let s3 := { s2 with boot := { s2.boot with next := 1 } }
  if 2 ≤ fld straps 10 2 then s3.halt 0x0C02
  else
    match s3.bootDir with
    | none => s3.halt 0
    | some (_, two) => s3.wrF Reg.GLB_BOOT_STATUS 8 1 two.toNat

/-- A whole-device restart by a source of GLB_RESET_CAUSE (R567, R568, R574, R578): none during a restart or a boot, or while the main
supplies are removed. -/
def State.restart (s : State) (source straps : Nat) : State :=
  if s.stage ≠ 6 ∨ s.mgt.mainGone then s
  else
    let s1 := if s.safe.heldSince.isNone then s.mgtEvent 5 (leBytes 8 0 ++ leBytes 8 s.now) else s
    let s2 := (s1.setRung 0).clearMain
    let s3 := (s2.wr Reg.GLB_RESTARTS (min 0xFFFF (s2.rdN Reg.GLB_RESTARTS + 1))).wr Reg.GLB_RESET_CAUSE (2 + source * 16)
    s3.startBoot straps

end Sys2Proof.Machine
end

