-- ==== Sys2Proof/Machine/Security.lean ====
section
/-! DEFINITION. Sys2Proof/Machine/Security.lean: the meanings of the security block's commands (17_security, R440 to R467):
attestation, sessions and bundles, confidential partitions, live updates, debug authentication, the random source. -/

namespace Sys2Proof.Machine

/-- The unit of the security block. -/
def uSec : UnitId := ⟨0, 3⟩

/-- What a command does before it completes: the state, RESULT and the bytes written. -/
abbrev SecRes := State × Nat × Nat

/-- Begin a security command (R466, R443): refused with 0x0C0A while one runs; `rng` says that it needs a random key. It runs until
SEC_CMD_COMPLETE; a refusal is reported (R465). -/
def State.secBegin (s : State) (op p : Nat) (rng : Bool) (f : State → SecRes) : State :=
  if s.sec.cmd.isSome then (s.bump Reg.SEC_REFUSED 1).secErr p 0x0C0A
  else
    let (s1, code, len) := if rng && s.sec.rngBad then (s, 0x0C0B, 0) else f s
    let s2 := { s1 with sec := { s1.sec with cmd := some ⟨op, p, code, len, s.rdF (Reg.SEC_ARG 0) 0 2 + 1⟩ } }
    if code = 0 ∨ code = 0x0503 then s2 else s2.secErr p code

/-- SEC_ARG_i. -/
def State.secArg (s : State) (i : Nat) : Nat := s.rdN (Reg.SEC_ARG i)

/-- Read for partition `p` (R467): an access that fails R35, or that returns poison, ends the command with 0x0503. -/
def State.secRead (s : State) (p dva n : Nat) : Except State (List Byte) :=
  match s.readDva p dva n with
  | .data b false => .ok b
  | .data _ true => .error s
  | .refused f a => .error (s.oob p uSec none f a)
  | .bus a => .error (s.err p uSec 0x0907 a)

/-- Write for partition `p` (R467). -/
def State.secWrite (s : State) (p dva : Nat) (b : List Byte) : Except State State :=
  match s.writeDva p uSec dva b with
  | .done s1 => .ok s1
  | .refused f a => .error (s.oob p uSec none f a)
  | .bus a => .error (s.err p uSec 0x0907 a)

/-! ### Attestation (R446 to R449) -/

/-- FLAGS of a report (R449). -/
def State.reportFlags (s : State) (p : Nat) : Nat :=
  let slotB := match Tab.get? s.sec.imgs 1 with
    | some i => i.slotB
    | none => false
  (s.isConf p).toNat + s.sec.dbg.toNat * 2 + (decide (s.sec.level = 2)).toNat * 4 + s.pairsDiffer.toNat * 8 + s.sec.lcs % 4 * 16 +
    slotB.toNat * 64

/-- A report of partition `p` without its signature (R449): bytes 0x000 to 0x27F. -/
def State.attestBody (s : State) (p : Nat) (nonce : List Byte) : List Byte :=
  leBytes 2 0xA7E5 ++ leBytes 1 1 ++ leBytes 1 (s.rdN Reg.CAP_VARIANT) ++ leBytes 1 s.devId ++ leBytes 1 p ++ leBytes 2 (s.reportFlags p) ++
    leBytes 8 s.now ++ nonce ++ leBytes 4 (s.rdN Reg.SEC_MEAS_GEN) ++ leBytes 4 (s.rdN Reg.LNK_SYS_GEN) ++
    ((List.range 4).flatMap fun i => leBytes 1 (s.imgSvn (i + 1))) ++ leBytes 4 0 ++
    ((List.range 4).flatMap fun i => s.imgHash (i + 1)) ++ s.hCfg ++ ((List.range 4).flatMap fun i => s.pmr p i) ++
    sha384 (ecPub s.sec.ak) ++ (match Tab.get? s.sec.sess p with
      | some x => x.pub
      | none => leBytes 96 0)

/-- ATTEST (R449): the signed report goes to ARG_1, which is 64-byte aligned (R10). -/
def execSecAttest (p : Fin 16) (s : State) : Res :=
  .next (s.secBegin 1 p false fun s =>
    if s.secArg 1 % 64 ≠ 0 then (s, 0x0C02, 0)
    else
      match s.secRead 0 (s.secArg 0) 32 with
      | .error s1 => (s1, 0x0503, 0)
      | .ok nonce =>
        let (k, s1) := s.freshPriv
        let body := s1.attestBody p nonce
        match s1.secWrite 0 (s.secArg 1) (body ++ ecdsaSign s1.sec.ak k body) with
        | .error s2 => (s2, 0x0503, 0)
        | .ok s2 => (s2, 0, 736))

/-- The IDK certificate, from the flash (R446, R571). -/
def State.idkCert (s : State) : List Byte :=
  match s.bootDir with
  | some (d, _) => s.readFlash (getLE d 0x50 4) (getLE d 0x54 4)
  | none => []

/-- CHAIN (R449): the certificates of IDK, L1K and AK, as many bytes as the capacity takes. -/
def execSecChain (p : Fin 16) (s : State) : Res :=
  .next (s.secBegin 2 p false fun s =>
    let layer2 := (s.imgHash 2 ++ s.imgHash 3 ++ s.imgHash 4 ++ s.hCfg)
    let all := s.idkCert ++ Config.certificate 1 (ecPub s.sec.l1k) (s.imgHash 1) (s.imgSvn 1) ++
      Config.certificate 2 (ecPub s.sec.ak) layer2 (s.imgSvn 2)
    let b := all.take (s.secArg 2)
    match s.secWrite 0 (s.secArg 1) b with
    | .error s1 => (s1, 0x0503, 0)
    | .ok s1 => (s1, 0, b.length))

/-! ### Sessions and bundles (R451 to R453) -/

/-- SESSION (R451): a new SK_p. -/
def execSecSession (p : Fin 16) (s : State) : Res :=
  .next (s.secBegin 3 p true fun s =>
    let (d, s1) := s.freshPriv
    ({ s1 with sec := { s1.sec with sess := s1.sec.sess.put p { priv := d, pub := ecPub d } } }, 0, 0))

/-- The keys of a session with an owner's E_pub (R451): by label. -/
def sessionKey (x : Session) (label : String) (owner : List Byte) : Option (List Byte) :=
  (ecdh x.priv owner).map fun z => kdf z label (x.pub ++ owner)

/-- The header of a bundle is well formed for an IMPORT (R452). -/
def bundleOk (h : List Byte) (last : Option Nat) : Bool :=
  let kind := getLE h 2 1
  let len := getLE h 0x10 4
  getLE h 0 2 == 0xB0D1 && getLE h 3 1 == 1 && (match last with
    | some n => decide (n < getLE h 4 4)
    | none => true) &&
  (match kind with
    | 1 => len % 64 == 0 && len ≤ 0x4000000
    | 2 => len == 32 && getLE h 8 8 < 16
    | 3 => len % 32 == 0 && 32 ≤ len && len ≤ 2048 && getLE h 8 8 == 0
    | _ => false)

/-- The table chunk's page for a 1 GiB range of intermediate addresses (R454, R371): the L2 table that the L1 entry names, or a new one
in the chunk's next free page. -/
def State.tableFor (s : State) (p ia : Nat) : Option (State × Nat) :=
  let base := s.rdN (Reg.MEM_PT_S2_BASE p)
  let slot := base + fld ia 30 10 * 8
  let e := ofLE (s.readPA slot 8)
  if bitAt e 0 then some (s, fld e 12 36 * 4096)
  else
    let used := ((List.range 1024).filter fun k => bitAt (ofLE (s.readPA (base + k * 8) 1)) 0).length
    if 510 ≤ used then none
    else
      let page := base + 8192 + used * 4096
      some (s.storePA slot (leBytes 8 (page + 1)) false, page)

/-- Map 2 MiB pages for a confidential partition (R453): `n` of them from `ia` to `pa` with PERM. -/
def State.mapPages (s : State) (p perm : Nat) : Nat → Nat → Nat → Option State
  | 0, _, _ => some s
  | n + 1, ia, pa =>
    match s.tableFor p ia with
    | none => none
    | some (s1, table) =>
      State.mapPages (s1.storePA (table + fld ia 21 9 * 8) (leBytes 8 (pa + 3 + perm % 8 * 4)) false) p perm n (ia + 0x200000) (pa + 0x200000)

/-- Apply one entry of a MAP bundle (R453); none when it breaks a rule. -/
def State.mapEntry (s : State) (p : Nat) (e : List Byte) : Option State :=
  let perm := getLE e 1 1
  let bind := getLE e 2 2
  let rec_ := getLE e 4 2
  let a1 := getLE e 8 8
  let a2 := getLE e 0x10 8
  let size := getLE e 0x18 8
  if 32 ≤ perm ∨ getLE e 6 2 ≠ 0 then none
  else
    match getLE e 0 1 with
    | 1 =>
      let table := s.rdN (Reg.MEM_PT_S2_BASE p) / 0x200000
      let n := size / 0x200000
      if size % 0x200000 ≠ 0 ∨ a1 % 0x200000 ≠ 0 ∨ 2 ^ 40 < a1 + size ∨ bind ≠ 0 ∨ rec_ ≠ 0 ∨ chunkCount < a2 + n ∨
          !(List.range n).all (fun k => Tab.get? s.chunks (a2 + k) == some p && a2 + k != table) then none
      else s.mapPages p perm n a1 (a2 * 0x200000)
    | 2 =>
      let r : Region := ⟨a1, size, p, bitAt perm 0, bitAt perm 1, bitAt perm 3⟩
      if bind ≠ 0 ∨ a2 ≠ 0 ∨ !r.rangeOk ∨ (Tab.get? s.dsc.regions rec_).isSome ∨ s.dsc.regions.any (fun x => r.meets x.2) then none
      else some { s with dsc := { s.dsc with regions := s.dsc.regions.put rec_ r } }
    | 3 =>
      let b : Binding := ⟨fld bind 0 7, fld bind 8 4, fld bind 12 4, p, a1, size, bitAt perm 0, bitAt perm 1, bitAt perm 4⟩
      let clash := s.lnk.bindings.any fun x => x.1 != rec_ && x.2.srcDev == b.srcDev && x.2.srcPt == b.srcPt &&
        (x.2.index == b.index || (x.2.sig && b.sig))
      if a2 ≠ 0 ∨ 1024 ≤ rec_ ∨ !rangeOk a1 size ∨ clash ∨ bitAt bind 7 then none
      else some { s with lnk := { s.lnk with bindings := s.lnk.bindings.put rec_ b } }
    | 4 =>
      let far (t : Target) : Bool := t == .host || t == .link
      if size % 0x200000 ≠ 0 ∨ a1 % 0x200000 ≠ 0 ∨ a2 % 0x200000 ≠ 0 ∨ 2 ^ 40 < a1 + size ∨ bind ≠ 0 ∨ rec_ ≠ 0 ∨ size = 0 ∨
          !far (targetOf a2) ∨ targetOf (a2 + size - 1) ≠ targetOf a2 then none
      else s.mapPages p perm (size / 0x200000) a1 a2
    | _ => none

/-- Apply every entry of a MAP bundle, or none of them. -/
def State.mapAll (s : State) (p : Nat) : Nat → List Byte → Option State
  | 0, _ => some s
  | n + 1, b =>
    match s.mapEntry p (b.take 32) with
    | none => none
    | some s1 => State.mapAll s1 p n (b.drop 32)

/-- A bundle of the session of `p` is accepted: its SEQ and its owner stand. -/
def State.bundleTaken (s : State) (p : Nat) (x : Session) (h : List Byte) : State :=
  { s with sec := { s.sec with sess := s.sec.sess.put p { x with lastSeq := some (getLE h 4 4), owner := (h.drop 0x20).take 96 } } }

/-- Apply a bundle with its plaintext; `good` says whether its tag verifies (R452, R453, R448). -/
def State.importApply (s : State) (p : Nat) (x : Session) (h pt : List Byte) (good : Bool) : SecRes :=
  match getLE h 2 1 with
  | 1 =>
    match s.secWrite p (getLE h 8 8) (if good then pt else leBytes pt.length 0) with
    | .error s1 => (s1, 0x0503, 0)
    | .ok s1 => if good then ((s1.bundleTaken p x h).pmrExtend p 2 pt, 0, pt.length) else (s1, 0x0C06, 0)
  | 2 =>
    if !good then (s, 0x0C06, 0)
    else if p ≠ 0 then (s, 0x0C07, 0)
    else
      let s1 := s.bundleTaken p x h
      ({ s1 with sec := { s1.sec with sealKeys := s1.sec.sealKeys.put (getLE h 8 8) pt } }, 0, 0)
  | _ =>
    if !good then (s, 0x0C06, 0)
    else if !s.isConf p then (s, 0x0C07, 0)
    else
      match s.mapAll p (pt.length / 32) pt with
      | none => (s, 0x0C07, 0)
      | some s1 => ((s1.bundleTaken p x h).pmrExtend p 3 pt, 0, 0)

/-- IMPORT (R452): refused with 0x0C06 for a header, SEQ or tag that fails. -/
def execSecImport (p : Fin 16) (s : State) : Res :=
  .next (s.secBegin 4 p false fun s =>
    match s.secRead 0 (s.secArg 0) 128 with
    | .error s1 => (s1, 0x0503, 0)
    | .ok h =>
      match Tab.get? s.sec.sess p with
      | none => (s, 0x0C06, 0)
      | some x =>
        match sessionKey x "IMPORT" ((h.drop 0x20).take 96) with
        | none => (s, 0x0C06, 0)
        | some key =>
          if !bundleOk h x.lastSeq then (s, 0x0C06, 0)
          else
            match s.secRead 0 (s.secArg 0 + 128) (getLE h 0x10 4 + 16) with
            | .error s1 => (s1, 0x0503, 0)
            | .ok b =>
              let ct := b.take (getLE h 0x10 4)
              let iv := (h.drop 0x14).take 12
              s.importApply p x h (gcmCrypt key iv ct) (gcmTag key iv h ct == b.drop (getLE h 0x10 4)))

/-- EXPORT (R452): LEN bytes of `p` go to PT_0 as a bundle of KIND 4; refused with 0x0C07 before any bundle was accepted. DEST of such a
bundle is free: the spec gives it none. -/
def execSecExport (p : Fin 16) (s : State) : Res :=
  .next (s.secBegin 5 p false fun s =>
    match Tab.get? s.sec.sess p with
    | none => (s, 0x0C07, 0)
    | some x =>
      match (if x.owner.isEmpty then none else sessionKey x "EXPORT" x.owner) with
      | none => (s, 0x0C07, 0)
      | some key =>
        match s.secRead p (s.secArg 1) (s.secArg 3) with
        | .error s1 => (s1, 0x0503, 0)
        | .ok data =>
          let seq := (x.exports + 1) % 2 ^ 32
          let (dest, s1) := s.freshBytes 8
          let iv := leBytes 12 seq
          let h := leBytes 2 0xB0D1 ++ leBytes 1 4 ++ leBytes 1 1 ++ leBytes 4 seq ++ dest ++ leBytes 4 data.length ++ iv ++ x.owner
          let ct := gcmCrypt key iv data
          match s1.secWrite 0 (s.secArg 2) (h ++ ct ++ gcmTag key iv h ct) with
          | .error s2 => (s2, 0x0503, 0)
          | .ok s2 => ({ s2 with sec := { s2.sec with sess := s2.sec.sess.put p { x with exports := seq } } }, 0, 128 + data.length + 16))

/-! ### Confidential partitions (R454, R467) -/

/-- `p` owns no chunk, region record or binding. -/
def State.ownsNothing (s : State) (p : Nat) : Bool :=
  s.chunks.all (fun e => e.2 != p) && s.dsc.regions.all (fun e => e.2.pt != p) && s.lnk.bindings.all fun e => e.2.localPt != p

/-- CONF_ENABLE (R454): refused with 0x0C07, or the table chunk is granted and the partition is confidential. -/
def execConfEnable (p : Fin 16) (s : State) : Res :=
  .next (s.secBegin 6 p false fun s =>
    let c := s.secArg 1
    if p.val = 0 ∨ !s.ptReady p ∨ !s.ownsNothing p ∨ chunkCount ≤ c ∨ (Tab.get? s.chunks c).isSome then (s, 0x0C07, 0)
    else
      let s1 := s.zeroChunk c
      let s2 := ({ s1 with chunks := s1.chunks.put c p }.countChunks p).wr (Reg.MEM_PT_S2_BASE p) (c * 0x200000)
      (((s2.dropMeasures p).wrF (Reg.QM_PT_STATE p) 8 1 1).wr Reg.SEC_CONF (setFld (s2.rdN Reg.SEC_CONF) p 1 1), 0, 0))

/-- CONF_DISABLE (R454): the partition is reset; the rest follows at READY. -/
def execConfDisable (p : Fin 16) (s : State) : Res :=
  .next (s.secBegin 7 p false fun s => if !s.isConf p then (s, 0x0C07, 0) else (s.resetPartition p, 0, 0))

/-- The range that CONF_GRANT and CONF_RELEASE take (R382): a code, 0 when it is good; `p` owns the chunks for a release. -/
def State.confRange (s : State) (p : Nat) (grant : Bool) : Nat :=
  let first := s.secArg 1
  let n := s.secArg 3
  if !s.isConf p then 0x0C07
  else if !s.ptReady p then 0x0A0B
  else if n = 0 ∨ chunkCount < first + n then 0x0A08
  else if (List.range n).all (fun k => Tab.get? s.chunks (first + k) == if grant then none else some p) then 0 else 0x0A08

/-- CONF_GRANT (R454, R382): the chunks are filled with zeros and owned. -/
def execConfGrant (p : Fin 16) (s : State) : Res :=
  .next (s.secBegin 8 p false fun s =>
    let code := s.confRange p true
    if code ≠ 0 then (s, code, 0)
    else
      let s1 := (List.range (s.secArg 3)).foldl (fun s k =>
        let s' := s.zeroChunk (s.secArg 1 + k)
        { s' with chunks := s'.chunks.put (s.secArg 1 + k) p }) s
      (s1.countChunks p, 0, 0))

/-- CONF_RELEASE (R454, R382). -/
def execConfRelease (p : Fin 16) (s : State) : Res :=
  .next (s.secBegin 9 p false fun s =>
    let code := s.confRange p false
    if code ≠ 0 then (s, code, 0) else (s.freeChunks (s.secArg 1) (s.secArg 3) p, 0, 0))

/-- CONF_MODE (R467, R384). -/
def execConfMode (p : Fin 16) (s : State) : Res :=
  .next (s.secBegin 0x0C p false fun s =>
    if !s.isConf p ∨ s.workPresent p then (s, 0x0C07, 0) else (s.wr (Reg.QM_PT_MODE p) (s.secArg 0 % 2), 0, 0))

/-! ### Live updates and the floor (R463, R464) -/

/-- The activation of an image that stands in its inactive slot (R464). -/
def State.updActivate (s : State) (t : Nat) (b : List Byte) (slotB : Bool) : State :=
  let u : Update := { type := t, img := runImg b slotB, payload := b.drop 256, inSlot := true }
  match t with
  | 1 => s.preferSlot 1 slotB
  | 2 => { s with sec := { s.sec with upd := some u }, mgt := { s.mgt with switching := true } }
  | _ => { s with sec := { s.sec with upd := some u } }

/-- The code that refuses an image of type `t` (R445), 0 when none does. -/
def State.updCode (s : State) (t : Nat) (b : List Byte) : Nat := if 1 ≤ t ∧ t ≤ 4 then s.imageCode t b else 0x0C03

/-- Whether slot B is the inactive slot of type `t` (R464). -/
def State.inactiveB (s : State) (d : List Byte) (t : Nat) : Bool :=
  match Tab.get? s.sec.imgs t with
  | some i => !i.slotB
  | none => !bitAt (getLE d 8 4) (t - 1)

/-- UPDATE (R464, R445, R495): the image is checked, written to the inactive slot of its type and activated. -/
def execSecUpdate (p : Fin 16) (s : State) : Res :=
  .next (if s.sec.upd.isSome then (s.bump Reg.SEC_REFUSED 1).secErr p 0x0C0A
    else s.secBegin 0x0A p false fun s =>
      match s.secRead 0 (s.secArg 0) 256 with
      | .error s1 => (s1, 0x0503, 0)
      | .ok h =>
        if 0x400000 < getLE h 0x0C 4 then (s, 0x0C03, 0)
        else
          match s.secRead 0 (s.secArg 0 + 256) (getLE h 0x0C 4) with
          | .error s1 => (s1, 0x0503, 0)
          | .ok body =>
            let b := h ++ body
            let t := getLE h 4 1
            let code := s.updCode t b
            if code ≠ 0 then (s, code, 0)
            else if t = 4 ∧ !tableOk (Config.taskTable body) then (s, 0x0C03, 0)
            else if 3 ≤ t ∧ s.degraded then (s, 0x0C08, 0)
            else
              match s.bootDir with
              | none => (s, 0x0C08, 0)
              | some (d, _) =>
                let slotB := s.inactiveB d t
                if getLE d (0x10 + (t - 1) * 16 + 8) 4 < b.length then (s, 0x0C08, 0)
                else ((s.writeFlash (dirSlot d t slotB) b).updActivate t b slotB, 0, 0))

/-- SVN_COMMIT (R463): fusing runs until SEC_CMD_COMPLETE; refused with 0x0C09 when no image of the type runs. -/
def execSvnCommit (p : Fin 16) (s : State) : Res :=
  .next (s.secBegin 0x0B p false fun s =>
    let t := s.rdF (Reg.SEC_ARG 0) 0 2 + 1
    match Tab.get? s.sec.imgs t with
    | none => (s, 0x0C09, 0)
    | some i => if 127 < i.svn then (s, 0x0C09, 0) else (s, 0, 0))

/-- SEC_CMD_COMPLETE (R466): RESULT and SEC_CMD_LEN, then SEC_FLAG as a release. A CONF_DISABLE waits for the reset of its partition
(R454); an SVN_COMMIT has fused the floor. -/
def execSecCmdComplete (s : State) : Res :=
  match s.sec.cmd with
  | none => .next s
  | some c =>
    if c.op = 7 ∧ c.code = 0 ∧ !s.ptReady c.pt then .next s
    else
      let s0 := if c.op = 7 ∧ c.code = 0 then s.confRelease c.pt
        else if c.op = 0x0B ∧ c.code = 0 then
          { s with sec := { s.sec with floor := s.sec.floor.put c.arg (max (s.svnFloor c.arg) (s.imgSvn c.arg)) } }
        else s
      let s1 := (({ s0 with sec := { s0.sec with cmd := none } }.wr Reg.SEC_CMD_STATUS (c.code * 2 ^ 16)).wr Reg.SEC_CMD_LEN c.len).bump
        (if c.code = 0 then Reg.SEC_CMDS else Reg.SEC_REFUSED) 1
      .next (s1.flagReg c.pt Reg.SEC_FLAG 1 uSec)

/-! ### Debug authentication (R460 to R462) -/

/-- The IDK public key (R442). -/
def State.idkPub (s : State) : List Byte := ecPub (kdfPriv s.sec.uds "IDK" [])

/-- DEBUG_CHALLENGE (R461): a fresh challenge; refused with 0x0C05 once the interface is locked, and with 0x0C0B without a random
source. -/
def execDebugChallenge (s : State) : Res :=
  if s.sec.locked then .next (s.secErr 0 0x0C05)
  else if s.sec.rngBad then .next (s.secErr 0 0x0C0B)
  else
    let (x, s1) := s.freshBytes 32
    let c := x ++ sha384 s.idkPub
    .next { s1 with sec := { s1.sec with challenge := some c }, out := s1.out ++ [.readData (ofLE c)] }

/-- A response is good (R460, R461): in MANUFACTURE level 3 is open; in RMA it takes DKH[0]. -/
def State.debugOk (s : State) (a : List Byte) : Bool :=
  let level := getLE a 0 1
  let k := getLE a 1 1
  let pub := (a.drop 4).take 96
  1 ≤ level && level ≤ 3 && a.length == 196 &&
  ((s.sec.lcs == 0 && level == 3) ||
    (k < 2 && getLE a 2 2 == 0 && (s.sec.lcs != 2 || level != 3 || k == 0) && s.keyOk (8 + k) pub &&
      (match s.sec.challenge with
        | some c => ecdsaOk pub (c ++ a.take 4) (a.drop 100)
        | none => false)))

/-- DEBUG_RESPONSE (R460 to R462): a level is granted, or the response is rejected; the third rejection locks the interface with
0x0C05. Level 3 begins with the reset of every partition. -/
def execDebugResponse (answer : List Byte) (s : State) : Res :=
  if s.sec.locked then .next (s.secErr 0 0x0C05)
  else if s.debugOk answer then
    let s1 := { s with sec := { s.sec with challenge := none } }
    if getLE answer 0 1 = 3 then
      let s2 := (List.range 16).foldl (fun s p => s.resetPartition p) { s1 with sec := { s1.sec with entering := true } }
      .next s2
    else .next { s1 with sec := { s1.sec with level := getLE answer 0 1 } }
  else
    let n := s.rdN Reg.SEC_DBG_FAILS + 1
    let s1 := { s.wr Reg.SEC_DBG_FAILS n with sec := { s.sec with challenge := none, locked := decide (3 ≤ n) } }
    .next (if 3 ≤ n then s1.secErr 0 0x0C05 else s1)

/-- DEBUG_LEVEL_LOWER (R461). -/
def execDebugLevelLower (level : Fin 3) (s : State) : Res :=
  if level.val < s.sec.level then .next { s with sec := { s.sec with level := level } } else .next s

/-! ### The random source (R443) -/

/-- RNG_HEALTH_FAIL (R443): keys are refused with 0x0C0B until a retry passes. -/
def execRngHealthFail (s : State) : Res :=
  if s.sec.rngBad then .next s else .next ({ s with sec := { s.sec with rngBad := true, rngFails := 1 } }.secErr 0 0x0C0B)

/-- RNG_RETRY (R443): the hundredth failure in a row is fatal. -/
def execRngRetry (pass : Bool) (s : State) : Res :=
  if !s.sec.rngBad then .next s
  else if pass then .next { s with sec := { s.sec with rngBad := false, rngFails := 0 } }
  else
    let n := s.sec.rngFails + 1
    let s1 := { s with sec := { s.sec with rngFails := n } }
    .next (if n = 100 then (s1.deviceFatal 0x0C0B ⟨0, 0⟩).crzDrain else s1)

end Sys2Proof.Machine
end

