-- ==== Sys2Proof/Machine/Boot.lean ====
section
/-! DEFINITION. Sys2Proof/Machine/Boot.lean: resets, the boot sequence and pins (23_boot_reset; 24_signals_electrical_package, R586, R590,
R593). -/

namespace Sys2Proof.Machine

/-- COLD_RESET (R567, R568): PORST_N is low. -/
def execColdReset (s : State) : Res := .next (s.coldState true)

/-- PORST_RELEASE (R574, R586): the boot starts, or TEST_MODE keeps the device in cold reset. -/
def execPorstRelease (straps : BitVec 12) (testMode : Bool) (s : State) : Res :=
  if !s.boot.porst then .next s
  else
    let s1 := { s with boot := { s.boot with porst := false, testHold := testMode } }
    .next (if testMode then s1 else s1.startBoot straps.toNat)

/-- TEST_MODE_FALL (R586). -/
def execTestModeFall (straps : BitVec 12) (s : State) : Res :=
  if !s.boot.testHold then .next s else .next ({ s with boot := { s.boot with testHold := false } }.startBoot straps.toNat)

/-- The code with which the boot refuses an image (R572, R445, R499); 0 when it is accepted. -/
def State.bootCode (s : State) (t : Nat) (b : List Byte) : Nat :=
  let c := s.imageCode t b
  if c = 0 ∧ t = 4 ∧ !tableOk (Config.taskTable (b.drop 256)) then 0x0C03 else c

/-- An image of type `t` is served by a slot (R572, R574, R446). -/
def State.imageServed (s : State) (t : Nat) (b : List Byte) (slotB : Bool) : State :=
  let s1 := { s with sec := { s.sec with imgs := s.sec.imgs.put t (runImg b slotB) }, boot := { s.boot with next := t + 1 } }
  let s2 := s1.wrF Reg.GLB_BOOT_STATUS (3 + t) 1 slotB.toNat
  match t with
  | 1 => s2.deriveL1.wrF Reg.GLB_BOOT_STATUS 0 4 2
  | 2 => { s2.wrF Reg.GLB_BOOT_STATUS 0 4 3 with mgt := { s2.mgt with served := true } }
  | 3 => s2
  | _ => ((s2.activateTable (Config.taskTable (b.drop 256))).deriveL2).wrF Reg.GLB_BOOT_STATUS 0 4 4

/-- No slot serves type `t` (R573): the boot halts for SFW and CFW; without YFW the checker does not start; without YPR it has no tasks
and holds with 0x0C03. -/
def State.imageMissing (s : State) (t : Nat) : State :=
  let s1 := { s with boot := { s.boot with next := t + 1 } }
  match t with
  | 3 => s1
  | 4 =>
    let s2 := { s1 with safe := { s1.safe with noTable := true } }
    ((s2.wr Reg.SAFE_HOLD_CAUSE 0x0C03).deriveL2).wrF Reg.GLB_BOOT_STATUS 0 4 4
  | _ => s.halt (s.rdF Reg.GLB_BOOT_STATUS 16 16)

/-- BOOT_IMAGE_LOADED (R572): the next image in the order SFW, CFW, YFW, YPR, from its preferred slot or the other. -/
def execBootImageLoaded (s : State) : Res :=
  let t := s.boot.next
  if t = 0 ∨ 4 < t then .next s
  else
    match s.bootDir with
    | none => .next (s.halt 0)
    | some (d, _) =>
      let pref := bitAt (getLE d 8 4) (t - 1)
      let a := s.slotImage d t pref
      if s.bootCode t a = 0 then .next (s.imageServed t a pref)
      else
        let s1 := s.wrF Reg.GLB_BOOT_STATUS 16 16 (s.bootCode t a)
        let b := s.slotImage d t (!pref)
        if s.bootCode t b = 0 then .next (s1.imageServed t b (!pref))
        else .next ((s1.wrF Reg.GLB_BOOT_STATUS 16 16 (s.bootCode t b)).imageMissing t)

/-- MEMORY_TRAINING_COMPLETE (R574, R355): the hash key is drawn, MEM_STATUS[0] is set. -/
def execMemoryTrainingComplete (s : State) : Res :=
  if s.boot.next = 0 ∨ s.rdB Reg.MEM_STATUS 0 then .next s
  else
    let (k, s1) := s.fresh
    .next { s1.wrF Reg.MEM_STATUS 0 1 1 with memx := { s1.memx with hashKey := k } }

/-- A Frond that fails the boot suite is fenced with 0x0D02 before the capability table is written (R575). -/
def State.bootFence (s : State) (n : Nat) : State :=
  ((s.wr Reg.REL_FENCED_MAP (s.rdN Reg.REL_FENCED_MAP ||| 2 ^ n)).wr (Reg.REL_TC_FENCE_INFO n) (0x0D02 + 0x10000)).event (uTc n) 0x05 0x80
    0x0D02 n 0

/-- CFW sets NE_K_MAX and the Subsystem IDs from the directory (R571, R576). -/
def State.bootConfig (s : State) : State :=
  match s.bootDir with
  | none => s
  | some (d, _) =>
    let k := getLE d 0x5C 1
    let s1 := { s with boot := { s.boot with subsys := getLE d 0x58 4 } }
    s1.wrF Reg.PWR_CFG 24 5 (if 4 ≤ k ∧ k ≤ 16 then k else 8)

/-- BOOT_READY (R574, R575): the checker runs with every task in HOLD when it has its YFW; STAGE is READY. -/
def execBootReady (failed : BitVec 32) (s : State) : Res :=
  if s.stage ≠ 4 ∨ !s.rdB Reg.MEM_STATUS 0 then .next s
  else
    let s1 := ((List.range 32).filter fun n => failed.getLsbD n).foldl (fun s n => s.bootFence n) s
    let s2 := s1.bootConfig.kSync
    let s3 := (s2.wrF Reg.GLB_BOOT_STATUS 0 4 6).wr Reg.GLB_BOOT_TIME s.now
    let s4 := { s3 with boot := { s3.boot with next := 0 } }
    let s5 := if (Tab.get? s4.sec.imgs 3).isSome then { s4.armAll with safe := { s4.armAll.safe with noFw := false } } else s4
    .next (s5.safeSync 0 0).debugEnter

/-- WHOLE_DEVICE_RESTART (R567, R579): a write to GLB_RESET_CMD. -/
def execWholeDeviceRestart (value : BitVec 32) (straps : BitVec 12) (s : State) : Res :=
  if value = 0xD1E5#32 then .next (s.restart 2 straps.toNat) else .next s

/-- FATAL_RESTART_TIMER (R567): 10 ms after the device became fatal. -/
def execFatalRestartTimer (straps : BitVec 12) (s : State) : Res :=
  if s.boot.fatalAt.isSome && s.rdB Reg.GLB_CFG 0 then .next (s.restart 4 straps.toNat) else .next s

/-- HOST_RESET (R567, R568, R576, R578): with PERST_RESTART, PERST_N restarts the device; before READY, only the endpoint trains again;
otherwise every partition is reset and the configuration space is cleared. -/
def execHostReset (how : HostResetBy) (straps : BitVec 12) (s : State) : Res :=
  let s1 := { s with boot := { s.boot with linkUp := false, inL1 := false, perst := s.boot.perst || how == .perst } }
  if s1.stage ≠ 6 then .next s1
  else if how == .perst && s1.rdB Reg.GLB_CFG 1 then .next (s1.restart 5 straps.toNat)
  else
    let s2 := (s1.resetPartition 0).vfClear
    .next { s2 with qm := { s2.qm with msixEn := [], fnMask := [], d3hot := [] } }

/-- MAIN_RAIL_FAULT (R590): the main side stops and its state is lost; the island and the checker go on. -/
def execMainRailFault (s : State) : Res :=
  if s.mgt.mainGone then .next s
  else
    let s1 := s.clearMain
    let keep := s.regs.filter fun e => restartKeeps e.1 || decide (0x1B00000 ≤ e.1 ∧ e.1 < 0x1D00000)
    .next { s1 with
      regs := keep, safe := s.safe
      mgt := { s.mgt with mainGone := true, kept := if s.mainUp then s.mainValues else s.mgt.kept, switching := false } }

/-- VDD_AON_FAULT (R590): the whole device resets and stays reset until a cold reset. -/
def execVddAonFault (s : State) : Res := .next (s.coldState false)

/-- PERST_RELEASE (R576): the endpoint can train. -/
def execPerstRelease (s : State) : Res := .next { s with boot := { s.boot with perst := false } }

/-- PCIE_LINK_UP (R576, R520): not while PORST_N or PERST_N is low, nor in P4. -/
def execPcieLinkUp (s : State) : Res :=
  if s.boot.porst || s.boot.perst || s.rung = 4 then .next s else .next { s with boot := { s.boot with linkUp := true } }

/-- PCIE_L1_EXIT (R520): wake source 0. -/
def execPcieL1Exit (s : State) : Res := .next ({ s with boot := { s.boot with inL1 := false } }.wake 0)

/-- CFW_SWITCH_COMPLETE (R464, R447): the new CFW runs, and ladder requests that waited are served. -/
def execCfwSwitchComplete (s : State) : Res :=
  match s.sec.upd with
  | some u =>
    if u.type ≠ 2 then .next s
    else
      let s1 := { s with mgt := { s.mgt with switching := false }, pwr := { s.pwr with asked := [] } }
      .next (s.pwr.asked.foldl (fun s k => s.askRung k) ((s1.updRun u).updDone u))
  | none => .next s

/-- EXTEST (R460): a debugger that has boundary scan puts the device into whole-device reset. -/
def execTapExtest (s : State) : Res := if s.sec.level = 0 then .next s else .next s.clearMain

/-- AON32K_STABLE (R593). -/
def execAon32kStable (s : State) : Res := .next { s with boot := { s.boot with xtal32k := true } }

end Sys2Proof.Machine
end

