-- ==== Sys2Proof/Machine/Debug.lean ====
section
/-! DEFINITION. Sys2Proof/Machine/Debug.lean: clearing counters, freezing and thawing, and copies of event rings
(21_debug_counters). -/

namespace Sys2Proof.Machine

/-- DBG_CLEAR (R538): every counter of the groups reads 0. -/
def execDbgClear (mask : BitVec 16) (s : State) : Res :=
  .next (s.clearRegs fun a => isCounter a && mask.getLsbD (counterGroup a))

/-- PT_COUNTER_CLEAR (R538, R551): the counters of the debug window of `p` read 0. -/
def execPtCounterClear (p : Fin 16) (s : State) : Res :=
  .next (s.clearRegs fun a => decide (Reg.DBG_PT_TRACE_DROP p ≤ a ∧ a < Reg.DBG_PT_CLEAR p))

/-- FREEZE (R547): trigger 1. -/
def execDbgFreeze (s : State) : Res := .next (s.freezeLocal 1)

/-- THAW (R548): recording resumes; the trace of a partition stays as it is. -/
def execDbgThaw (s : State) : Res := .next (s.wrF Reg.DBG_STATUS 0 1 0)

/-- The ring that a reader selects: the PF reads every ring, a partition window those of its units and its scheduler ring (R543,
R551); any other selection has no records. -/
def State.selRing (s : State) (pf : Bool) (p sel : Nat) : EvRing :=
  let c := fld sel 0 8
  let i := fld sel 8 8
  if pf || (if c = 0x03 then i == p else s.owns p c i) then s.dbg.rings.getD (ringKey ⟨c, i⟩) {} else {}

/-- An event record as it is delivered: one of a confidential partition without its address and value fields (R455). -/
def State.shownRec (s : State) (r : EvRec) : EvRec := if r.pt < 16 && s.isConf r.pt then { r with a := 0, b := 0 } else r

/-- Registers of the reader. -/
def dumpSel (pf : Bool) (p : Nat) : Nat := if pf then Reg.DBG_RING_SEL else Reg.DBG_PT_RING_SEL p
/-- DUMP_DST of the reader. -/
def dumpDst (pf : Bool) (p : Nat) : Nat := if pf then Reg.DBG_DUMP_DST else Reg.DBG_PT_DUMP_DST p
/-- DUMP_STATUS of the reader. -/
def dumpStatus (pf : Bool) (p : Nat) : Nat := if pf then Reg.DBG_DUMP_STATUS else Reg.DBG_PT_DUMP_STATUS p
/-- The reader: a partition, or 16 for the PF registers. -/
def dumpKey (pf : Bool) (p : Nat) : Nat := if pf then 16 else p
/-- The reader's partition. -/
def dumpPt (pf : Bool) (p : Nat) : Nat := if pf then 0 else p

/-- DUMP (R543): the copy begins; a destination that is not aligned, or a DUMP while one runs, is refused with 0x0B06. -/
def execDbgDump (pf : Bool) (p : Fin 16) (s : State) : Res :=
  let dst := s.rdN (dumpDst pf p)
  let q := dumpPt pf p
  if (Tab.get? s.dbg.dump (dumpKey pf p)).isSome then .next (s.err q ⟨0, 0⟩ 0x0B06)
  else if dst % 64 ≠ 0 then .next ((s.wr (dumpStatus pf p) (0x0B06 * 65536)).err q ⟨0, 0⟩ 0x0B06)
  else .next { s.wr (dumpStatus pf p) 1 with
    dbg := { s.dbg with dump := s.dbg.dump.put (dumpKey pf p) (s.rdN (dumpSel pf p), dst) } }

/-- Copy records to memory, oldest first, until one write fails: the state, and the RESULT. -/
def State.dumpRecs (s : State) (q dst : Nat) : List EvRec → State × Nat
  | [] => (s, 0)
  | r :: rs =>
    match s.writeDva q ⟨0, 2⟩ dst (s.shownRec r).bytes with
    | .done s1 => State.dumpRecs s1 q (dst + 32) rs
    | .refused f a => (s.oob q ⟨0, 0⟩ none f a, 0x0503)
    | .bus a => (s.err q ⟨0, 0⟩ 0x0907 a, 0x0907)

/-- DUMP_COMPLETE (R543): the records stand in memory, as far as the writes passed. -/
def execDumpComplete (pf : Bool) (p : Fin 16) (s : State) : Res :=
  match Tab.get? s.dbg.dump (dumpKey pf p) with
  | none => .next s
  | some (sel, dst) =>
    let s0 := { s with dbg := { s.dbg with dump := s.dbg.dump.del (dumpKey pf p) } }
    let (s1, code) := s0.dumpRecs (dumpPt pf p) dst (s0.selRing pf p sel).recs.reverse
    .next (s1.wr (dumpStatus pf p) (code * 65536))

end Sys2Proof.Machine
end

