-- ==== Sys2Proof/Machine/Flag.lean ====
section
/-! DEFINITION. Sys2Proof/Machine/Flag.lean: the meanings of the flag unit's commands (11_sync_flags_ordering, R268 to R286). -/

namespace Sys2Proof.Machine

/-- The job of an agent that an operation on a flag has refused stops (R20, R284). -/
def State.stopFlagAgent (s : State) (op : FlagOp) (code : Nat) : State :=
  if op.agent.cls = 0x01 then
    let f := s.tc op.agent.inst
    let here : Bool := match f.slot0 with
      | some x => x.st == 3 && !f.itemWait && s.frondCtx op.agent.inst == op.ctx
      | none => false
    if here then s.frondStop op.agent.inst code true else s
  else if op.agent.cls = 0x21 then s.chEnd op.agent.inst code
  else s

/-- The word of flag `i` is uncorrectable (R284): the flag is poisoned, 0x0B05 is raised to its owner and its pending waits end
with the same code. -/
def State.poisonFlag (s : State) (i : Nat) : State :=
  let f := s.flag i
  let gone := f.waits.filter fun w => w.ended.isNone
  let s1 := s.setFlag i { f with poisoned := true, waits := f.waits.map fun w => if w.ended.isNone then { w with ended := some 0x0B05 } else w }
  let s2 := gone.foldl (fun s w => s.trace w.pt 7 w.agent i false ⟨0, 0⟩ f.value w.target w.ctx) s1
  match s.flagOwner i with
  | some q => s2.report q { code := 0x0B05, info := i }
  | none => s2

/-- Poison flag `i` when its word is uncorrectable. -/
def State.flagWord (s : State) (i : Nat) (ue : Bool) : State := if ue then s.poisonFlag i else s

/-- The oldest operation on flag `i` that has been released and not applied. -/
def State.nextFlagOp (s : State) (i : Nat) : Option FlagOp := s.flags.queue.find? fun o => o.flag == i

/-- Take a released operation out of the queue. -/
def State.takeFlagOp (s : State) (o : FlagOp) : State := { s with flags := { s.flags with queue := s.flags.queue.erase o } }

/-- FLAG_SIGNAL_APPLY (R269 to R271, R284): the oldest released operation on the flag, a signal, is applied in its total order
and pending waits are evaluated; a refusal stops the job that issued it. -/
def execFlagSignalApply (i : Fin 32768) (ue : Bool) (s : State) : Res :=
  match s.nextFlagOp i with
  | none => .next s
  | some o =>
    if o.isSet then .next s
    else
      let (s1, code) := ((s.takeFlagOp o).flagWord i ue).flagSignal o.pt i o.n o.agent o.ctx
      .next (if code = 0 then s1 else (s1.stopFlagAgent o code).gsSettle o.pt).crzDrain

/-- FLAG_SET_APPLY (R269, R270, R284): the oldest released operation on the flag, a set, is applied; the owner's set clears
poison. -/
def execFlagSetApply (i : Fin 32768) (ue : Bool) (s : State) : Res :=
  match s.nextFlagOp i with
  | none => .next s
  | some o =>
    if !o.isSet then .next s
    else
      let (s1, code) := ((s.takeFlagOp o).flagWord i ue).flagSet o.pt i o.n o.agent o.ctx
      .next (if code = 0 then s1 else (s1.stopFlagAgent o code).gsSettle o.pt).crzDrain

/-- Report the end of a wait to its agent (R270, R275, R284, R327, R144): the Frond issues again or stops, the channel goes on or
ends, the Crozier's node comes closer to its start or fails. -/
def State.waitOver (s : State) (i : Nat) (w : Wait) (code : Nat) : State :=
  if w.agent.cls = 0x01 then
    let n := w.agent.inst
    let f := s.tc n
    if f.wait ≠ some (i, w.target) then s
    else if code = 0 then s.setTc n { f with wait := none } else (s.frondStop n code true).gsSettle w.pt
  else if w.agent.cls = 0x21 then
    (if (s.ch w.agent.inst).wait = some (i, w.target) then s.chWaitOver w.agent.inst code else s)
  else
    let g := w.agent.inst
    let nodes := match s.cg g with
      | some x => x.insts.flatMap fun y => (y.nodes.zipIdx).filterMap fun e =>
          if e.1.waits.contains (i, w.target) then some (⟨g, y.seq, e.2⟩ : NodeRef) else none
      | none => []
    match nodes with
    | [] => s
    | r :: _ =>
      let s1 := s.setNode r fun m => { m with waits := m.waits.erase (i, w.target) }
      if code = 0 then s1 else s1.nodeFail r code

/-- FLAG_WAIT_SATISFIED (R270, R275, R283): the oldest wait of the flag that has ended is reported to the agent that waits. -/
def execFlagWaitSatisfied (i : Fin 32768) (s : State) : Res :=
  let f := s.flag i
  match f.waits.find? fun w => w.ended.isSome with
  | none => .next s
  | some w => .next ((s.setFlag i { f with waits := f.waits.erase w }).waitOver i w (w.ended.getD 0)).crzDrain

/-- The wait of a Frond or a channel: flag and target. -/
def State.waitOf (s : State) (channel : Bool) (n : Nat) : Option (Nat × Nat) := if channel then (s.ch n).wait else (s.tc n).wait

/-- WAIT_TIMEOUT (R275, R304): in the time-out mode the wait limit is over: 0x0B03 stops the waiting operation or channel; a wait
satisfied in the same clock counts as satisfied. -/
def execWaitTimeout (channel : Bool) (n : Fin 64) (s : State) : Res :=
  let u : UnitId := if channel then uCh n else uTc n
  match s.waitOf channel n with
  | none => .next s
  | some (i, target) =>
    let f := s.flag i
    match f.waits.find? fun w => w.agent == u && w.target == target && w.ended.isNone with
    | none => .next s
    | some w =>
      if !s.rdB (Reg.GS_PT_CFG w.pt) 0 then .next s
      else
        let s1 := (s.setFlag i { f with waits := f.waits.erase w }).trace w.pt 6 u i false ⟨0, 0⟩ f.value target w.ctx
        let s2 := s1.report w.pt { code := 0x0B03, subj := u, rep := u, info := i }
        .next (s2.waitOver i w 0x0B03).crzDrain

/-- The partition for which a host write to flag `i` acts (R282): the owner for the PF, a VF's own when it owns the flag. -/
def State.hostFlagPt (s : State) (fn i : Nat) : Option Nat :=
  match s.flagOwner i with
  | none => none
  | some q => if fn = 0 then (if s.isConf q && q != 0 then none else some q) else if q = fn then some q else none

/-- The host has written a flag register of `q` (R305). -/
def State.hostWrote (s : State) (q : Nat) : State := { s with gs := { s.gs with hostAt := s.gs.hostAt.put q s.now } }

/-- A host write to a flag register that R282 refuses: 0x0B01 for the PF; a VF's offset does not decode (R27, R28). -/
def State.hostFlagRefused (s : State) (fn i : Nat) : State := if fn = 0 then s.report 0 { code := 0x0B01, info := i } else s

/-- FLAG_VALUE_WRITE (R282, R284): a set of the owner. -/
def execFlagValueWrite (fn : Fin 16) (i : Fin 32768) (value : BitVec 32) (ue : Bool) (s : State) : Res :=
  match s.hostFlagPt fn i with
  | none => .next (s.hostFlagRefused fn i)
  | some q => .next (((s.flagWord i ue).hostWrote q).flagSet q i value.toNat ⟨0x30, fn⟩).1.crzDrain

/-- FLAG_ADD_WRITE (R282, R284, R285): a signal of the owner; 0 is refused with 0x0B01. -/
def execFlagAddWrite (fn : Fin 16) (i : Fin 32768) (value : BitVec 32) (ue : Bool) (s : State) : Res :=
  match s.hostFlagPt fn i with
  | none => .next (s.hostFlagRefused fn i)
  | some q =>
    if value = 0#32 then .next (s.report fn { code := 0x0B01, info := i })
    else .next (((s.flagWord i ue).hostWrote q).flagSignal q i value.toNat ⟨0x30, fn⟩).1.crzDrain

end Sys2Proof.Machine
end

