-- ==== Sys2Proof/Machine/Tensor.lean ====
section
/-! DEFINITION. Sys2Proof/Machine/Tensor.lean: the T class of Trerok instructions (10_trerok_tensor_vector, R240 to R250): tile
loads and stores through tensor descriptors, matrix multiply-accumulate and tile clearing. -/

namespace Sys2Proof.Machine

/-- Bits lo to lo + w - 1 of word `i` as a mask. -/
def wm (i lo w : Nat) : Nat := (2 ^ w - 1) * 2 ^ (32 * i + lo)

/-- Class and opcode, which every format has. -/
def wmOp : Nat := wm 0 20 12

/-! ### Tiles (R243) -/

/-- Why an element of a tile is not transferred: the code, and for 0x0503 the cause with its address. -/
structure TileFault where
  code : Nat
  f : XFault := ⟨0, false⟩
  addr : Nat := 0
deriving DecidableEq, Repr

/-- The view coordinate of (r, e) of a tile, the number of its view row, and whether it lies in the view. -/
def Tile.coord (t : Tile) (dims : List Nat) (r e : Nat) : List Nat × Nat × Bool :=
  let base := ((List.range dims.length).filter (1 ≤ ·)).foldl
    (fun a d => a + t.origin.getD d 0 * ((List.range d).filter (1 ≤ ·)).foldl (fun m k => m * dims.getD k 1) 1) 0
  let rows := (dims.drop 1).foldl (· * ·) 1
  let rr := base + r
  let rest := ((List.range dims.length).filter (1 ≤ ·)).map fun d =>
    rr / ((List.range d).filter (1 ≤ ·)).foldl (fun m k => m * dims.getD k 1) 1 % dims.getD d 1
  let i0 := t.origin.getD 0 0 + e
  (i0 :: rest, rr, i0 < dims.getD 0 1 && rr < rows)

/-- Entry `j` of the index array of a tile, read through R35 when it is used (R180, R181). -/
def State.indexEntry (s : State) (p : Nat) (t : Tile) (j : Nat) : Except TileFault Nat :=
  match s.readDva p (t.idxBase + 4 * j) 4 with
  | .refused f a => .error ⟨0x0503, f, a⟩
  | .bus a => .error ⟨0x0907, ⟨0, false⟩, a⟩
  | .data bs bad => if bad then .error ⟨0x050E, ⟨0, false⟩, t.idxBase + 4 * j⟩ else .ok (ofLE bs)

/-- What (r, e) of a tile selects (R243, R177 to R181): nothing when it is masked, padding or skipped, a source element, or a
fault. -/
def State.tileElem (s : State) (p : Nat) (t : Tile) (r e : Nat) : Except TileFault (Option (List Nat)) :=
  let d := t.desc
  let dims := d.viewDims t.count
  let (v, _, inside) := t.coord dims r e
  if !inside then (if t.mask then .ok none else .error ⟨0x0503, ⟨1, false⟩, (d.elemAddr v).1 % 2 ^ 64⟩)
  else
    let idx : Except TileFault Nat := if d.isIndexed then s.indexEntry p t (v.getD d.gdim 0) else .ok 0
    match idx with
    | .error x => .error x
    | .ok j =>
      match d.select t.count t.skip (fun _ => j) v with
      | .elem i => .ok (some i)
      | .zero => .ok none
      | .outside => .error ⟨0x0503, ⟨1, false⟩, (d.elemAddr v).1 % 2 ^ 64⟩
      | .badIndex => .error ⟨0x0503, ⟨2, false⟩, (d.elemAddr (v.set d.gdim j)).1 % 2 ^ 64⟩

/-- Bytes that the code of a source element touches. -/
def Desc.codeLen (d : Desc) (bit : Nat) : Nat := (bit + d.bits + 7) / 8

/-- The elements of a tile in order: rows, then elements. -/
def Tile.elems (t : Tile) : List (Nat × Nat) := (List.range t.e1).flatMap fun r => (List.range t.e0).map fun e => (r, e)

/-- Read `n` bytes at `a` as a tile access: a fault, or the bytes and their poison; the native mode stops at poison (0x0607). -/
def State.tileRead (s : State) (p a n : Nat) : Except TileFault (List Byte × Bool) :=
  match s.readDva p a n with
  | .refused f x => .error ⟨0x0503, f, x⟩
  | .bus x => .error ⟨0x0907, ⟨0, false⟩, x⟩
  | .data bs bad => if bad && !s.rdB (Reg.QM_PT_MODE p) 0 then .error ⟨0x0607, ⟨0, false⟩, a⟩ else .ok (bs, bad)

/-- Check the addresses of a tile without its data (R264 check 6): the first fault. -/
def State.tileCheck (s : State) (p : Nat) (t : Tile) : List (Nat × Nat) → Option TileFault
  | [] => none
  | (r, e) :: l =>
    match s.tileElem p t r e with
    | .error x => some x
    | .ok none => State.tileCheck s p t l
    | .ok (some i) =>
      let (a, b) := t.desc.elemAddr i
      let sc := if t.desc.scaleType = 0 then [] else [(t.desc.scaleAddr i, 1)]
      match s.xlateAll p .read false (pieces a (t.desc.codeLen b) ++ sc) with
      | .error (f, x) => some ⟨0x0503, f, x⟩
      | .ok ps => if ps.any (fun y => targetOf y.1 == .undecoded) then some ⟨0x0907, ⟨0, false⟩, a⟩ else State.tileCheck s p t l

/-- The 64-byte granules of the Silair window that a tile reads. -/
def State.tileRemote (s : State) (p : Nat) (t : Tile) : List (Nat × Nat) → List Nat
  | [] => []
  | (r, e) :: l =>
    match s.tileElem p t r e with
    | .ok (some i) =>
      let (a, b) := t.desc.elemAddr i
      let sc := if t.desc.scaleType = 0 then [] else [(t.desc.scaleAddr i, 1)]
      match s.xlateAll p .read false (pieces a (t.desc.codeLen b) ++ sc) with
      | .ok ps => (ps.filter fun y => targetOf y.1 == .link).foldl (fun acc y => insSorted (y.1 / 64) acc) (State.tileRemote s p t l)
      | .error _ => State.tileRemote s p t l
    | _ => State.tileRemote s p t l

/-- Transfer one element of a load into the Frond's panels (R241, R244). -/
def State.loadElem (s : State) (p : Nat) (t : Tile) (f : Frond) (r e : Nat) : Except TileFault Frond :=
  match s.tileElem p t r e with
  | .error x => .error x
  | .ok none => .ok f
  | .ok (some i) =>
    let d := t.desc
    let (a, b) := d.elemAddr i
    match s.tileRead p a (d.codeLen b) with
    | .error x => .error x
    | .ok (bs, bad) =>
      let at_ := t.spv + r * panelPitch t.e0 d.bits
      let f1 := f.putCode at_ (e * d.bits) d.bits (fld (ofLE bs) b d.bits)
      let f2 := if bad then f1.markLine ((at_ + e * d.bits / 8) / 64) true else f1
      if d.scaleType = 0 then .ok f2
      else
        match s.tileRead p (d.scaleAddr i) 1 with
        | .error x => .error x
        | .ok (sb, sbad) =>
          let sa := t.sps + r * scalePitch t.e0 + e / 32
          let f3 := f2.setScr sa sb
          .ok (if sbad then f3.markLine (sa / 64) true else f3)

/-- Transfer elements in order until the first fault. -/
def State.loadElems (s : State) (p : Nat) (t : Tile) (f : Frond) : List (Nat × Nat) → Frond × Option TileFault
  | [] => (f, none)
  | (r, e) :: l =>
    match s.loadElem p t f r e with
    | .error x => (f, some x)
    | .ok f' => State.loadElems s p t f' l

/-- The panels of a tile filled with zero bytes, their marks cleared (R241, R244). -/
def Frond.clearPanels (f : Frond) (t : Tile) : Frond :=
  t.panels.foldl (fun f x => (linesOf x.1 x.2).foldl (fun f k => f.markLine k false) (f.setScr x.1 (leBytes x.2 0))) f

/-- Load a whole tile. -/
def State.loadTile (s : State) (n p : Nat) (t : Tile) : State × Option TileFault :=
  let (f, x) := s.loadElems p t ((s.tc n).clearPanels t) t.elems
  (s.setTc n f, x)

/-- Value and scale bytes of a tile's panels, without the zero bytes past a row's end (DBG_TC_n_LOAD_BYTES, R540). -/
def Tile.bytes (t : Tile) : Nat :=
  t.e1 * ((t.e0 * t.desc.bits + 7) / 8 + (if t.desc.scaleType = 0 then 0 else (t.e0 + 31) / 32))

/-- Raise a tile's fault (R177, R264): 0x0503 with its latch; the code, and whether the report is made. -/
def State.tileFault (s : State) (n p handle : Nat) (x : TileFault) : State × Nat × Bool :=
  if x.code = 0x0503 then (s.oob p (uTc n) (some handle) x.f x.addr, 0x0503, true) else (s, x.code, false)

/-! ### Operands of TLOAD and TSTORE (R242, R243, R264) -/

/-- The handle of a tile instruction. -/
def Frond.tileHandle (f : Frond) (w : Nat) : Nat := if bitAt w 17 then f.sreg (wfld w 1 18 6) % 65536 else wfld w 0 0 16

/-- The tile that a word names over a descriptor image. -/
def Frond.tileOf (f : Frond) (w : Nat) (image : List Byte) (count idxBase : Nat) (skip : Bool) : Tile :=
  let crd := wfld w 1 12 6
  { handle := f.tileHandle w, image := image, count := count, idxBase := idxBase, skip := skip
    origin := (List.range (Desc.ofBytes image).rank).map fun d => f.sreg (crd + d)
    e0 := wfld w 2 0 12 + 1, e1 := wfld w 2 12 8 + 1, mask := bitAt w 16
    spv := f.sreg (wfld w 1 0 6), sps := f.sreg (wfld w 1 6 6) }

/-- The encoding of a tile instruction (check 1). -/
def tileWordOk (w : Nat) : Bool :=
  let m := wmOp ||| wm 0 16 2 ||| wm 0 0 16 ||| wm 1 0 24 ||| wm 2 0 20
  (w &&& m == w) && wfld w 1 12 6 ≤ 59 && (if bitAt w 17 then wfld w 0 0 16 == 0 else wfld w 1 18 6 == 0)

/-- The rank of the view. -/
def Desc.viewRank (d : Desc) : Nat := d.rank

/-- A scalar that steers a tile instruction carries a mark (R266, check 2); `rank` coordinates are read. -/
def Frond.tileSteerBad (f : Frond) (w rank : Nat) (scaled : Bool) : Bool :=
  f.sMark (wfld w 1 0 6) || (scaled && f.sMark (wfld w 1 6 6)) || (bitAt w 17 && f.sMark (wfld w 1 18 6)) ||
  (List.range rank).any fun d => f.sMark (wfld w 1 12 6 + d)

/-- The alignment rules of R243 (0x060A). -/
def Tile.aligned (t : Tile) : Bool :=
  let d := t.desc
  let o := t.origin.getD 0 0
  let m := if d.bits = 4 then 2 else if d.bits = 6 then 4 else 1
  (d.scaleType == 0 || o % 32 == 0) && o % m == 0 &&
  (t.e0 % m == 0 || (d.viewDims t.count).getD 0 1 ≤ o + t.e0)

/-- An origin above dimension 0 that lies outside the view raises 0x0503 whatever MASK holds (R243). -/
def Tile.originOk (t : Tile) : Bool :=
  let dims := t.desc.viewDims t.count
  (List.range dims.length).all fun d => d == 0 || t.origin.getD d 0 < dims.getD d 1

/-- The scratch extents of a tile (check 3). -/
def Tile.scratchOk (t : Tile) : Bool := t.panels.all fun x => Machine.scratchOk x.1 x.2

/-- Checks 1 to 5 of a tile instruction (R264): a failure with its state, code and whether it is raised, or the tile. `perm`
is the bit of FLAGS it needs (0 READ, 1 WRITE). -/
def State.tileOperands (s : State) (n w perm : Nat) : Except (State × Nat × Bool) (State × Tile) :=
  let f := s.tc n
  let p := s.tcPt n
  if !tileWordOk w then .error (s, 0x0601, false)
  else if f.tileSteerBad w 0 false then .error (s, 0x060B, false)
  else
    let h := f.tileHandle w
    match s.capture p h 0xD35C with
    | (.error (code, x), s1) =>
      if !Machine.scratchOk (f.sreg (wfld w 1 0 6)) 0 then .error (s, 0x0602, false)
      else if code = 0x0503 then .error (s1.oob p (uTc n) (some h) x (s1.entryAddr p h), 0x0503, true)
      else .error (s1, code, false)
    | (.ok image, s1) =>
      let d := Desc.ofBytes image
      let idx : Option (Nat × Nat × Bool) := if d.isIndexed then
          (s1.entryImage p d.index 0xD35D).map fun b => (getLE b 0x10 4, getLE b 8 8, bitAt (getLE b 4 4) 0)
        else some (0, 0, false)
      let (count, base, skip) := idx.getD (0, 0, false)
      let t := f.tileOf w image count base skip
      if d.scaleType = 0 ∧ wfld w 1 6 6 ≠ 0 then .error (s1, 0x0601, false)
      else if f.tileSteerBad w d.viewRank (d.scaleType != 0) then .error (s1, 0x060B, false)
      else if !t.aligned then .error (s1, 0x060A, false)
      else if !t.scratchOk then .error (s1, 0x0602, false)
      else if idx.isNone then .error (s1, 0x0506, false)
      else if !bitAt d.flags perm then .error (s1, 0x0508, false)
      else .ok (s1, t)

/-- Writes of this agent to other devices are outstanding (R417). -/
def State.remoteOpen (s : State) (u : UnitId) (kind : Nat) : Bool := s.lnk.outstanding.any fun r => r.agent == u && r.kind == kind

/-- TLOAD (R242 to R244, R246). -/
def loadBody (n : Nat) (s : State) (w pc : Nat) : Issue :=
  match s.tileOperands n w 0 with
  | .error (s1, code, raised) => .fail s1 code raised
  | .ok (s1, t) =>
    let p := s1.tcPt n
    let f := s1.tc n
    if t.panels.any (fun x => f.loadBusy x.1 x.2 || f.mmaReads x.1 x.2) then .stall
    else if !t.originOk then
      let (s2, code, raised) := s1.tileFault n p t.handle ⟨0x0503, ⟨1, false⟩, (t.desc.elemAddr t.origin).1 % 2 ^ 64⟩
      .fail s2 code raised
    else
      match s1.tileCheck p t t.elems with
      | some x =>
        let (s2, y) := s1.loadTile n p t
        let (s3, code, raised) := s2.tileFault n p t.handle (y.getD x)
        .fail s3 code raised
      | none =>
        let far := s1.tileRemote p t t.elems
        if !far.isEmpty && s1.remoteOpen (uTc n) 1 then .stall
        else
          let s2 := far.foldl (fun s g => s.sendRemote 2 (s.physDev (fld (g * 64) 39 7)) p (uTc n) (g * 64) 64 []) s1
          let l : Load := { id := f.nextId, pc := pc, tile := t }
          .ok (s2.setTc n { s2.tc n with loads := f.loads ++ [l], nextId := f.nextId + 1 }) (pc + 16)

/-- TLOAD. -/
def execTload (n : Fin 32) (chk : FrondCheck) (s : State) : Res := .next (s.issue n 1 2 chk (loadBody n))

/-- TLOAD_COMPLETE (R244, R366, R368): the data of the oldest outstanding TLOAD arrives; poison stops the operation in the
native mode with 0x0607 at the instruction's DVA, and marks the lines otherwise. -/
def execTloadComplete (n : Fin 32) (s : State) : Res :=
  let f := s.tc n
  match f.loads with
  | [] => .next s
  | l :: ls =>
    if s.remoteOpen (uTc n) 2 then .next s
    else
      let p := s.tcPt n
      let s1 := s.setTc n { f with loads := ls }
      let (s2, x) := s1.loadTile n p l.tile
      match x with
      | some y =>
        let (s3, code, raised) := s2.tileFault n p l.tile.handle y
        let g := s3.tc n
        .next ((s3.setTc n { g with pc := l.pc, rels := g.rels.filter fun (r : Release) => !r.needs.contains l.id }).frondStop n code raised)
      | none =>
        let b := l.tile.bytes
        let s3 := (s2.bump (Reg.DBG_TC_LOAD_BYTES n) b).chargeShare p b
        let s4 := s3.setTc n { s3.tc n with bytes := (s3.tc n).bytes + b }
        .next (s4.accessDone n l.id)

/-! ### TSTORE (R173, R174, R182, R226 to R228, R245) -/

/-- The block base that a source element lies in (R174). -/
def Desc.blockBase (d : Desc) (i : List Nat) : Nat :=
  if d.layout = 0 then (d.elemAddr (i.set 0 0)).1
  else (d.elemAddr ((i.set 0 (i.getD 0 0 / d.bc * d.bc)).set 1 (i.getD 1 0 / d.br * d.br))).1

/-- Padding bytes of the block of a source element in the blocked layout (R172, R173): address and length of each run. -/
def Desc.padding (d : Desc) (i : List Nat) : List (Nat × Nat) :=
  if d.layout = 0 then []
  else
    let b := d.blockBase i
    let c0 := i.getD 0 0 / d.bc * d.bc
    let r0 := i.getD 1 0 / d.br * d.br
    let cols := min d.bc (d.dimAt 0 - c0) * d.bits / 8
    (List.range d.br).filterMap fun r =>
      if d.dimAt 1 ≤ r0 + r then some (b + 64 * r, 64)
      else if cols < 64 then some (b + 64 * r + cols, 64 - cols) else none

/-- CMP_MODE covers a view coordinate (R188). -/
def Desc.covers (d : Desc) (v : List Nat) : Bool :=
  d.cmpMode == 0 || (d.cmpMode == 2 && d.cmpLo ≤ v.getD d.cmpDim 0 && v.getD d.cmpDim 0 < d.cmpHi)

/-- Elements that one store access moves: as many as fill whole bytes. -/
def Desc.group (d : Desc) : Nat := if d.bits = 4 then 2 else if d.bits = 6 then 4 else 1

/-- XOR `x` into the entry of `k`. -/
def xorIn (t : Tab Nat) (k x : Nat) : Tab Nat := t.put k (t.getD k 0 ^^^ x)

/-- Enter a stored group into the digest of its handle (R226 to R228). -/
def Digest.enter (g : Digest) (d : Desc) (v : List Nat) (rr n0 : Nat) (codes : List Nat) (scale : Option Nat) (bad : Bool) : Digest :=
  let g1 := (codes.zipIdx).foldl (fun g x =>
    let v1 := v.set 0 (v.getD 0 0 + x.2)
    if d.covers v1 then
      { g with codes := xorIn g.codes (rr * n0 + v1.getD 0 0) x.1, stored := g.stored + 1, poison := g.poison || bad }
    else g) g
  match scale with
  | none => g1
  | some b => { g1 with scales := xorIn g1.scales (rr * 2 ^ 32 + v.getD 0 0 / 32) b }

/-- Change the digest of a handle. -/
def Frond.setDigest (f : Frond) (h : Nat) (u : Digest → Digest) : Frond :=
  { f with digests := f.digests.map fun g => if g.handle = h then u g else g }

/-- One write of a store. -/
def State.tileWrite (s : State) (n p a : Nat) (bs : List Byte) (bad : Bool) : Except TileFault State :=
  match s.writeDva p (uTc n) a bs bad with
  | .refused f x => .error ⟨0x0503, f, x⟩
  | .bus x => .error ⟨0x0907, ⟨0, false⟩, x⟩
  | .done s' => .ok (s'.bump (Reg.DBG_TC_STORE_BYTES n) bs.length)

/-- Writes in order. -/
def State.tileWrites (s : State) (n p : Nat) : List (Nat × List Byte × Bool) → Except TileFault State
  | [] => .ok s
  | (a, bs, bad) :: l =>
    match s.tileWrite n p a bs bad with
    | .error x => .error x
    | .ok s' => State.tileWrites s' n p l

/-- The value, scale and padding writes of the group of elements at (r, e) that goes to source element `i`. -/
def Frond.groupWrites (f : Frond) (t : Tile) (r e : Nat) (i : List Nat) : List (Nat × List Byte × Bool) :=
  let d := t.desc
  let at_ := t.spv + r * panelPitch t.e0 d.bits + e * d.bits / 8
  let len := d.group * d.bits / 8
  let sa := t.sps + r * scalePitch t.e0 + e / 32
  ((d.elemAddr i).1, f.scr at_ len, f.scrMark at_ len) ::
    ((if d.scaleType != 0 && e % 32 == 0 then [(d.scaleAddr i, f.scr sa 1, f.scrMark sa 1)] else []) ++
     (if e = 0 ∨ i.getD 0 0 % d.bc = 0 then (d.padding i).map fun x => (x.1, leBytes x.2 0, false) else []))

/-- Store the group of elements at (r, e): a fault, or the state with its digest. -/
def State.storeGroup (s : State) (n p : Nat) (t : Tile) (r e : Nat) : Except TileFault State :=
  match s.tileElem p t r e with
  | .error x => .error x
  | .ok none => .ok s
  | .ok (some i) =>
    let f := s.tc n
    let d := t.desc
    let ws := f.groupWrites t r e i
    match s.tileWrites n p ws with
    | .error x => .error x
    | .ok s1 =>
      let s2 := if (e = 0 ∨ (d.layout = 1 ∧ i.getD 0 0 % d.bc = 0)) ∧ d.blockBase i % 128 ≠ 0
        then s1.bump (Reg.TC_MISALIGNED n) 1 else s1
      let s3 := s2.chargeShare p (d.group * d.bits / 8)
      if d.cmpMode = 1 then .ok s3
      else
        let dims := d.viewDims t.count
        let (v, rr, _) := t.coord dims r e
        let at_ := t.spv + r * panelPitch t.e0 d.bits
        let codes := (List.range (min d.group (t.e0 - e))).map fun k => f.scrCode at_ ((e + k) * d.bits) d.bits
        let sc := if d.scaleType != 0 && e % 32 == 0 then some (getLE (f.scr (t.sps + r * scalePitch t.e0 + e / 32) 1) 0 1) else none
        let bad := ws.any fun x => x.2.2
        .ok (s3.setTc n ((s3.tc n).setDigest t.handle fun g => g.enter d v rr (dims.getD 0 1) codes sc bad))

/-- The groups of a tile in order. -/
def Tile.groups (t : Tile) : List (Nat × Nat) :=
  let g := t.desc.group
  (List.range t.e1).flatMap fun r => (List.range ((t.e0 + g - 1) / g)).map fun k => (r, k * g)

/-- Store groups in order until the first fault. -/
def State.storeGroups (s : State) (n p : Nat) (t : Tile) : List (Nat × Nat) → State × Option TileFault
  | [] => (s, none)
  | (r, e) :: l =>
    match s.storeGroup n p t r e with
    | .error x => (s, some x)
    | .ok s' => State.storeGroups s' n p t l

/-- TSTORE (R242, R243, R245, R226). -/
def storeBody (n : Nat) (s : State) (w pc : Nat) : Issue :=
  match s.tileOperands n w 1 with
  | .error (s1, code, raised) => .fail s1 code raised
  | .ok (s1, t) =>
    let p := s1.tcPt n
    let f := s1.tc n
    match f.slot0 with
    | none => .stall
    | some x =>
      let known := f.digests.any fun g => g.handle == t.handle
      if !f.loads.isEmpty then .stall
      else if t.desc.cmpMode != 1 && !known && 8 ≤ f.digests.length then .fail s1 0x0609 false
      else if !t.originOk then
        let (s2, code, raised) := s1.tileFault n p t.handle ⟨0x0503, ⟨1, false⟩, (t.desc.elemAddr t.origin).1 % 2 ^ 64⟩
        .fail s2 code raised
      else
        let ds := if t.desc.cmpMode = 1 ∨ known then f.digests
          else f.digests ++ [{ handle := t.handle, image := t.image, count := t.count }]
        let s2 := s1.setTc n { f with digests := ds, nextId := f.nextId + 1, stores := f.stores ++ [(f.nextId, x.cid)] }
        let (s3, y) := s2.storeGroups n p t t.groups
        match y with
        | some z =>
          let (s4, code, raised) := s3.tileFault n p t.handle z
          .fail s4 code raised
        | none => .ok s3 (pc + 16)

/-- TSTORE. -/
def execTstore (n : Fin 32) (chk : FrondCheck) (s : State) : Res := .next (s.issue n 1 3 chk (storeBody n))

/-- TSTORE_COMPLETE (R277, R417): the writes of the oldest outstanding TSTORE of Frond `n` are globally visible. -/
def execTstoreComplete (n : Fin 32) (s : State) : Res :=
  let f := s.tc n
  match f.stores with
  | [] => .next s
  | x :: xs => if s.remoteOpen (uTc n) 1 then .next s else .next ((s.setTc n { f with stores := xs }).accessDone n x.1)

/-! ### MMA and TCLR (R247 to R250) -/

/-- The fields of an MMA word (R247). -/
structure MmaWord where
  clear : Bool
  ta : Nat
  tb : Nat
  acc : Nat
  av : Nat
  as_ : Nat
  bv : Nat
  bs : Nat
  at_ : Nat
  m : Nat
  n : Nat
  klen : Nat
  bt : Nat
  kbase : Nat
deriving DecidableEq, Repr

/-- Read the fields. -/
def mmaWord (w : Nat) : MmaWord where
  clear := bitAt w 16
  ta := wfld w 0 0 5
  tb := wfld w 0 5 5
  acc := wfld w 0 10 3
  av := wfld w 1 0 6
  as_ := wfld w 1 6 6
  bv := wfld w 1 12 6
  bs := wfld w 1 18 6
  at_ := wfld w 1 24 6
  m := wfld w 2 0 7 + 1
  n := wfld w 2 7 6 + 1
  klen := wfld w 2 13 12 + 1
  bt := wfld w 2 25 6
  kbase := wfld w 3 0 32

/-- The KLEN and KBASE rules of one operand type (R247). -/
def kRulesOk (t klen kbase : Nat) : Bool :=
  let b := codeBits (elemType t)
  (!isScaled t || kbase % 32 == 0) && (b != 4 || klen % 2 == 0) && (b != 6 || klen % 4 == 0)

/-- The encoding of an MMA (check 1; R247, R248). -/
def MmaWord.ok (i : MmaWord) (w : Nat) : Bool :=
  let mask := wmOp ||| wm 0 16 1 ||| wm 0 0 13 ||| wm 1 0 30 ||| wm 2 0 31 ||| wm 3 0 32
  (w &&& mask == w) && mmaType i.ta && mmaType i.tb && (isScaled i.ta || i.as_ == 0) && (isScaled i.tb || i.bs == 0) &&
  (i.ta == 0x18 || i.at_ == 0) && (i.tb == 0x18 || i.bt == 0) && kRulesOk i.ta i.klen i.kbase && kRulesOk i.tb i.klen i.kbase

/-- The integer path (R248, R209). -/
def MmaWord.intPath (i : MmaWord) : Bool := isIntType i.ta && isIntType i.tb

/-- The scratch ranges of an operand: values, and scales of a scaled type. -/
def operandRanges (t rows klen v sc : Nat) : List (Nat × Nat) :=
  (v, rows * panelPitch klen (codeBits (elemType t))) :: (if isScaled t then [(sc, rows * scalePitch klen)] else [])

/-- Element `x` of row `r` of a panel: its code and the scale byte of its block (R241). -/
def Frond.panelCode (f : Frond) (t klen v sc r x : Nat) : Nat × Nat :=
  let b := codeBits (elemType t)
  (f.scrCode (v + r * panelPitch klen b) (x * b) b,
   if isScaled t then getLE (f.scr (sc + r * scalePitch klen + x / 32) 1) 0 1 else 0)

/-- The indices of chunk `j` relative to KBASE (R249). -/
def MmaWord.chunk (i : MmaWord) (l j : Nat) : List Nat :=
  ((List.range l).map (j * l + ·)).filterMap fun k => if i.kbase ≤ k ∧ k < i.kbase + i.klen then some (k - i.kbase) else none

/-- The chunks that an MMA covers, ascending. -/
def MmaWord.chunks (i : MmaWord) : List (List Nat) :=
  let l := chunkLen i.ta i.tb
  (List.range ((i.kbase + i.klen - 1) / l - i.kbase / l + 1)).map fun j => i.chunk l (i.kbase / l + j)

/-- Row `r` of an operand: element codes and scales. -/
def Frond.panelRow (f : Frond) (t klen v sc r : Nat) : List (Nat × Nat) := (List.range klen).map fun x => f.panelCode t klen v sc r x

/-- One element of the tile after an MMA: the code and the status bits (R249, R206, R207, R209). -/
def MmaWord.elem (i : MmaWord) (ps : Val × Nat) (a b : List (Nat × Nat)) (acc0 : Nat) : Nat × Nat :=
  if i.intPath then
    i.chunks.foldl (fun x ks =>
      let c := ks.foldl (fun (y : Int) k => y + intVal i.ta (a.getD k (0, 0)).1 * intVal i.tb (b.getD k (0, 0)).1) 0
      let (v, st) := accInt x.1 c
      (v, x.2 ||| st)) (acc0, 0)
  else
    i.chunks.foldl (fun x ks =>
      let prods := ks.map fun k =>
        (scaledVal i.ta (a.getD k (0, 0)).1 (a.getD k (0, 0)).2, scaledVal i.tb (b.getD k (0, 0)).1 (b.getD k (0, 0)).2)
      let (c, st) := chunkFloat prods ps
      let (v, st') := accFloat x.1 c
      (v, x.2 ||| st ||| st')) (acc0, 0)

/-- A mark on any line of row `r` of an operand. -/
def Frond.rowMark (f : Frond) (t klen v sc r : Nat) : Bool :=
  let pv := panelPitch klen (codeBits (elemType t))
  f.scrMark (v + r * pv) pv || (isScaled t && f.scrMark (sc + r * scalePitch klen) (scalePitch klen))

/-- The tile after an MMA, with its marks (R249, R266), and the status bits. -/
def Frond.mma (f : Frond) (i : MmaWord) : Frond × Nat :=
  let av := f.sreg i.av
  let as_ := f.sreg i.as_
  let bv := f.sreg i.bv
  let bs := f.sreg i.bs
  let ps := tensorScale i.ta i.tb (f.sreg i.at_ % 2 ^ 32) (f.sreg i.bt % 2 ^ 32)
  let cols := (List.range i.n).map fun n => (f.panelRow i.tb i.klen bv bs n, f.rowMark i.tb i.klen bv bs n)
  let f0 := if i.clear then
      { f with accInt := if i.intPath then insSorted i.acc f.accInt else f.accInt.filter (· != i.acc) }
    else f
  (List.range i.m).foldl (fun (x : Frond × Nat) m =>
    let a := f.panelRow i.ta i.klen av as_ m
    let bad := f.rowMark i.ta i.klen av as_ m
    let y := (cols.zipIdx).foldl (fun (y : Frond × Nat) c =>
      let (v, st) := i.elem ps a c.1.1 (if i.clear then 0 else f.elem i.acc m c.2)
      (y.1.setElem i.acc m c.2 v, y.2 ||| st)) x
    let g := (List.range 4).foldl (fun (g : Frond) k =>
      let here := (cols.zipIdx).filter fun c => c.2 / 16 == k
      let hit := !here.isEmpty && (bad || here.any fun c => c.1.2)
      let key := accGroup i.acc m (16 * k)
      if hit then { g with accBad := insSorted key g.accBad }
      else if i.clear && here.length = 16 then { g with accBad := g.accBad.filter (· != key) } else g) y.1
    (g, y.2)) (f0, 0)

/-- Add MACs to a matrix counter of Frond `n` and to that of its partition, in units of 1,024 with the remainder kept (R540). -/
def State.macAdd (s : State) (a : Nat) (pt : Option Nat) (macs : Nat) : State :=
  let r := s.dbg.macRem.getD a 0 + macs
  let s1 := { s with dbg := { s.dbg with macRem := Tab.write (fun _ => 0) s.dbg.macRem a (r % 1024) } }
  let s2 := if r / 1024 = 0 then s1 else s1.bump a (r / 1024)
  match pt with
  | some b => if r / 1024 = 0 then s2 else s2.bump b (r / 1024)
  | none => s2

/-- The counts of an MMA (R540, R551). -/
def State.mmaCount (s : State) (n p : Nat) (i : MmaWord) : State :=
  let macs := i.m * i.n * i.klen
  let l := chunkLen i.ta i.tb
  let s1 := s.macAdd (Reg.DBG_TC_MMA n i.ta) none macs
  let s2 := if l = 128 then s1.macAdd (Reg.DBG_TC_MMA_4B n) (some (Reg.DBG_PT_MAC_4B p)) macs
    else if l = 64 then s1.macAdd (Reg.DBG_TC_MMA_8B n) (some (Reg.DBG_PT_MAC_8B p)) macs
    else s1.macAdd (Reg.DBG_TC_MMA_16B n) (some (Reg.DBG_PT_MAC_16B p)) macs
  if i.intPath then s2.macAdd (Reg.DBG_TC_MMA_INT n) none macs else s2

/-- MMA (R247 to R249, R217). -/
def mmaBody (n : Nat) (s : State) (w pc : Nat) : Issue :=
  let i := mmaWord w
  let f := s.tc n
  let ra := operandRanges i.ta i.m i.klen (f.sreg i.av) (f.sreg i.as_)
  let rb := operandRanges i.tb i.n i.klen (f.sreg i.bv) (f.sreg i.bs)
  if !i.ok w then .fail s 0x0601 false
  else if f.sMark i.av || f.sMark i.bv || (isScaled i.ta && f.sMark i.as_) || (isScaled i.tb && f.sMark i.bs) ||
      (i.ta == 0x18 && f.sMark i.at_) || (i.tb == 0x18 && f.sMark i.bt) then .fail s 0x060B false
  else if !(ra ++ rb).all (fun x => scratchOk x.1 x.2) then .fail s 0x0602 false
  else if !i.clear && (f.accInt.contains i.acc != i.intPath) then .fail s 0x0603 false
  else if f.tileBusy i.acc || (ra ++ rb).any (fun x => f.loadBusy x.1 x.2) then .stall
  else
    let (f1, st) := f.mma i
    let s1 := (s.setTc n { f1 with mmas := f1.mmas ++ [(i.acc, ra ++ rb)] }).setArith n st
    .ok (s1.mmaCount n (s1.tcPt n) i) (pc + 16)

/-- MMA. -/
def execMma (n : Fin 32) (chk : FrondCheck) (s : State) : Res := .next (s.issue n 1 1 chk (mmaBody n))

/-- MMA_COMPLETE (R216, R218): the oldest running MMA has made its last pass. -/
def execMmaComplete (n : Fin 32) (s : State) : Res := .next (s.setTc n { s.tc n with mmas := (s.tc n).mmas.drop 1 })

/-- TCLR (R250). -/
def tclrBody (n : Nat) (s : State) (w pc : Nat) : Issue :=
  let f := s.tc n
  let tiles := (List.range 8).filter fun t => bitAt w t
  if (w &&& (wmOp ||| wm 0 16 1 ||| wm 0 0 8) ≠ w) ∨ tiles.isEmpty then .fail s 0x0601 false
  else if tiles.any f.tileBusy then .stall
  else
    let f1 := { f with acc := f.acc.filter fun e => !tiles.contains (e.1 / 8192), accBad := f.accBad.filter fun k => !tiles.contains (k / 512) }
    let f2 := { f1 with accInt := if bitAt w 16 then tiles.foldl (fun l t => insSorted t l) f1.accInt else f1.accInt.filter fun t => !tiles.contains t }
    .ok (s.setTc n f2) (pc + 16)

/-- TCLR. -/
def execTclr (n : Fin 32) (chk : FrondCheck) (s : State) : Res := .next (s.issue n 1 4 chk (tclrBody n))

end Sys2Proof.Machine
end

