-- ==== Sys2Proof/Machine/FrondSync.lean ====
section
/-! DEFINITION. Sys2Proof/Machine/FrondSync.lean: the S class of Trerok instructions (11_sync_flags_ordering, R272 to R281). -/

namespace Sys2Proof.Machine

/-- CTX of the trace for the operation of Frond `n` (R544): operation index and RUN. -/
def State.tcCtx (s : State) (n : Nat) : Nat :=
  match (s.tc n).slot0 with
  | none => 0
  | some x =>
    match (s.graphAt x.cid.graph).bind (·.cur) with
    | some r => x.cid.op + r.num * 65536
    | none => x.cid.op

/-- The fields of an S-class word that every flag instruction has: FREG, FLAG and FR agree (R273). -/
def flagFieldsOk (w : Nat) : Bool := if bitAt w 16 then wfld w 0 0 15 == 0 else wfld w 1 0 6 == 0

/-- VREG, VR and IMM agree (R273). -/
def valueFieldsOk (w : Nat) : Bool := if bitAt w 17 then wfld w 2 0 32 == 0 else wfld w 1 6 6 == 0

/-- The flag index. -/
def Frond.flagIndex (f : Frond) (w : Nat) : Nat := if bitAt w 16 then f.sreg (wfld w 1 0 6) else wfld w 0 0 15

/-- The value or target. -/
def Frond.flagValue (f : Frond) (w : Nat) : Nat := if bitAt w 17 then f.sreg (wfld w 1 6 6) % 2 ^ 32 else wfld w 2 0 32

/-- Check 2 of a flag instruction (R274): 0, 0x060A or 0x060B. -/
def Frond.flagOperands (f : Frond) (w : Nat) (needValue nonZero : Bool) : Nat :=
  if (bitAt w 16 && f.sMark (wfld w 1 0 6)) || (needValue && bitAt w 17 && f.sMark (wfld w 1 6 6)) then 0x060B
  else if 32768 ≤ f.flagIndex w || (nonZero && f.flagValue w == 0) then 0x060A else 0

/-- Count an S-class instruction (R540). -/
def State.countSync (s : State) (n : Nat) : State := s.bump (Reg.DBG_TC_SYNC n) 1

/-- A release: it waits for every earlier access of the operation (R277 rule 5). -/
def State.pushRelease (s : State) (n : Nat) (op : FlagOp) (dev : Option Nat) : State :=
  let f := s.tc n
  let own : List (Nat × CopyId) := match f.slot0 with
    | some x => f.stores.filter fun y => y.2 == x.cid
    | none => []
  let r : Release := { needs := f.loads.map (·.id) ++ own.map (·.1), op := op, dev := dev }
  (s.setTc n { f with rels := f.rels ++ [r] }).pushReleases n (f.rels.length + 1)

/-- SIGNAL (R270, R274, R276, R280, R281). -/
def signalBody (n : Nat) (s : State) (w pc : Nat) : Issue :=
  let f := s.tc n
  let p := s.tcPt n
  let dev := wfld w 1 18 7
  let remote := bitAt w 18
  if (w &&& (wmOp ||| wm 0 16 3 ||| wm 0 0 15 ||| wm 1 0 12 ||| wm 1 18 7 ||| wm 2 0 32) ≠ w) ∨ !flagFieldsOk w ∨ !valueFieldsOk w ∨
      (!remote ∧ dev ≠ 0) ∨ (!bitAt w 17 ∧ wfld w 2 0 32 = 0) then .fail s 0x0601 false
  else
    let code := f.flagOperands w true true
    if code ≠ 0 then .fail s code false
    else
      let i := f.flagIndex w
      let isLocal := !remote || dev == s.devId
      if isLocal && !s.owns p 0x33 i then .fail (s.notOwned p (uTc n) i) 0x0503 true
      else
        let op : FlagOp := { isSet := false, flag := i, n := f.flagValue w, pt := p, agent := uTc n, ctx := s.tcCtx n }
        .ok ((s.pushRelease n op (if isLocal then none else some dev)).countSync n) (pc + 16)

/-- SIGNAL. -/
def execFrondSignal (n : Fin 32) (chk : FrondCheck) (s : State) : Res := .next (s.issue n 3 1 chk (signalBody n))

/-- WAIT (R275, R270): issue stalls until the flag unit reports the wait satisfied. -/
def waitBody (n : Nat) (s : State) (w pc : Nat) : Issue :=
  let f := s.tc n
  let p := s.tcPt n
  if (w &&& (wmOp ||| wm 0 16 2 ||| wm 0 0 15 ||| wm 1 0 12 ||| wm 2 0 32) ≠ w) ∨ !flagFieldsOk w ∨ !valueFieldsOk w then
    .fail s 0x0601 false
  else
    let code := f.flagOperands w true false
    if code ≠ 0 then .fail s code false
    else
      let i := f.flagIndex w
      let (s1, c) := s.flagWait p i (f.flagValue w) (uTc n) (s.tcCtx n)
      if c ≠ 0 then .fail s1 c true
      else .ok ((s1.setTc n { s1.tc n with wait := some (i, f.flagValue w) }).countSync n) (pc + 16)

/-- WAIT. -/
def execFrondWait (n : Fin 32) (chk : FrondCheck) (s : State) : Res := .next (s.issue n 3 2 chk (waitBody n))

/-- FSET (R276). -/
def fsetBody (n : Nat) (s : State) (w pc : Nat) : Issue :=
  let f := s.tc n
  let p := s.tcPt n
  if (w &&& (wmOp ||| wm 0 16 2 ||| wm 0 0 15 ||| wm 1 0 12 ||| wm 2 0 32) ≠ w) ∨ !flagFieldsOk w ∨ !valueFieldsOk w then
    .fail s 0x0601 false
  else
    let code := f.flagOperands w true false
    if code ≠ 0 then .fail s code false
    else
      let i := f.flagIndex w
      if !s.owns p 0x33 i then .fail (s.notOwned p (uTc n) i) 0x0503 true
      else
        let op : FlagOp := { isSet := true, flag := i, n := f.flagValue w, pt := p, agent := uTc n, ctx := s.tcCtx n }
        .ok ((s.pushRelease n op none).countSync n) (pc + 16)

/-- FSET. -/
def execFset (n : Fin 32) (chk : FrondCheck) (s : State) : Res := .next (s.issue n 3 3 chk (fsetBody n))

/-- FREAD (R270, R284): a poisoned flag stops the operation with 0x0B05. -/
def freadBody (n : Nat) (s : State) (w pc : Nat) : Issue :=
  let f := s.tc n
  let p := s.tcPt n
  if (w &&& (wmOp ||| wm 0 16 1 ||| wm 0 19 1 ||| wm 0 0 15 ||| wm 1 0 6 ||| wm 1 12 6) ≠ w) ∨ !flagFieldsOk w then .fail s 0x0601 false
  else
    let code := f.flagOperands w false false
    if code ≠ 0 then .fail s code false
    else
      let i := f.flagIndex w
      if !s.owns p 0x33 i then .fail (s.notOwned p (uTc n) i) 0x0503 true
      else if (s.flag i).poisoned then .fail (s.flagPoisonErr i p p (uTc n)) 0x0B05 true
      else .ok ((s.setTc n (f.setS (wfld w 1 12 6) (s.flag i).value)).countSync n) (pc + 16)

/-- FREAD. -/
def execFread (n : Fin 32) (chk : FrondCheck) (s : State) : Res := .next (s.issue n 3 4 chk (freadBody n))

/-- FENCE (R278): issue is held until the accesses its kind names are done. -/
def fenceBody (n : Nat) (s : State) (w pc : Nat) : Issue :=
  let fn := wfld w 1 25 2
  if (w &&& (wmOp ||| wm 1 25 2) ≠ w) ∨ fn = 3 then .fail s 0x0601 false
  else
    let f := s.tc n
    let own : List (Nat × CopyId) := match f.slot0 with
      | some x => f.stores.filter fun y => y.2 == x.cid
      | none => []
    let done := (fn == 1 || f.loads.isEmpty) && (fn == 2 || own.isEmpty)
    .ok ((s.setTc n { f with fence := if done then none else some fn }).countSync n) (pc + 16)

/-- FENCE. -/
def execFrondFence (n : Fin 32) (chk : FrondCheck) (s : State) : Res := .next (s.issue n 3 5 chk (fenceBody n))

end Sys2Proof.Machine
end

