-- ==== Sys2Proof/Machine/Ingress.lean ====
section
/-! DEFINITION. Sys2Proof/Machine/Ingress.lean: sensor ingress (02_sensor_ingress, R38 to R57): ports, streams, frames, seals and
frame records. Stream m is slot m mod 4 of port m div 4. -/

namespace Sys2Proof.Machine

/-- Port `n` as a unit. -/
def uCsi (n : Nat) : UnitId := ⟨0x04, n⟩

/-- Stream `m` as a unit. -/
def uSt (m : Nat) : UnitId := ⟨0x05, m⟩

/-! ### Ports -/

/-- Port `n` is enabled and locked. -/
def State.csiLocked (s : State) (n : Nat) : Bool := s.rdB (Reg.CSI_CTRL n) 0 && s.rdB (Reg.CSI_STATUS n) 0

/-- The enabled streams of port `n`. -/
def State.csiStreams (s : State) (n : Nat) : List Nat := ((List.range 4).map (4 * n + ·)).filter fun m => bitAt (s.st m).cfg 0

/-- The partition of the node that holds stream `m`: of its open frame, its accepted node, or its context's node. -/
def State.stPt (s : State) (m : Nat) : Option Nat :=
  let x := s.st m
  match x.frame, x.node with
  | some f, _ => some f.pt
  | none, some r => some (s.cgPt r.slot)
  | none, none => if bitAt x.cfg 6 then none else (s.ictxOf m).map fun u => s.ictxPt u.1

/-- The partitions with a stream enabled on port `n`, and PT_0 (R54). -/
def State.csiPts (s : State) (n : Nat) : List Nat :=
  (s.csiStreams n).foldl (fun l m => match s.stPt m with
    | some p => insSorted p l
    | none => l) [0]

/-- Report an error of port `n` (R54). -/
def State.csiPortErr (s : State) (n code : Nat) : State :=
  s.errAll (s.csiPts n) { code := code, subj := uCsi n, rep := uCsi n }

/-- An error of class C (R54): CSI_n_ERR_CNT and the sticky bit. -/
def State.csiCount (s : State) (n code : Nat) : State := (s.bump (Reg.CSI_ERR_CNT n) 1).sticky (Reg.CSI_ERR n) (code - 0x0101)

/-- Report an error of stream `m` to partition `p`. -/
def State.stErr (s : State) (m p code : Nat) (info : Nat := 0) : State :=
  s.report p { code := code, subj := uSt m, rep := uCsi (m / 4), info := info }

/-! ### Shadowed registers (R44) -/

/-- The register that holds what was last written. -/
def shadowReg (m : Nat) : ShadowReg → Nat
  | .cfg => Reg.ST_CFG m
  | .dt => Reg.ST_DT m
  | .geom => Reg.ST_GEOM m
  | .sealCfg => Reg.ST_SEAL m
  | .fnumMax => Reg.ST_FNUM_MAX m

/-- The bits of a shadowed register that are not reserved (R55, R57). -/
def shadowMask : ShadowReg → Nat
  | .cfg => 0xF7F
  | .dt => 0x3F3F
  | .geom => 0xFFFFFFFF
  | .sealCfg => 0xF3
  | .fnumMax => 0xFFFF

/-- Every written value of stream `m` takes effect, and PENDING clears. -/
def State.stApply (s : State) (m : Nat) : State :=
  let x := s.st m
  let cfg := s.rdN (Reg.ST_CFG m)
  let rise := bitAt cfg 0 && !bitAt x.cfg 0
  let y := { x with cfg := cfg, dt := s.rdN (Reg.ST_DT m), geom := s.rdN (Reg.ST_GEOM m), sealCfg := s.rdN (Reg.ST_SEAL m),
                    fnumMax := s.rdN (Reg.ST_FNUM_MAX m) }
  (s.setSt m (if rise then { y with seq := 0, lastNum := none, lastSeal := none } else y)).wrF (Reg.ST_STATUS m) 0 1 0

/-- A written value that clears EN takes effect once no frame is open. -/
def State.stDisable (s : State) (m : Nat) : State :=
  let x := s.st m
  if bitAt x.cfg 0 && !s.rdB (Reg.ST_CFG m) 0 && x.frame.isNone then s.stApply m else s

/-- STREAM_REG_WRITE (R44): at once while the stream is disabled or when EN rises; otherwise PENDING until the next FS, and a write
that clears EN until no frame is open. -/
def execStreamRegWrite (m : Fin 48) (reg : ShadowReg) (value : BitVec 32) (s : State) : Res :=
  let s1 := s.wr (shadowReg m reg) (value.toNat &&& shadowMask reg)
  if !bitAt (s.st m).cfg 0 then .next (s1.stApply m)
  else .next ((s1.wrF (Reg.ST_STATUS m) 0 1 1).stDisable m)

/-! ### Seals and records (R47 to R53) -/

/-- What the seal check of R49 finds: the error codes, TIME, COUNT and the FLAGS of the record. -/
structure SealResult where
  codes : List Nat := []
  time : Nat := 0
  count : Nat := 0
  flags : Nat := 0
  seen : Option Nat := none

/-- The check of a frame's seal by ST_m_SEAL (R49): MAGIC, VERSION and CRC, the MAC with the key of FS, and COUNT. -/
def sealCheck (x : Stream) (f : OpenFrame) : SealResult :=
  let mode := fld x.sealCfg 0 2
  let b := f.sealBytes.getD []
  let present := f.sealBytes.isSome && b.length == 32 && getLE b 0 2 == 0xA5E1
  let crc := (f.crc ^^^ 0xFFFFFFFF#32).toNat
  if mode = 0 then { flags := present.toNat }
  else if !present then { codes := [0x010B] }
  else
    let count := getLE b 4 4
    let c1 := if getLE b 2 1 ≠ 1 ∨ getLE b 16 4 ≠ crc then [0x010C] else []
    let macOk := bitAt (getLE b 3 1) 0 && getLE b 20 1 == fld x.sealCfg 4 4 && (hmac256 f.key (b.take 24)).take 8 == b.drop 24
    let c2 := if mode = 2 ∧ !macOk then [0x010D] else []
    let c3 := match x.lastSeal with
      | some l => if count = (l + 1) % 2 ^ 32 then [] else [0x010E]
      | none => []
    { codes := c1 ++ c2 ++ c3, time := getLE b 8 8, count := count, flags := 1 + (if mode = 2 then 2 else 0), seen := some count }

/-- Note an error in an open frame's record (R53): its STATUS bit, and FIRST_ERR if it is the first. -/
def OpenFrame.note (f : OpenFrame) (code : Nat) : OpenFrame :=
  { f with status := f.status ||| 2 ^ (code - 0x0101), firstErr := if f.firstErr = 0 then code else f.firstErr }

/-- The 64-byte frame record (R53). -/
def frameRecord (m : Nat) (x : Stream) (f : OpenFrame) (feTime : Nat) (r : SealResult) (marking : Bool) : List Byte :=
  let body := leBytes 8 f.fsTime ++ leBytes 8 feTime ++ leBytes 8 r.time ++ leBytes 4 r.count ++
    leBytes 4 (f.crc ^^^ 0xFFFFFFFF#32).toNat ++ leBytes 8 (f.seq % 2 ^ 48) ++ leBytes 4 (f.status + (if marking then 2 ^ 31 else 0)) ++
    leBytes 2 f.firstErr ++ leBytes 2 f.fnum ++ leBytes 2 f.lines ++ leBytes 1 m ++ leBytes 1 f.pt ++ leBytes 2 f.gap ++
    leBytes 1 (fld x.dt 0 6) ++ leBytes 1 (r.flags + (if bitAt x.cfg 6 then 4 else 0)) ++ leBytes 4 f.bytes
  body ++ leBytes 4 (crc32c body)

/-- INST_SEQ of the instance of a node. -/
def State.instNum (s : State) (r : NodeRef) : Nat :=
  match (s.cg r.slot).bind fun x => x.inst r.inst with
  | some i => i.num
  | none => 0

/-- The Crozier frame-end trigger of stream `m` (R51, R134). -/
def State.frameEndTrigger (s : State) (m : Nat) : State :=
  (List.range 64).foldl (fun s g =>
    let cfg := s.rdN (Reg.CRZ_GR_CFG g)
    if bitAt cfg 0 && fld cfg 4 4 == 2 && fld cfg 8 15 == m && (s.cg g).isSome then s.crzFire g else s) s

/-- The open frame of stream `m` ends (R51): the record is written, then ST_m_FE_FLAG and the frame-end trigger follow, and the
launching node of a stream to memory ends with `code`. -/
def State.frameClose (s : State) (m : Nat) (f : OpenFrame) (r : SealResult) (code : Nat) : State :=
  let x := s.st m
  let marking := s.rdB (Reg.QM_PT_MODE f.pt) 0
  let s1 : State := match s.writeDva f.pt (uCsi (m / 4)) f.recA (frameRecord m x f s.now r marking) with
    | .done s' => s'
    | .refused e d => s.oob f.pt (uCsi (m / 4)) none e d
    | .bus d => s.err f.pt (uCsi (m / 4)) 0x0907 d
  let y := s1.st m
  let s2 := s1.setSt m { y with frame := none, lastSeal := match r.seen with
    | some c => some c
    | none => y.lastSeal }
  let s3 := (s2.flagReg f.pt (Reg.ST_FE_FLAG m) 1 (uSt m)).frameEndTrigger m
  let s4 := s3.event (uCsi (m / 4)) 0x02 f.pt code (s3.instNum f.node) f.bytes
  let s5 : State := if f.stopped then s4
    else if !bitAt y.cfg 6 then
      (match code, s4.ictxOf m with
        | 0, some (u, e) => s4.ispInputEnd u e f.node
        | _, _ => s4)
    else if code = 0 then (s4.crzAdvance f.node 0 true).crzDone f.node 0
    else s4.crzDone f.node code
  s5.stDisable m

/-- The pipe ends the frame that an aborted stream feeds, and the node ends with the code (R54, R77). -/
def State.ispIngressAbort (s : State) (m : Nat) (f : OpenFrame) (code : Nat) : State :=
  match s.ictxOf m with
  | none => s
  | some (u, _) =>
    let x := s.ictx u
    (match x.frame with
      | some g => if g.node = f.node then s.ispStop u code else s
      | none => if (x.node.map (·.1)) = some f.node
          then (s.setIctx u { x with node := none, early := [], earlyBad := [], earlyBound := [], earlyEnded := [] }).crzDone f.node code
          else s)

/-- Errors of class A in the open frame of stream `m` (R54), without their reports: in the native mode the frame aborts and what
still comes of it is discarded; in the marking mode it goes on, with its rest poisoned when `rest` holds. -/
def State.frameFault (s : State) (m : Nat) (codes : List Nat) (rest : Bool) : State :=
  let x := s.st m
  match x.frame with
  | none => s
  | some f =>
    let g := codes.foldl OpenFrame.note f
    if s.rdB (Reg.QM_PT_MODE f.pt) 0 then s.setSt m { x with frame := some { g with badRest := g.badRest || rest } }
    else
      let s1 := (s.setSt m { x with frame := some g, unaccepted := true }).event (uCsi (m / 4)) 0x04 f.pt (codes.headD 0) (s.instNum f.node) 0
      let s2 := s1.frameClose m g {} (codes.headD 0)
      if bitAt x.cfg 6 || f.stopped then s2 else s2.ispIngressAbort m g (codes.headD 0)

/-- A port error of class A (R54): every open frame of the port. -/
def State.portFault (s : State) (n code : Nat) : State :=
  ((s.csiStreams n).filter fun m => (s.st m).frame.isSome).foldl (fun s m => s.frameFault m [code] true) (s.csiPortErr n code)

/-! ### Port commands (R39, R56) -/

/-- The fields of CSI_n_CTRL can be used (R56). -/
def csiCtrlOk (v : Nat) : Bool :=
  let rate := fld v 16 16
  if bitAt v 1 then fld v 2 2 != 3 && 80 ≤ rate && rate ≤ 6000 else 80 ≤ rate && rate ≤ 4500

/-- CSI_CTRL_WRITE (R56, R38): setting EN starts calibration, in P0; below P1 the write waits for P0. -/
def execCsiCtrlWrite (n : Fin 12) (value : BitVec 32) (s : State) : Res :=
  let v := value.toNat &&& 0xFFFF001F
  let old := s.rdN (Reg.CSI_CTRL n)
  let rise := bitAt v 0 && !bitAt old 0
  if !csiCtrlOk v then .next (s.csiPortErr n 0x0113)
  else if bitAt old 0 && (fld v 1 3 != fld old 1 3 || fld v 16 16 != fld old 16 16) then .next (s.csiPortErr n 0x0113)
  else if rise && 2 ≤ s.rung then .next { s with pwr := { s.pwr with waitEn := s.pwr.waitEn ++ [(n.val, v)] } }
  else
    let s1 := if rise then s.needP0 else s
    let s2 := s1.wr (Reg.CSI_CTRL n) v
    if rise || !bitAt v 0 then .next (s2.wrF (Reg.CSI_STATUS n) 0 2 0) else .next s2

/-- CSI_CALIBRATION_COMPLETE (R56): LOCKED and CAL_DONE are set. -/
def execCsiCalibrationComplete (n : Fin 12) (s : State) : Res :=
  if s.rdB (Reg.CSI_CTRL n) 0 then .next (s.wrF (Reg.CSI_STATUS n) 0 2 3) else .next s

/-- LANE_LOCK_FAILURE (R54): 0x0112; open frames abort, and no FS is accepted until the port locks again. -/
def execLaneLockFailure (n : Fin 12) (s : State) : Res :=
  if !s.rdB (Reg.CSI_CTRL n) 0 then .next s
  else .next ((s.wrF (Reg.CSI_STATUS n) 0 2 0).portFault n 0x0112).crzDrain

/-- ULPS_TRANSITION (R39): CSI_n_STATUS shows the state of the lane. -/
def execUlpsTransition (n : Fin 12) (lane : Fin 4) (enter : Bool) (s : State) : Res :=
  .next (s.wrF (Reg.CSI_STATUS n) (2 + lane) 1 enter.toNat)

/-! ### Packets (R40 to R54) -/

/-- Virtual channel `vc` of port `n` is that of stream `m` (R57). -/
def State.vcMatch (s : State) (n m vc : Nat) : Bool :=
  let v := fld (s.st m).cfg 1 5
  v == vc && (s.rdB (Reg.CSI_CTRL n) 1 || v < 16)

/-- Bits per pixel of a data type (R40); nothing where the line has no pixels to count. -/
def dtBits (dt : Nat) : Option Nat :=
  match dt with
  | 0x12 => some 8
  | 0x1E => some 16
  | 0x1F => some 20
  | 0x22 => some 16
  | 0x24 => some 24
  | _ => if 0x30 ≤ dt ∧ dt ≤ 0x37 then some 8 else rawBits dt

/-- The payload length that WIDTH asks for (R54); a WIDTH of 0 checks nothing. -/
def widthOk (x : Stream) (len : Nat) : Bool :=
  let w := fld x.geom 0 16
  match dtBits (fld x.dt 0 6) with
  | some b => w == 0 || len == ceilDiv (w * b) 8
  | none => true

/-- A line of a stream to memory (R43): its payload goes to row `row` of the descriptor, as far as the row reaches. -/
def State.memLine (s : State) (m : Nat) (f : OpenFrame) (row : Nat) (line : List Byte) (bad : Bool) : State :=
  let img := (s.st m).out
  if img.isEmpty then s
  else
    let t := Desc.ofBytes img
    let u := uCsi (m / 4)
    let room := if row < t.dimAt 1 then t.dimAt 0 * t.bits / 8 else 0
    let s1 := if line.length ≤ room then s else (s.latchFault f.pt 0 u 1 row).err f.pt u 0x0503 row
    if room = 0 then s1
    else
      match s1.writeDva f.pt u (t.base + row * t.strideAt 1) (line.take room) bad with
      | .done s' => s'
      | .refused e d => s1.oob f.pt u none e d
      | .bus d => s1.err f.pt u 0x0907 d

/-- Forward line `row` of the open frame of stream `m` (R43, R62). -/
def State.forward (s : State) (m : Nat) (f : OpenFrame) (row : Nat) (line : List Byte) (bad : Bool) : State :=
  if f.stopped then s
  else if bitAt (s.st m).cfg 6 then (s.memLine m f row line bad).crzAdvance f.node (row + 1) false
  else
    match s.ictxOf m with
    | none => s
    | some (u, e) =>
      let k := s.ictxExp u
      if bitAt (s.ictxCfg u) 3 then s.ispLine u e row f.node line bad
      else s.ispLine u (row % k) (row / k) f.node line bad

/-- The errors of class A of a long packet of stream `m`, by code (R54). -/
def packetFaults (x : Stream) (image : Bool) (len : Nat) (chk : PktCheck) : List Nat :=
  (if chk.sot then [0x0101] else []) ++ (if chk.crc then [0x0104] else []) ++
    (if image && !widthOk x len then [0x0105] else []) ++ (if chk.overflow then [0x0110] else [])

/-- A long packet of the open frame of stream `m`: an image line is counted, joins the CRC of the payload and is forwarded; a packet of
the seal's type is kept until the next image line (R47, R48). -/
def State.longPacket (s : State) (m : Nat) (f : OpenFrame) (image : Bool) (payload : List Byte) (chk : PktCheck) : State :=
  let x := s.st m
  let g := if image then { f with lines := f.lines + 1, bytes := f.bytes + payload.length, crc := crc32cRun f.crc payload, sealBytes := none }
    else { f with sealBytes := some (payload.take 32) }
  let codes := packetFaults x image payload.length chk
  let s1 := codes.foldl (fun s c => s.stErr m f.pt c) (s.setSt m { x with frame := some g })
  let s2 := if codes.isEmpty then s1 else s1.frameFault m codes false
  if image then s2.forward m g f.lines payload (f.badRest || !codes.isEmpty) else s2

/-- LONG_PACKET (R42, R54): matched by virtual channel and data type; checked, counted and forwarded, or discarded. -/
def execLongPacket (n : Fin 12) (vc : Fin 32) (dt : BitVec 6) (payload : List Byte) (chk : PktCheck) (s : State) : Res :=
  if !s.csiLocked n then .next s
  else if chk.hdrUe then .next (s.portFault n 0x0102).crzDrain
  else
    let s0 := if chk.hdrCe then s.csiCount n 0x0103 else s
    let vcs := (s0.csiStreams n).filter fun m => s0.vcMatch n m vc
    if vcs.isEmpty then
      (if chk.sot then .next (s0.portFault n 0x0101).crzDrain else .next (s0.bump (Reg.CSI_UNMATCHED n) 1))
    else
      match vcs.find? fun m => fld (s0.st m).dt 0 6 == dt.toNat || fld (s0.st m).dt 8 6 == dt.toNat with
      | none => if chk.sot then .next (s0.portFault n 0x0101).crzDrain else .next (s0.csiCount n 0x0111)
      | some m =>
        let x := s0.st m
        match x.frame with
        | none => .next (if x.unaccepted then s0 else s0.csiCount n 0x0108)
        | some f => .next (s0.longPacket m f (fld x.dt 0 6 == dt.toNat) payload chk).crzDrain

/-! ### Frame start (R45, R46, R50, R135) -/

/-- The frame-number check (R46): the error, and the GAP. -/
def numberCheck (x : Stream) (fnum : Nat) : Option (Nat × Nat) :=
  match x.lastNum with
  | none => none
  | some l =>
    let n := x.fnumMax
    if fnum = 0 ∨ n = 0 then none
    else
      let d := (fnum + n - l % n) % n
      if d = 1 % n then none else if 2 ≤ d ∧ d ≤ n / 2 then some (0x0109, d - 1) else some (0x010A, 0)

/-- A slot of the same port below `m` takes the same virtual channel and a data type of `m` (R42). -/
def State.stClash (s : State) (m : Nat) : Bool :=
  let x := s.st m
  ((s.csiStreams (m / 4)).filter (· < m)).any fun k =>
    let y := s.st k
    fld y.cfg 1 5 == fld x.cfg 1 5 &&
      (fld y.dt 0 6 == fld x.dt 0 6 || fld y.dt 0 6 == fld x.dt 8 6 || fld y.dt 8 6 == fld x.dt 0 6 || fld y.dt 8 6 == fld x.dt 8 6)

/-- The record ring of stream `m` meets R50 for partition `p`. -/
def State.recRingOk (s : State) (m p : Nat) : Bool :=
  let d := s.rdN (Reg.ST_REC_DEPTH m)
  let base := s.rdN (Reg.ST_REC_BASE m)
  [4, 8, 16, 32, 64, 128, 256].contains d && base % 64 == 0 && s.regionCovers p base (64 * d) .write

/-- The configuration of stream `m` is valid (R42, R49, R50, R54 to R57). -/
def State.stConfigOk (s : State) (m p : Nat) : Bool :=
  let x := s.st m
  !s.stClash m && (bitAt x.cfg 6 || fld x.cfg 8 4 < 12) && fld x.sealCfg 0 2 != 3 && 2 ≤ x.fnumMax && s.recRingOk m p

/-- Who launches the next frame of stream `m` (R135, R140): the node, its partition, the context with the exposure it fills. -/
def State.launcher (s : State) (m : Nat) : Option (NodeRef × Option (Nat × Nat)) :=
  if bitAt (s.st m).cfg 6 then (s.st m).node.map fun r => (r, none)
  else
    match s.ictxOf m with
    | none => none
    | some (u, e) =>
      let x := s.ictx u
      if e = 0 then (if x.frame.isSome then none else x.node.map fun r => (r.1, some (u, e)))
      else
        match x.frame with
        | some f => if !f.bound.contains e then some (f.node, some (u, e))
            else if x.earlyBound.contains e then none else x.node.map fun r => (r.1, some (u, e))
        | none => if x.earlyBound.contains e then none else x.node.map fun r => (r.1, some (u, e))

/-- Graph `x` holds a node for stream `m` (R135). -/
def State.graphUses (s : State) (x : CGraph) (m : Nat) : Bool :=
  x.nodes.any fun n => s.nodeStream n == some m

/-- An FS that finds no armed node (R135): 0x0404 and MISSED for every loaded and enabled graph with a node for the stream. -/
def State.noArmed (s : State) (m : Nat) : State :=
  let gs := s.crz.graphs.filter fun e => s.rdB (Reg.CRZ_GR_CFG e.1) 0 && s.graphUses e.2 m
  let s1 := if gs.isEmpty then s.report 0 { code := 0x0404, subj := uSt m, rep := uCrozier }
    else gs.foldl (fun s e => (s.crzErr e.1 0x0404 m).bump (Reg.CRZ_GR_MISSED e.1) 1) s
  s1.setSt m { s1.st m with unaccepted := true }

/-- The triggers of kind 0x1 on stream `m` (R134, R135): a graph with a node for the stream fires when its instance has bound this
FS, another graph at every FS. -/
def State.frameStartTrigger (s : State) (m : Nat) (bound : Option Nat) : State :=
  (List.range 64).foldl (fun s g =>
    let cfg := s.rdN (Reg.CRZ_GR_CFG g)
    if bitAt cfg 0 && fld cfg 4 4 == 1 && fld cfg 8 15 == m then
      match s.cg g with
      | none => s
      | some x => if s.graphUses x m && bound != some g then s else s.crzFire g
    else s) s

/-- The output of an ingress node (R43, R141): nothing for handle 0; otherwise a strided plane that can be written. -/
def State.ingressOut (s : State) (p : Nat) (launch : List Byte) : Option (List Byte) × State :=
  let h := getLE launch 8 2
  if h = 0 then (some [], s)
  else
    match s.capture p h 0xD35C with
    | (.error (c, f), s1) => (none, if c = 0x0503 then s1.oob p uCrozier (some h) f 0 else s1.err p uCrozier c h)
    | (.ok b, s1) =>
      let t := Desc.ofBytes b
      if t.canWrite && t.layout == 0 && !t.isIndexed && t.rank == 2 && 8 ≤ t.bits && t.strideAt 0 == t.bits / 8 then (some b, s1)
      else (none, s1.err p uCrozier 0x0504 h)

/-- A frame of stream `m` that is not accepted (class D of R54). -/
def State.frameDrop (s : State) (m p code : Nat) : State :=
  let s1 := (s.stErr m p code).bump (Reg.ST_DROPPED m) 1
  s1.setSt m { s1.st m with unaccepted := true }

/-- What the frame number of an accepted frame shows (R46): its code and the gap are reported. -/
def State.frameGap (s : State) (m p : Nat) (num : Option (Nat × Nat)) : State :=
  match num with
  | some (c, gap) => s.stErr m p c gap
  | none => s

/-- Accept the frame of stream `m` that node `r` launches (R50 to R53): a slot, its record's address, and the consumer told. -/
def State.frameAccept (s : State) (m fnum : Nat) (r : NodeRef) (told : Option (Nat × Nat)) (num : Option (Nat × Nat)) : State :=
  let x := s.st m
  let p := s.cgPt r.slot
  let depth := s.rdN (Reg.ST_REC_DEPTH m)
  let slot := x.next % depth
  let recA := s.rdN (Reg.ST_REC_BASE m) + 64 * slot
  let seq := x.seq + 1
  let f0 : OpenFrame := { fsTime := s.now, fnum := fnum, node := r, pt := p, slot := slot, recA := recA, seq := seq,
                          exposure := (told.map (·.2)).getD 0, key := s.sec.sealKeys.getD (fld x.sealCfg 4 4) [] }
  let f : OpenFrame := match num with
    | some (c, gap) => { (f0.note c) with gap := gap }
    | none => f0
  let s1 := s.setSt m { x with frame := some f, seq := seq, held := insSorted slot x.held, next := (slot + 1) % depth, unaccepted := false }
  let s2 := ((s1.bump (Reg.ST_FRAMES m) 1).wr (Reg.ST_LAST_FS m) s.now).event (uCsi (m / 4)) 0x01 p 0 (s.instNum r) 0
  let s3 := s2.frameGap m p num
  let s4 : State := { s3 with crz := { s3.crz with holds := s3.crz.holds ++ [⟨m, slot, recA, p, s.now, r.slot, r.inst⟩] } }
  match told with
  | none =>
    let s5 := s4.setNode r fun y => { y with phase := .started, recA := recA }
    let launch := ((s4.nodeRun r).map (·.launch)).getD []
    (match s5.ingressOut p launch with
      | (some img, s6) => s6.setSt m { s6.st m with node := none, out := img }
      | (none, s6) =>
        let y := s6.st m
        (s6.setSt m { y with node := none, out := [], frame := y.frame.map fun f => { f with stopped := true } }).crzDone r 0x0407)
  | some (u, e) =>
    if e = 0 then
      let launch := ((s4.ictx u).node.map (·.2)).getD []
      let s5 := s4.setNode r fun y => { y with phase := .started, recA := recA }
      s5.ispStart u r launch recA seq (fld x.dt 0 6) (fld x.geom 0 16)
    else
      let c := s4.ictx u
      (match c.frame with
        | some g => if g.node = r then s4.setIctx u { c with frame := some { g with bound := insSorted e g.bound } }
            else s4.setIctx u { c with earlyBound := insSorted e c.earlyBound }
        | none => s4.setIctx u { c with earlyBound := insSorted e c.earlyBound })

/-- An open frame of stream `m` ends at the next FS with 0x0107 (R50). -/
def State.frameCut (s : State) (m : Nat) : State :=
  match (s.st m).frame with
  | none => s
  | some f => (s.stErr m f.pt 0x0107).frameFault m [0x0107] false

/-- What is left of an open frame of stream `m` is closed, its record written (R50, R51). -/
def State.frameShut (s : State) (m : Nat) : State :=
  match (s.st m).frame with
  | some f => s.frameClose m f {} 0
  | none => s

/-- An FS of stream `m` (R44, R46, R50, R52, R135). -/
def State.frameStart (s : State) (m fnum : Nat) : State :=
  let s1 := (s.frameCut m).frameShut m
  let s2 := if s1.rdB (Reg.ST_STATUS m) 0 then s1.stApply m else s1
  let x := s2.st m
  if !bitAt x.cfg 0 then s2
  else
    let num := numberCheck x fnum
    let s3 := if fnum = 0 then s2 else s2.setSt m { x with lastNum := some fnum }
    match s3.launcher m with
    | none => (s3.noArmed m).frameStartTrigger m none
    | some (r, told) =>
      let p := s3.cgPt r.slot
      if !s3.stConfigOk m p then (s3.frameDrop m p 0x0113).frameStartTrigger m none
      else if x.held.contains (x.next % s3.rdN (Reg.ST_REC_DEPTH m)) then (s3.frameDrop m p 0x010F).frameStartTrigger m none
      else (s3.frameAccept m fnum r told num).frameStartTrigger m (some r.slot)

/-- FRAME_START (R50): every enabled slot with the virtual channel starts a frame, lowest first. -/
def execFrameStart (n : Fin 12) (vc : Fin 32) (fnum : BitVec 16) (s : State) : Res :=
  if !s.csiLocked n then .next s
  else .next (((s.csiStreams n).filter fun m => s.vcMatch n m vc).foldl (fun s m => s.frameStart m fnum.toNat) s).crzDrain

/-! ### Frame end (R49, R51, R54) -/

/-- An FE of stream `m` (R51): HEIGHT and the seal are checked, and the record is written. -/
def State.frameEnd (s : State) (m : Nat) : State :=
  let x := s.st m
  match x.frame with
  | none => if x.unaccepted then s.setSt m { x with unaccepted := false } else s.csiCount (m / 4) 0x0108
  | some f =>
    let h := fld x.geom 16 16
    let s1 := if h = 0 ∨ f.lines = h then s else (s.stErr m f.pt 0x0106).frameFault m [0x0106] true
    match (s1.st m).frame with
    | none => s1.setSt m { s1.st m with unaccepted := false }
    | some f1 =>
      let r := sealCheck (s1.st m) f1
      let s2 := r.codes.foldl (fun s c => s.stErr m f1.pt c) s1
      s2.frameClose m (r.codes.foldl OpenFrame.note f1) r 0

/-- FRAME_END (R51): an FE of a virtual channel. -/
def execFrameEnd (n : Fin 12) (vc : Fin 32) (s : State) : Res :=
  if !s.csiLocked n then .next s
  else .next (((s.csiStreams n).filter fun m => s.vcMatch n m vc).foldl (fun s m => s.frameEnd m) s).crzDrain

/-- FRAME_TIMEOUT (R54): no FE within TIMEOUT µs of FS ends the frame with 0x0114. -/
def execFrameTimeout (m : Fin 48) (s : State) : Res :=
  match (s.st m).frame with
  | none => .next s
  | some f =>
    if s.rdN (Reg.ST_TIMEOUT m) = 0 then .next s
    else
      let s1 := (s.stErr m f.pt 0x0114).frameFault m [0x0114] true
      let s2 := match (s1.st m).frame with
        | none => s1
        | some f1 => (s1.setSt m { s1.st m with unaccepted := true }).frameClose m f1 {} 0
      .next s2.crzDrain

/-- REC_RELEASE (R52): software releases a held record slot. -/
def execRecRelease (m : Fin 48) (value : BitVec 32) (s : State) : Res :=
  let x := s.st m
  let k := value.toNat
  .next { s.setSt m { x with held := x.held.filter (· != k) } with
    crz := { s.crz with holds := s.crz.holds.filter fun h => !(h.stream == m.val && h.slot == k) } }

end Sys2Proof.Machine
end

