-- ==== Sys2Proof/Machine/Memory.lean ====
section
/-! DEFINITION. Sys2Proof/Machine/Memory.lean: the meanings of the memory and system-cache commands
(14_memory_system_cache, R350 to R375). -/

namespace Sys2Proof.Machine

/-- The memory block as a reporter. -/
def uMem : UnitId := ⟨0, 0⟩

/-- The page passes R35 for a cache command: either permission suffices (R365). -/
def State.cachePage (s : State) (p : Nat) (pc : Nat × Nat) : Bool :=
  (match s.xlate p pc.1 pc.2 .read with
    | .ok _ => true
    | .error _ => false) ||
  (match s.xlate p pc.1 pc.2 .write with
    | .ok _ => true
    | .error _ => false)

/-- RESULT of a range command: 0x0503 when a page was skipped (R365). -/
def State.cacheResult (s : State) (p : Nat) : Nat :=
  if (pieces (s.rdN (Reg.MEM_PT_CACHE_ADDR p)) (s.rdN (Reg.MEM_PT_CACHE_SIZE p))).all (s.cachePage p) then 0 else 0x0503

/-- Start a cache command, or refuse it with 0x0906 while one runs (R365). Cache contents are not modelled: they change
timing and never a result (R13, assumption 15). -/
def State.cacheStart (s : State) (p op result : Nat) : State :=
  if s.rdB (Reg.MEM_PT_CACHE_STATUS p) 0 then s.err p uMem 0x0906
  else { s.wrF (Reg.MEM_PT_CACHE_STATUS p) 0 1 1 with memx := { s.memx with cacheRun := s.memx.cacheRun.put p (op, result) } }

/-- CLEAN_RANGE (R365). -/
def execCleanRange (p : Fin 16) (s : State) : Res := .next (s.cacheStart p 1 (s.cacheResult p))

/-- FLUSH_RANGE (R365). -/
def execFlushRange (p : Fin 16) (s : State) : Res := .next (s.cacheStart p 2 (s.cacheResult p))

/-- FLUSH_ALL (R365). -/
def execFlushAll (p : Fin 16) (s : State) : Res := .next (s.cacheStart p 3 0)

/-- RELEASE_RETAINED (R365). -/
def execReleaseRetained (p : Fin 16) (s : State) : Res := .next (s.cacheStart p 4 0)

/-- CACHE_CMD_COMPLETE (R365): RESULT is written, BUSY clears; a skipped page raises 0x0503; RELEASE_RETAINED and
FLUSH_ALL leave no retained line. -/
def execCacheCmdComplete (p : Fin 16) (s : State) : Res :=
  match Tab.get? s.memx.cacheRun p with
  | none => .next s
  | some (op, result) =>
    let s1 := { s.wr (Reg.MEM_PT_CACHE_STATUS p) (result * 2 ^ 16) with memx := { s.memx with cacheRun := s.memx.cacheRun.del p } }
    let s2 := if 3 ≤ op then s1.wr (Reg.MEM_PT_RETAINED p) 0 else s1
    .next (if result = 0 then s2 else s2.err p uMem result (s.rdN (Reg.MEM_PT_CACHE_ADDR p)))

/-- Start a translation invalidation, or refuse it with 0x0906 while one runs (R373). -/
def State.xlatStart (s : State) (p op : Nat) : State :=
  if s.rdB (Reg.MEM_PT_XLAT_STATUS p) 0 then s.err p uMem 0x0906
  else { s.wrF (Reg.MEM_PT_XLAT_STATUS p) 0 1 1 with memx := { s.memx with xlatRun := s.memx.xlatRun.put p op } }

/-- A stage-2 operation: from a VF it is refused with 0x0906 (R373). -/
def State.xlatStart2 (s : State) (fn p op : Nat) : State := if fn = 0 then s.xlatStart p op else s.err fn uMem 0x0906

/-- S1_ALL (R373). -/
def execS1All (p : Fin 16) (s : State) : Res := .next (s.xlatStart p 1)

/-- S1_RANGE (R373). -/
def execS1Range (p : Fin 16) (s : State) : Res := .next (s.xlatStart p 2)

/-- S2_ALL (R373). -/
def execS2All (fn p : Fin 16) (s : State) : Res := .next (s.xlatStart2 fn p 3)

/-- S2_RANGE (R373). -/
def execS2Range (fn p : Fin 16) (s : State) : Res := .next (s.xlatStart2 fn p 4)

/-- XLAT_CMD_COMPLETE (R373): BUSY clears. The model walks the tables afresh for every access (assumption 16). -/
def execXlatCmdComplete (p : Fin 16) (s : State) : Res :=
  match Tab.get? s.memx.xlatRun p with
  | none => .next s
  | some _ => .next { s.wr (Reg.MEM_PT_XLAT_STATUS p) 0 with memx := { s.memx with xlatRun := s.memx.xlatRun.del p } }

/-- The RETAIN mask written overlaps another partition's RETAIN mask, or the NORMAL mask of any partition, its own new
one included (R364). -/
def State.waysClash (s : State) (p v : Nat) : Bool :=
  fld v 0 15 &&& fld v 16 15 != 0 ||
  (List.range 16).any fun q => q != p &&
    (fld v 16 15 &&& s.rdF (Reg.MEM_PT_WAYS q) 16 15 != 0 || fld v 16 15 &&& s.rdF (Reg.MEM_PT_WAYS q) 0 15 != 0)

/-- WAYS_WRITE (R364, R375): ignored in a VF view; refused with 0x0906 on an overlap. -/
def execWaysWrite (fn p : Fin 16) (value : BitVec 32) (s : State) : Res :=
  let v := value.toNat &&& 0x7FFF7FFF
  if fn.val ≠ 0 then .next s
  else if s.waysClash p v then .next (s.err 0 uMem 0x0906)
  else .next (s.wr (Reg.MEM_PT_WAYS p) v)

/-- PASR_WRITE (R370): refused with 0x0906 when bit 7 is 0. -/
def execPasrWrite (value : BitVec 32) (s : State) : Res :=
  .next (if value.getLsbD 7 then s.wr Reg.MEM_PASR (value.toNat % 256) else s.err 0 uMem 0x0906)

/-- The channel of a PA (R354, R355): the keyed hash is free, fixed for one hash key. -/
def State.channelOf (s : State) (pa : Nat) : Nat :=
  (pa / 1024 % 32) ^^^ (Config.channelHash s.memx.hashKey (pa / 32768)).toNat

/-- The class code of a requester. -/
def agentCode : AgentClass → Nat
  | .frond => 0x01
  | .channel => 0x21
  | .engine => 0x10
  | .pipe => 0x06
  | .port => 0x04
  | .crozier => 0
  | .link => 0x38
  | .host => 0x30
  | .other => 0

/-- Latch the first poison event since VALID was last cleared (R366). -/
def State.latchPoison (s : State) (pa code p ch : Nat) : State :=
  if s.rdB Reg.MEM_POISON_INFO 63 then s
  else (s.wr Reg.MEM_POISON_ADDR pa).wr Reg.MEM_POISON_INFO (code + p * 2 ^ 16 + ch * 2 ^ 20 + 2 ^ 63)

/-- A fill error: counted, latched and raised to the requester's partition with the channel as subject (R366, R480). -/
def State.fillError (s : State) (pa code cnt p ch : Nat) (rep : UnitId) : State :=
  ((s.bump cnt 1).latchPoison pa code p ch).report p { code := code, subj := ⟨0x2A, ch⟩, rep := rep, info := pa }

/-- The granule reads as poisoned from now on. -/
def State.poisonGran (s : State) (g : Nat) : State := { s with memx := { s.memx with poison := insSorted g s.memx.poison } }

/-- CACHE_FILL (R359, R366 to R368, R468): a fill of one granule. A granule that carries the poison marker raises nothing new; a tag
that mismatches poisons the data with 0x0902, an uncorrectable link error with 0x0901, one in a dirty line of the cache with
0x0903, and a parity error on the fabric with 0x0D05; a clean line is fetched again. -/
def execCacheFill (p : Fin 16) (reader : AgentClass) (inst : Fin 256) (pa : BitVec 48) (check : FillCheck) (s : State) : Res :=
  let a := pa.toNat
  let g := a / 64
  if targetOf a ≠ .inPackage then .next s
  else
    let ch := s.channelOf a
    let rep : UnitId := ⟨agentCode reader, inst⟩
    let s1 := ((s.bump (Reg.MEM_CH_RD_BYTES ch) 64).bump (Reg.MEM_PT_BYTES p) 64).bump (Reg.MEM_PT_MISSES p) 1
    let bad := s.granBad g && !s.memx.poison.contains g
    match check with
    | .uncorrectable => .next ((s1.poisonGran g).fillError a 0x0901 Reg.MEM_UE_COUNT p ch rep)
    | .sramDirty => .next (((s1.poisonGran g).latchPoison a 0x0903 p ch).report p { code := 0x0903, rep := rep, info := a })
    | .parity => .next ((s1.poisonGran g).report p { code := 0x0D05, rep := rep, info := a })
    | .fatal c i => .next (s1.deviceFatal 0x0D0E ⟨c, i⟩).crzDrain
    | _ =>
      let s2 := if check = .corrected then s1.bump Reg.MEM_CE_COUNT 1
        else if check = .sramCorrected then s1.bump Reg.MEM_CACHE_SRAM_CE 1 else s1
      if s.memx.poison.contains g then .next s2
      else if bad ∨ check = .mismatch then
        .next ({ s2 with memx := { s2.memx with badTag := insSorted g s2.memx.badTag } }.fillError a 0x0902 Reg.MEM_TAG_FAIL p ch rep)
      else .next s2

/-- IMBALANCE_WINDOW (R356): a window of at least 61,440,000 bytes qualifies; 1,000 qualifying windows in a row with a
ratio above 4 raise 0x0904, once per run. -/
def execImbalanceWindow (total : Nat) (busiest : Fin 32) (busyCount : Nat) (pt : Fin 16) (s : State) : Res :=
  let ratio := if total = 0 then 0 else min 0xFFFF (busyCount * 32 * 256 / total)
  let s1 := (s.wr Reg.MEM_IMB_RATIO ratio).wr Reg.MEM_IMB_STATUS (busiest + pt * 256 + s.rdF Reg.MEM_IMB_STATUS 16 16 * 65536)
  if 61440000 ≤ total * 64 ∧ total * 4 < busyCount * 32 then
    let run := min 0xFFFF (s.rdF Reg.MEM_IMB_STATUS 16 16 + 1)
    let s2 := ((s1.wrF Reg.MEM_IMB_STATUS 16 16 run).wrF Reg.MEM_STATUS 4 1 1).bump Reg.MEM_IMB_WINDOWS 1
    if 1000 ≤ run ∧ !s.memx.imbRaised then
      .next ({ s2 with memx := { s2.memx with imbRaised := true } }.errAll (if pt.val = 0 then [0] else [0, pt.val])
        { code := 0x0904, subj := ⟨0x2A, busiest⟩, event := true })
    else .next s2
  else
    let s2 := (s1.wrF Reg.MEM_IMB_STATUS 16 16 0).wrF Reg.MEM_STATUS 4 1 0
    .next { s2 with memx := { s2.memx with imbRaised := false } }

/-- The refresh row of a temperature (R369). -/
def refreshRow (t : Nat) : Nat := if t ≤ 85 then 0 else if t ≤ 95 then 1 else if t ≤ 105 then 2 else 3

/-- MR4_POLL (R369): the refresh row follows the hottest channel; above 105 °C the bandwidth cap starts with 0x0905 to
PT_0, and it lifts at 100 °C or below. -/
def execMr4Poll (tempC : Fin 256) (channel : Fin 32) (s : State) : Res :=
  let was := s.rdB Reg.MEM_STATUS 3
  let cap := if 105 < tempC.val then true else if tempC.val ≤ 100 then false else was
  let s1 := ((s.wr Reg.MEM_TEMP (tempC + channel * 256)).wrF Reg.MEM_STATUS 1 2 (refreshRow tempC)).wrF Reg.MEM_STATUS 3 1 cap.toNat
  .next (if cap && !was then s1.report 0 { code := 0x0905, subj := ⟨0x2A, channel⟩, info := tempC, event := true } else s1)

end Sys2Proof.Machine
end

