-- ==== Sys2Proof/Machine/Mgmt.lean ====
section
/-! DEFINITION. Sys2Proof/Machine/Mgmt.lean: the side-band management port (22_management_port). -/

namespace Sys2Proof.Machine

/-! ### Frames (R553 to R557) -/

/-- LEN of a frame. -/
def frLen (r : List Byte) : Nat := getLE r 4 2
/-- AUTH. -/
def frAuth (r : List Byte) : Bool := bitAt (getLE r 6 1) 0
/-- SEQ. -/
def frSeq (r : List Byte) : Nat := getLE r 2 2
/-- CMD. -/
def frCmd (r : List Byte) : Nat := getLE r 1 1
/-- PAYLOAD. -/
def frPayload (r : List Byte) : List Byte := (r.drop 8).take (frLen r)

/-- The tag of the session over a frame's bytes 0 to 7 + LEN (R561); without a session the tag of a response is free. -/
def State.frameTag (s : State) (b : List Byte) : List Byte × State :=
  match s.mgt.key with
  | some k => ((hmac256 k b).take 16, s)
  | none => s.freshBytes 16

/-- The response to request `r`: it replaces one that waits, and the port is not busy any more (R555, R557). -/
def State.answer (s : State) (r : List Byte) (code : Nat) (payload : List Byte) : State :=
  let b := leBytes 1 0x5A ++ leBytes 1 (frCmd r) ++ leBytes 2 (frSeq r) ++ leBytes 2 payload.length ++ leBytes 2 code ++ payload
  let (tag, s1) := if frAuth r then s.frameTag b else ([], s)
  { s1 with mgt := { s1.mgt with request := none, response := some (b ++ tag ++ leBytes 4 (crc32c (b ++ tag))) } }

/-- The status word (R554). -/
def State.statusWord (s : State) : Nat :=
  s.mgt.response.isSome.toNat + s.mgt.request.isSome.toNat * 2 + (!s.mgt.events.isEmpty).toNat * 4 + s.mainUp.toNat * 8 +
    s.mgt.overrun.toNat * 16 + s.mgt.key.isSome.toNat * 32 + (s.rdB Reg.REL_STATUS 0).toNat * 64 + s.rung * 256 +
    (match s.mgt.response with
      | some b => frSeq b * 65536
      | none => 0)

/-- ALERT_N is asserted (R564). -/
def State.alert (s : State) : Bool :=
  s.rdB Reg.REL_STATUS 0 || s.mgt.events.any fun e => s.rdB Reg.MGT_ALERT_MASK e.cls

/-- The payload of a command is one that R559 gives. -/
def payloadOk (cmd : Nat) (b : List Byte) : Bool :=
  let n := b.length
  match cmd with
  | 0x01 | 0x02 | 0x03 | 0x04 | 0x05 | 0x10 | 0x12 | 0x24 => n == 0
  | 0x06 => n == 32
  | 0x11 => n == 292 && getLE b 1 3 == 0
  | 0x20 => n == 1 && decide (1 ≤ getLE b 0 1 ∧ getLE b 0 1 ≤ 4)
  | 0x21 => n == 1 && decide (20 ≤ getLE b 0 1 ∧ getLE b 0 1 ≤ 90)
  | 0x22 => n == 2
  | 0x23 => n == 2 && ((getLE b 0 1 == 1 && decide (1 ≤ getLE b 1 1 ∧ getLE b 1 1 ≤ 15)) || (getLE b 0 1 == 2 && getLE b 1 1 == 0))
  | _ => false

/-- "Auth" of R559. -/
def cmdAuth (cmd : Nat) : Bool := cmd == 0x12 || decide (0x20 ≤ cmd)
/-- "Main" of R559. -/
def cmdMain (cmd : Nat) : Bool := [0x05, 0x06, 0x10, 0x11, 0x23, 0x24].contains cmd

/-- The tag and the SEQ of a privileged frame are good (R561). -/
def State.tagOk (s : State) (r : List Byte) : Bool :=
  match s.mgt.key with
  | none => false
  | some k => frAuth r && (r.drop (8 + frLen r)).take 16 == (hmac256 k (r.take (8 + frLen r))).take 16 &&
    (match s.mgt.lastSeq with
      | some n => decide (n < frSeq r)
      | none => true)

/-- The engine's checks of a frame pass (R556). -/
def frameGood (r : List Byte) : Bool :=
  let n := 8 + frLen r + (if frAuth r then 16 else 0)
  getLE r 0 1 == 0xA5 && decide (frLen r ≤ 1024) && decide (getLE r 6 1 < 2) && getLE r 7 1 == 0 && getLE r n 4 == crc32c (r.take n)

/-- A command that needs the main side can run, or waits until the device has come to P1 (R562). -/
def State.mainWaits (s : State) : Bool :=
  !s.mainUp && !s.mgt.mainGone && !s.pwr.stopped && s.rdB Reg.PWR_WAKE_EN 2

/-- FRAME_WRITE (R553, R556 to R559, R562): a frame that ends before its last byte is discarded; one that comes while the port is busy
sets OVERRUN; a bad one is answered with 0x0F20, one that names no command or has another payload with 0x0F21; the others
are handed to the housekeeping controller, and one that needs the main side wakes the device. -/
def execFrameWrite (frame : List Byte) (s : State) : Res :=
  let n := 12 + frLen frame + (if frAuth frame then 16 else 0)
  if frame.length < 8 ∨ (frLen frame ≤ 1024 ∧ frame.length < n) then .next s
  else if s.mgt.request.isSome then .next { s with mgt := { s.mgt with overrun := true } }
  else if s.stage = 0xF then .next (s.answer frame 0x0F22 [])
  else if !frameGood frame then .next ((s.bump Reg.MGT_CRC_FAIL 1).answer (leBytes 8 0) 0x0F20 [])
  else
    let r := frame.take (n - 4)
    let s1 := (s.bump Reg.MGT_FRAMES 1)
    let cmd := frCmd r
    if s.mgt.switching then .next (s1.answer r 0x0F23 [])
    else if !payloadOk cmd (frPayload r) then .next (s1.answer r 0x0F21 [])
    else
      let s2 := { s1 with mgt := { s1.mgt with request := some r, reqAt := s.now, response := none } }
      .next (if cmdMain cmd && (!cmdAuth cmd || s.tagOk r) && !s.mgt.mainGone && !s.pwr.stopped then s2.wake 2 else s2)

/-- STATUS_READ (R554). -/
def execStatusRead (s : State) : Res :=
  .next { s with out := s.out ++ [.mgmt (leBytes 4 s.statusWord)], mgt := { s.mgt with overrun := false } }

/-- RESPONSE_READ (R553, R557). -/
def execResponseRead (whole : Bool) (s : State) : Res :=
  .next { s with
    out := s.out ++ [.mgmt (s.mgt.response.getD [])]
    mgt := { s.mgt with response := if whole then none else s.mgt.response } }

/-! ### Running a command (R559 to R562) -/

/-- The session ends (R561). -/
def State.sessionEnd (s : State) : State := { s with mgt := { s.mgt with key := none, lastSeq := none, refusals := 0 } }

/-- A refusal 0x0F24 or 0x0F25 (R561, R565): counted, raised to PT_0; the 16th within a session or challenge closes it and locks
AUTH_OPEN out. -/
def State.authRefuse (s : State) (r : List Byte) (code : Nat) : State :=
  let s1 := s.bump Reg.MGT_AUTH_FAIL 1
  let s2 := if s1.mainUp then s1.err 0 ⟨0, 0⟩ code else s1
  let s3 := s2.answer r code []
  if s.mgt.key.isNone ∧ s.mgt.challenge.isNone then s3
  else if s3.mgt.refusals + 1 < 16 then { s3 with mgt := { s3.mgt with refusals := s3.mgt.refusals + 1 } }
  else { s3.sessionEnd with mgt := { s3.sessionEnd.mgt with challenge := none, lockedOut := true } }

/-- What a command does: the state, STATUS and the payload of the response. -/
abbrev MgtRes := State × Nat × List Byte

/-- Run the request that waits when it is command `cmd` with a payload that `sel` picks (R561, R562): a privileged one needs a good tag,
one that needs the main side waits for a wake or is refused with 0x0F22, as `dead` is while the device is fatal. An accepted frame with
SEQ 0xFFFF ends the session. -/
def State.mgtRun (s : State) (cmd : Nat) (sel : List Byte → Bool) (dead : Bool) (f : State → List Byte → MgtRes) : State :=
  match s.mgt.request with
  | none => s
  | some r =>
    if frCmd r ≠ cmd ∨ !sel (frPayload r) ∨ !s.mgt.served then s
    else if cmdAuth cmd && !s.tagOk r then s.authRefuse r 0x0F24
    else if cmdMain cmd && s.mainWaits then s
    else if (cmdMain cmd && (!s.mainUp || s.pwr.stopped)) || (dead && s.rdB Reg.REL_STATUS 0) then s.answer r 0x0F22 []
    else
      let s0 := if cmdAuth cmd then { s with mgt := { s.mgt with lastSeq := some (frSeq r) } } else s
      let (s1, code, pl) := f s0 (frPayload r)
      let s2 := if code = 0x0F25 then s1.authRefuse r code else s1.answer r code pl
      if cmdAuth cmd && (frSeq r == 0xFFFF || cmd == 0x12) then s2.sessionEnd else s2

/-- A command that its target refuses (R559). -/
def targetRefused (s : State) (code : Nat) : MgtRes := (s, 0x0F26, leBytes 2 code)

/-- Any payload. -/
def anyPayload (_ : List Byte) : Bool := true

/-- GET_INFO. -/
def execGetInfo (s : State) : Res :=
  .next (s.mgtRun 0x01 anyPayload false fun s _ =>
    (s, 0, leBytes 1 (s.rdN Reg.CAP_VARIANT) ++ leBytes 1 s.devId ++ leBytes 1 (roleCode s.lnk.role) ++ leBytes 1 0 ++
      ((List.range 4).flatMap fun i => leBytes 1 (s.imgSvn (i + 1))) ++
      leBytes 4 (match Tab.get? s.sec.imgs 2 with
        | some i => i.build
        | none => 0) ++ leBytes 1 1 ++ leBytes 3 0))

/-- GET_STATUS (R560). -/
def execGetStatus (s : State) : Res :=
  .next (s.mgtRun 0x02 anyPayload false fun s _ =>
    (s, 0, leBytes 4 s.statusWord ++ (if s.mainUp then s.mainValues else s.mgt.kept) ++ leBytes 2 (s.rdF Reg.PWR_WAKE_CAUSE 0 6) ++
      leBytes 2 s.mgt.events.length ++ leBytes 4 0))

/-- GET_EVENT (R563): the oldest record leaves the queue, and a checker item that waited enters. -/
def execGetEvent (s : State) : Res :=
  .next (s.mgtRun 0x03 anyPayload false fun s _ =>
    match s.mgt.events with
    | [] => (s, 0, [])
    | e :: es =>
      let s1 := { s with mgt := { s.mgt with events := es } }
      let s2 := match s1.mgt.waiting with
        | [] => s1
        | b :: bs => { s1 with mgt := { s1.mgt with waiting := bs } }.mgtPush 1 b
      (s2, 0, leBytes 1 e.cls ++ leBytes 1 e.lost.toNat ++ leBytes 2 e.body.length ++ leBytes 4 e.seq ++ e.body))

/-- GET_TIME. -/
def execGetTime (s : State) : Res := .next (s.mgtRun 0x04 anyPayload false fun s _ => (s, 0, leBytes 8 s.mgt.reqAt))

/-- GET_ERRORS (R487). -/
def execGetErrors (s : State) : Res :=
  .next (s.mgtRun 0x05 anyPayload false fun s _ =>
    (s, 0, (List.range 15).flatMap fun b => leBytes 4 (s.rdN (Reg.ERR_PT_B_FIRST 0 (b + 1))) ++
      leBytes 4 (s.rdN (Reg.ERR_PT_B_SUBJECT 0 (b + 1))) ++ leBytes 8 (s.rdN (Reg.ERR_PT_B_TIME 0 (b + 1)))))

/-- GET_ATTEST (R449). -/
def execGetAttest (s : State) : Res :=
  .next (s.mgtRun 0x06 anyPayload false fun s nonce =>
    if s.sec.rngBad then targetRefused s 0x0C0B
    else
      let (k, s1) := s.freshPriv
      let body := s1.attestBody 0 nonce
      (s1, 0, body ++ ecdsaSign s1.sec.ak k body))

/-- AUTH_OPEN (R561): a nonce and an ephemeral key; refused with 0x0F25 during the lock-out. -/
def execAuthOpen (s : State) : Res :=
  .next (s.mgtRun 0x10 anyPayload false fun s _ =>
    if s.mgt.lockedOut then (s, 0x0F25, [])
    else if s.sec.rngBad then targetRefused s 0x0C0B
    else
      let (n, s1) := s.freshBytes 32
      let (d, s2) := s1.freshPriv
      let pub := ecPub d
      ({ s2 with mgt := { s2.mgt with
          challenge := some (n, d, pub), refusals := if s2.mgt.key.isNone then 0 else s2.mgt.refusals } }, 0, n ++ pub))

/-- AUTH_FINISH (R561): the manager's signature over the challenge, its key and KEY_IDX opens a session; each challenge serves once. -/
def execAuthFinish (s : State) : Res :=
  .next (s.mgtRun 0x11 anyPayload false fun s b =>
    match s.mgt.challenge with
    | none => (s, 0x0F25, [])
    | some (n, d, dpub) =>
      let s1 := { s with mgt := { s.mgt with challenge := none } }
      let k := getLE b 0 1
      let epub := (b.drop 4).take 96
      let pub := (b.drop 100).take 96
      let ctx := n ++ dpub ++ epub
      if 4 ≤ k || !s.keyOk (4 + k) pub || !ecdsaOk pub (ctx ++ leBytes 1 k) ((b.drop 196).take 96) then (s1, 0x0F25, [])
      else
        match ecdh d epub with
        | none => (s1, 0x0F25, [])
        | some z => ({ s1 with mgt := { s1.mgt with key := some (kdf z "MGMT" ctx), lastSeq := none, refusals := 0 } }, 0, []))

/-- AUTH_CLOSE. -/
def execAuthClose (s : State) : Res := .next (s.mgtRun 0x12 anyPayload false fun s _ => (s, 0, []))

/-- AUTH_LOCKOUT_END (R561). -/
def execAuthLockoutEnd (s : State) : Res := .next { s with mgt := { s.mgt with lockedOut := false } }

/-- SET_RUNG (R559, R519, R520, R464): a wake to P1, or a request for a lower rung, which waits while a CFW switch runs. -/
def execSetRung (s : State) : Res :=
  if s.mgt.switching then .next s
  else .next (s.mgtRun 0x20 anyPayload false fun s b =>
    let k := getLE b 0 1
    if k = 1 then (s.wakeNow 2, 0, [])
    else
      let (s1, ok) := s.rungRequest k
      if ok then (s1, 0, []) else targetRefused s1 0x0F01)

/-- SET_POWER_LIMIT. -/
def execSetPowerLimit (s : State) : Res :=
  .next (s.mgtRun 0x21 anyPayload false fun s b => (s.wr Reg.PWR_LIMIT (getLE b 0 1), 0, []))

/-- SET_ALERT_MASK. -/
def execSetAlertMask (s : State) : Res :=
  .next (s.mgtRun 0x22 anyPayload false fun s b => (s.wr Reg.MGT_ALERT_MASK (getLE b 0 2), 0, []))

/-- MGMT_RESET_PARTITION (R559, R401): RESET of KIND 1. -/
def execMgmtResetPartition (s : State) : Res :=
  .next (s.mgtRun 0x23 (fun b => getLE b 0 1 == 1) true fun s b =>
    let p := getLE b 1 1
    if s.resetting p then targetRefused s 0x0A0B else (s.resetPartition p, 0, []))

/-- MGMT_RESET_DEVICE (R559, R567): RESET of KIND 2: the response comes first. -/
def execMgmtResetDevice (straps : BitVec 12) (s : State) : Res :=
  let s1 := s.mgtRun 0x23 (fun b => getLE b 0 1 == 2) false fun s _ => (s, 0, [])
  .next (match s.mgt.request, s1.mgt.response with
    | some r, some b => if s1.mgt.request.isNone && getLE (frPayload r) 0 1 == 2 && getLE b 6 2 == 0 then s1.restart 3 straps.toNat else s1
    | _, _ => s1)

/-- MGMT_HOLD_TEST (R559, R498). -/
def execMgmtHoldTest (s : State) : Res := .next (s.mgtRun 0x24 anyPayload true fun s _ => (s.startHoldTest, 0, []))

end Sys2Proof.Machine
end

