-- ==== Sys2Proof/Machine/Mover.lean ====
section
/-! DEFINITION. Sys2Proof/Machine/Mover.lean: the meanings of the stream movers' commands (13_stream_mover, R318 to R349). -/

namespace Sys2Proof.Machine

/-- MOV_START (R319, R320, R321): a run starts from PROG and ARG, or the command is refused. -/
def execMovStart (ch : Fin 64) (s : State) : Res := .next (s.movStart ch none none).1.crzDrain

/-- MOV_ABORT (R343): the run is aborted with 0x0806; in IDLE, or once a run is ending, the command has no effect. -/
def execMovAbort (ch : Fin 64) (s : State) : Res := .next (s.chAbort ch 0x0806).crzDrain

/-- MOV_RESUME (R345): in HALTED the failed beats are issued again, in order, and the program goes on; elsewhere 0x0809. -/
def execMovResume (ch : Fin 64) (s : State) : Res :=
  let c := s.ch ch
  if s.chState ch ≠ 3 ∨ !c.live then .next (s.chErr ch 0x0809)
  else
    .next (((s.setCh ch { c with failed := false, redo := c.failedR, ready := c.failedW ++ c.ready, failedR := [], failedW := [] }).setChState
      ch 1).chRetire ch)

/-- MOV_RING_RESET (R336): in IDLE, TAIL is 0 and both flags are set to 0 as releases; elsewhere 0x0809. -/
def execMovRingReset (ch : Fin 64) (s : State) : Res :=
  if s.chState ch ≠ 0 ∨ (s.ownerOf 0x21 ch).isNone then .next (s.chErr ch 0x0809)
  else
    let fl := s.rdN (Reg.MOV_CH_RING_FLAGS ch)
    let set (i : Nat) : FlagOp := { isSet := true, flag := i, n := 0, pt := s.chPt ch, agent := uCh ch }
    let s1 := (s.wr (Reg.MOV_CH_RING_TAIL ch) 0).setCh ch { s.ch ch with slotOpen := false }
    .next ((s1.flagPush (set (fld fl 0 15))).flagPush (set (fld fl 16 15)))

/-- MOVE (R323, R324, R329, R335). -/
def execMovMove (ch : Fin 64) (s : State) : Res := .next (s.chStep ch 1 (moveBody ch))

/-- MOVX (R325, R329). -/
def execMovMovx (ch : Fin 64) (s : State) : Res := .next (s.chStep ch 2 (movxBody ch))

/-- LOOP (R326). -/
def execChLoop (ch : Fin 64) (s : State) : Res := .next (s.chStep ch 3 (loopBody ch))

/-- ENDL (R326). -/
def execChEndl (ch : Fin 64) (s : State) : Res := .next (s.chStep ch 4 (endlBody ch))

/-- CH_WAIT (R327). -/
def execChWait (ch : Fin 64) (s : State) : Res := .next (s.chStep ch 5 (chWaitBody ch))

/-- CH_SIGNAL (R327). -/
def execChSignal (ch : Fin 64) (s : State) : Res := .next (s.chStep ch 6 (chSignalBody ch))

/-- SETV (R328). -/
def execChSetv (ch : Fin 64) (s : State) : Res := .next (s.chStep ch 7 (setvBody ch))

/-- HALT (R328, R339). -/
def execChHalt (ch : Fin 64) (s : State) : Res := .next (s.chStep ch 8 (haltBody ch))

/-- MOVER_BEAT_ISSUE (R330 to R333): the read or the write slot of a mover goes to the channel that wins it. -/
def execMoverBeatIssue (m : Fin 4) (write : Bool) (s : State) : Res := .next (s.beatIssue m write)

/-- MOVER_READ_RETURN (R331, R346): the oldest read's data is here, from wherever it was read. -/
def execMoverReadReturn (ch : Fin 64) (s : State) : Res := .next (s.chReadReturn ch)

/-- MOVER_WRITE_ACK (R331, R335): the oldest write is globally visible, or transmitted. -/
def execMoverWriteAck (ch : Fin 64) (s : State) : Res := .next (s.chWriteAck ch)

/-- MOVER_BUS_ERROR (R344): the oldest outstanding beat of the direction gets an error response. -/
def execMoverBusError (ch : Fin 64) (write : Bool) (s : State) : Res :=
  let head : Option Beat := if write then (s.ch ch).writes.head? else (s.ch ch).reads.head?
  match head with
  | none => .next s
  | some b => .next (s.chBus ch write fun x => x == b)

/-- MOVER_RUN_COMPLETE (R339, R340, R342): IDLE, the code, the interrupt and the record. -/
def execMoverRunComplete (ch : Fin 64) (s : State) : Res := .next (s.chRunComplete ch).crzDrain

/-- CH_DONE_SIGNAL (R339): every write of the run is visible: DONE_FLAG is signalled and the Crozier node ends. -/
def execChDoneSignal (ch : Fin 64) (s : State) : Res :=
  let c := s.ch ch
  match c.rels with
  | r :: rs =>
    if !r.needs.isEmpty then .next s
    else
      (match r.act with
        | .signal _ _ _ => .next s
        | .done flagReg node code =>
          let s1 := s.setCh ch { c with rels := rs, held := if node.isSome ∧ node = c.held then none else c.held }
          let s2 := if bitAt flagReg 31 then
              s1.flagPush { isSet := false, flag := fld flagReg 0 15, n := 1, pt := s.chPt ch, agent := uCh ch }
            else s1
          let s3 := match node with
            | some x => s2.crzDone x (if code = 0 then 0 else 0x0407)
            | none => s2
          .next (s3.chReleases ch (rs.length + 1)).crzDrain)
  | [] => .next s

/-- CH_DRAIN_READ (R341): the read waits for the channel's writes that are outstanding. -/
def execChDrainRead (ch : Fin 64) (s : State) : Res :=
  let c := s.ch ch
  .next (s.setCh ch { c with drains := c.drains ++ [c.writes.map (·.id)] })

/-- CH_DRAIN_RETURN (R341): those writes are visible, and DRAIN returns RUNS. -/
def execChDrainReturn (ch : Fin 64) (s : State) : Res :=
  let c := s.ch ch
  match c.drains with
  | [] :: ds => .next ((s.setCh ch { c with drains := ds }).emit (.readData (s.rdN (Reg.MOV_CH_RUNS ch) % 2 ^ 48)))
  | _ => .next s

/-- DRAIN_TIMEOUT (R341, R393): 10 µs have passed: DRAIN returns with bit 63 set, and its other bits are free; a partition's
drain returns 0 below bit 63. -/
def execDrainTimeout (channel : Bool) (i : Fin 64) (s : State) : Res :=
  if channel then
    let c := s.ch i
    match c.drains with
    | [] => .next s
    | _ :: ds =>
      let (x, s1) := s.fresh
      .next ((s1.setCh i { c with drains := ds }).emit (.readData (2 ^ 63 + x % 2 ^ 63)))
  else if s.qm.drainReads.contains i.val then
    .next { s with qm := { s.qm with drainReads := s.qm.drainReads.erase i.val }, out := s.out ++ [.readData (2 ^ 63)] }
  else .next s

/-- SPORE_SUBMIT (R337). -/
def execSporeSubmit (ch : Fin 64) (value : BitVec 32) (s : State) : Res := .next (s.sporeSubmit ch value.toNat)

/-- SPORE_COMPLETE (R338). -/
def execSporeComplete (ch : Fin 64) (s : State) : Res := .next (s.sporeStep ch)

end Sys2Proof.Machine
end

