-- ==== Sys2Proof/Machine/Reliab.lean ====
section
/-! DEFINITION. Sys2Proof/Machine/Reliab.lean: the meanings of the reliability block's commands (18_reliability, R472 to
R487): known-answer slices, fences, re-admission, the error aggregator. -/

namespace Sys2Proof.Machine

/-- The known-answer schedule runs (R472, R487): EN, P0, not fatal. -/
def State.kakRuns (s : State) : Bool := s.rdB Reg.REL_KAK_CFG 0 && s.rung == 0 && !s.rdB Reg.REL_STATUS 0

/-- KAK_SLICE_DUE (R472): the slice of a live Frond falls due. -/
def execKakSliceDue (n : Fin 32) (s : State) : Res :=
  if !s.kakRuns || !s.tcLive n then .next s
  else .next { s with rel := { s.rel with kakDue := insSorted n s.rel.kakDue } }

/-- KAK_SLICE_START (R473): a due slice starts in slot 0 of a Frond that is neither busy nor zeroing nor aborting; one that starts later
than 2 × PERIOD after the previous slice raises 0x0D0C. -/
def execKakSliceStart (n : Fin 32) (s : State) : Res :=
  let f := s.tc n
  if !s.rel.kakDue.contains n.val || f.slot0.isSome || f.itemWait || f.zeroing || f.aborting.isSome || f.kak.isSome || !s.tcLive n then .next s
  else
    let late := match Tab.get? s.rel.kakLast n with
      | some t => decide (t + 2 * s.rdF Reg.REL_KAK_CFG 8 12 * 1000000 < s.now)
      | none => false
    let s1 := s.setTc n { f with kak := some s.now }
    let s2 := { s1 with rel := { s1.rel with kakDue := s1.rel.kakDue.filter (· != n.val), kakLast := s1.rel.kakLast.put n s.now } }
    .next (if late then (s2.bump Reg.REL_KAK_LATE 1).report 0 { code := 0x0D0C, subj := uTc n, event := true } else s2)

/-- KAK_SLICE_END (R472 to R474): the slice has run: it leaves scratch overwritten (free) and registers and tiles as R213 sets them; its
verdict is awaited, and slot 1 moves up. -/
def execKakSliceEnd (n : Fin 32) (s : State) : Res :=
  let f := s.tc n
  match f.kak with
  | none => .next s
  | some t =>
    let (x, s1) := s.fresh
    let scratch := (Config.kakScratch x).foldl (fun (m : Tab Byte) e => Tab.write (fun _ => 0#8) m (e.1 % scratchSize) e.2) f.scratch
    let s2 := s1.setTc n { f with kak := none, scratch := scratch, lineBad := [], s := [], sBad := [], v := [], vBad := [], acc := []
                                  accInt := [], accBad := [] }
    let s3 := { s2 with rel := { s2.rel with
      kakWait := s2.rel.kakWait ++ [(n.val, t)], kakSlice := s2.rel.kakSlice.put n ((s2.rel.kakSlice.getD n 0 + 1) % 64) } }
    .next (((s3.bump Reg.REL_KAK_SLICES 1).bump (Reg.DBG_TC_KAK n) 1).promote n)

/-- KAK_VERDICT (R474): a failing verdict records when the slice started and fences the Frond with 0x0D02. -/
def execKakVerdict (n : Fin 32) (pass : Bool) (s : State) : Res :=
  match s.rel.kakWait.find? fun e => e.1 == n.val with
  | none => .next s
  | some e =>
    let s1 := { s with rel := { s.rel with kakWait := s.rel.kakWait.erase e } }
    .next (if pass then s1 else ((s1.wr (Reg.REL_TC_EXPOSED n) e.2).fenceFrond n 0x0D02).crzDrain)

/-- A fence command is refused (R478). -/
def State.fenceRefuse (s : State) (n : Nat) : State :=
  (if s.rdB Reg.REL_FENCE_STATUS 0 then s else s.wr Reg.REL_FENCE_STATUS (0x0D08 * 2 ^ 16)).report 0 { code := 0x0D08, subj := uTc n }

/-- FENCE_CMD (R476 to R478): BUSY holds until the last step of the fence; a Frond that is fenced already only counts the command. -/
def execFenceCmd (n : Fin 32) (s : State) : Res :=
  if s.rdB Reg.REL_FENCE_STATUS 0 then .next (s.fenceRefuse n)
  else if s.tcLive n then .next ((s.wr Reg.REL_FENCE_STATUS (1 + n * 256)).fenceFrond n 0x0D04).crzDrain
  else .next ((s.wr Reg.REL_FENCE_STATUS 0).fenceFrond n 0x0D04)

/-- READMIT (R478): the suite runs on a Frond that is fenced, whose fence sequence is over, and that was fenced less than three times. -/
def execReadmitFrond (n : Fin 32) (s : State) : Res :=
  if s.rdB Reg.REL_FENCE_STATUS 0 ∨ s.tcLive n ∨ (s.tc n).fencing.isSome ∨ 3 ≤ s.rdF (Reg.REL_TC_FENCE_INFO n) 16 8 then .next (s.fenceRefuse n)
  else .next { s.wr Reg.REL_FENCE_STATUS (1 + n * 256) with rel := { s.rel with readmit := some n } }

/-- READMIT_COMPLETE (R478): the Frond is live again, zeroed and unowned, and starts its suite from the first slice; or it stays fenced
with 0x0D02 and the command is refused. -/
def execReadmitComplete (pass : Bool) (s : State) : Res :=
  match s.rel.readmit with
  | none => .next s
  | some n =>
    let s0 := { s.wr Reg.REL_FENCE_STATUS 0 with rel := { s.rel with readmit := none } }
    if pass then
      let s1 := (s0.wr Reg.REL_FENCED_MAP (setFld (s0.rdN Reg.REL_FENCED_MAP) n 1 0)).setTc n { placed := (s0.tc n).placed }
      let s2 := { s1 with rel := { s1.rel with kakSlice := s1.rel.kakSlice.del n } }
      .next (s2.event (uTc n) 0x05 0x80 0x0D01 n 0).capChange
    else .next ((s0.wrF (Reg.REL_TC_FENCE_INFO n) 0 16 0x0D02).fenceRefuse n)

/-- CE_WINDOW_BOUNDARY (R476): the corrected-error count of every Frond restarts. -/
def execCeWindowBoundary (s : State) : Res := .next { s with rel := { s.rel with ceCount := [] } }

/-- CLOCK_MONITOR_FAULT (R479): the device is fatal with 0x0D0D. -/
def execClockMonitorFault (row : Fin 10) (s : State) : Res := .next (s.deviceFatal 0x0D0D ⟨0, row⟩).crzDrain

/-- ERR_IRQ_TIMER (R481): 1 ms after the last interrupt for block `b` of `p`, the reports that came meanwhile raise one. -/
def execErrIrqTimer (p b : Fin 16) (s : State) : Res :=
  let k := p.val * 16 + b.val
  if s.rel.irqDue.contains k then
    .next ({ s with rel := { s.rel with irqDue := s.rel.irqDue.filter (· != k), irqAt := s.rel.irqAt.put k s.now } }.irqReg p
      (Reg.QM_PT_ERR_VEC p))
  else .next s

/-- LATCH_CLEAR (R480): VALID becomes 0 and nothing else changes. -/
def execLatchClear (p b : Fin 16) (s : State) : Res := .next (s.wrF (Reg.ERR_PT_B_FIRST p b) 31 1 0)

end Sys2Proof.Machine
end

