-- ==== Sys2Proof/Machine/View.lean ====
section
/-! DEFINITION. Sys2Proof/Machine/View.lean: what a function sees of the registers (R22 to R28, R380, R398): the views, the capability
table, and the registers that show state; and the reads that have an effect. -/

namespace Sys2Proof.Machine

/-! ### The views (R26 to R28, R380) -/

/-- The PF offset of view offset `v` of a VF (R380). -/
def viewToPf (v : Nat) : Option Nat :=
  if v < 0x10000 then some v
  else if v < 0x100000 then none
  else if v < 0x800000 then some v
  else if v < 0x900000 then some (v - 0x800000 + 0x1000000)
  else if v < 0xA00000 then some (v - 0x900000 + 0x1100000)
  else if v < 0xC00000 then some (v - 0xA00000 + 0x1200000)
  else if v < 0xE00000 then some (v - 0xC00000 + 0x1400000)
  else if v < 0xF00000 then some (v - 0xE00000 + 0x1900000)
  else if v < 0xF80000 then some (v - 0xF00000 + 0x1A00000)
  else if v < 0xF90000 then some (v - 0xF80000 + 0x1C00000)
  else none

/-- Index of `a` in an array of windows of `size` bytes from `base` on. -/
def windowIdx (base size count a : Nat) : Option Nat :=
  if base ≤ a ∧ a < base + size * count then some ((a - base) / size) else none

/-- The channel in whose window PF offset `a` lies (R348). -/
def channelAt (a : Nat) : Option Nat :=
  (windowIdx 0x400000 0x40000 4 a).bind fun m => (windowIdx 0x1000 0x1000 16 ((a - 0x400000) % 0x40000)).map fun k => 16 * m + k

/-- The partition windows of R380, by base and size. -/
def viewWindows : List (Nat × Nat) :=
  [(0x1110000, 0x1000), (0x1201000, 0x100), (0x1220000, 0x400), (0x1230000, 0x20), (0x1380000, 0x40), (0x1410000, 0x100),
   (0x1480000, 0x100), (0x1910000, 0x1000), (0x1A10000, 0x1000), (0x1C08000, 0x800)]

/-- The windows of units that a partition can own: base, size, count and class (R380). -/
def unitWindows : List (Nat × Nat × Nat × Nat) :=
  [(0x100000, 0x10000, 32, 0x01), (0x1001000, 0x80, 64, 0x19), (0x1004000, 8, 1024, 0x1A), (0x1231000, 4, 64, 0x21),
   (0x1280000, 0x40, 8192, 0x31), (0x1300000, 0x10, 32768, 0x33), (0x1A20000, 0x200, 32, 0x01)]

/-- The partition to which the window at PF offset `a` belongs: its own window, or that of a unit that it owns. -/
def State.windowPt (s : State) (a : Nat) : Option Nat :=
  match viewWindows.findSome? fun w => windowIdx w.1 w.2 16 a with
  | some p => some p
  | none =>
    match unitWindows.findSome? fun (w : Nat × Nat × Nat × Nat) => (windowIdx w.1 w.2.1 w.2.2.1 a).map fun i => (w.2.2.2, i) with
    | some (c, i) => s.ownerOf c i
    | none => (channelAt a).bind fun n => s.ownerOf 0x21 n

/-- The window of the MSI-X table and PBA, which shows each function its own (R378). -/
def isMsix (a : Nat) : Bool := decide (0x13C0000 ≤ a ∧ a < 0x13E0000)

/-- The PF offset that function `fn` reaches at `v` of its BAR0; none where nothing decodes (R27, R28). -/
def State.decodes (s : State) (fn v : Nat) : Option Nat :=
  if fn = 0 then some v
  else
    match viewToPf v with
    | none => none
    | some a => if a < 0x10000 ∨ isMsix a ∨ s.windowPt a = some fn then some a else none

/-- A request of function `fn` to PF offset `a` is answered (R402, R516, R574): the device is READY and not in P4, the function is
enabled and in D0, and while its partition is reset only STATE and the capability table answer. -/
def State.answers (s : State) (fn a : Nat) : Bool :=
  s.stage == 6 && s.rung != 4 && (fn == 0 || s.qm.vfEnable) && !s.qm.d3hot.contains fn &&
    (decide (a < 0x10000) || a == Reg.QM_PT_STATE fn || !([2, 3, 4].contains (s.rdF (Reg.QM_PT_STATE fn) 0 3)))

/-- Registers that hold addresses, arguments or data (R455), by the base of their row. -/
def secretRows : List Nat :=
  [Reg.MOV_CH_PROG 0, Reg.MOV_CH_ARG 0 0, Reg.MOV_CH_PC 0, Reg.MOV_CH_X 0 0, Reg.MOV_CH_SPORE_SRC 0, Reg.MOV_CH_SPORE_DST 0,
   Reg.MOV_CH_SPORE_DATA 0 0, Reg.MOV_CH_FAULT_ADDR 0, Reg.MOV_CH_REC_ADDR 0, Reg.MOV_CH_RING_BASE 0, Reg.TC_EXEC_PC 0,
   Reg.DSC_PT_TABLE 0, Reg.DSC_PT_SRC 0, Reg.DSC_PT_FAULT_ADDR 0, Reg.CRZ_GR_PROG 0, Reg.CRZ_GR_TRIG_ARG 0, Reg.CRZ_GR_INST_BASE 0,
   Reg.GS_PT_CMD_ARG 0, Reg.GS_PT_LAUNCH_ARG 0, Reg.RING_BASE 0, Reg.RING_WB 0, Reg.MEM_PT_XLAT_ADDR 0, Reg.MEM_PT_CACHE_ADDR 0,
   Reg.ERR_PT_LOG_BASE 0, Reg.DBG_PT_TRACE_BASE 0, Reg.DBG_PT_DUMP_DST 0]

/-- The PF is kept from the register: it holds an address, an argument or data of a confidential partition (R455). -/
def State.hidden (s : State) (fn a : Nat) : Bool :=
  fn == 0 &&
  (match s.windowPt a, Reg.find a with
    | some p, some (row, _) => s.isConf p && p != 0 && secretRows.contains row.base
    | _, _ => false)

/-! ### The capability table (R17, R22, R23) -/

/-- The classes of R17: code, count, pooled, SIZE and RATE. -/
def capClasses : List (Nat × Nat × Bool × Nat × Nat) :=
  [(0x01, 32, false, 1310720, 19660800000000), (0x02, 4, false, 0, 0), (0x03, 16384, true, 0, 0), (0x04, 12, false, 0, 0),
   (0x05, 48, false, 0, 0), (0x06, 12, false, 0, 1200000000), (0x07, 4, false, 0, 1200000000)] ++
  [(0x10, 2, false, 0, 0), (0x11, 2, false, 0, 0), (0x12, 2, false, 0, 0), (0x13, 1, false, 0, 0), (0x14, 2, false, 0, 0),
   (0x15, 2, false, 0, 0), (0x18, 4096, true, 0, 0), (0x19, 64, true, 0, 0), (0x1A, 1024, true, 0, 0)] ++
  [(0x20, 4, false, 0, 0), (0x21, 64, false, 0, 0), (0x28, 32, false, 1048576, 0), (0x29, 8, false, 0, 76800000000),
   (0x2A, 32, false, 0, 19200000000), (0x30, 16, false, 0, 0), (0x31, 8192, true, 0, 0)] ++
  [(0x32, 2048, true, 0, 0), (0x33, 32768, false, 0, 0), (0x34, 65536, true, 0, 0), (0x38, 8, false, 0, 25000000000),
   (0x40, 2, false, 524288, 0), (0x48, 4, false, 0, 0)]

/-- BITMAP_VALID: neither pooled nor more than 128 instances (R23). -/
def mapped (count : Nat) (pooled : Bool) : Bool := !pooled && decide (count ≤ 128)

/-- The set of the numbers below `n` for which `f` holds, as a bitmap. -/
def bitmap (n : Nat) (f : Nat → Bool) : Nat := (List.range n).foldl (fun a i => if f i then a + 2 ^ i else a) 0

/-- LIVE_MAP: Fronds that are not fenced, and quadrants with such a Frond; every other class shows what is present (R23, R476). -/
def State.liveMap (s : State) (c count : Nat) : Nat :=
  if c = 0x01 then bitmap 32 s.tcLive
  else if c = 0x02 then bitmap 4 fun q => (List.range 8).any fun i => s.tcLive (8 * q + i)
  else bitmap count fun _ => true

/-- Units of class `c` that partition `p` owns, of those that a bitmap shows (R23). -/
def State.ownedMap (s : State) (p c : Nat) : Nat :=
  if c = 0x01 then bitmap 32 fun i => s.owns p 0x01 i
  else if c = 0x02 then bitmap 4 fun q => (List.range 8).any fun i => s.owns p 0x01 (8 * q + i)
  else if c = 0x21 then bitmap 64 fun i => s.owns p 0x21 i
  else if c = 0x30 then 2 ^ p
  else 0

/-- The ones in a bitmap of 128 bits. -/
def ones (m : Nat) : Nat := (List.range 128).foldl (fun a i => if bitAt m i then a + 1 else a) 0

/-- OWNED in the view of `p` (R23). -/
def State.ownedCount (s : State) (p c : Nat) : Nat :=
  if c = 0x03 ∨ c = 0x18 then s.poolOf c p
  else if c = 0x34 then (s.dsc.regions.filter fun e => e.2.pt == p).length
  else if c = 0x19 ∨ c = 0x1A ∨ c = 0x31 ∨ c = 0x32 ∨ c = 0x33 then
    (s.own.filter fun (e : Nat × Nat) => e.1 / 65536 == c && e.2 == p).length
  else ones (s.ownedMap p c)

/-- The 128 bytes of a class entry (R23). -/
def State.capEntry (s : State) (p : Nat) (x : Nat × Nat × Bool × Nat × Nat) : List Byte :=
  let (c, count, pooled, size, rate) := x
  let m := mapped count pooled
  let z (v : Nat) : Nat := if m then v else 0
  leBytes 4 (c + m.toNat * 65536) ++ leBytes 4 count ++ leBytes 4 (if m then ones (s.liveMap c count) else count) ++
    leBytes 4 (s.ownedCount p c) ++ leBytes 16 (z (bitmap count fun _ => true)) ++ leBytes 16 (z (s.liveMap c count)) ++
    leBytes 16 (z (s.ownedMap p c)) ++ leBytes 8 size ++ leBytes 8 rate ++ leBytes 48 0

/-- The 32-bit word at offset `a` of the capability table in the view of `p` (R22, R23). -/
def State.capWord (s : State) (p a : Nat) : Nat :=
  if a < 0x100 then
    (if a = Reg.CAP_VIEW then p
     else
      match Reg.find a with
      | some (_, k) => fld (s.rdN (a - k)) (8 * k) 32
      | none => 0)
  else
    match capClasses[(a - 0x100) / 0x80]? with
    | some x => getLE (s.capEntry p x) ((a - 0x100) % 0x80) 4
    | none => 0

/-! ### MSI-X (R378, R398) -/

/-- The pool vector that entry `i` of function `fn` shows, and 0 bits where it has none. -/
def State.tableVec (s : State) (fn i : Nat) : Option Nat :=
  if i < (if fn = 0 then 256 else 128) ∧ s.rdB (Reg.QM_PT_VMAP fn i) 31 then some (s.rdF (Reg.QM_PT_VMAP fn i) 0 11) else none

/-- The 32-bit word at PF offset `a` of the MSI-X table or PBA of function `fn`. -/
def State.msixWord (s : State) (fn a : Nat) : Nat :=
  if a < 0x13D0000 then
    (match s.tableVec fn ((a - 0x13C0000) / 16) with
      | none => 0
      | some v =>
        let x := s.qm.vecs.getD v {}
        match (a - 0x13C0000) / 4 % 4 with
        | 0 => fld x.addr 0 32
        | 1 => fld x.addr 32 32
        | 2 => x.data
        | _ => x.mask.toNat)
  else
    bitmap 32 fun i => match s.tableVec fn ((a - 0x13D0000) / 4 * 32 + i) with
      | none => false
      | some v => (s.qm.vecs.getD v {}).pend

/-! ### Registers that show state -/

/-- The row that the next unit of a job makes, or for the feature engine reads (R112). -/
def jobRow (kind : Nat) (j : BrkJob) : Nat :=
  match kind with
  | 1 => ((pickBlock j.pyrBlocks j.unit).map fun x => x.2.2).getD 0
  | 5 => ((pickLevel j.flowLevels j.unit).map fun x => x.2).getD 0
  | 6 => (j.stereoUnit j.unit).1 * j.band
  | _ => j.unit

/-- ENG_STATUS (R112). -/
def State.engStatus (s : State) (e : Nat) : Nat :=
  let x := s.eng e
  let waits (j : BrkJob) : Bool := j.started && !j.busy && j.aborting.isNone && decide (j.unit < j.units (engKind e)) && !s.brkReady j (engKind e)
  let on (k : Nat) (f : BrkJob → Bool) : Bool := match Tab.get? x.ctx k with
    | some j => f j
    | none => false
  let run := (List.range 4).find? fun k => on k (·.busy)
  bitmap 4 (fun k => on k fun _ => true) + bitmap 4 (fun k => on k waits) * 16 + run.getD 0 * 256 + run.isSome.toNat * 1024

/-- A field of a resident context (R112). -/
def State.engCtx (s : State) (e k : Nat) (f : BrkJob → Nat) : Nat :=
  match Tab.get? (s.eng e).ctx k with
  | some j => f j
  | none => 0

/-- CRZ_GR_g_STATUS (R153). -/
def State.graphStatus (s : State) (g : Nat) : Nat :=
  let e := (s.rdB (Reg.CRZ_GR_STATUS g) 1).toNat * 2
  match s.cg g with
  | none => e
  | some x => 1 + e + (x.insts.filter fun i => i.start.isSome).length * 4 + (x.insts.filter fun i => i.start.isNone).length * 32 +
      x.nodes.length * 256

/-- TC_n_STATUS (R236). -/
def State.tcStatus (s : State) (n : Nat) : Nat :=
  let f := s.tc n
  (s.tcLive n).toNat + (!s.tcLive n).toNat * 2 + (f.slot0.isSome || f.kak.isSome).toNat * 4 +
    (f.slot1.isSome.toNat + f.slot2.isSome.toNat) * 8 + f.zeroing.toNat * 32 +
    (match s.ownerOf 0x01 n with
      | some p => p * 256 + 4096
      | none => 0)

/-- TC_n_SLOT_k (R236): the operation's record and the state. -/
def State.tcSlot (s : State) (n k : Nat) : Nat :=
  let f := s.tc n
  match (match k with
    | 0 => f.slot0
    | 1 => f.slot1
    | _ => f.slot2) with
  | none => 0
  | some x => ((s.graphAt x.cid.graph).map fun g => g.recs.getD x.cid.op 0).getD 0 + x.st * 16384

/-- FLAG_i_OWNER (R286). -/
def State.flagOwnerReg (s : State) (i : Nat) : Nat :=
  let f := s.flag i
  (match s.flagOwner i with
    | some p => p + 16
    | none => 0) + f.poisoned.toNat * 32 + (f.waits.any fun w => w.ended.isNone).toNat * 64

/-- GS_PT_p_DL_STATUS (R316). -/
def State.dlStatus (s : State) (p : Nat) : Nat :=
  let d := s.rdB (Reg.GS_PT_CFG p) 1 && s.deadlocked p
  let n := if d then (s.busyFronds p).length + (s.busyChannels p).length else 0
  d.toNat + (Tab.get? s.gs.quiet p).isSome.toNat * 2 + n * 256

/-- RING_r_STATUS (R409). -/
def State.ringStatus (s : State) (r : Nat) : Nat :=
  (match s.ownerOf 0x31 r with
    | some p => 1 + p * 2
    | none => 0) +
  ((s.qm.posts.any fun x => x.ring == r) && decide (s.ringSize r ≤ s.ringUsed r)).toNat * 32 + s.rdF (Reg.RING_STATUS r) 16 16 * 65536

/-- SEC_STATUS (R466). -/
def State.secStatus (s : State) : Nat :=
  (s.stage == 6).toNat + s.sec.cmd.isSome.toNat * 2 + (!s.sec.rngBad).toNat * 4 + s.sec.lcs % 4 * 16 + s.sec.dbg.toNat * 64 +
    s.sec.level % 4 * 128 + s.sec.upd.isSome.toNat * 512

/-- One byte per image type (R466). -/
def byType (f : Nat → Nat) : Nat := f 1 % 256 + f 2 % 256 * 2 ^ 8 + f 3 % 256 * 2 ^ 16 + f 4 % 256 * 2 ^ 24

/-- The value of the register of row `row` at PF offset `a`, as software reads it (R7): what shows state is computed from the state, a
WO register reads 0, and every other register holds its value. -/
def State.shown (s : State) (row : RegRow) (a : Nat) : Nat :=
  let b := row.base
  let i (stride : Nat) : Nat := (a - b) / stride
  let ch : Nat := (channelAt a).getD 0
  if row.acc == .wo then 0
  else if b = Reg.ISP_STATUS 0 then bitmap 4 fun c => (s.ictx (4 * i 0x10000 + c)).frame.isSome
  else if b = Reg.ST_STATUS 0 then
    let m := (a - b) / 0x4000 * 4 + (a - b) % 0x4000 / 0x100
    s.rdN a % 2 + (s.st m).frame.isSome.toNat * 2 + (s.st m).next % 256 * 256
  else if b = Reg.BRK_STATUS then bitmap 11 fun e => !(s.eng e).ctx.isEmpty
  else if b = Reg.ENG_STATUS 0 then s.engStatus (i 0x10000)
  else if b = Reg.ENG_CTX_JOB_ID 0 0 then s.engCtx (i 0x10000) ((a - b) % 0x10000 / 0x20) fun j => getLE j.block 4 4
  else if b = Reg.ENG_CTX_PT 0 0 then s.engCtx (i 0x10000) ((a - b) % 0x10000 / 0x20) fun j => j.pt
  else if b = Reg.ENG_CTX_ROW 0 0 then s.engCtx (i 0x10000) ((a - b) % 0x10000 / 0x20) (jobRow (engKind (i 0x10000)))
  else if b = Reg.ENG_CTX_BLOCK 0 0 then s.engCtx (i 0x10000) ((a - b) % 0x10000 / 0x20) fun j => j.dva
  else if b = Reg.CRZ_STATUS then (s.crz.graphs.filter fun (e : Nat × CGraph) => e.2.insts.any fun x => x.start.isSome).length
  else if b = Reg.CRZ_GR_STATUS 0 then s.graphStatus (i 0x80)
  else if b = Reg.TC_STATUS 0 then s.tcStatus (i 0x10000)
  else if b = Reg.TC_SLOT 0 0 then s.tcSlot (i 0x10000) ((a - b) % 0x10000 / 8)
  else if b = Reg.FLAG_VALUE 0 then (s.flag (i 0x10)).value
  else if b = Reg.FLAG_OWNER 0 then s.flagOwnerReg (i 0x10)
  else if b = Reg.GS_PT_DL_STATUS 0 then s.dlStatus (i 0x1000)
  else if b = Reg.MOV_STATUS 0 then bitmap 16 fun k => s.chState (16 * i 0x40000 + k) != 0
  else if b = Reg.MOV_TAGS 0 then
    (List.range 16).foldl (fun t k => t + (s.ch (16 * i 0x40000 + k)).reads.length + (s.ch (16 * i 0x40000 + k)).writes.length * 65536) 0
  else if b = Reg.MOV_CH_SPORE_STATUS 0 then setFld (s.rdN a) 0 5 (s.ch ch).spores.length
  else if b = Reg.RING_STATUS 0 then s.ringStatus (i 0x40)
  else if b = Reg.SEC_STATUS then s.secStatus
  else if b = Reg.SEC_SVN_FLOOR then byType s.svnFloor
  else if b = Reg.SEC_SVN_RUN then byType s.imgSvn
  else if b = Reg.REL_STATUS then
    s.rdN a % 2 + s.kakRuns.toNat * 2 + (List.range 32).foldl (fun t n => t + s.rdF (Reg.REL_TC_FENCE_INFO n) 16 8) 0 % 256 * 256
  else if b = Reg.REL_FENCE_STATUS then s.rdN a % 2 + s.rdF a 16 16 * 65536
  else if b = Reg.SAFE_INQ then
    (s.safe.mailbox.foldl (fun t (x : Nat × List Byte) => t + x.2.length / 64) 0) % 2048 + (!s.mailRoom 1).toNat * 2 ^ 31
  else if b = Reg.SAFE_HOLD_US then
    cntAdd (s.rdN a) ((s.safe.heldSince.map fun t => (s.now - t) / 1000).getD 0)
  else if b = Reg.PWR_THROTTLED_US then
    cntAdd (s.rdN a) ((s.pwr.throttledAt.map fun t => (s.now - t) / 1000).getD 0)
  else if b = Reg.PWR_TIME 0 then
    cntAdd (s.rdN a) (if s.rung = i 8 then (s.now - s.pwr.since) / 1000 else 0)
  else if b = Reg.DT_NOW then s.now
  else if b = Reg.KWS_EVT 0 then getLE (s.pwr.fifo.headD []) (a - b) 8
  else if b = Reg.KWS_STATUS then s.pwr.fifo.length
  else if b = Reg.MGT_STATUS then s.statusWord
  else if b = Reg.DBG_RING_DATA 0 ∨ b = Reg.DBG_PT_RING_DATA 0 0 then
    let pf := b == Reg.DBG_RING_DATA 0
    let p := if pf then 0 else i 0x1000
    let r := (s.selRing pf p (s.rdN (dumpSel pf p))).recs.reverse
    let k := s.rdF (if pf then Reg.DBG_RING_IDX else Reg.DBG_PT_RING_IDX p) 0 8
    (match r[k]? with
      | some x => getLE (s.shownRec x).bytes (if pf then a - b else (a - b) % 0x1000) 8
      | none => 0)
  else if b = Reg.DBG_RING_COUNT ∨ b = Reg.DBG_PT_RING_COUNT 0 then
    let pf := b == Reg.DBG_RING_COUNT
    let p := if pf then 0 else i 0x1000
    let r := s.selRing pf p (s.rdN (dumpSel pf p))
    r.recs.length + r.written % 2 ^ 48 * 65536
  else s.rdN a

/-- The 32-bit word that function `fn` reads at PF offset `a`, a multiple of 4; `latched` gives the upper half of a register whose lower
half was read before (R524, R537). -/
def State.readWord (s : State) (fn a : Nat) : Nat :=
  if a < 0x10000 then s.capWord fn a
  else if isMsix a then s.msixWord fn a
  else if s.hidden fn a then 0
  else
    match Reg.find a with
    | none => 0
    | some (row, k) =>
      if row.base = Reg.MEM_PT_S2_BASE 0 ∧ fn ≠ 0 then 0
      else if k = 4 then
        (match Tab.get? s.dbg.hiLatch (a - 4) with
          | some v => v
          | none => fld (s.shown row (a - 4)) 32 32)
      else fld (s.shown row (a - k)) (8 * k) 32

/-- What a read of function `fn` at BAR0 offset `v` answers: 32 bits, or 64 where `wide`, which is atomic (R27, R524, R537). -/
def State.readReg (s : State) (fn v : Nat) (wide : Bool) : Nat :=
  match s.decodes fn v with
  | none => 0
  | some a =>
    if v % 4 ≠ 0 ∨ !s.answers fn a then 0
    else if wide then
      let t := { s with dbg := { s.dbg with hiLatch := [] } }
      t.readWord fn a + t.readWord fn (a + 4) * 2 ^ 32
    else s.readWord fn a

/-- A register whose lower half latches the upper one: DT_NOW and the counters (R524, R537). -/
def latches (a : Nat) : Bool := a == Reg.DT_NOW || isCounter a

/-- A read of the lower half of a latching register: the answer, and the upper half latched for the next read of it. -/
def State.lowRead (s : State) (fn v : Nat) (P : Nat → Bool) : State :=
  match s.decodes fn v with
  | none => { s with out := s.out ++ [.readData 0] }
  | some a =>
    if v % 4 ≠ 0 ∨ !s.answers fn a then s
    else
      let s1 := s.wake 0
      let s2 := { s1 with out := s1.out ++ [.readData (s.readReg fn v false)] }
      match Reg.find a with
      | some (row, 0) => if P a then { s2 with dbg := { s2.dbg with hiLatch := s2.dbg.hiLatch.put a (fld (s.shown row a) 32 32) } } else s2
      | some (_, 4) => if P (a - 4) then { s2 with dbg := { s2.dbg with hiLatch := s2.dbg.hiLatch.del (a - 4) } } else s2
      | _ => s2

/-- COUNTER_LOW_READ (R537): the lower half answers, and the upper half is latched for the next 32-bit read of the upper half, which
this command stands for where `offset` names that half. -/
def execCounterLowRead (fn : Fin 16) (offset : BitVec 32) (s : State) : Res := .next (s.lowRead fn offset.toNat isCounter)

/-- DT_NOW_LOW_READ (R524): as COUNTER_LOW_READ, of DT_NOW by the PF; `hi` is the read of the upper half that follows. -/
def execDtNowLowRead (hi : Bool) (s : State) : Res := .next (s.lowRead 0 (Reg.DT_NOW + (if hi then 4 else 0)) (· == Reg.DT_NOW))

/-- RC_READ (R7, R9): the value answers and the register returns to its reset value. -/
def execRcRead (fn : Fin 16) (offset : BitVec 32) (s : State) : Res :=
  match s.decodes fn offset.toNat with
  | none => .next { s with out := s.out ++ [.readData 0] }
  | some a =>
    if a % 4 ≠ 0 ∨ !s.answers fn a then .next s
    else
      let s1 := s.wake 0
      let s2 := { s1 with out := s1.out ++ [.readData (s.readReg fn offset.toNat false)] }
      match Reg.find a with
      | some (row, 0) => .next (if row.acc == .rc then s2.wr a (Reg.resetOf a).toNat else s2)
      | _ => .next s2

end Sys2Proof.Machine
end

