-- ==== Sys2Proof/Machine/RegWrite.lean ====
section
/-! DEFINITION. Sys2Proof/Machine/RegWrite.lean: the write of a register that has no row of its own (R6 to R8, R10, R27), with the
ranges and the states in which each register may be written, and the reserved values of command registers. -/

namespace Sys2Proof.Machine

/-- A descriptor of partition `p` is valid. -/
def State.dscAny (s : State) (p : Nat) : Bool := s.dsc.valid.any fun e => e.1 / 65536 == p

/-- A confidential partition exists (R459). -/
def State.anyConf (s : State) : Bool := s.rdN Reg.SEC_CONF % 65536 != 0

/-- What a write of a command register does whose value names no command of the table (R10): the code that the register's chapter
gives. A value that names a command has a row of its own. -/
def State.reservedCmd (s : State) (fn : Nat) (row : RegRow) (a v : Nat) : State :=
  let b := row.base
  let i (stride : Nat) : Nat := (a - b) / stride
  let bad (lo w : Nat) (ok : Nat → Bool) (f : State) : State := if ok (fld v lo w) then s else f
  let upTo (n x : Nat) : Bool := decide (1 ≤ x ∧ x ≤ n)
  if b = Reg.CRZ_GR_CMD 0 then bad 0 3 (upTo 4) (if s.crzOwned (i 0x80) then s.crzErr (i 0x80) 0x0401 else s)
  else if b = Reg.DSC_PT_CMD 0 then bad 16 4 (upTo 6) (s.err (i 0x100) uDesc 0x050C)
  else if b = Reg.RGN_CMD then
    bad 0 2 (upTo 3) ((if s.rdB Reg.RGN_STATUS 0 then s else s.wr Reg.RGN_STATUS (0x050D * 2 ^ 16)).err 0 uDesc 0x050D)
  else if b = Reg.GS_PT_CMD 0 then
    bad 0 4 (upTo 4) (if s.gsBusy (i 0x1000) then s.gsErr (i 0x1000) 0x070A else s.gsResult (i 0x1000) 0x070A 0)
  else if b = Reg.MOV_CH_CMD 0 then bad 0 3 (upTo 4) (s.chErr ((channelAt a).getD 0) 0x0809)
  else if b = Reg.MEM_PT_XLAT_CMD 0 then bad 0 3 (upTo 4) (s.err (i 0x100) uMem 0x0906)
  else if b = Reg.MEM_PT_CACHE_CMD 0 then bad 0 3 (upTo 4) (s.err (i 0x100) uMem 0x0906)
  else if b = Reg.RING_CMD 0 then
    bad 0 2 (upTo 3) ((s.wrF (Reg.RING_STATUS (i 0x40)) 16 16 0x0A02).qmErr ((s.ownerOf 0x31 (i 0x40)).getD fn) 0x0A02 (i 0x40))
  else if b = Reg.QM_ASSIGN_CMD then
    bad 0 2 (upTo 2) ((if s.rdB Reg.QM_ASSIGN_STATUS 0 then s else s.wr Reg.QM_ASSIGN_STATUS (0x0A08 * 2 ^ 16)).qmErr 0 0x0A08)
  else if b = Reg.QM_GRANT_CMD then
    bad 0 2 (upTo 2) (if s.rdB Reg.QM_GRANT_STATUS 0 then s.qmErr 0 0x0A08 else s.grantRefuse 0x0A08)
  else if b = Reg.LNK_BIND_CMD then bad 0 2 (upTo 3) s.bindRefuse
  else if b = Reg.SEC_CMD then bad 0 8 (upTo 12) ((s.bump Reg.SEC_REFUSED 1).secErr (fld v 8 4) 0x0C0A)
  else if b = Reg.REL_FENCE_CMD then bad 5 3 (upTo 2) (s.fenceRefuse (fld v 0 5))
  else if b = Reg.SAFE_CMD then bad 0 4 (upTo 1) (s.err 0 ⟨0, 0⟩ 0x0E0F)
  else if b = Reg.PWR_CMD then bad 0 3 (fun x => decide (2 ≤ x ∧ x ≤ 4)) (s.pwrErr 0x0F02)
  else s

/-- The refusal of a write that would leave `v` in the register at `a`: the state with the code raised where a range, a lock or a
state forbids the write (R8, R10), none where it passes. -/
def State.writeRefused (s : State) (row : RegRow) (a v : Nat) : Option State :=
  let b := row.base
  let i (stride : Nat) : Nat := (a - b) / stride
  let ch := (channelAt a).getD 0
  let chk (bad : Bool) (f : State) : Option State := if bad then some f else none
  let between (lo hi x : Nat) : Bool := decide (lo ≤ x ∧ x ≤ hi)
  let gs (bad : Bool) : Option State := chk bad (s.gsErr (i 0x1000) 0x070A)
  let mov (bad : Bool) : Option State := chk (s.chState ch != 0 || bad) (s.chErr ch 0x0809)
  let pwr (bad : Bool) : Option State := chk bad (s.pwrErr 0x0F02)
  let lnk (bad : Bool) : Option State := chk bad (s.linkErr ⟨0, 0⟩ 0x0B2D)
  let rel (bad : Bool) : Option State := chk bad (s.report 0 { code := 0x0D08 })
  let ckpt := s.rdB Reg.LNK_CKPT_CFG 0
  if b = Reg.ISP_CTX_STATS_CFG 0 0 then
    let u := i 0x10000 * 4 + (a - b) % 0x10000 / 0x100
    chk (decide (16 < fld v 0 5)) (s.ispErr u 0x0201)
  else if b = Reg.DSC_PT_TABLE 0 then chk (s.dscAny (i 0x100)) (s.err (i 0x100) uDesc 0x050C)
  else if b = Reg.DSC_PT_COUNT 0 then
    chk (s.dscAny (i 0x100) || !(v == 0 || (List.range 9).any fun k => v == 256 * 2 ^ k)) (s.err (i 0x100) uDesc 0x050C)
  else if b = Reg.GS_PT_CQ 0 then gs (bitAt v 31 && !s.owns (i 0x1000) 0x31 (fld v 0 13))
  else if b = Reg.GS_PT_WAIT_LIMIT 0 then
    gs (decide (1000000 < v) || (v == 0 && s.rdB (Reg.GS_PT_CFG (i 0x1000)) 0))
  else if b = Reg.GS_PT_DL_QUIET 0 then gs (!between 10 1000000 v)
  else if b = Reg.GS_PT_CFG 0 then
    gs (fld v 8 8 == 0 || (bitAt v 0 != s.rdB a 0 && s.gsLoaded (i 0x1000)) || (bitAt v 0 && s.rdN (Reg.GS_PT_WAIT_LIMIT (i 0x1000)) == 0))
  else if b = Reg.MOV_CH_CFG 0 then mov (!between 1 768 (fld v 0 10) || !between 1 512 (fld v 10 10))
  else if b = Reg.MOV_CH_RING_BASE 0 ∨ b = Reg.MOV_CH_RING_CFG 0 ∨ b = Reg.MOV_CH_RING_FLAGS 0 then mov false
  else if b = Reg.MEM_PT_S2_BASE 0 then chk (s.isConf (i 0x100)) (s.secErr 0 0x0C01)
  else if b = Reg.LNK_POLICY then chk s.anyConf (s.secErr 0 0x0C01)
  else if b = Reg.SEC_ARG 0 ∨ b = Reg.SEC_FLAG then chk s.sec.cmd.isSome (s.secErr 0 0x0C02)
  else if b = Reg.LNK_CFG then lnk (!between 2 100 (fld v 0 7) || !between 2 1000 (fld v 7 10) || !between 1 1000 (fld v 17 10))
  else if b = Reg.LNK_CKPT_INTERVAL then lnk (ckpt || !between 1000 10000000 v)
  else if between Reg.LNK_CKPT_LIST Reg.LNK_CKPT_SLOT_SIZE b then lnk ckpt
  else if b = Reg.REL_CE_WINDOW then rel (!between 1 86400 v)
  else if b = Reg.REL_KAK_CFG then rel (!between 1 1000 (fld v 8 12))
  else if b = Reg.ERR_PT_CFG 0 then
    let p := i 0x1000
    let n := fld v 1 4
    let base := s.rdN (Reg.ERR_PT_LOG_BASE p)
    chk (!between 4 12 n || (bitAt v 0 && (base % 32 != 0 || !s.oneRegion p base (32 * 2 ^ n) false true)))
      (s.report p { code := 0x0D09 })
  else if b = Reg.DBG_PT_TRACE_CFG 0 then
    let p := i 0x1000
    let n := fld v 3 5
    let base := s.rdN (Reg.DBG_PT_TRACE_BASE p)
    chk (bitAt v 0 && (!between 6 20 n || base % 64 != 0 || !s.oneRegion p base (32 * 2 ^ n) false true)) (s.err p ⟨0, 0⟩ 0x0B06)
  else if b = Reg.PWR_LIMIT then pwr (!between 20 90 (fld v 0 7))
  else if b = Reg.PWR_TJ_THR then pwr (!between 70 104 (fld v 0 8))
  else if b = Reg.PWR_CFG then pwr (!between 4 16 (fld v 24 5) || fld v 13 8 == 0)
  else if b = Reg.PPS_OFFSET then pwr (decide (1000000000 ≤ v))
  else if b = Reg.KWS_LEN 0 then pwr (!between 100 2000 v)
  else if b = Reg.AUD_COUNT then pwr (!between 1 32000 v)
  else if b = Reg.AUD_CFG then pwr (s.rdB Reg.KWS_CFG 0)
  else if b = Reg.KWS_MODEL_ADDR then pwr (s.rdB Reg.KWS_CFG 0 || v % 4 != 0)
  else none

/-- The detector starts afresh (R528, R529). -/
def State.kwsFresh (s : State) : State :=
  { s with pwr := { s.pwr with feats := [], frame := none, scores := [], hold := [] } }

/-- What follows a write that has taken effect; `old` is the register's value before. -/
def State.afterWrite (s : State) (row : RegRow) (a old : Nat) : State :=
  let b := row.base
  let rises := !bitAt old 0 && s.rdB a 0
  if b = Reg.DBG_PT_TRACE_CFG 0 then (if bitAt old 2 then s else s.wrF a 2 1 0)
  else if b = Reg.REL_CE_WINDOW ∨ b = Reg.REL_CE_THRESH then { s with rel := { s.rel with ceCount := [] } }
  else if b = Reg.PWR_CFG then s.kSync
  else if b = Reg.PPS_CFG then
    (if rises then { s.wr Reg.PPS_STATUS 0 with pwr := { s.pwr with ppsFirst := true, ppsGood := 0, ppsBad := 0 } } else s)
  else if b = Reg.AUD_CFG then
    (if rises then
      { (s.wr Reg.AUD_NEXT 0).kwsFresh with pwr := { (s.wr Reg.AUD_NEXT 0).kwsFresh.pwr with audio := [], seq := 0 } }
    else s)
  else if b = Reg.KWS_CFG then (if rises then s.kwsFresh else s)
  else s

/-- Write bits `m` of `v` to the register of `row` at `a` by its access code (R6, R7): a W1C register loses the bits that are 1, RW, RWS
and RWL registers take the value unless the write is refused, and the others ignore it; the security block refuses a write of a
read-only register with 0x0C02. -/
def State.writeReg (s : State) (row : RegRow) (a m v : Nat) : State :=
  let old := s.rdN a
  let keep := old - (old &&& m)
  match row.acc with
  | .w1c => s.wr a (old - (old &&& m &&& v))
  | .rw | .rws | .rwl =>
    (match s.writeRefused row a (keep + (v &&& m)) with
      | some s1 => s1
      | none => (s.wr a (keep + (v &&& m))).afterWrite row a old)
  | .ro | .rc | .wo => if 0x1800000 ≤ a ∧ a < 0x1900000 then s.secErr 0 0x0C02 else s

/-- The vector after a write of `v` to word `j` of its entry: the address in two words, the data, the mask bit (R398). -/
def PoolVec.writeWord (x : PoolVec) (j v : Nat) : PoolVec :=
  match j with
  | 0 => { x with addr := setFld x.addr 0 32 (v / 4 * 4) }
  | 1 => { x with addr := setFld x.addr 32 32 v }
  | 2 => { x with data := v }
  | _ => { x with mask := bitAt v 0 }

/-- A 32-bit write to word `j` of entry `i` of function `fn`'s MSI-X table (R398): it reaches the pool vector that the entry shows; an
entry that is unmasked sends what is pending. -/
def State.msixEntry (s : State) (fn i j v : Nat) : State :=
  match s.tableVec fn i with
  | none => s
  | some k =>
    let s1 := { s with qm := { s.qm with vecs := s.qm.vecs.put k ((s.qm.vecs.getD k {}).writeWord j v) } }
    if s1.qm.msixEn.contains fn && !s1.qm.fnMask.contains fn then s1.deliverPending fn i else s1

/-- A 32-bit write at PF offset `a` of the window of function `fn`'s MSI-X table; the pending bits after it are read only (R398). -/
def State.msixWrite (s : State) (fn a v : Nat) : State :=
  if 0x13D0000 ≤ a then s else s.msixEntry fn ((a - 0x13C0000) / 16) ((a - 0x13C0000) / 4 % 4) v

/-- A write of `n` bytes, 4 or 8, at PF offset `a` that lies in one register (R7, R27, R28, R380, R455). -/
def State.writeOne (s : State) (fn a n v : Nat) : State :=
  if isMsix a then s.msixWrite fn a v
  else if 0x1880000 ≤ a ∧ a < 0x1900000 then s.secErr 0 0x0C02
  else
    match Reg.find a with
    | none => s
    | some (row, k) =>
      if s.hidden fn (a - k) then s
      else if fn ≠ 0 ∧ (row.base = Reg.MEM_PT_S2_BASE 0 ∨ row.base = Reg.QOS_PT_BK 0) then s
      else if row.own then (if k = 0 then s.reservedCmd fn row a v else s)
      else s.writeReg row (a - k) (row.wmask &&& (2 ^ (8 * n) - 1) * 2 ^ (8 * k)) (v * 2 ^ (8 * k))

/-- REGISTER_WRITE (R7): function `fn` writes 32 bits, or 64 where `wide`, at `offset` of its BAR0; 64 bits over two registers are two
writes, the lower one first. -/
def execRegisterWrite (fn : Fin 16) (offset : BitVec 32) (wide : Bool) (value : BitVec 64) (s : State) : Res :=
  match s.decodes fn offset.toNat with
  | none => .next s
  | some a =>
    if a % 4 ≠ 0 ∨ !s.answers fn a then .next s
    else
      let s1 := s.wake 0
      let v := value.toNat
      if !wide then .next (s1.writeOne fn a 4 (v % 2 ^ 32))
      else
        match Reg.find a with
        | some (row, 0) =>
          if row.size = 8 then .next (s1.writeOne fn a 8 v)
          else .next ((s1.writeOne fn a 4 (v % 2 ^ 32)).writeOne fn (a + 4) 4 (v / 2 ^ 32))
        | _ => .next ((s1.writeOne fn a 4 (v % 2 ^ 32)).writeOne fn (a + 4) 4 (v / 2 ^ 32))

end Sys2Proof.Machine
end

