-- ==== Sys2Proof/Machine/Rewrite.lean ====
section
/-! DEFINITION. Sys2Proof/Machine/Rewrite.lean: what follows a hardware rewrite of REC_ADDR (07_tensor_descriptors, R162): held counter
advances and successor starts. -/

namespace Sys2Proof.Machine

/-- The nodes whose outputs have been given their record and which wait for the rewrites (R147). -/
def State.toldNodes (s : State) : List NodeRef :=
  s.crz.graphs.flatMap fun g => g.2.insts.flatMap fun i =>
    (i.nodes.zipIdx.filter fun n => n.1.told && n.1.phase == .accepted).map fun n => ⟨g.1, i.seq, n.2⟩

/-- The held advances of the pipes and engines, and the starts that wait, follow (R73, R85, R162). -/
def State.afterRewrite (s : State) : State :=
  let s1 := s.isp.foldl (fun s e => s.ispAdvance e.1) s
  let s2 := s1.brk.foldl (fun s e => e.2.ctx.foldl (fun s c => s.brkAdvance e.1 c.1) s) s1
  (s2.toldNodes.foldl (fun s r => s.crzStart r) s2).crzDrain

/-- DESC_REWRITE_COMPLETE (R162): the oldest rewrite is made, and what it held back follows. -/
def execDescRewriteComplete (s : State) : Res :=
  match s.dsc.rewrites with
  | [] => .next s
  | w :: ws => .next ({ s with dsc := { s.dsc with rewrites := ws } }.rewriteOne w).afterRewrite

end Sys2Proof.Machine
end

