-- ==== Sys2Proof/Machine/Sfu.lean ====
section
/-! DEFINITION. Sys2Proof/Machine/Sfu.lean: the special functions of the vector unit (R221, R255). Their results are free
within the stated error bound (Config.sfu); the bound is tested against the function's value, computed in fixed point with
256 fraction bits. -/

namespace Sys2Proof.Machine

/-- Fraction bits. -/
def fixBits : Nat := 256
/-- 1 in fixed point. -/
def fixOne : Int := 2 ^ fixBits

/-- The fixed-point product. -/
def fixMul (a b : Int) : Int := a * b / fixOne

/-- A sum of `n` terms whose k-th is the one before times `f k`, from term `t` and index `k`. -/
def fixSeries (f : Nat → Int → Int) : Nat → Nat → Int → Int → Int
  | 0, _, _, acc => acc
  | n + 1, k, t, acc => fixSeries f n (k + 1) (f k t) (acc + t)

/-- e^r for |r| < 8. -/
def fixExp (r : Int) : Int := fixSeries (fun k t => fixMul t r / ((k : Int) + 1)) 120 0 fixOne 0

/-- atanh(n / d) for n / d at most 1 / 3. -/
def fixAtanh (n d : Nat) : Int :=
  let t := fixOne * n / d
  let t2 := fixMul t t
  (List.range 90).foldl (fun (a : Int × Int) (k : Nat) => (a.1 + a.2 / (2 * (k : Int) + 1), fixMul a.2 t2)) (0, t) |>.1

/-- arctan(1 / d). -/
def fixAtanInv (d : Nat) : Int :=
  (List.range 120).foldl (fun (a : Int × Int) (k : Nat) =>
    (a.1 + (if k % 2 = 0 then a.2 else -a.2) / (2 * (k : Int) + 1), a.2 / (d * d))) (0, fixOne / d) |>.1

/-- ln 2. -/
def fixLn2 : Int := 2 * fixAtanh 1 3
/-- π. -/
def fixPi : Int := 16 * fixAtanInv 5 - 4 * fixAtanInv 239
/-- ln of n / d in [1, 2). -/
def fixLn (n d : Nat) : Int := 2 * fixAtanh (n - d) (n + d)
/-- sin r, as a power series. -/
def fixSin (r : Int) : Int := fixSeries (fun k t => -(fixMul (fixMul t r) r) / ((2 * (k : Int) + 2) * (2 * k + 3))) 80 0 r 0
/-- cos r, as a power series. -/
def fixCos (r : Int) : Int := fixSeries (fun k t => -(fixMul (fixMul t r) r) / ((2 * (k : Int) + 1) * (2 * k + 2))) 80 0 fixOne 0
/-- √π. -/
def fixSqrtPi : Int := (isqrt (fixPi.toNat * 2 ^ fixBits) (fixBits + 2) 0 : Nat)
/-- erf(x) / x as a series in x². -/
def fixErfRatio (x2 : Int) : Int :=
  let s := (List.range 200).foldl (fun (a : Int × Int) (k : Nat) =>
    (a.1 + a.2 / (2 * (k : Int) + 1), -(fixMul a.2 x2) / ((k : Int) + 1))) (0, fixOne) |>.1
  2 * s * fixOne / fixSqrtPi

/-- A fixed-point value times 2^k. -/
def fixVal (f : Int) (k : Int) : Val := .fin (decide (f < 0)) f.natAbs 1 (k - fixBits)

/-- ± n · 2^e in fixed point. -/
def fixOf (s : Bool) (n : Nat) (e : Int) : Int :=
  let v : Int := if 0 ≤ e + fixBits then n * 2 ^ (e + fixBits).toNat else (n : Int) / 2 ^ (-(e + fixBits)).toNat
  if s then -v else v

/-- e^x by argument reduction; 0 below -200. -/
def expVal (x : Int) : Val :=
  if x < -200 * fixOne then .fin false 0 1 0
  else
    let k := x / fixLn2
    fixVal (fixExp (x - k * fixLn2)) k

/-- The quotient of two values. -/
def quo (a b : Val) : Val := (a.div b).1
/-- The sum of two values. -/
def plus (a b : Val) : Val := (a.add b).1
/-- One. -/
def oneVal : Val := .fin false 1 1 0

/-- The value of function `fn` at ± n · 2^e, n > 0, or 0 (R221). -/
def sfuValue (fn : Nat) (s : Bool) (n : Nat) (e : Int) : Val :=
  let x := fixOf s n e
  let big := 200 * fixOne < x.natAbs
  let a : Val := .fin s n 1 e
  match fn with
  | 0 => if x < -200 * fixOne then .fin false 0 1 0
         else let k := x / fixOne; fixVal (fixExp (fixMul (x - k * fixOne) fixLn2)) k
  | 1 => expVal x
  | 2 => let q := ilog n 1; plus (.ofInt (q + e)) (quo (fixVal (fixLn n (2 ^ q.toNat)) 0) (fixVal fixLn2 0))
  | 3 => let q := ilog n 1; fixVal ((q + e) * fixLn2 + fixLn n (2 ^ q.toNat)) 0
  | 4 => quo oneVal a
  | 5 =>
    let r := a.sqrt.1
    quo oneVal r
  | 6 => fixVal (fixSin (x % (2 * fixPi))) 0
  | 7 => fixVal (fixCos (x % (2 * fixPi))) 0
  | 8 =>
    if big then .fin s 1 1 0
    else if ilog (max n 1) 1 + e < -13 then
      let x2 := (a.mul a).1
      (a.mul (plus oneVal (plus (quo x2 (.ofInt (-3))) (quo ((x2.mul x2).1.mul (.ofInt 2)).1 (.ofInt 15))))).1
    else
      let ex := expVal (2 * x)
      quo (plus ex (.ofInt (-1))) (plus ex oneVal)
  | 9 => if x < 0 then let ex := expVal x; quo ex (plus oneVal ex) else quo oneVal (plus oneVal (expVal (-x)))
  | _ => if 6 * fixOne < x.natAbs then .fin s 1 1 0 else (a.mul (fixVal (fixErfRatio (fixMul x x)) 0)).1

/-- Code `c` is finite and within `ulps` of y, or within 2⁻²⁴ where `abs24` says so (R221). -/
def sfuWithin (c : Nat) (y : Val) (ulps : Nat) (abs24 : Bool) : Bool :=
  match (val32 c).add y.neg, y with
  | (.fin _ n d e, _), .fin _ yn yd ye =>
    let b : Int := if yn = 0 then -126 else max (ilog yn yd + ye) (-126)
    let le (m : Nat) (k : Int) : Bool :=
      let (p, q) := scaleQ n d (e - k)
      p ≤ m * q
    (val32 c).isFin && (le ulps (b - 23) || (abs24 && le 1 (-24)))
  | _, _ => false

/-- The error bound of a function in ulp (R221). -/
def sfuUlps (fn : Nat) : Nat := if fn = 0 ∨ fn = 2 ∨ fn = 4 ∨ fn = 5 then 1 else 2

/-- The greatest finite magnitude of FP32 is below |y|. -/
def above32 : Val → Bool
  | .fin _ n d e => let (p, q) := scaleQ n d (e - 104); (2 ^ 24 - 1) * q < p
  | .inf _ => true
  | .nan => false

/-- The code of ±1. -/
def one32 (s : Bool) : Nat := if s then 0xBF800000 else 0x3F800000
/-- The code of ±0. -/
def zero32 (s : Bool) : Nat := if s then 0x80000000 else 0
/-- The code of ±∞. -/
def inf32 (s : Bool) : Nat := if s then 0xFF800000 else 0x7F800000

/-- The results that R221 fixes: special inputs, and inputs whose result is exact. -/
def sfuFixed (fn : Nat) (v : Val) : Option (Nat × Nat) :=
  match v with
  | .nan => some (nan32, 0)
  | .inf s =>
    match fn with
    | 0 => some (if s then 0 else inf32 false, 0)
    | 1 => some (if s then 0 else inf32 false, 0)
    | 2 => some (if s then (nan32, 1) else (inf32 false, 0))
    | 3 => some (if s then (nan32, 1) else (inf32 false, 0))
    | 4 => some (zero32 s, 0)
    | 5 => some (if s then (nan32, 1) else (0, 0))
    | 6 => some (nan32, 1)
    | 7 => some (nan32, 1)
    | 9 => some (if s then 0 else one32 false, 0)
    | _ => some (one32 s, 0)
  | .fin s n _ e =>
    if n = 0 then
      match fn with
      | 0 => some (one32 false, 0)
      | 2 => some (inf32 true, 0)
      | 3 => some (inf32 true, 0)
      | 4 => some (inf32 s, 0)
      | 5 => some (inf32 s, 0)
      | _ => none
    else if s ∧ (fn = 2 ∨ fn = 3 ∨ fn = 5) then some (nan32, 1)
    else if fn = 2 ∧ n = 2 ^ Nat.log2 n then some ((to32 (.ofInt ((Nat.log2 n : Nat) + e))).1, 0)
    else if fn = 0 then
      let x := fixOf s n e
      if x % fixOne = 0 ∧ -149 ≤ x / fixOne ∧ x / fixOne ≤ 127 then some ((to32 (.fin false 1 1 (x / fixOne))).1, 0)
      else if 128 * fixOne ≤ x then some (inf32 false, 2)
      else none
    else if fn = 1 ∧ !s ∧ 89 * fixOne < fixOf s n e then some (inf32 false, 2)
    else none

/-- The special function FN of an FP32 code, and its status (R221): free within the bound. -/
def sfu (fn c : Nat) : Nat × Nat :=
  match sfuFixed fn (val32 c) with
  | some r => r
  | none =>
    let free := Config.sfu fn c % 2 ^ 32
    match val32 c with
    | .fin s n _ e =>
      if (fn = 6 ∨ fn = 7) ∧ 2 ^ 16 * fixOne < (fixOf s n e).natAbs then
        (if (val32 free).isFin && free % 2 ^ 31 ≤ 0x3F800000 then free else 0, 0)
      else
        let y := sfuValue fn s n e
        if above32 y then (inf32 y.sign, 2)
        else if sfuWithin free y (sfuUlps fn) (fn = 6 || fn = 7) then (free, 0)
        else ((to32 y).1, 0)
    | _ => (nan32, 0)

end Sys2Proof.Machine
end

