-- ==== Sys2Proof/Machine/Vector.lean ====
section
/-! DEFINITION. Sys2Proof/Machine/Vector.lean: the V class of Trerok instructions (10_trerok_tensor_vector, R251 to R263): lane
arithmetic, conversion, quantisation, reduction, moves, scalar and control. -/

namespace Sys2Proof.Machine

/-! ### The vector format (R251, R252) -/

/-- Fields of the vector format as masks. -/
def vINT : Nat := wm 0 16 1
/-- BCS, BCI, VB, SS and IMM: operand B. -/
def vB : Nat := wm 0 17 2 ||| wm 0 10 5 ||| wm 1 5 6 ||| wm 3 0 32
/-- VD. -/
def vVD : Nat := wm 0 0 5
/-- VA. -/
def vVA : Nat := wm 0 5 5
/-- VC. -/
def vVC : Nat := wm 1 0 5
/-- SS. -/
def vSS : Nat := wm 1 5 6
/-- SX. -/
def vSX : Nat := wm 1 11 6
/-- VLEN. -/
def vVLEN : Nat := wm 1 17 7
/-- PART. -/
def vPART : Nat := wm 1 24 3
/-- FN. -/
def vFN : Nat := wm 2 0 8
/-- RM. -/
def vRM : Nat := wm 2 8 2
/-- SAT. -/
def vSAT : Nat := wm 2 10 1
/-- DTYPE and STYPE. -/
def vTYPES : Nat := wm 2 11 10
/-- SD. -/
def vSD : Nat := wm 2 21 6
/-- IMM. -/
def vIMM : Nat := wm 3 0 32

/-- INT. -/
def fINT (w : Nat) : Bool := bitAt w 16
/-- BCS. -/
def fBCS (w : Nat) : Bool := bitAt w 17
/-- BCI. -/
def fBCI (w : Nat) : Bool := bitAt w 18
/-- VD. -/
def fVD (w : Nat) : Nat := wfld w 0 0 5
/-- VA. -/
def fVA (w : Nat) : Nat := wfld w 0 5 5
/-- VB. -/
def fVB (w : Nat) : Nat := wfld w 0 10 5
/-- VC. -/
def fVC (w : Nat) : Nat := wfld w 1 0 5
/-- SS. -/
def fSS (w : Nat) : Nat := wfld w 1 5 6
/-- SX. -/
def fSX (w : Nat) : Nat := wfld w 1 11 6
/-- VLEN as written. -/
def fVLEN (w : Nat) : Nat := wfld w 1 17 7
/-- PART. -/
def fPART (w : Nat) : Nat := wfld w 1 24 3
/-- FN. -/
def fFN (w : Nat) : Nat := wfld w 2 0 8
/-- RM. -/
def fRM (w : Nat) : Nat := wfld w 2 8 2
/-- SAT. -/
def fSAT (w : Nat) : Bool := bitAt w 74
/-- DTYPE. -/
def fDT (w : Nat) : Nat := wfld w 2 11 5
/-- STYPE. -/
def fST (w : Nat) : Nat := wfld w 2 16 5
/-- SD. -/
def fSD (w : Nat) : Nat := wfld w 2 21 6
/-- IMM. -/
def fIMM (w : Nat) : Nat := wfld w 3 0 32

/-- Active lanes: VLEN, and 64 for 0. -/
def activeLanes (w : Nat) : Nat := if fVLEN w = 0 then 64 else fVLEN w

/-- What every vector word must meet: no bit outside its format's used fields, VLEN up to 64, RM not 3, one broadcast at
most (R238, R251). -/
def vecOk (mask w : Nat) : Bool := (w &&& (wmOp ||| mask) == w) && fVLEN w ≤ 64 && fRM w != 3 && !(fBCS w && fBCI w)

/-- The fields of operand B: VB is 0 under a broadcast, SS and IMM are 0 without theirs (R251, R238). -/
def bFieldsOk (w : Nat) : Bool :=
  (!(fBCS w || fBCI w) || fVB w == 0) && (fBCS w || fSS w == 0) && (fBCI w || fIMM w == 0)

/-- Operand B in lane `i`, with its mark. -/
def Frond.opB (f : Frond) (w i : Nat) : Nat × Bool :=
  if fBCI w then (fIMM w, false)
  else if fBCS w then (f.sreg (fSS w) % 2 ^ 32, f.sMark (fSS w))
  else (f.lane (fVB w) i, f.vMark (fVB w) i)

/-- A lane instruction (R252, R253): `op` gives lane i from operands a, b, c with its status bits. -/
def laneBody (mask : Nat) (ok : Nat → Bool) (usesB usesC : Bool) (op : Nat → Nat → Nat → Nat → Nat × Nat)
    (counter : Nat → Option Nat) (n : Nat) (s : State) (w pc : Nat) : Issue :=
  if !vecOk mask w || (usesB && !bFieldsOk w) || !ok w then .fail s 0x0601 false
  else
    let f := s.tc n
    let k := activeLanes w
    let res (i : Nat) :=
      let b := if usesB then f.opB w i else (0, false)
      let c := if usesC then (f.lane (fVC w) i, f.vMark (fVC w) i) else (0, false)
      (op w (f.lane (fVA w) i) b.1 c.1, f.vMark (fVA w) i || b.2 || c.2)
    let st := (List.range k).foldl (fun a i => a ||| (res i).1.2) 0
    let s1 := (s.setTc n (f.writeLanes (fVD w) fun i => if i < k then some ((res i).1.1, (res i).2) else none)).setArith n st
    .ok (match counter w with | some a => s1.bump a k | none => s1) (pc + 16)

/-- The FP or INT counter of a lane instruction (R540). -/
def fpIntCounter (n w : Nat) : Option Nat := some (if fINT w then Reg.DBG_TC_VINT n else Reg.DBG_TC_VFP n)

/-- An INT32 result: the low 32 bits, or saturation under SAT (R254). -/
def intResult (w : Nat) (x : Int) : Nat × Nat := if fSAT w then satInt x else (codeOf 32 x, 0)

/-- SAT is allowed on INT32 lanes only (R254). -/
def satOk (w : Nat) : Bool := fINT w || !fSAT w

/-- VADD. -/
def execVadd (n : Fin 32) (chk : FrondCheck) (s : State) : Res :=
  .next (s.issue n 2 0x01 chk (laneBody (vINT ||| vB ||| vVD ||| vVA ||| vVLEN ||| vSAT) satOk true false
    (fun w a b _ => if fINT w then intResult w (signedOf 32 a + signedOf 32 b) else add32 a b) (fpIntCounter n) n))

/-- VSUB. -/
def execVsub (n : Fin 32) (chk : FrondCheck) (s : State) : Res :=
  .next (s.issue n 2 0x02 chk (laneBody (vINT ||| vB ||| vVD ||| vVA ||| vVLEN ||| vSAT) satOk true false
    (fun w a b _ => if fINT w then intResult w (signedOf 32 a - signedOf 32 b) else sub32 a b) (fpIntCounter n) n))

/-- VMUL. -/
def execVmul (n : Fin 32) (chk : FrondCheck) (s : State) : Res :=
  .next (s.issue n 2 0x03 chk (laneBody (vINT ||| vB ||| vVD ||| vVA ||| vVLEN ||| vSAT) satOk true false
    (fun w a b _ => if fINT w then intResult w (signedOf 32 a * signedOf 32 b) else mul32 a b) (fpIntCounter n) n))

/-- VFMA. -/
def execVfma (n : Fin 32) (chk : FrondCheck) (s : State) : Res :=
  .next (s.issue n 2 0x04 chk (laneBody (vINT ||| vB ||| vVD ||| vVA ||| vVC ||| vVLEN ||| vSAT) satOk true true
    (fun w a b c => if fINT w then intResult w (signedOf 32 a * signedOf 32 b + signedOf 32 c) else fma32 a b c)
    (fpIntCounter n) n))

/-- VMIN. -/
def execVmin (n : Fin 32) (chk : FrondCheck) (s : State) : Res :=
  .next (s.issue n 2 0x05 chk (laneBody (vINT ||| vB ||| vVD ||| vVA ||| vVLEN) (fun _ => true) true false
    (fun w a b _ => if fINT w then (if signedOf 32 b < signedOf 32 a then b else a, 0) else min32 a b) (fpIntCounter n) n))

/-- VMAX. -/
def execVmax (n : Fin 32) (chk : FrondCheck) (s : State) : Res :=
  .next (s.issue n 2 0x06 chk (laneBody (vINT ||| vB ||| vVD ||| vVA ||| vVLEN) (fun _ => true) true false
    (fun w a b _ => if fINT w then (if signedOf 32 a < signedOf 32 b then b else a, 0) else max32 a b) (fpIntCounter n) n))

/-- VDIV. -/
def execVdiv (n : Fin 32) (chk : FrondCheck) (s : State) : Res :=
  .next (s.issue n 2 0x07 chk (laneBody (vB ||| vVD ||| vVA ||| vVLEN) (fun _ => true) true false
    (fun _ a b _ => div32 a b) (fun _ => some (Reg.DBG_TC_VDIV n)) n))

/-- VSQRT. -/
def execVsqrt (n : Fin 32) (chk : FrondCheck) (s : State) : Res :=
  .next (s.issue n 2 0x08 chk (laneBody (vVD ||| vVA ||| vVLEN) (fun _ => true) false false
    (fun _ a _ _ => sqrt32 a) (fun _ => some (Reg.DBG_TC_VDIV n)) n))

/-- An INT32 comparison by FN: EQ, NE, LT, LE (R253, R254). -/
def cmpInt (fn a b : Nat) : Bool :=
  match fn with
  | 0 => signedOf 32 a == signedOf 32 b
  | 1 => signedOf 32 a != signedOf 32 b
  | 2 => signedOf 32 a < signedOf 32 b
  | _ => signedOf 32 a ≤ signedOf 32 b

/-- VCMP. -/
def execVcmp (n : Fin 32) (chk : FrondCheck) (s : State) : Res :=
  .next (s.issue n 2 0x09 chk (laneBody (vINT ||| vB ||| vVD ||| vVA ||| vVLEN ||| vFN) (fun w => fFN w ≤ 3) true false
    (fun w a b _ => (if (if fINT w then cmpInt (fFN w) a b else cmp32 (fFN w) a b) then 0xFFFFFFFF else 0, 0))
    (fpIntCounter n) n))

/-- VSEL. -/
def execVsel (n : Fin 32) (chk : FrondCheck) (s : State) : Res :=
  .next (s.issue n 2 0x0A chk (laneBody (vB ||| vVD ||| vVA ||| vVC ||| vVLEN) (fun _ => true) true true
    (fun _ a b c => (if c != 0 then a else b, 0)) (fun _ => none) n))

/-- VLOGIC. -/
def execVlogic (n : Fin 32) (chk : FrondCheck) (s : State) : Res :=
  .next (s.issue n 2 0x0B chk (laneBody (vB ||| vVD ||| vVA ||| vVLEN ||| vFN) (fun w => fFN w ≤ 3) true false
    (fun w a b _ => (match fFN w with
      | 0 => a &&& b
      | 1 => a ||| b
      | 2 => a ^^^ b
      | _ => a &&& (b ^^^ 0xFFFFFFFF), 0)) (fun _ => none) n))

/-- VSHIFT. -/
def execVshift (n : Fin 32) (chk : FrondCheck) (s : State) : Res :=
  .next (s.issue n 2 0x0C chk (laneBody (vINT ||| vB ||| vVD ||| vVA ||| vVLEN ||| vFN) (fun w => fFN w ≤ 2 && fINT w) true false
    (fun w a b _ => (match fFN w with
      | 0 => a * 2 ^ (b % 32) % 2 ^ 32
      | 1 => a / 2 ^ (b % 32)
      | _ => codeOf 32 (signedOf 32 a / (2 ^ (b % 32) : Nat)), 0)) (fun _ => some (Reg.DBG_TC_VINT n)) n))

/-- VSFU (R221, R255). -/
def execVsfu (n : Fin 32) (chk : FrondCheck) (s : State) : Res :=
  .next (s.issue n 2 0x0D chk (laneBody (vVD ||| vVA ||| vVLEN ||| vFN) (fun w => fFN w ≤ 10) false false
    (fun w a _ _ => sfu (fFN w) a) (fun _ => some (Reg.DBG_TC_VSFU n)) n))

/-! ### Conversion (R256) and quantisation (R257) -/

/-- Parts of a register that hold 64 codes of a width (R256). -/
def partsOf (bits : Nat) : Nat := if bits = 32 then 1 else if bits = 16 then 2 else if bits = 8 then 4 else if bits = 6 then 5 else 8

/-- The narrowing direction of VCVT. -/
def cvtNarrow (w : Nat) : Bool := (fST w == 0 || fST w == 0x0B) && fDT w ≤ 0x0B

/-- The widening direction of VCVT. -/
def cvtWiden (w : Nat) : Bool := ((1 ≤ fST w && fST w ≤ 0x0A) || fST w == 0x0C || fST w == 0x0D) && (fDT w == 0 || fDT w == 0x0B)

/-- The encoding of VCVT. -/
def cvtOk (w : Nat) : Bool :=
  vecOk (vB ||| vVD ||| vVA ||| vSX ||| vVLEN ||| vPART ||| vFN ||| vRM ||| vSAT ||| vTYPES ||| vSD) w &&
  (if fFN w = 0 then !fBCS w && !fBCI w && fVB w == 0 && fSS w == 0 && fIMM w == 0 else fFN w == 1 && cvtNarrow w && bFieldsOk w) &&
  (fRM w == 2 || (fSX w == 0 && fSD w == 0)) &&
  ((cvtNarrow w && fPART w < partsOf (codeBits (fDT w))) || (cvtWiden w && fPART w < partsOf (codeBits (fST w))))

/-- Write codes of `bits` bits packed into part `part` of V[r]: `code i` is that of lane i, none where it is kept. -/
def Frond.writePart (f : Frond) (r part bits : Nat) (code : Nat → Option (Nat × Bool)) : Frond :=
  let base := part * 8 * bits
  let old := ofLE (((f.vBytes r).drop base).take (8 * bits))
  let new := (List.range 64).foldl (fun v i => match code i with | some (c, _) => setFld v (i * bits) bits c | none => v) old
  let bytes := leBytes (8 * bits) new
  f.writeV r fun k =>
    if base ≤ k ∧ k < base + 8 * bits then
      let here := (List.range ((8 * (k - base) + 7) / bits - 8 * (k - base) / bits + 1)).filterMap
        fun j => code (8 * (k - base) / bits + j)
      if here.isEmpty then none else some (bytes.getD (k - base) 0#8, here.any (·.2))
    else none

/-- Code `i` of `bits` bits of part `part` of V[r], with its mark. -/
def Frond.readPart (f : Frond) (r part bits i : Nat) : Nat × Bool :=
  let bit := part * 64 * bits + i * bits
  (fld (ofLE (f.vBytes r)) bit bits, f.vBad.contains (r * 4 + bit / 512))

/-- VCVT (R256, R198 to R201, R600, R206 rules 1 to 3). -/
def cvtBody (n : Nat) (s : State) (w pc : Nat) : Issue :=
  if !cvtOk w then .fail s 0x0601 false
  else
    let f := s.tc n
    let k := activeLanes w
    let seed := f.sreg (fSD w) % 2 ^ 32
    let rb := fRM w == 2 && (f.sMark (fSD w) || f.sMark (fSX w))
    let res (i : Nat) :=
      let src := if cvtNarrow w then (f.lane (fVA w) i, f.vMark (fVA w) i) else f.readPart (fVA w) (fPART w) (codeBits (fST w)) i
      let v := decodeVal (fST w) src.1
      let b := f.opB w i
      let (x, inv) := if fFN w = 1 then v.mul (val32 b.1) else (v, false)
      let (c, st) := convert (fDT w) x (fRM w) (fSAT w) (srBits seed (f.sreg (fSX w) + i))
      (c, st ||| inv.toNat, src.2 || (fFN w == 1 && b.2) || rb)
    let st := (List.range k).foldl (fun a i => a ||| (res i).2.1) 0
    let out (i : Nat) := if i < k then some ((res i).1, (res i).2.2) else none
    let f1 := if codeBits (fDT w) = 32 then f.writeLanes (fVD w) out else f.writePart (fVD w) (fPART w) (codeBits (fDT w)) out
    .ok (((s.setTc n f1).setArith n st).bump (Reg.DBG_TC_VCVT n) k) (pc + 16)

/-- VCVT. -/
def execVcvt (n : Fin 32) (chk : FrondCheck) (s : State) : Res := .next (s.issue n 2 0x0E chk (cvtBody n))

/-- The encoding of VQNT. -/
def qntOk (w : Nat) : Bool :=
  vecOk (vVD ||| vVA ||| vVC ||| vSS ||| vSX ||| vVLEN ||| vPART ||| vRM ||| vTYPES ||| vSD) w && fST w == 0 && isScaled (fDT w) &&
  (fDT w == 0x18 || fSS w == 0) && (fRM w == 2 || (fSX w == 0 && fSD w == 0)) && fPART w < partsOf (codeBits (elemType (fDT w)))

/-- One block of VQNT: codes, scale and status; a block with no active lane has scale 0. -/
def qntBlock (w ts : Nat) (vs : List (Option Nat)) (rnd : Nat → Nat) : List Nat × Nat × Nat :=
  if vs.all (·.isNone) then (vs.map fun _ => 0, 0, 0)
  else if fDT w = 0x18 then quantA4 ts vs (fRM w) rnd else quantMx (fDT w) vs (fRM w) rnd

/-- VQNT (R257, R202, R203). -/
def qntBody (n : Nat) (s : State) (w pc : Nat) : Issue :=
  let f := s.tc n
  if !qntOk w then .fail s 0x0601 false
  else if fDT w == 0x18 && f.sMark (fSS w) then .fail s 0x060B false
  else
    let k := activeLanes w
    let seed := f.sreg (fSD w) % 2 ^ 32
    let rb := fRM w == 2 && (f.sMark (fSD w) || f.sMark (fSX w))
    let blk (q : Nat) := qntBlock w (f.sreg (fSS w) % 2 ^ 32)
      ((List.range 32).map fun j => if 32 * q + j < k then some (f.lane (fVA w) (32 * q + j)) else none)
      fun j => srBits seed (f.sreg (fSX w) + 32 * q + j)
    let bad (q : Nat) := rb && 32 * q < k || (List.range 32).any fun j => 32 * q + j < k && f.vMark (fVA w) (32 * q + j)
    let b0 := blk 0
    let b1 := blk 1
    let f1 := f.writePart (fVD w) (fPART w) (codeBits (elemType (fDT w))) fun i =>
      some ((if i < 32 then b0.1 else b1.1).getD (i % 32) 0, bad (i / 32))
    let at_ := fPART w * 2
    let f2 := f1.writeV (fVC w) fun j =>
      if j = at_ then some (BitVec.ofNat 8 b0.2.1, bad 0) else if j = at_ + 1 then some (BitVec.ofNat 8 b1.2.1, bad 1) else none
    .ok (((s.setTc n f2).setArith n (b0.2.2 ||| b1.2.2)).bump (Reg.DBG_TC_VQNT n) k) (pc + 16)

/-- VQNT. -/
def execVqnt (n : Fin 32) (chk : FrondCheck) (s : State) : Res := .next (s.issue n 2 0x0F chk (qntBody n))

/-! ### Reduction (R258) -/

/-- The operation of VRED by FN on one pair. -/
def redOp (int : Bool) (fn a b : Nat) : Nat × Nat :=
  if int then
    (if fn = 0 then (a + b) % 2 ^ 32
     else if fn = 1 then (if signedOf 32 a < signedOf 32 b then b else a)
     else (if signedOf 32 b < signedOf 32 a then b else a), 0)
  else if fn = 0 ∨ fn = 3 then add32 a b else if fn = 2 then min32 a b else max32 a b

/-- The identity of VRED by FN. -/
def redIdent (int : Bool) (fn : Nat) : Nat :=
  if int then (if fn = 0 then 0 else if fn = 1 then 0x80000000 else 0x7FFFFFFF)
  else if fn = 0 ∨ fn = 3 then 0x80000000 else if fn = 1 then 0xFF800000 else if fn = 2 then 0x7F800000 else 0

/-- One level of the tree: the lower half with the upper half. -/
def redLevel (int : Bool) (fn : Nat) (x : List Nat × Nat) (k : Nat) : List Nat × Nat :=
  let r := (List.range k).map fun i => redOp int fn (x.1.getD i 0) (x.1.getD (i + k) 0)
  (r.map (·.1), r.foldl (fun a y => a ||| y.2) x.2)

/-- The fixed tree over 64 values: the result and the status. -/
def redTree (int : Bool) (fn : Nat) (t : List Nat) : Nat × Nat :=
  let r := [32, 16, 8, 4, 2, 1].foldl (redLevel int fn) (t, 0)
  (r.1.getD 0 0, r.2)

/-- VRED. -/
def redBody (n : Nat) (s : State) (w pc : Nat) : Issue :=
  if !vecOk (vINT ||| vVA ||| vSX ||| vVLEN ||| vFN) w || 4 < fFN w || (fINT w && 2 < fFN w) then .fail s 0x0601 false
  else
    let f := s.tc n
    let k := activeLanes w
    let sq (i : Nat) := mul32 (f.lane (fVA w) i) (f.lane (fVA w) i)
    let t := (List.range 64).map fun i =>
      if k ≤ i then redIdent (fINT w) (fFN w)
      else if fFN w = 3 then (sq i).1
      else if fFN w = 4 then f.lane (fVA w) i % 2 ^ 31 else f.lane (fVA w) i
    let st0 := if fFN w = 3 then (List.range k).foldl (fun a i => a ||| (sq i).2) 0 else 0
    let (v, st) := redTree (fINT w) (fFN w) t
    let bad := (List.range k).any fun i => f.vMark (fVA w) i
    .ok (((s.setTc n (f.setS (fSX w) v bad)).setArith n (st ||| st0)).bump (Reg.DBG_TC_VRED n) k) (pc + 16)

/-- VRED. -/
def execVred (n : Fin 32) (chk : FrondCheck) (s : State) : Res := .next (s.issue n 2 0x10 chk (redBody n))

/-! ### Moves (R259) -/

/-- The scratch address of VLD and VST. -/
def Frond.moveAddr (f : Frond) (w : Nat) : Nat := (f.sreg (fSS w) + codeOf 64 (signedOf 32 (fIMM w))) % 2 ^ 64

/-- VLD. -/
def vldBody (n : Nat) (s : State) (w pc : Nat) : Issue :=
  let f := s.tc n
  let a := f.moveAddr w
  let size := 64 * (fFN w + 1)
  if !vecOk (vVD ||| vSS ||| vFN ||| vIMM) w || 3 < fFN w then .fail s 0x0601 false
  else if f.sMark (fSS w) then .fail s 0x060B false
  else if !scratchOk a size then .fail s 0x0602 false
  else if f.loadBusy a size then .stall
  else
    let bs := f.scr a size
    .ok (s.setTc n (f.writeV (fVD w) fun k =>
      if k < size then some (bs.getD k 0#8, f.lineBad.contains ((a + k) / 64)) else none)) (pc + 16)

/-- VLD. -/
def execVld (n : Fin 32) (chk : FrondCheck) (s : State) : Res := .next (s.issue n 2 0x11 chk (vldBody n))

/-- VST. -/
def vstBody (n : Nat) (s : State) (w pc : Nat) : Issue :=
  let f := s.tc n
  let a := f.moveAddr w
  let size := 64 * (fFN w + 1)
  if !vecOk (vVA ||| vSS ||| vFN ||| vIMM) w || 3 < fFN w then .fail s 0x0601 false
  else if f.sMark (fSS w) then .fail s 0x060B false
  else if !scratchOk a size then .fail s 0x0602 false
  else if f.loadBusy a size || f.mmaReads a size then .stall
  else
    let f1 := f.setScr a ((f.vBytes (fVA w)).take size)
    .ok (s.setTc n ((List.range (fFN w + 1)).foldl (fun (g : Frond) k => g.markLine (a / 64 + k) (f.vBad.contains (fVA w * 4 + k))) f1))
      (pc + 16)

/-- VST. -/
def execVst (n : Fin 32) (chk : FrondCheck) (s : State) : Res := .next (s.issue n 2 0x12 chk (vstBody n))

/-- VRDACC. -/
def rdaccBody (n : Nat) (s : State) (w pc : Nat) : Issue :=
  let f := s.tc n
  let row := f.sreg (fSS w) + fIMM w
  if !vecOk (vVD ||| vSS ||| vFN ||| vIMM) w || 7 < fFN w then .fail s 0x0601 false
  else if f.sMark (fSS w) then .fail s 0x060B false
  else if 128 ≤ row then .fail s 0x060A false
  else if f.tileBusy (fFN w) then .stall
  else
    .ok (s.setTc n (f.writeLanes (fVD w) fun i =>
      some (f.elem (fFN w) row i, f.accBad.contains (accGroup (fFN w) row i)))) (pc + 16)

/-- VRDACC. -/
def execVrdacc (n : Fin 32) (chk : FrondCheck) (s : State) : Res := .next (s.issue n 2 0x13 chk (rdaccBody n))

/-- VWRACC. -/
def wraccBody (n : Nat) (s : State) (w pc : Nat) : Issue :=
  let f := s.tc n
  let row := f.sreg (fSS w) + fIMM w
  if !vecOk (vVA ||| vSS ||| vFN ||| vIMM) w || 7 < fFN w then .fail s 0x0601 false
  else if f.sMark (fSS w) then .fail s 0x060B false
  else if 128 ≤ row then .fail s 0x060A false
  else if f.tileBusy (fFN w) then .stall
  else
    let f1 := (List.range 64).foldl (fun (g : Frond) i => g.setElem (fFN w) row i (f.lane (fVA w) i)) f
    let bad := (List.range 4).foldl (fun l g =>
      let key := accGroup (fFN w) row (16 * g)
      if f.vBad.contains (fVA w * 4 + g) then insSorted key l else l.filter (· != key)) f1.accBad
    .ok (s.setTc n { f1 with accBad := bad }) (pc + 16)

/-- VWRACC. -/
def execVwracc (n : Fin 32) (chk : FrondCheck) (s : State) : Res := .next (s.issue n 2 0x14 chk (wraccBody n))

/-- VBCST. -/
def bcstBody (n : Nat) (s : State) (w pc : Nat) : Issue :=
  if !vecOk (wm 0 18 1 ||| vVD ||| vSS ||| vVLEN ||| vIMM) w || (if fBCI w then fSS w != 0 else fIMM w != 0) then .fail s 0x0601 false
  else
    let f := s.tc n
    let v := if fBCI w then (fIMM w, false) else (f.sreg (fSS w) % 2 ^ 32, f.sMark (fSS w))
    .ok (s.setTc n (f.writeLanes (fVD w) fun i => if i < activeLanes w then some v else none)) (pc + 16)

/-- VBCST. -/
def execVbcst (n : Fin 32) (chk : FrondCheck) (s : State) : Res := .next (s.issue n 2 0x15 chk (bcstBody n))

/-- VIOTA. -/
def execViota (n : Fin 32) (chk : FrondCheck) (s : State) : Res :=
  .next (s.issue n 2 0x16 chk fun s w pc =>
    if !vecOk (vVD ||| vVLEN ||| vIMM) w then .fail s 0x0601 false
    else .ok (s.setTc n ((s.tc n).writeLanes (fVD w) fun i =>
      if i < activeLanes w then some ((fIMM w + i) % 2 ^ 32, false) else none)) (pc + 16))

/-- VLANE. -/
def execVlane (n : Fin 32) (chk : FrondCheck) (s : State) : Res :=
  .next (s.issue n 2 0x17 chk fun s w pc =>
    let f := s.tc n
    if !vecOk (vVA ||| vSX ||| vIMM) w || 63 < fIMM w then .fail s 0x0601 false
    else .ok (s.setTc n (f.setS (fSX w) (f.lane (fVA w) (fIMM w)) (f.vMark (fVA w) (fIMM w)))) (pc + 16))

/-- VSTAT (R260, R230). -/
def execVstat (n : Fin 32) (chk : FrondCheck) (s : State) : Res :=
  .next (s.issue n 2 0x18 chk fun s w pc =>
    if !vecOk vSX w then .fail s 0x0601 false
    else .ok (s.setTc n ((s.tc n).setS (fSX w) ((s.tc n).arith % 8))) (pc + 16))

/-- The field of a descriptor that FN selects (R260). -/
def Desc.query (d : Desc) (count fn : Nat) : Nat :=
  if fn ≤ 4 then (if fn < d.viewRank then (d.viewDims count).getD fn 0 else 0)
  else if fn = 8 then d.tscale
  else if fn = 9 then d.etype
  else if fn = 10 then d.viewRank
  else if fn = 11 then (if d.isSharded then d.shardCoord else 0)
  else if d.isSharded then d.replica else 0

/-- DQRY. -/
def dqryBody (n : Nat) (s : State) (w pc : Nat) : Issue :=
  let f := s.tc n
  let p := s.tcPt n
  if !vecOk (wm 0 17 1 ||| vSS ||| vSX ||| vFN ||| vIMM) w || !(fFN w ≤ 4 || (8 ≤ fFN w && fFN w ≤ 12)) ||
      (if fBCS w then fIMM w != 0 else fSS w != 0 || 65536 ≤ fIMM w) then .fail s 0x0601 false
  else if fBCS w && f.sMark (fSS w) then .fail s 0x060B false
  else
    let h := if fBCS w then f.sreg (fSS w) % 65536 else fIMM w
    match s.capture p h 0xD35C with
    | (.error (code, x), s1) =>
      if code = 0x0503 then .fail (s1.oob p (uTc n) (some h) x (s1.entryAddr p h)) 0x0503 true else .fail s1 code false
    | (.ok image, s1) =>
      let d := Desc.ofBytes image
      let count : Option Nat := if d.isIndexed then s1.indexCount p d else some 0
      match count with
      | none => .fail s1 0x0506 false
      | some c => .ok (s1.setTc n ((s1.tc n).setS (fSX w) (d.query c (fFN w)))) (pc + 16)

/-- DQRY. -/
def execDqry (n : Fin 32) (chk : FrondCheck) (s : State) : Res := .next (s.issue n 2 0x19 chk (dqryBody n))

/-! ### Scalar and control (R261 to R263) -/

/-- FN of the scalar format. -/
def cFN (w : Nat) : Nat := wfld w 1 8 8
/-- SRC1. -/
def cSRC1 (w : Nat) : Nat := wfld w 0 6 6
/-- SRC2. -/
def cSRC2 (w : Nat) : Nat := wfld w 1 0 6
/-- IMM_LO. -/
def cLO (w : Nat) : Nat := wfld w 2 0 32

/-- A 64-bit scalar operation (R262). -/
def saluOp (fn a b : Nat) : Nat :=
  let x := signedOf 64 a
  let y := signedOf 64 b
  match fn with
  | 0x00 => (a + b) % 2 ^ 64
  | 0x01 => (a + 2 ^ 64 - b) % 2 ^ 64
  | 0x02 => a * b % 2 ^ 64
  | 0x03 => a * b / 2 ^ 64
  | 0x04 => if b = 0 then 2 ^ 64 - 1 else a / b
  | 0x05 => if b = 0 then 2 ^ 64 - 1 else codeOf 64 (x.tdiv y)
  | 0x06 => if b = 0 then a else a % b
  | 0x07 => if b = 0 then a else codeOf 64 (x.tmod y)
  | 0x08 => a &&& b
  | 0x09 => a ||| b
  | 0x0A => a ^^^ b
  | 0x0B => a * 2 ^ (b % 64) % 2 ^ 64
  | 0x0C => a / 2 ^ (b % 64)
  | 0x0D => codeOf 64 (x / (2 ^ (b % 64) : Nat))
  | 0x0E => if y < x then b else a
  | 0x0F => if x < y then b else a
  | 0x10 => min a b
  | 0x11 => max a b
  | 0x12 => if x < y then 1 else 0
  | _ => if a < b then 1 else 0

/-- Count a scalar or control instruction (R540). -/
def State.countScalar (s : State) (n : Nat) : State := s.bump (Reg.DBG_TC_SCALAR n) 1

/-- SALU. -/
def saluBody (n : Nat) (s : State) (w pc : Nat) : Issue :=
  let f := s.tc n
  let imm := bitAt w 16
  if (w &&& (wmOp ||| wm 0 16 1 ||| wm 0 0 12 ||| wm 1 0 6 ||| wm 1 8 8 ||| wm 2 0 32) ≠ w) ∨ 0x13 < cFN w ∨
      (if imm then cSRC2 w ≠ 0 else cLO w ≠ 0) then .fail s 0x0601 false
  else
    let b := if imm then (codeOf 64 (signedOf 32 (cLO w)), false) else (f.sreg (cSRC2 w), f.sMark (cSRC2 w))
    let v := saluOp (cFN w) (f.sreg (cSRC1 w)) b.1
    .ok ((s.setTc n (f.setS (wfld w 0 0 6) v (f.sMark (cSRC1 w) || b.2))).countScalar n) (pc + 16)

/-- SALU. -/
def execFrondSalu (n : Fin 32) (chk : FrondCheck) (s : State) : Res := .next (s.issue n 2 0x20 chk (saluBody n))

/-- SLI. -/
def execFrondSli (n : Fin 32) (chk : FrondCheck) (s : State) : Res :=
  .next (s.issue n 2 0x21 chk fun s w pc =>
    if w &&& (wmOp ||| wm 0 0 6 ||| wm 2 0 32 ||| wm 3 0 32) ≠ w then .fail s 0x0601 false
    else .ok ((s.setTc n ((s.tc n).setS (wfld w 0 0 6) (wfld w 3 0 32 * 2 ^ 32 + cLO w))).countScalar n) (pc + 16))

/-- The condition of BR (R263). -/
def brTaken (fn a b : Nat) : Bool :=
  match fn with
  | 0 => a == b
  | 1 => a != b
  | 2 => signedOf 64 a < signedOf 64 b
  | 3 => signedOf 64 b ≤ signedOf 64 a
  | 4 => a < b
  | 5 => b ≤ a
  | _ => true

/-- BR: the line of a taken branch's target is fetched, and a target that cannot be fetched fails the BR with 0x0605. -/
def brBody (n : Nat) (s : State) (w pc : Nat) : Issue :=
  let f := s.tc n
  if (w &&& (wmOp ||| wm 0 6 6 ||| wm 1 0 6 ||| wm 1 8 8 ||| wm 2 0 32) ≠ w) ∨ 6 < cFN w then .fail s 0x0601 false
  else if f.sMark (cSRC1 w) || f.sMark (cSRC2 w) then .fail s 0x060B false
  else if !brTaken (cFN w) (f.sreg (cSRC1 w)) (f.sreg (cSRC2 w)) then .ok (s.countScalar n) (pc + 16)
  else
    let t := codeOf 64 ((pc : Int) + signedOf 32 (cLO w) * 16)
    match s.fetchLine n t with
    | (s1, true) => .ok (s1.countScalar n) t
    | (s1, false) => .fail s1 0x0605 false

/-- BR. -/
def execFrondBr (n : Fin 32) (chk : FrondCheck) (s : State) : Res := .next (s.issue n 2 0x22 chk (brBody n))

/-- END: nothing issues after it; the operation ends by FROND_OP_END (R223). -/
def execEndOp (n : Fin 32) (chk : FrondCheck) (s : State) : Res :=
  .next (s.issue n 2 0x23 chk fun s w pc =>
    if w &&& wmOp ≠ w then .fail s 0x0601 false
    else .ok ((s.setTc n { s.tc n with retired := true }).countScalar n) (pc + 16))

end Sys2Proof.Machine
end

