-- ==== Sys2Proof/Machine/Dispatch.lean ====
section
/-! DEFINITION. Sys2Proof/Machine/Dispatch.lean: each command to its meaning. -/

namespace Sys2Proof.Machine

/-- The effect of a command on everything but the queue of waiting commands. -/
def exec (i : Instr) (s : State) : Host.Outcome State Fault Refusal :=
  match i with
  | .registerWrite fn offset wide value => Sys2Proof.Machine.execRegisterWrite fn offset wide value s
  | .rcRead fn offset => Sys2Proof.Machine.execRcRead fn offset s
  | .counterLowRead fn offset => Sys2Proof.Machine.execCounterLowRead fn offset s
  | .dtNowLowRead hi => Sys2Proof.Machine.execDtNowLowRead hi s
  | .csiCtrlWrite n value => Sys2Proof.Machine.execCsiCtrlWrite n value s
  | .csiCalibrationComplete n => Sys2Proof.Machine.execCsiCalibrationComplete n s
  | .laneLockFailure n => Sys2Proof.Machine.execLaneLockFailure n s
  | .ulpsTransition n lane enter => Sys2Proof.Machine.execUlpsTransition n lane enter s
  | .streamRegWrite m reg value => Sys2Proof.Machine.execStreamRegWrite m reg value s
  | .longPacket n vc dt payload chk => Sys2Proof.Machine.execLongPacket n vc dt payload chk s
  | .frameStart n vc fnum => Sys2Proof.Machine.execFrameStart n vc fnum s
  | .frameEnd n vc => Sys2Proof.Machine.execFrameEnd n vc s
  | .frameTimeout m => Sys2Proof.Machine.execFrameTimeout m s
  | .recRelease m value => Sys2Proof.Machine.execRecRelease m value s
  | .ispCtxCfgWrite u src value => Sys2Proof.Machine.execIspCtxCfgWrite u src value s
  | .pbPost u dva => Sys2Proof.Machine.execPbPost u dva s
  | .pbFetchComplete u => Sys2Proof.Machine.execPbFetchComplete u s
  | .ispRowOutput u => Sys2Proof.Machine.execIspRowOutput u s
  | .ispStatsWrite u => Sys2Proof.Machine.execIspStatsWrite u s
  | .brackenJobAccept e => Sys2Proof.Machine.execBrackenJobAccept e s
  | .brackenRowStart e => Sys2Proof.Machine.execBrackenRowStart e s
  | .brackenRowDone e => Sys2Proof.Machine.execBrackenRowDone e s
  | .brackenWaitTimeout e k => Sys2Proof.Machine.execBrackenWaitTimeout e k s
  | .brackenJobComplete e k => Sys2Proof.Machine.execBrackenJobComplete e k s
  | .descRewriteComplete => Sys2Proof.Machine.execDescRewriteComplete s
  | .crzLoad g => Sys2Proof.Machine.execCrzLoad g s
  | .crzLoadComplete g => Sys2Proof.Machine.execCrzLoadComplete g s
  | .crzUnload g => Sys2Proof.Machine.execCrzUnload g s
  | .crzAbort g => Sys2Proof.Machine.execCrzAbort g s
  | .crzTrigger g => Sys2Proof.Machine.execCrzTrigger g s
  | .crzCfgWrite g value => Sys2Proof.Machine.execCrzCfgWrite g value s
  | .crzTimerTrigger g => Sys2Proof.Machine.execCrzTimerTrigger g s
  | .crzNodeStart g inst node ns => Sys2Proof.Machine.execCrzNodeStart g inst node ns s
  | .crzBudgetExpiry g slot => Sys2Proof.Machine.execCrzBudgetExpiry g slot s
  | .dscCreate p handle => Sys2Proof.Machine.execDscCreate p handle s
  | .dscReplace p handle => Sys2Proof.Machine.execDscReplace p handle s
  | .dscReplaceInv p handle => Sys2Proof.Machine.execDscReplaceInv p handle s
  | .dscDestroy p handle => Sys2Proof.Machine.execDscDestroy p handle s
  | .dscInval p handle => Sys2Proof.Machine.execDscInval p handle s
  | .dscInvalAll p => Sys2Proof.Machine.execDscInvalAll p s
  | .dscCmdComplete p => Sys2Proof.Machine.execDscCmdComplete p s
  | .rgnWrite => Sys2Proof.Machine.execRgnWrite s
  | .rgnRead => Sys2Proof.Machine.execRgnRead s
  | .rgnClear => Sys2Proof.Machine.execRgnClear s
  | .rgnCmdComplete => Sys2Proof.Machine.execRgnCmdComplete s
  | .frondOpStart n => Sys2Proof.Machine.execFrondOpStart n s
  | .frondOpEnd n => Sys2Proof.Machine.execFrondOpEnd n s
  | .frondAbortComplete n => Sys2Proof.Machine.execFrondAbortComplete n s
  | .frondZeroingComplete n => Sys2Proof.Machine.execFrondZeroingComplete n s
  | .mma n chk => Sys2Proof.Machine.execMma n chk s
  | .mmaComplete n => Sys2Proof.Machine.execMmaComplete n s
  | .tload n chk => Sys2Proof.Machine.execTload n chk s
  | .tloadComplete n => Sys2Proof.Machine.execTloadComplete n s
  | .tstore n chk => Sys2Proof.Machine.execTstore n chk s
  | .tstoreComplete n => Sys2Proof.Machine.execTstoreComplete n s
  | .tclr n chk => Sys2Proof.Machine.execTclr n chk s
  | .vadd n chk => Sys2Proof.Machine.execVadd n chk s
  | .vsub n chk => Sys2Proof.Machine.execVsub n chk s
  | .vmul n chk => Sys2Proof.Machine.execVmul n chk s
  | .vfma n chk => Sys2Proof.Machine.execVfma n chk s
  | .vmin n chk => Sys2Proof.Machine.execVmin n chk s
  | .vmax n chk => Sys2Proof.Machine.execVmax n chk s
  | .vdiv n chk => Sys2Proof.Machine.execVdiv n chk s
  | .vsqrt n chk => Sys2Proof.Machine.execVsqrt n chk s
  | .vcmp n chk => Sys2Proof.Machine.execVcmp n chk s
  | .vsel n chk => Sys2Proof.Machine.execVsel n chk s
  | .vlogic n chk => Sys2Proof.Machine.execVlogic n chk s
  | .vshift n chk => Sys2Proof.Machine.execVshift n chk s
  | .vsfu n chk => Sys2Proof.Machine.execVsfu n chk s
  | .vcvt n chk => Sys2Proof.Machine.execVcvt n chk s
  | .vqnt n chk => Sys2Proof.Machine.execVqnt n chk s
  | .vred n chk => Sys2Proof.Machine.execVred n chk s
  | .vld n chk => Sys2Proof.Machine.execVld n chk s
  | .vst n chk => Sys2Proof.Machine.execVst n chk s
  | .vrdacc n chk => Sys2Proof.Machine.execVrdacc n chk s
  | .vwracc n chk => Sys2Proof.Machine.execVwracc n chk s
  | .vbcst n chk => Sys2Proof.Machine.execVbcst n chk s
  | .viota n chk => Sys2Proof.Machine.execViota n chk s
  | .vlane n chk => Sys2Proof.Machine.execVlane n chk s
  | .vstat n chk => Sys2Proof.Machine.execVstat n chk s
  | .dqry n chk => Sys2Proof.Machine.execDqry n chk s
  | .frondSalu n chk => Sys2Proof.Machine.execFrondSalu n chk s
  | .frondSli n chk => Sys2Proof.Machine.execFrondSli n chk s
  | .frondBr n chk => Sys2Proof.Machine.execFrondBr n chk s
  | .endOp n chk => Sys2Proof.Machine.execEndOp n chk s
  | .frondSignal n chk => Sys2Proof.Machine.execFrondSignal n chk s
  | .frondWait n chk => Sys2Proof.Machine.execFrondWait n chk s
  | .fset n chk => Sys2Proof.Machine.execFset n chk s
  | .fread n chk => Sys2Proof.Machine.execFread n chk s
  | .frondFence n chk => Sys2Proof.Machine.execFrondFence n chk s
  | .flagSignalApply f ue => Sys2Proof.Machine.execFlagSignalApply f ue s
  | .flagSetApply f ue => Sys2Proof.Machine.execFlagSetApply f ue s
  | .flagWaitSatisfied f => Sys2Proof.Machine.execFlagWaitSatisfied f s
  | .waitTimeout channel n => Sys2Proof.Machine.execWaitTimeout channel n s
  | .flagValueWrite fn f value ue => Sys2Proof.Machine.execFlagValueWrite fn f value ue s
  | .flagAddWrite fn f value ue => Sys2Proof.Machine.execFlagAddWrite fn f value ue s
  | .gsLoad p => Sys2Proof.Machine.execGsLoad p s
  | .gsLoadComplete p => Sys2Proof.Machine.execGsLoadComplete p s
  | .gsUnload p => Sys2Proof.Machine.execGsUnload p s
  | .gsAbort p => Sys2Proof.Machine.execGsAbort p s
  | .setprio p => Sys2Proof.Machine.execSetprio p s
  | .gsLaunch p handle => Sys2Proof.Machine.execGsLaunch p handle s
  | .gsDispatch p => Sys2Proof.Machine.execGsDispatch p s
  | .gsOpRelease p => Sys2Proof.Machine.execGsOpRelease p s
  | .gsDelayTick p => Sys2Proof.Machine.execGsDelayTick p s
  | .gsBudgetExpiry p handle => Sys2Proof.Machine.execGsBudgetExpiry p handle s
  | .copy2Request p handle run op => Sys2Proof.Machine.execCopy2Request p handle run op s
  | .deadlockDeclare p => Sys2Proof.Machine.execDeadlockDeclare p s
  | .movStart ch => Sys2Proof.Machine.execMovStart ch s
  | .movAbort ch => Sys2Proof.Machine.execMovAbort ch s
  | .movResume ch => Sys2Proof.Machine.execMovResume ch s
  | .movRingReset ch => Sys2Proof.Machine.execMovRingReset ch s
  | .movMove ch => Sys2Proof.Machine.execMovMove ch s
  | .movMovx ch => Sys2Proof.Machine.execMovMovx ch s
  | .chLoop ch => Sys2Proof.Machine.execChLoop ch s
  | .chEndl ch => Sys2Proof.Machine.execChEndl ch s
  | .chWait ch => Sys2Proof.Machine.execChWait ch s
  | .chSignal ch => Sys2Proof.Machine.execChSignal ch s
  | .chSetv ch => Sys2Proof.Machine.execChSetv ch s
  | .chHalt ch => Sys2Proof.Machine.execChHalt ch s
  | .moverBeatIssue m write => Sys2Proof.Machine.execMoverBeatIssue m write s
  | .moverReadReturn ch => Sys2Proof.Machine.execMoverReadReturn ch s
  | .moverWriteAck ch => Sys2Proof.Machine.execMoverWriteAck ch s
  | .moverBusError ch write => Sys2Proof.Machine.execMoverBusError ch write s
  | .moverRunComplete ch => Sys2Proof.Machine.execMoverRunComplete ch s
  | .chDoneSignal ch => Sys2Proof.Machine.execChDoneSignal ch s
  | .chDrainRead ch => Sys2Proof.Machine.execChDrainRead ch s
  | .chDrainReturn ch => Sys2Proof.Machine.execChDrainReturn ch s
  | .drainTimeout channel f => Sys2Proof.Machine.execDrainTimeout channel f s
  | .sporeSubmit ch value => Sys2Proof.Machine.execSporeSubmit ch value s
  | .sporeComplete ch => Sys2Proof.Machine.execSporeComplete ch s
  | .cleanRange p => Sys2Proof.Machine.execCleanRange p s
  | .flushRange p => Sys2Proof.Machine.execFlushRange p s
  | .flushAll p => Sys2Proof.Machine.execFlushAll p s
  | .releaseRetained p => Sys2Proof.Machine.execReleaseRetained p s
  | .cacheCmdComplete p => Sys2Proof.Machine.execCacheCmdComplete p s
  | .s1All p => Sys2Proof.Machine.execS1All p s
  | .s1Range p => Sys2Proof.Machine.execS1Range p s
  | .s2All fn p => Sys2Proof.Machine.execS2All fn p s
  | .s2Range fn p => Sys2Proof.Machine.execS2Range fn p s
  | .xlatCmdComplete p => Sys2Proof.Machine.execXlatCmdComplete p s
  | .waysWrite fn p value => Sys2Proof.Machine.execWaysWrite fn p value s
  | .pasrWrite value => Sys2Proof.Machine.execPasrWrite value s
  | .cacheFill p reader inst pa check => Sys2Proof.Machine.execCacheFill p reader inst pa check s
  | .imbalanceWindow total busiest busyCount pt => Sys2Proof.Machine.execImbalanceWindow total busiest busyCount pt s
  | .mr4Poll tempC channel => Sys2Proof.Machine.execMr4Poll tempC channel s
  | .qosInterval => Sys2Proof.Machine.execQosInterval s
  | .unitAssign p => Sys2Proof.Machine.execAssign p s
  | .unitRelease p => Sys2Proof.Machine.execUnitRelease p s
  | .chunkGrant p => Sys2Proof.Machine.execGrant p s
  | .chunkFillComplete => Sys2Proof.Machine.execChunkFillComplete s
  | .chunkRelease p => Sys2Proof.Machine.execChunkRelease p s
  | .modeWrite fn p value => Sys2Proof.Machine.execModeWrite fn p value s
  | .doorbellTail p malformed ring epoch value => Sys2Proof.Machine.execDoorbellTail p malformed ring epoch value s
  | .doorbellHead p malformed ring epoch value => Sys2Proof.Machine.execDoorbellHead p malformed ring epoch value s
  | .ringEntriesArrive ring hostData hostBad => Sys2Proof.Machine.execRingEntriesArrive ring hostData hostBad s
  | .itemLaunch ring => Sys2Proof.Machine.execItemLaunch ring s
  | .itemSignal ring => Sys2Proof.Machine.execItemSignal ring s
  | .itemSet ring => Sys2Proof.Machine.execItemSet ring s
  | .itemTrigger ring => Sys2Proof.Machine.execItemTrigger ring s
  | .itemMstart ring => Sys2Proof.Machine.execItemMstart ring s
  | .itemDsc ring => Sys2Proof.Machine.execItemDsc ring s
  | .itemNop ring => Sys2Proof.Machine.execItemNop ring s
  | .completionPost ring => Sys2Proof.Machine.execCompletionPost ring s
  | .holdoffExpiry ring => Sys2Proof.Machine.execHoldoffExpiry ring s
  | .qmRingFlush ring => Sys2Proof.Machine.execQmRingFlush ring s
  | .qmRingFlushAll ring => Sys2Proof.Machine.execQmRingFlushAll ring s
  | .qmRingReset ring => Sys2Proof.Machine.execQmRingReset ring s
  | .ringCfgWrite ring value => Sys2Proof.Machine.execRingCfgWrite ring value s
  | .vmapWrite fn p f value => Sys2Proof.Machine.execVmapWrite fn p f value s
  | .qosMemWrite fn p value => Sys2Proof.Machine.execQosMemWrite fn p value s
  | .qosLinkWrite fn p value => Sys2Proof.Machine.execQosLinkWrite fn p value s
  | .ptDrainRead p => Sys2Proof.Machine.execPtDrainRead p s
  | .ptDrainReturn p => Sys2Proof.Machine.execPtDrainReturn p s
  | .partitionReset p => Sys2Proof.Machine.execPartitionReset p s
  | .functionReset fn => Sys2Proof.Machine.execFunctionReset fn s
  | .vfEnableClear => Sys2Proof.Machine.execVfEnableClear s
  | .ptResetAccessesDone p => Sys2Proof.Machine.execPtResetAccessesDone p s
  | .ptScrubComplete p => Sys2Proof.Machine.execPtScrubComplete p s
  | .ptZeroingComplete p => Sys2Proof.Machine.execPtZeroingComplete p s
  | .unexpectedCompletion p => Sys2Proof.Machine.execUnexpectedCompletion p s
  | .lnkCtrlWrite n value => Sys2Proof.Machine.execLnkCtrlWrite n value s
  | .trainingComplete n neighbour nrole authOk joining peerNow => Sys2Proof.Machine.execTrainingComplete n neighbour nrole authOk joining peerNow s
  | .trainingFailure n => Sys2Proof.Machine.execTrainingFailure n s
  | .trainingRetry n => Sys2Proof.Machine.execTrainingRetry n s
  | .flitReceive n check kind seq creditVc credits packets => Sys2Proof.Machine.execFlitReceive n check kind seq creditVc credits packets s
  | .nakReceive n lastGood => Sys2Proof.Machine.execNakReceive n lastGood s
  | .nakLimit n => Sys2Proof.Machine.execNakLimit n s
  | .flitTimeout n => Sys2Proof.Machine.execFlitTimeout n s
  | .linkWrite pk => Sys2Proof.Machine.execLinkWrite pk s
  | .linkRead pk => Sys2Proof.Machine.execLinkRead pk s
  | .readResp tag status poison data => Sys2Proof.Machine.execReadResp tag status poison data s
  | .writeAck tag status => Sys2Proof.Machine.execWriteAck tag status s
  | .linkSignal pk => Sys2Proof.Machine.execLinkSignal pk s
  | .signalAck tag status => Sys2Proof.Machine.execSignalAck tag status s
  | .respTimeout tag => Sys2Proof.Machine.execRespTimeout tag s
  | .heartbeatBroadcast => Sys2Proof.Machine.execHeartbeatBroadcast s
  | .lnkHeartbeat src mepoch sysGen => Sys2Proof.Machine.execHeartbeat src mepoch sysGen s
  | .heartbeatAnswer src => Sys2Proof.Machine.execHeartbeatAnswer src s
  | .lossTimeout dev => Sys2Proof.Machine.execLossTimeout dev s
  | .lossNotice dev sysGen => Sys2Proof.Machine.execLossNotice dev sysGen s
  | .masterTimeout => Sys2Proof.Machine.execMasterTimeout s
  | .masterNotice src mepoch => Sys2Proof.Machine.execMasterNotice src mepoch s
  | .standbyWrite value => Sys2Proof.Machine.execStandbyWrite value s
  | .standbyNotice value => Sys2Proof.Machine.execStandbyNotice value s
  | .timeExchange errNs => Sys2Proof.Machine.execTimeExchange errNs s
  | .timeStepNotice ns => Sys2Proof.Machine.execTimeStepNotice ns s
  | .errorReport src code subjClass subjInst info time => Sys2Proof.Machine.execErrorReport src code subjClass subjInst info time s
  | .freezePacket n originator seq => Sys2Proof.Machine.execFreezePacket n originator seq s
  | .bindWrite => Sys2Proof.Machine.execBindWrite s
  | .bindRead => Sys2Proof.Machine.execBindRead s
  | .bindClear => Sys2Proof.Machine.execBindClear s
  | .aliasWrite d value => Sys2Proof.Machine.execAliasWrite d value s
  | .ckptEnable value => Sys2Proof.Machine.execCkptEnable value s
  | .ckptRequest => Sys2Proof.Machine.execCkptRequest s
  | .ckptSnapshot => Sys2Proof.Machine.execCkptSnapshot s
  | .ckptBegin epoch total => Sys2Proof.Machine.execCkptBegin epoch total s
  | .ckptData epoch data => Sys2Proof.Machine.execCkptData epoch data s
  | .ckptCommit epoch crc snap => Sys2Proof.Machine.execCkptCommit epoch crc snap s
  | .ckptAck epoch code => Sys2Proof.Machine.execCkptAck epoch code s
  | .secAttest p => Sys2Proof.Machine.execSecAttest p s
  | .secChain p => Sys2Proof.Machine.execSecChain p s
  | .secSession p => Sys2Proof.Machine.execSecSession p s
  | .secImport p => Sys2Proof.Machine.execSecImport p s
  | .secExport p => Sys2Proof.Machine.execSecExport p s
  | .confEnable p => Sys2Proof.Machine.execConfEnable p s
  | .confDisable p => Sys2Proof.Machine.execConfDisable p s
  | .confGrant p => Sys2Proof.Machine.execConfGrant p s
  | .confRelease p => Sys2Proof.Machine.execConfRelease p s
  | .confMode p => Sys2Proof.Machine.execConfMode p s
  | .secUpdate p => Sys2Proof.Machine.execSecUpdate p s
  | .svnCommit p => Sys2Proof.Machine.execSvnCommit p s
  | .secCmdComplete => Sys2Proof.Machine.execSecCmdComplete s
  | .debugChallenge => Sys2Proof.Machine.execDebugChallenge s
  | .debugResponse answer => Sys2Proof.Machine.execDebugResponse answer s
  | .debugLevelLower level => Sys2Proof.Machine.execDebugLevelLower level s
  | .rngHealthFail => Sys2Proof.Machine.execRngHealthFail s
  | .rngRetry pass => Sys2Proof.Machine.execRngRetry pass s
  | .kakSliceDue n => Sys2Proof.Machine.execKakSliceDue n s
  | .kakSliceStart n => Sys2Proof.Machine.execKakSliceStart n s
  | .kakSliceEnd n => Sys2Proof.Machine.execKakSliceEnd n s
  | .kakVerdict n pass => Sys2Proof.Machine.execKakVerdict n pass s
  | .fenceCmd n => Sys2Proof.Machine.execFenceCmd n s
  | .readmitFrond n => Sys2Proof.Machine.execReadmitFrond n s
  | .readmitComplete pass => Sys2Proof.Machine.execReadmitComplete pass s
  | .ceWindowBoundary => Sys2Proof.Machine.execCeWindowBoundary s
  | .clockMonitorFault row => Sys2Proof.Machine.execClockMonitorFault row s
  | .errIrqTimer p b => Sys2Proof.Machine.execErrIrqTimer p b s
  | .latchClear p b => Sys2Proof.Machine.execLatchClear p b s
  | .checkerItem bad => Sys2Proof.Machine.execCheckerItem bad s
  | .runJudgement task key ended => Sys2Proof.Machine.execRunJudgement task key ended s
  | .recordReread task key => Sys2Proof.Machine.execRecordReread task key s
  | .programRead task key dva length => Sys2Proof.Machine.execProgramRead task key dva length s
  | .programTimeout task key => Sys2Proof.Machine.execProgramTimeout task key s
  | .copyTimeout task key => Sys2Proof.Machine.execCopyTimeout task key s
  | .latencyTimeout task key => Sys2Proof.Machine.execLatencyTimeout task key s
  | .arrivalTimeout task => Sys2Proof.Machine.execArrivalTimeout task s
  | .restartAccessesDone p => Sys2Proof.Machine.execRestartAccessesDone p s
  | .restartReloadComplete p => Sys2Proof.Machine.execRestartReloadComplete p s
  | .dutySwap deferred => Sys2Proof.Machine.execDutySwap deferred s
  | .selftestComplete pass => Sys2Proof.Machine.execSelftestComplete pass s
  | .lockstepMismatch pairB => Sys2Proof.Machine.execLockstepMismatch pairB s
  | .watchdogExpiry => Sys2Proof.Machine.execWatchdogExpiry s
  | .checkerRestartComplete => Sys2Proof.Machine.execCheckerRestartComplete s
  | .degradedLimit => Sys2Proof.Machine.execDegradedLimit s
  | .heartbeatToggle => Sys2Proof.Machine.execHeartbeatToggle s
  | .holdTest => Sys2Proof.Machine.execHoldTest s
  | .holdTestEnd => Sys2Proof.Machine.execHoldTestEnd s
  | .vddSafeFault => Sys2Proof.Machine.execVddSafeFault s
  | .safeClockFault => Sys2Proof.Machine.execSafeClockFault s
  | .p1Entry => Sys2Proof.Machine.execP1Entry s
  | .pwrCmdP2 => Sys2Proof.Machine.execPwrCmdP2 s
  | .pwrCmdP3 => Sys2Proof.Machine.execPwrCmdP3 s
  | .pwrCmdP4 => Sys2Proof.Machine.execPwrCmdP4 s
  | .autoP2Request => Sys2Proof.Machine.execAutoP2Request s
  | .rungEntryComplete => Sys2Proof.Machine.execRungEntryComplete s
  | .rungExitComplete => Sys2Proof.Machine.execRungExitComplete s
  | .thermalSample tj sensor => Sys2Proof.Machine.execThermalSample tj sensor s
  | .throttleStep power => Sys2Proof.Machine.execThrottleStep power s
  | .powerSample mw => Sys2Proof.Machine.execPowerSample mw s
  | .ppsEdge jitter => Sys2Proof.Machine.execPpsEdge jitter s
  | .ppsTimeout => Sys2Proof.Machine.execPpsTimeout s
  | .audioSample samples => Sys2Proof.Machine.execAudioSample samples s
  | .kwsFrameEnd => Sys2Proof.Machine.execKwsFrameEnd s
  | .kwsEvaluationComplete => Sys2Proof.Machine.execKwsEvaluationComplete s
  | .kwsPop => Sys2Proof.Machine.execKwsPop s
  | .kwsModelData value => Sys2Proof.Machine.execKwsModelData value s
  | .audCopy => Sys2Proof.Machine.execAudCopy s
  | .audCopyComplete => Sys2Proof.Machine.execAudCopyComplete s
  | .dbgClear mask => Sys2Proof.Machine.execDbgClear mask s
  | .ptCounterClear p => Sys2Proof.Machine.execPtCounterClear p s
  | .dbgFreeze => Sys2Proof.Machine.execDbgFreeze s
  | .dbgThaw => Sys2Proof.Machine.execDbgThaw s
  | .dbgDump pf p => Sys2Proof.Machine.execDbgDump pf p s
  | .dumpComplete pf p => Sys2Proof.Machine.execDumpComplete pf p s
  | .frameWrite frame => Sys2Proof.Machine.execFrameWrite frame s
  | .statusRead => Sys2Proof.Machine.execStatusRead s
  | .responseRead whole => Sys2Proof.Machine.execResponseRead whole s
  | .getInfo => Sys2Proof.Machine.execGetInfo s
  | .getStatus => Sys2Proof.Machine.execGetStatus s
  | .getEvent => Sys2Proof.Machine.execGetEvent s
  | .getTime => Sys2Proof.Machine.execGetTime s
  | .getErrors => Sys2Proof.Machine.execGetErrors s
  | .getAttest => Sys2Proof.Machine.execGetAttest s
  | .authOpen => Sys2Proof.Machine.execAuthOpen s
  | .authFinish => Sys2Proof.Machine.execAuthFinish s
  | .authClose => Sys2Proof.Machine.execAuthClose s
  | .authLockoutEnd => Sys2Proof.Machine.execAuthLockoutEnd s
  | .setRung => Sys2Proof.Machine.execSetRung s
  | .setPowerLimit => Sys2Proof.Machine.execSetPowerLimit s
  | .setAlertMask => Sys2Proof.Machine.execSetAlertMask s
  | .mgmtResetPartition => Sys2Proof.Machine.execMgmtResetPartition s
  | .mgmtResetDevice straps => Sys2Proof.Machine.execMgmtResetDevice straps s
  | .mgmtHoldTest => Sys2Proof.Machine.execMgmtHoldTest s
  | .coldReset => Sys2Proof.Machine.execColdReset s
  | .porstRelease straps testMode => Sys2Proof.Machine.execPorstRelease straps testMode s
  | .bootImageLoaded => Sys2Proof.Machine.execBootImageLoaded s
  | .memoryTrainingComplete => Sys2Proof.Machine.execMemoryTrainingComplete s
  | .bootReady failed => Sys2Proof.Machine.execBootReady failed s
  | .wholeDeviceRestart value straps => Sys2Proof.Machine.execWholeDeviceRestart value straps s
  | .fatalRestartTimer straps => Sys2Proof.Machine.execFatalRestartTimer straps s
  | .hostReset how straps => Sys2Proof.Machine.execHostReset how straps s
  | .mainRailFault => Sys2Proof.Machine.execMainRailFault s
  | .vddAonFault => Sys2Proof.Machine.execVddAonFault s
  | .prefetchComplete n k => Sys2Proof.Machine.execPrefetchComplete n k s
  | .assignComplete => Sys2Proof.Machine.execAssignComplete s
  | .chunkReleaseComplete => Sys2Proof.Machine.execChunkReleaseComplete s
  | .bindCmdComplete => Sys2Proof.Machine.execBindCmdComplete s
  | .vddSafeReturn => Sys2Proof.Machine.execVddSafeReturn s
  | .safeClockRecovery => Sys2Proof.Machine.execSafeClockRecovery s
  | .perstRelease => Sys2Proof.Machine.execPerstRelease s
  | .pcieLinkUp => Sys2Proof.Machine.execPcieLinkUp s
  | .pcieL1Exit => Sys2Proof.Machine.execPcieL1Exit s
  | .msixEnableSet fn => Sys2Proof.Machine.execMsixEnableSet fn s
  | .cfwSwitchComplete => Sys2Proof.Machine.execCfwSwitchComplete s
  | .testModeFall straps => Sys2Proof.Machine.execTestModeFall straps s
  | .tapExtest => Sys2Proof.Machine.execTapExtest s
  | .aon32kStable => Sys2Proof.Machine.execAon32kStable s

end Sys2Proof.Machine
end

