-- ==== Sys2Proof/Machine/Tick.lean ====
section
/-! DEFINITION. Sys2Proof/Machine/Tick.lean: what happens while no command waits. -/

namespace Sys2Proof.Machine

/-- A tick of the AON clock (R524): device time advances by DT_RATE, in units of 2⁻³² ns (assumption 41: the step with no command
waiting is this tick). -/
def State.tick (s : State) : State := { s with time := s.time + s.rdF Reg.DT_RATE 0 40 }

end Sys2Proof.Machine
end

