-- ==== Sys2Proof/Safety.lean ====
section
/-! DEFINITION. Sys2Proof/Safety.lean: what claims call a safe state and a safe step. -/

namespace Sys2Proof.Machine

/-- The tables that hold registers, memory and flags are in canonical form: keys strictly rising, no entry at the value that an
unlisted key reads as. Equal contents are then equal data. -/
def State.Canonical (s : State) : Prop :=
  Tab.canon Reg.resetOf s.regs = true ∧ Memory.wf s.mem = true ∧ Tab.canon (fun _ => ({} : Flag)) s.flags.tab = true

/-- No flag has left the range of 32 bits (R268): a signal that would wrap is refused (R270). -/
def State.FlagsFit (s : State) : Prop := ∀ e ∈ s.flags.tab, e.2.value < 2 ^ 32

/-- The invariant of the model: canonical tables, and flag values in range. -/
def State.Inv (s : State) : Prop := s.Canonical ∧ s.FlagsFit

/-- SAFE_HOLD_N is asserted (R496). -/
def State.holdAsserted (s : State) : Prop := s.safe.heldSince.isSome = true

/-- A command runs: it answers a next state, neither a fault nor a refusal. -/
def Runs (c : Instr) (s : State) : Prop := ∃ t, exec c s = .next t

/-! ### Frames -/

/-- Counting: nothing but registers, the outputs, event rings and what interrupts keep has changed (R398, R537 to R541). -/
def CountsOnly (s t : State) : Prop := t = { s with regs := t.regs, out := t.out, dbg := t.dbg, qm := t.qm }

/-- Reporting: besides, the error log in memory and the aggregator's own state may have changed (R480 to R482). -/
def ReportsOnly (s t : State) : Prop :=
  t = { s with regs := t.regs, out := t.out, dbg := t.dbg, qm := t.qm, rel := t.rel, mem := t.mem, memx := t.memx, lnk := t.lnk }

/-! ### Instructions of a Frond -/

/-- Frond `n` issues next the word `w`, of class `cls` and opcode `op` (R218, R237, R240, R253, R261, R272). -/
def State.issuesWord (s : State) (n cls op w : Nat) : Bool :=
  (s.tc n).issues && (s.tc n).word == some w && wfld w 0 28 4 == cls && wfld w 0 20 8 == op

/-- The state `u` with the instruction at Frond `n`'s pc in `s` done: the next one is at `next`, and TC_n_EXEC_PC names this one. -/
def State.moveOn (s u : State) (n next : Nat) : State :=
  (u.setTc n { u.tc n with pc := next % 2 ^ 64 }).wr (Reg.TC_EXEC_PC n) (s.tc n).pc

/-- Frond `n` has gone on by one instruction; beyond this Frond nothing but counters has changed. -/
def State.wentOn (s t : State) (n : Nat) : Prop :=
  (t.tc n).pc = ((s.tc n).pc + 16) % 2 ^ 64 ∧ t.rdN (Reg.TC_EXEC_PC n) = (s.tc n).pc % 2 ^ 64 ∧
  (∀ m, m ≠ n → t.tc m = s.tc m) ∧ CountsOnly { s with frond := t.frond } t

/-- A lane instruction `w` (R252, R230): lane i of VD holds the low 32 bits of what `op` gives from lane i of VA, operand B and
lane i of VC, for the active lanes; the other lanes and registers keep their values; the status bits accumulate; and of the
Frond nothing else has changed but the marks of VD. -/
def State.ranLanes (s t : State) (n w : Nat) (op : Nat → Nat → Nat → Nat × Nat) : Prop :=
  let f := s.tc n
  let g := t.tc n
  let res (i : Nat) := op (f.lane (fVA w) i) (f.opB w i).1 (f.lane (fVC w) i)
  s.wentOn t n ∧
  (∀ i, i < activeLanes w → g.lane (fVD w) i = (res i).1 % 2 ^ 32) ∧
  (∀ i, activeLanes w ≤ i → i < 64 → g.lane (fVD w) i = f.lane (fVD w) i % 2 ^ 32) ∧
  (∀ r i, r ≠ fVD w → i < 64 → g.lane r i = f.lane r i) ∧
  g.arith = f.arith ||| (List.range (activeLanes w)).foldl (fun a i => a ||| (res i).2) 0 ∧
  g = { f with v := g.v, vBad := g.vBad, arith := g.arith, pc := g.pc }

/-- An instruction that writes the scalar register S[d] (R212, R266): its value and its mark, and status bits; of the Frond nothing
else has changed. -/
def State.ranScalar (s t : State) (n d v : Nat) (bad : Bool) (st : Nat) : Prop :=
  let f := s.tc n
  let g := t.tc n
  s.wentOn t n ∧ g.sreg d = v % 2 ^ 64 ∧ g.sMark d = bad ∧ (∀ i, i ≠ d → g.sreg i = f.sreg i ∧ g.sMark i = f.sMark i) ∧
  g.arith = f.arith ||| st ∧ g = { f with s := g.s, sBad := g.sBad, arith := g.arith, pc := g.pc }

/-! ### Instructions of a mover channel -/

/-- Channel `n` executes next the word `w`, which its line holds at its PC (R320 to R322): RUNNING, with no instruction in progress
and outside a body that is passed over. -/
def State.chIssues (s : State) (n w : Nat) : Bool :=
  let c := s.ch n
  let pc := s.rdN (Reg.MOV_CH_PC n)
  c.live && s.chState n == 1 && c.cur.isNone && !c.failed && c.skip.isNone &&
  match c.line with
  | some (a, bs) => pc / 64 * 64 == a && getLE bs (pc % 64) 8 == w
  | none => false

/-! ### Commands of the management port -/

/-- The housekeeping controller runs request `r`, which names command `cmd` (R556, R561, R562): it serves the port, a privileged
request has a good tag, one that needs the main side finds it up, and `dead` excludes a fatal device. -/
def State.mgtAccepts (s : State) (cmd : Nat) (dead : Bool) (r : List Byte) : Bool :=
  s.mgt.request == some r && frCmd r == cmd && s.mgt.served && (!cmdAuth cmd || s.tagOk r) &&
  (!cmdMain cmd || (s.mainUp && !s.pwr.stopped)) && !(dead && s.rdB Reg.REL_STATUS 0)

/-- The state in which an accepted command runs: its SEQ is the session's last one (R561). -/
def State.mgtStarts (s : State) (cmd : Nat) (r : List Byte) : State :=
  if cmdAuth cmd then { s with mgt := { s.mgt with lastSeq := some (frSeq r) } } else s

/-- What follows the response: SEQ 0xFFFF and AUTH_CLOSE end the session (R561). -/
def State.mgtEnds (s : State) (cmd : Nat) (r : List Byte) : State :=
  if cmdAuth cmd && (frSeq r == 0xFFFF || cmd == 0x12) then s.sessionEnd else s

/-! ### Security commands -/

/-- The state while a security command runs that is to complete with `r`: its RESULT and length (R466); a refusal other than of an
access is reported (R465). -/
def State.secEnds (s : State) (op p : Nat) (r : SecRes) : State :=
  let s2 := { r.1 with sec := { r.1.sec with cmd := some ⟨op, p, r.2.1, r.2.2, s.rdF (Reg.SEC_ARG 0) 0 2 + 1⟩ } }
  if r.2.1 = 0 ∨ r.2.1 = 0x0503 then s2 else s2.secErr p r.2.1

end Sys2Proof.Machine
end

