-- ==== Sys2Proof/Certificates/Slice0/Obligations.lean ====
section
/-! DEFINITION. Sys2Proof/Certificates/Slice0/Obligations.lean: the statements about the model that are to be proved, each a
proposition. -/

section

open Sys2Proof Sys2Proof.Machine

/-- For every state whose queue is c followed by rest, a step answers what exec answers for c on the state with the queue rest. -/
def Obligations.StepRunsFrontCommand : Prop :=
  ∀ (c : Instr) (rest : List Instr) (s : State),
    step { s with pending := c :: rest } = exec c { s with pending := rest }

/-- The model's choice, assumption 41: a step on an empty queue is a tick of the AON clock. Device time grows by DT_RATE[39:0] in units of 2^-32 ns (the rate and unit of R524); every other part of the state is as before. -/
def Obligations.IdleStepTicksDeviceTime : Prop :=
  ∀ (s : State),
    s.pending = [] →
    ∃ t, step s = .next t ∧ t.time = s.time + s.rdF Reg.DT_RATE 0 40 ∧ t = { s with time := t.time }

/-- For every state that meets the invariant (register, memory and flag tables strictly rising with no entry at its default; no flag at or above 2^32), the state after any step, whatever the command, meets it: in particular no command makes a flag wrap (R268, R270). -/
def Obligations.EveryStepKeepsTheInvariant : Prop :=
  ∀ (s t : State),
    s.Inv →
    step s = .next t →
    t.Inv

/-- The invariant that every step keeps holds of the state after reset. -/
def Obligations.ResetMeetsTheInvariant : Prop :=
  State.reset.Inv

/-- Whatever command stands at the front of the queue, the state after the step has exactly the rest of the queue, the outputs so far (MSI-X messages, link packets, management frames, read data) are a prefix of the outputs after it, and the counter from which free values are drawn never goes back. The record of outputs and the counter are the model's own (assumptions 2 and 4). -/
def Obligations.EveryStepTakesOneCommandAndKeepsOutputs : Prop :=
  ∀ (c : Instr) (rest : List Instr) (s t : State),
    s.pending = c :: rest →
    step s = .next t →
    t.pending = rest ∧ s.out <+: t.out ∧ s.freeCtr ≤ t.freeCtr

/-- For every state, offsets a and b and value v: after v is stored in the register at a, the register at b reads v (64 bits) where b is a, and otherwise as before. -/
def Obligations.RegisterReadsAsLastWritten : Prop :=
  ∀ (s : State) (a v b : Nat),
    (s.wr a v).rd b = if b = a then BitVec.ofNat 64 v else s.rd b

/-- For every state, physical address, byte string and poison mark: after the store, each address of the stored range reads its byte and every other address reads as before, and memory is in canonical form if it was. -/
def Obligations.MemoryReadsAsLastWritten : Prop :=
  (∀ (s : State) (a : Nat) (bs : List Byte) (bad : Bool) (x : Nat),
    (s.storePA a bs bad).readByte x = if a ≤ x ∧ x < a + bs.length then bs.getD (x - a) 0#8 else s.readByte x) ∧
  (∀ (s : State) (a : Nat) (bs : List Byte) (bad : Bool),
    Memory.wf s.mem = true →
    Memory.wf (s.storePA a bs bad).mem = true)

/-- REGISTER_WRITE of 32 bits by the PF to a register without a row of its own: a W1C register loses the writable bits that are written 1; an RW register takes the writable bits where no range, lock or state forbids it, with what the register's chapter has follow, and a forbidden write has the stated refusal and nothing else; a write of a read-only register is ignored outside the security block. RC_READ answers the value and returns the register to its reset value. COUNTER_LOW_READ and DT_NOW_LOW_READ answer the lower half and latch the upper half, all as accesses that first wake the device (R520). -/
def Obligations.HostRegisterAccess : Prop :=
  (∀ (off : BitVec 32) (v : BitVec 64) (row : RegRow) (s : State),
    s.answers 0 off.toNat = true →
    off.toNat % 4 = 0 →
    isMsix off.toNat = false →
    ¬(0x1880000 ≤ off.toNat ∧ off.toNat < 0x1900000) →
    Reg.find off.toNat = some (row, 0) →
    (s.wake 0).hidden 0 off.toNat = false →
    row.own = false →
    row.acc = .w1c →
    exec (.registerWrite 0 off false v) s = .next ((s.wake 0).wr off.toNat
      ((s.wake 0).rdN off.toNat - ((s.wake 0).rdN off.toNat &&& (row.wmask &&& (2 ^ 32 - 1)) &&& v.toNat % 2 ^ 32)))) ∧
  (∀ (off : BitVec 32) (v : BitVec 64) (row : RegRow) (s : State),
    s.answers 0 off.toNat = true →
    off.toNat % 4 = 0 →
    isMsix off.toNat = false →
    ¬(0x1880000 ≤ off.toNat ∧ off.toNat < 0x1900000) →
    Reg.find off.toNat = some (row, 0) →
    (s.wake 0).hidden 0 off.toNat = false →
    row.own = false →
    row.acc = .rw →
    (s.wake 0).writeRefused row off.toNat ((s.wake 0).rdN off.toNat - ((s.wake 0).rdN off.toNat &&& (row.wmask &&& (2 ^ 32 - 1))) +
      (v.toNat % 2 ^ 32 &&& (row.wmask &&& (2 ^ 32 - 1)))) = none →
    exec (.registerWrite 0 off false v) s = .next (((s.wake 0).wr off.toNat
      ((s.wake 0).rdN off.toNat - ((s.wake 0).rdN off.toNat &&& (row.wmask &&& (2 ^ 32 - 1))) +
        (v.toNat % 2 ^ 32 &&& (row.wmask &&& (2 ^ 32 - 1))))).afterWrite row off.toNat ((s.wake 0).rdN off.toNat))) ∧
  (∀ (off : BitVec 32) (v : BitVec 64) (row : RegRow) (s t : State),
    s.answers 0 off.toNat = true →
    off.toNat % 4 = 0 →
    isMsix off.toNat = false →
    ¬(0x1880000 ≤ off.toNat ∧ off.toNat < 0x1900000) →
    Reg.find off.toNat = some (row, 0) →
    (s.wake 0).hidden 0 off.toNat = false →
    row.own = false →
    row.acc = .rw →
    (s.wake 0).writeRefused row off.toNat ((s.wake 0).rdN off.toNat - ((s.wake 0).rdN off.toNat &&& (row.wmask &&& (2 ^ 32 - 1))) +
      (v.toNat % 2 ^ 32 &&& (row.wmask &&& (2 ^ 32 - 1)))) = some t →
    exec (.registerWrite 0 off false v) s = .next t) ∧
  (∀ (off : BitVec 32) (v : BitVec 64) (row : RegRow) (s : State),
    s.answers 0 off.toNat = true →
    off.toNat % 4 = 0 →
    isMsix off.toNat = false →
    ¬(0x1800000 ≤ off.toNat ∧ off.toNat < 0x1900000) →
    Reg.find off.toNat = some (row, 0) →
    row.own = false →
    row.acc = .ro →
    exec (.registerWrite 0 off false v) s = .next (s.wake 0)) ∧
  (∀ (off : BitVec 32) (row : RegRow) (s : State),
    s.answers 0 off.toNat = true →
    off.toNat % 4 = 0 →
    Reg.find off.toNat = some (row, 0) →
    row.acc = .rc →
    ∃ t, exec (.rcRead 0 off) s = .next t ∧ t.out = (s.wake 0).out ++ [.readData (s.readReg 0 off.toNat false)] ∧
      t.rd off.toNat = Reg.resetOf off.toNat ∧ (∀ b, b ≠ off.toNat → t.rd b = (s.wake 0).rd b) ∧
      t = { s.wake 0 with regs := t.regs, out := t.out }) ∧
  (∀ (off : BitVec 32) (row : RegRow) (s : State),
    s.answers 0 off.toNat = true →
    off.toNat % 4 = 0 →
    Reg.find off.toNat = some (row, 0) →
    isCounter off.toNat = true →
    ∃ t, exec (.counterLowRead 0 off) s = .next t ∧ t.out = (s.wake 0).out ++ [.readData (s.readReg 0 off.toNat false)] ∧
      Tab.get? t.dbg.hiLatch off.toNat = some (fld (s.shown row off.toNat) 32 32) ∧
      t = { s.wake 0 with out := t.out, dbg := { (s.wake 0).dbg with hiLatch := t.dbg.hiLatch } }) ∧
  (∀ (s : State),
    s.answers 0 Reg.DT_NOW = true →
    ∃ t, exec (.dtNowLowRead false) s = .next t ∧ t.out = (s.wake 0).out ++ [.readData (s.readReg 0 Reg.DT_NOW false)] ∧
      Tab.get? t.dbg.hiLatch Reg.DT_NOW = some (fld s.now 32 32) ∧
      t = { s.wake 0 with out := t.out, dbg := { (s.wake 0).dbg with hiLatch := t.dbg.hiLatch } })

/-- CSI_CTRL_WRITE that sets EN with usable fields above P2 stores CTRL, wakes P1 to P0 and clears LOCKED and CAL_DONE until calibration ends; unusable fields raise 0x0113 and store nothing. CSI_CALIBRATION_COMPLETE sets both bits; ULPS_TRANSITION sets the bit of its lane; both change nothing else. LANE_LOCK_FAILURE clears both bits and is a class A error of the port. STREAM_REG_WRITE to a disabled stream takes effect at once, and to an enabled one is PENDING. REC_RELEASE frees the slot and its hold and nothing else. -/
def Obligations.SensorPortCommands : Prop :=
  (∀ (n : Fin 12) (value : BitVec 32) (s : State),
    csiCtrlOk (value.toNat &&& 0xFFFF001F) = true →
    bitAt (value.toNat &&& 0xFFFF001F) 0 = true →
    s.rdB (Reg.CSI_CTRL n) 0 = false →
    s.rung < 2 →
    exec (.csiCtrlWrite n value) s =
      .next ((s.needP0.wr (Reg.CSI_CTRL n) (value.toNat &&& 0xFFFF001F)).wrF (Reg.CSI_STATUS n) 0 2 0)) ∧
  (∀ (n : Fin 12) (value : BitVec 32) (s : State),
    csiCtrlOk (value.toNat &&& 0xFFFF001F) = false →
    exec (.csiCtrlWrite n value) s = .next (s.csiPortErr n 0x0113)) ∧
  (∀ (n : Fin 12) (s : State),
    s.rdB (Reg.CSI_CTRL n) 0 = true →
    ∃ t, exec (.csiCalibrationComplete n) s = .next t ∧ t.rdF (Reg.CSI_STATUS n) 0 2 = 3 ∧
      (∀ b, b ≠ Reg.CSI_STATUS n → t.rd b = s.rd b) ∧ t = { s with regs := t.regs }) ∧
  (∀ (n : Fin 12) (s : State),
    s.rdB (Reg.CSI_CTRL n) 0 = true →
    exec (.laneLockFailure n) s = .next ((s.wrF (Reg.CSI_STATUS n) 0 2 0).portFault n 0x0112).crzDrain) ∧
  (∀ (n : Fin 12) (lane : Fin 4) (enter : Bool) (s : State),
    ∃ t, exec (.ulpsTransition n lane enter) s = .next t ∧ t.rdF (Reg.CSI_STATUS n) (2 + lane) 1 = enter.toNat ∧
      (∀ b, b ≠ Reg.CSI_STATUS n → t.rd b = s.rd b) ∧ t = { s with regs := t.regs }) ∧
  (∀ (m : Fin 48) (reg : ShadowReg) (value : BitVec 32) (s : State),
    bitAt (s.st m).cfg 0 = false →
    exec (.streamRegWrite m reg value) s = .next ((s.wr (shadowReg m reg) (value.toNat &&& shadowMask reg)).stApply m)) ∧
  (∀ (m : Fin 48) (reg : ShadowReg) (value : BitVec 32) (s : State),
    bitAt (s.st m).cfg 0 = true →
    reg ≠ .cfg →
    s.rdB (Reg.ST_CFG m) 0 = true →
    exec (.streamRegWrite m reg value) s =
      .next ((s.wr (shadowReg m reg) (value.toNat &&& shadowMask reg)).wrF (Reg.ST_STATUS m) 0 1 1)) ∧
  (∀ (m : Fin 48) (value : BitVec 32) (s : State),
    ∃ t, exec (.recRelease m value) s = .next t ∧ (t.st m).held = (s.st m).held.filter (· != value.toNat) ∧
      t.crz.holds = s.crz.holds.filter (fun h => !(h.stream == m.val && h.slot == value.toNat)) ∧
      t = { s.setSt m { s.st m with held := (t.st m).held } with crz := { s.crz with holds := t.crz.holds } })

/-- On an enabled and locked port: FRAME_START starts a frame on every enabled slot with the virtual channel, lowest first; a LONG_PACKET without errors whose type a stream with an open frame takes is counted in that frame and forwarded; FRAME_END closes the open frame of every such slot; a FRAME_TIMEOUT of an open frame raises 0x0114 and ends it. The Crozier then acts on what ended. On a port that is not locked, packets are discarded and nothing changes. -/
def Obligations.SensorFrameCommands : Prop :=
  (∀ (n : Fin 12) (vc : Fin 32) (fnum : BitVec 16) (s : State),
    s.csiLocked n = true →
    exec (.frameStart n vc fnum) s =
      .next (((s.csiStreams n).filter fun m => s.vcMatch n m vc).foldl (fun s m => s.frameStart m fnum.toNat) s).crzDrain) ∧
  (∀ (n : Fin 12) (vc : Fin 32) (dt : BitVec 6) (payload : List Byte) (m : Nat) (f : OpenFrame) (s : State),
    s.csiLocked n = true →
    ((s.csiStreams n).filter fun k => s.vcMatch n k vc).find? (fun k => fld (s.st k).dt 0 6 == dt.toNat || fld (s.st k).dt 8 6 == dt.toNat) = some m →
    (s.st m).frame = some f →
    exec (.longPacket n vc dt payload ⟨false, false, false, false, false⟩) s =
      .next (s.longPacket m f (fld (s.st m).dt 0 6 == dt.toNat) payload ⟨false, false, false, false, false⟩).crzDrain) ∧
  (∀ (n : Fin 12) (vc : Fin 32) (s : State),
    s.csiLocked n = true →
    exec (.frameEnd n vc) s =
      .next (((s.csiStreams n).filter fun m => s.vcMatch n m vc).foldl (fun s m => s.frameEnd m) s).crzDrain) ∧
  (∀ (m : Fin 48) (f : OpenFrame) (s : State),
    (s.st m).frame = some f →
    s.rdN (Reg.ST_TIMEOUT m) ≠ 0 →
    ∃ t, exec (.frameTimeout m) s = .next t ∧
      t = (match (((s.stErr m f.pt 0x0114).frameFault m [0x0114] true).st m).frame with
        | none => (s.stErr m f.pt 0x0114).frameFault m [0x0114] true
        | some g => (((s.stErr m f.pt 0x0114).frameFault m [0x0114] true).setSt m
            { ((s.stErr m f.pt 0x0114).frameFault m [0x0114] true).st m with unaccepted := true }).frameClose m g {} 0).crzDrain) ∧
  (∀ (n : Fin 12) (vc : Fin 32) (fnum : BitVec 16) (dt : BitVec 6) (payload : List Byte) (chk : PktCheck) (s : State),
    s.csiLocked n = false →
    exec (.frameStart n vc fnum) s = .next s ∧ exec (.longPacket n vc dt payload chk) s = .next s ∧ exec (.frameEnd n vc) s = .next s)

/-- ISP_CTX_CFG_WRITE stores SRC, or a CFG without EN whose fields are allowed, in a disabled context and nothing else; an enabled context refuses it with 0x0201. PB_POST makes the set pending. PB_FETCH_COMPLETE makes a set that is read whole, aligned and valid READY, and discards any other with 0x0203. ISP_ROW_OUTPUT of a frame whose input rows are there writes the row to every output, counts it and advances the counters. ISP_STATS_WRITE after the last row writes the statistics, frees the context, counts the frame and ends the node. -/
def Obligations.ImagePipelineCommands : Prop :=
  (∀ (u : Fin 48) (value : BitVec 32) (s : State),
    bitAt (s.ictxCfg u) 0 = false →
    ∃ t, exec (.ispCtxCfgWrite u true value) s = .next t ∧
      t.rd (Reg.ISP_CTX_SRC (u / 4) (u % 4)) = BitVec.ofNat 64 (value.toNat &&& 0x3F3F3F3F) ∧
      (∀ b, b ≠ Reg.ISP_CTX_SRC (u / 4) (u % 4) → t.rd b = s.rd b) ∧ t = { s with regs := t.regs }) ∧
  (∀ (u : Fin 48) (value : BitVec 32) (s : State),
    bitAt (s.ictxCfg u) 0 = false →
    bitAt (value.toNat &&& 0x3FFFFF) 0 = false →
    fld (value.toNat &&& 0x3FFFFF) 4 4 ≤ 6 →
    fld (value.toNat &&& 0x3FFFFF) 16 6 ≤ 32 →
    exec (.ispCtxCfgWrite u false value) s = .next (s.wr (Reg.ISP_CTX_CFG (u / 4) (u % 4)) (value.toNat &&& 0x3FFFFF))) ∧
  (∀ (u : Fin 48) (src : Bool) (value : BitVec 32) (s : State),
    bitAt (s.ictxCfg u) 0 = true →
    exec (.ispCtxCfgWrite u src value) s = .next (s.ispErr u 0x0201)) ∧
  (∀ (u : Fin 48) (dva : BitVec 64) (s : State),
    (s.ictx u).post = none →
    ∃ t, exec (.pbPost u dva) s = .next t ∧ (t.ictx u).post = some dva.toNat ∧ (t.ictx u).ready = none ∧
      (∀ v, v ≠ u.val → t.ictx v = s.ictx v) ∧ t = { s with regs := t.regs, isp := t.isp }) ∧
  (∀ (u : Fin 48) (dva : Nat) (b : List Byte) (s : State),
    (s.ictx u).post = some dva →
    (s.ictx u).ready = none →
    s.readDva (s.ictxPt u) dva 16640 = .data b false →
    dva % 256 = 0 →
    exec (.pbFetchComplete u) s = .next (if setOk (s.ictxCfg u) b then
      (s.setIctx u { s.ictx u with ready := some b }).wrF (Reg.ISP_CTX_PB_STATUS (u / 4) (u % 4)) 1 1 1 else s.setReject u)) ∧
  (∀ (u : Fin 48) (f : IspFrame) (s s1 : State),
    (s.ictx u).frame = some f →
    f.rows < f.height →
    f.ready (s.ictxExp u) f.rows = true →
    s.ispWrite u f.pt (f.rowBad (s.ictxExp u) f.rows) (s.ispRow u f) = some s1 →
    exec (.ispRowOutput u) s =
      .next ((s1.setIctx u { s1.ictx u with frame := some { f with rows := f.rows + 1 } }).ispAdvance u).crzDrain) ∧
  (∀ (u : Fin 48) (f : IspFrame) (s : State),
    (s.ictx u).frame = some f →
    f.height ≤ f.rows →
    s.rewriting f.pt f.handles = false →
    exec (.ispStatsWrite u) s =
      .next ((((((s.ispAdvance u).ispStats u f).setIctx u { ((s.ispAdvance u).ispStats u f).ictx u with frame := none }).bump
        (Reg.ISP_CTX_FRAMES (u / 4) (u % 4)) 1).event (uIsp (u / 4)) 0x02 f.pt 0 f.seq 0).crzDone f.node 0).crzDrain)

/-- BRACKEN_JOB_ACCEPT of a presented job whose block reads well, is finite, names planes that can be captured and has allowed shapes puts it into the lowest free context with the next acceptance number, and the node is accepted. BRACKEN_ROW_START of a free engine starts the unit that the deficit round robin chooses. BRACKEN_ROW_DONE writes what the unit computed, counts its rows and cycles and advances the output counter. BRACKEN_WAIT_TIMEOUT aborts a job whose input has not come with 0x0307. BRACKEN_JOB_COMPLETE advances the counter to its final value and ends the node. -/
def Obligations.BrackenEngineCommands : Prop :=
  (∀ (e : Fin 11) (r : NodeRef) (rest : List NodeRef) (k : Nat) (b : List Byte) (planes : Tab (List Byte)) (s s1 : State),
    (s.eng e).queue = r :: rest →
    (List.range 4).find? (fun k => (Tab.get? (s.eng e).ctx k).isNone) = some k →
    s1 = ((s.needP0.setEng e { s.eng e with queue := rest }).readJob e (s.cgPt r.slot) (((s.nodeRun r).map (·.block)).getD 0)).1 →
    ((s.needP0.setEng e { s.eng e with queue := rest }).readJob e (s.cgPt r.slot) (((s.nodeRun r).map (·.block)).getD 0)).2.toOption = some b →
    jobFinite (engKind e) b = true →
    (s1.capturePlanes (s.cgPt r.slot) (engKind e) (jobPlanes (engKind e) b) []).1 = some planes →
    BrkJob.shapeCode { node := r, pt := s.cgPt r.slot, dva := ((s.nodeRun r).map (·.block)).getD 0, block := b, planes := planes } (engKind e) = 0 →
    ∃ s2, s2 = (s1.capturePlanes (s.cgPt r.slot) (engKind e) (jobPlanes (engKind e) b) []).2 ∧
      exec (.brackenJobAccept e) s = .next (((s2.setEng e { s2.eng e with
        ctx := (s2.eng e).ctx.put k { node := r, pt := s.cgPt r.slot, dva := ((s.nodeRun r).map (·.block)).getD 0, block := b, planes := planes,
                                      ins := s2.brkIns r, stripeH := s2.brkStripe r, order := (s.eng e).accepted + 1 }
        accepted := (s.eng e).accepted + 1 }).setNode r fun n => { n with phase := .accepted }).crzDrain)) ∧
  (∀ (e : Fin 11) (k : Nat) (j : BrkJob) (d : Tab Nat) (s : State),
    (s.eng e).ctx.any (fun c => c.2.busy) = false →
    s.brkChoose (s.eng e) (engKind e) ((s.eng e).ctx.filter fun c => s.brkCanRun c.2 (engKind e)) = some (k, j, d) →
    0 < j.unit →
    j.recA.isSome = true →
    ∃ t, exec (.brackenRowStart e) s = .next t ∧ Tab.get? (t.eng e).ctx k = some { j with busy := true } ∧ (t.eng e).deficit = d ∧
      (t.eng e).last = j.pt ∧ (∀ i, i ≠ e.val → t.eng i = s.eng i) ∧ t = { s with brk := t.brk }) ∧
  (∀ (e : Fin 11) (k : Nat) (j : BrkJob) (r : UnitRes) (s s1 : State),
    (s.eng e).ctx.find? (fun c => c.2.busy) = some (k, j) →
    s.brkUnit e j = some r →
    r.bad = false →
    s.brkWriteAll j.pt e r.runs = some s1 →
    j.aborting = none →
    exec (.brackenRowDone e) s = .next (((r.counts.foldl (fun s c => s.bump c.1 c.2) ((s1.setEng e { s1.eng e with
      ctx := (s1.eng e).ctx.put k { j with busy := false, unit := j.unit + 1, chip := r.chip, since := s.now } }).bump (Reg.ENG_ROWS e) r.rows)).bump
        (Reg.BRK_PT_BUSY j.pt) (j.cycles (engKind e) j.unit)).brkAdvance e k).crzDrain) ∧
  (∀ (e : Fin 11) (k : Fin 4) (j : BrkJob) (s : State),
    Tab.get? (s.eng e).ctx k = some j →
    getLE j.block 8 4 ≠ 0 →
    j.started = true →
    j.busy = false →
    j.unit < j.units (engKind e) →
    s.brkReady j (engKind e) = false →
    exec (.brackenWaitTimeout e k) s = .next (s.brkAbort e k 0x0307).crzDrain) ∧
  (∀ (e : Fin 11) (k : Fin 4) (j : BrkJob) (s : State),
    Tab.get? (s.eng e).ctx k = some j →
    j.started = true →
    j.busy = false →
    j.units (engKind e) ≤ j.unit →
    s.rewriting j.pt (brkOutputs j.block) = false →
    exec (.brackenJobComplete e k) s = .next ((s.crzAdvance j.node 0 true).brkEnd e k 0).crzDrain)

/-- CRZ_LOAD of an idle slot that a partition owns forgets the old graph and starts the load; CRZ_LOAD_COMPLETE validates and unrolls what the program read gives; CRZ_UNLOAD forgets the graph and nothing else; CRZ_CFG_WRITE that sets EN with a configuration that passes every check numbers instances anew and lets the Crozier arm them; a refused one raises its code. CRZ_TRIGGER and CRZ_TIMER_TRIGGER fire the graph of their trigger kind; CRZ_NODE_START of a node whose conditions hold counts the handoff and starts the unit; CRZ_BUDGET_EXPIRY aborts a running instance with 0x0405, CRZ_ABORT every instance with 0x0408. -/
def Obligations.CrozierCommands : Prop :=
  (∀ (g : Fin 64) (s : State),
    s.crzOwned g = true →
    s.crzActive g = false →
    Tab.get? s.crz.loading g = none →
    ∃ t, exec (.crzLoad g) s = .next t ∧ t.cg g = none ∧ Tab.get? t.crz.loading g = some (s.rdN (Reg.CRZ_GR_PROG g)) ∧
      t.rdF (Reg.CRZ_GR_STATUS g) 1 1 = 0 ∧ (∀ b, b ≠ Reg.CRZ_GR_STATUS g → t.rd b = s.rd b) ∧
      t = { s with regs := t.regs, crz := { s.crz with graphs := t.crz.graphs, loading := t.crz.loading } }) ∧
  (∀ (g : Fin 64) (prog : Nat) (s : State),
    Tab.get? s.crz.loading g = some prog →
    prog % 16 = 0 →
    exec (.crzLoadComplete g) s = .next (State.crzLoaded g (s.cgPt g) prog
      ({ s with crz := { s.crz with loading := s.crz.loading.del g } }.readProgram (s.cgPt g) false 4096 prog))) ∧
  (∀ (g p prog : Nat) (ws : List Nat) (bs : List Byte) (x : CGraph) (s : State),
    (s.mkCGraph g p prog ws bs).toOption = some x →
    State.crzLoaded g p prog (s, .ok (ws, bs)) = (s.setCg g x).pmrExtend p 1 bs) ∧
  (∀ (g : Fin 64) (s : State),
    s.crzOwned g = true →
    s.crzActive g = false →
    ∃ t, exec (.crzUnload g) s = .next t ∧ t.cg g = none ∧ (∀ h, h ≠ g.val → t.cg h = s.cg h) ∧
      t = { s with crz := { s.crz with graphs := t.crz.graphs } }) ∧
  (∀ (g : Fin 64) (s : State),
    exec (.crzAbort g) s = .next (s.crzAbortAll g 0x0408).crzDrain) ∧
  (∀ (g : Fin 64) (s : State),
    s.rdF (Reg.CRZ_GR_CFG g) 4 4 = 0 →
    exec (.crzTrigger g) s = .next (s.crzFire g).crzDrain) ∧
  (∀ (g : Fin 64) (s : State),
    fld (s.rdN (Reg.CRZ_GR_CFG g)) 4 4 = 4 →
    bitAt (s.rdN (Reg.CRZ_GR_CFG g)) 0 = true →
    exec (.crzTimerTrigger g) s = .next ((s.wake 4).crzFire g).crzDrain) ∧
  (∀ (g : Fin 64) (value : BitVec 32) (x : CGraph) (s : State),
    s.crzOwned g = true →
    s.cfgCode g (value.toNat % 2 ^ 26 &&& 0x3FFFFF7) = 0 →
    bitAt (value.toNat % 2 ^ 26 &&& 0x3FFFFF7) 0 = true →
    s.rdB (Reg.CRZ_GR_CFG g) 0 = false →
    s.cg g = some x →
    exec (.crzCfgWrite g value) s = .next ((s.wr (Reg.CRZ_GR_CFG g) (value.toNat % 2 ^ 26 &&& 0x3FFFFF7)).setCg g
      { x with base := x.seq, acts := [], lastRec := [] }).crzDrain) ∧
  (∀ (g : Fin 64) (value : BitVec 32) (s : State),
    s.crzOwned g = true →
    s.cfgCode g (value.toNat % 2 ^ 26 &&& 0x3FFFFF7) ≠ 0 →
    exec (.crzCfgWrite g value) s = .next (s.crzRefuse g (s.cfgCode g (value.toNat % 2 ^ 26 &&& 0x3FFFFF7)))) ∧
  (∀ (g : Fin 64) (inst : Nat) (node : Fin 1024) (ns : Nat) (x : CGraph) (i : CInst) (n : CNode) (m : NodeRun) (s : State),
    s.cg g = some x →
    x.inst inst = some i →
    x.nodes[node.val]? = some n →
    i.nodes[node.val]? = some m →
    s.mayStart x i node n m = true →
    m.told = false →
    exec (.crzNodeStart g inst node ns) s =
      .next ((((if 56 < ns then (s.bump Reg.CRZ_HANDOFFS 1).bump Reg.CRZ_LATE 1 else s.bump Reg.CRZ_HANDOFFS 1).rcMax Reg.CRZ_HANDOFF_MAX ns).crzStart
        ⟨g, inst, node⟩).crzDrain)) ∧
  (∀ (g : Fin 64) (slot : Fin 4) (x : CGraph) (i : CInst) (s : State),
    s.rdN (Reg.CRZ_GR_BUDGET g) ≠ 0 →
    s.cg g = some x →
    x.insts.find? (fun i => i.slot == slot.val && i.start.isSome) = some i →
    i.aborted = false →
    exec (.crzBudgetExpiry g slot) s = .next ((s.crzErr g 0x0405).instAbort g i.seq 0x0405).crzDrain)

/-- While BUSY is 0: CREATE of an invalid handle, and REPLACE or REPLACE_INV of a valid one of the same kind, with an image that validates and an entry that can be written, write the entry, make it valid and start the command with the outcome 0; REPLACE alone leaves older copies that caches may use (R161). DESTROY makes the entry invalid; INVAL and INVAL_ALL drop cached copies. While BUSY is 1 each is refused with 0x050C. DSC_CMD_COMPLETE writes RESULT, clears BUSY and signals the flag. A rewrite of REC_ADDR is made, and what it held back follows. -/
def Obligations.DescriptorCommands : Prop :=
  (∀ (p : Fin 16) (handle : BitVec 16) (img : List Byte) (s s1 : State),
    s.dscBusy p = false →
    (s.dscImage p).toOption = some img →
    handle.toNat < s.rdN (Reg.DSC_PT_COUNT p) →
    s.entryKind p handle.toNat = none →
    s.validateEntry p img = 0 →
    s.entryWrite p handle.toNat img = some s1 →
    exec (.dscCreate p handle) s =
      .next (((s1.setEntry p handle.toNat (some (getLE img 0 2))).dropStale p handle.toNat).dscStart p handle.toNat 1 0 none)) ∧
  (∀ (p : Fin 16) (handle : BitVec 16) (img old : List Byte) (bad : Bool) (s s1 : State),
    s.dscBusy p = false →
    (s.dscImage p).toOption = some img →
    handle.toNat < s.rdN (Reg.DSC_PT_COUNT p) →
    s.entryKind p handle.toNat = some (getLE img 0 2) →
    s.validateEntry p img = 0 →
    s.readDva p (s.entryAddr p handle.toNat) 128 = .data old bad →
    s.entryWrite p handle.toNat img = some s1 →
    exec (.dscReplace p handle) s =
        .next (((s1.setEntry p handle.toNat (some (getLE img 0 2))).keepStale p handle.toNat old).dscStart p handle.toNat 2 0 none) ∧
      exec (.dscReplaceInv p handle) s =
        .next (((s1.setEntry p handle.toNat (some (getLE img 0 2))).dropStale p handle.toNat).dscStart p handle.toNat 3 0 none)) ∧
  (∀ (p : Fin 16) (handle : BitVec 16) (k : Nat) (s : State),
    s.dscBusy p = false →
    handle.toNat < s.rdN (Reg.DSC_PT_COUNT p) →
    s.entryKind p handle.toNat = some k →
    ∃ t, exec (.dscDestroy p handle) s = .next t ∧ t.entryKind p handle.toNat = none ∧
      (∀ h, h ≠ p.val * 65536 + handle.toNat → Tab.get? t.dsc.valid h = Tab.get? s.dsc.valid h) ∧
      Tab.get? t.dsc.stale (p * 65536 + handle.toNat) = none ∧ Tab.get? t.dsc.running p = some ⟨handle.toNat, 4, 0, none⟩ ∧
      (∀ b, b ≠ Reg.DSC_PT_STATUS p → t.rd b = s.rd b) ∧
      t = { s with regs := t.regs, dsc := { s.dsc with valid := t.dsc.valid, stale := t.dsc.stale, running := t.dsc.running } }) ∧
  (∀ (p : Fin 16) (handle : BitVec 16) (s : State),
    s.dscBusy p = false →
    handle.toNat < s.rdN (Reg.DSC_PT_COUNT p) →
    exec (.dscInval p handle) s = .next ((s.dropStale p handle.toNat).dscStart p handle.toNat 5 0 none)) ∧
  (∀ (p : Fin 16) (s : State),
    s.dscBusy p = false →
    exec (.dscInvalAll p) s =
      .next ({ s with dsc := { s.dsc with stale := s.dsc.stale.filter fun e => e.1 / 65536 != p } }.dscStart p 0 6 0 none)) ∧
  (∀ (p : Fin 16) (handle : BitVec 16) (c : Instr) (s : State),
    s.dscBusy p = true →
    c ∈ [.dscCreate p handle, .dscReplace p handle, .dscReplaceInv p handle, .dscDestroy p handle, .dscInval p handle, .dscInvalAll p] →
    exec c s = .next (s.err p uDesc 0x050C)) ∧
  (∀ (p : Fin 16) (x : DscCmd) (s : State),
    Tab.get? s.dsc.running p = some x →
    x.code = 0 →
    x.op < 3 →
    x.item = none →
    exec (.dscCmdComplete p) s =
      .next ((({ s with dsc := { s.dsc with running := s.dsc.running.del p } }.bump (Reg.DSC_PT_CREATED p) 1).wr (Reg.DSC_PT_STATUS p) 0).flagReg p
        (Reg.DSC_PT_FLAG p) 1 uDesc)) ∧
  (∀ (p : Fin 16) (x : DscCmd) (s : State),
    Tab.get? s.dsc.running p = some x →
    x.code ≠ 0 →
    x.item = none →
    exec (.dscCmdComplete p) s =
      .next (((({ s with dsc := { s.dsc with running := s.dsc.running.del p } }.bump (Reg.DSC_PT_REFUSED p) 1).err p uDesc x.code x.handle).wr
        (Reg.DSC_PT_STATUS p) (x.code * 2 ^ 16)).flagReg p (Reg.DSC_PT_FLAG p) 1 uDesc)) ∧
  (∀ (w : Rewrite) (ws : List Rewrite) (s : State),
    s.dsc.rewrites = w :: ws →
    exec .descRewriteComplete s = .next ({ s with dsc := { s.dsc with rewrites := ws } }.rewriteOne w).afterRewrite)

/-- While RGN_STATUS.BUSY is 0: RGN_WRITE of staged fields in range that meet no region of the partition, into an invalid record of a partition that is not confidential, starts the write; RGN_READ loads the record into the staged fields, or zeros; RGN_CLEAR starts the clearing. RGN_CMD_COMPLETE puts the staged record in force or removes the record, moves the capability table when a record changed, and clears BUSY. Registers outside the staged fields and RGN_STATUS stay as they were in the first three. -/
def Obligations.RegionCommands : Prop :=
  (∀ (s : State),
    s.rdB Reg.RGN_STATUS 0 = false →
    Tab.get? s.dsc.regions (s.rdF Reg.RGN_SEL 0 16) = none →
    s.rdB Reg.RGN_ATTR 31 = true →
    s.stagedRegion.rangeOk = true →
    s.dsc.regions.any (fun e => s.stagedRegion.meets e.2) = false →
    s.isConf s.stagedRegion.pt = false →
    ∃ t, exec .rgnWrite s = .next t ∧ t.rdN Reg.RGN_STATUS = 1 ∧ t.dsc.rgnRun = some (1, s.rdF Reg.RGN_SEL 0 16) ∧
      (∀ b, b ≠ Reg.RGN_STATUS → t.rd b = s.rd b) ∧ t = { s with regs := t.regs, dsc := { s.dsc with rgnRun := t.dsc.rgnRun } }) ∧
  (∀ (r : Region) (s : State),
    s.rdB Reg.RGN_STATUS 0 = false →
    Tab.get? s.dsc.regions (s.rdF Reg.RGN_SEL 0 16) = some r →
    ∃ t, exec .rgnRead s = .next t ∧ t.rd Reg.RGN_BASE = BitVec.ofNat 64 r.base ∧ t.rd Reg.RGN_SIZE = BitVec.ofNat 64 r.size ∧
      t.rd Reg.RGN_ATTR = BitVec.ofNat 64 (r.pt + r.r.toNat * 16 + r.w.toNat * 32 + r.desc.toNat * 64 + 2 ^ 31) ∧ t.rd Reg.RGN_STATUS = 0 ∧
      (∀ b, b ∉ [Reg.RGN_BASE, Reg.RGN_SIZE, Reg.RGN_ATTR, Reg.RGN_STATUS] → t.rd b = s.rd b) ∧ t = { s with regs := t.regs }) ∧
  (∀ (s : State),
    s.rdB Reg.RGN_STATUS 0 = false →
    Tab.get? s.dsc.regions (s.rdF Reg.RGN_SEL 0 16) = none →
    ∃ t, exec .rgnRead s = .next t ∧
      (∀ b, t.rd b = if b ∈ [Reg.RGN_BASE, Reg.RGN_SIZE, Reg.RGN_ATTR, Reg.RGN_STATUS] then 0 else s.rd b) ∧ t = { s with regs := t.regs }) ∧
  (∀ (s : State),
    s.rdB Reg.RGN_STATUS 0 = false →
    (∀ r, Tab.get? s.dsc.regions (s.rdF Reg.RGN_SEL 0 16) = some r → s.isConf r.pt = false) →
    ∃ t, exec .rgnClear s = .next t ∧ t.rdN Reg.RGN_STATUS = 1 ∧ t.dsc.rgnRun = some (3, s.rdF Reg.RGN_SEL 0 16) ∧
      (∀ b, b ≠ Reg.RGN_STATUS → t.rd b = s.rd b) ∧ t = { s with regs := t.regs, dsc := { s.dsc with rgnRun := t.dsc.rgnRun } }) ∧
  (∀ (c i : Nat) (s : State),
    s.dsc.rgnRun = some (c, i) →
    ((if c = 1 then s.dsc.regions.put i s.stagedRegion else s.dsc.regions.del i) ≠ s.dsc.regions) →
    exec .rgnCmdComplete s = .next (({ s with dsc := { s.dsc with
        regions := if c = 1 then s.dsc.regions.put i s.stagedRegion else s.dsc.regions.del i, rgnRun := none } }.capChange).wr Reg.RGN_STATUS 0))

/-- LOAD of a partition whose scheduler is idle sets BUSY, clears RESULT and notes the DVA of the header; its completion, when the images are read and pass every check, allocates records, holds the graph, writes its handle and extends PMR_0, and otherwise leaves RESULT with the code of the first check that fails. UNLOAD of a graph with no run and no queue frees its records; while a run is in progress or a launch is queued it is refused with 0x070A. ABORT of a handle aborts the run with 0x0708 and discards the queue. SETPRIO changes the priority and moves a waiting copy to the tail of its new list. An invalid handle ends each with 0x0704. -/
def Obligations.GraphLoadCommands : Prop :=
  (∀ (p : Fin 16) (s : State),
    s.gsBusy p = false →
    ∃ t, exec (.gsLoad p) s = .next t ∧ t.gsBusy p = true ∧ t.rdF (Reg.GS_PT_STATUS p) 16 16 = 0 ∧
      Tab.get? t.gs.loading p = some (s.rdN (Reg.GS_PT_CMD_ARG p)) ∧ (∀ b, b ≠ Reg.GS_PT_STATUS p → t.rd b = s.rd b) ∧
      t = { s with regs := t.regs, gs := { s.gs with loading := t.gs.loading } }) ∧
  (∀ (p : Fin 16) (s : State),
    s.gsBusy p = true →
    exec (.gsLoad p) s = .next (s.gsResult p 0x070A 0)) ∧
  (∀ (p : Fin 16) (dva : Nat) (h b : List Byte) (s s0 : State),
    Tab.get? s.gs.loading p = some dva →
    s0 = { s.wr (Reg.GS_PT_STATUS p) 0 with gs := { s.gs with loading := s.gs.loading.del p } } →
    s0.graphImages p dva = (s0, .ok (h, b)) →
    s0.graphCode p h b = 0 →
    ∃ t g l, exec (.gsLoadComplete p) s = .next t ∧ s0.pickRecords (getLE h 4 2 + 1) s0.usedRecords = l ∧
      g = l.1.mkGraph p dva (l.2.headD 0) l.2.tail h b ∧ t.gs.graphs = l.1.gs.graphs ++ [g] ∧ t.rdN (Reg.GS_PT_HANDLE p) = g.handle % 2 ^ 64 ∧
      t = (({ l.1 with gs := { l.1.gs with graphs := l.1.gs.graphs ++ [g] } }.wr (Reg.GS_PT_HANDLE p) g.handle).pmrExtend p 0 (h.take 0x7C ++ b))) ∧
  (∀ (p : Fin 16) (dva : Nat) (h b : List Byte) (s s0 : State),
    Tab.get? s.gs.loading p = some dva →
    s0 = { s.wr (Reg.GS_PT_STATUS p) 0 with gs := { s.gs with loading := s.gs.loading.del p } } →
    s0.graphImages p dva = (s0, .ok (h, b)) →
    s0.graphCode p h b ≠ 0 →
    exec (.gsLoadComplete p) s = .next (s0.gsResult p (s0.graphCode p h b) dva)) ∧
  (∀ (p : Fin 16) (g : Graph) (s : State),
    s.gsBusy p = false →
    s.handleGraph p (s.rdN (Reg.GS_PT_CMD_ARG p)) = some g →
    g.cur = none →
    g.queue = [] →
    exec (.gsUnload p) s = .next ((s.dropGraph g).wrF (Reg.GS_PT_STATUS p) 16 16 0) ∧
      (∀ x ∈ (s.dropGraph g).gs.graphs, x.hdr ≠ g.hdr)) ∧
  (∀ (p : Fin 16) (g : Graph) (s : State),
    s.gsBusy p = false →
    s.handleGraph p (s.rdN (Reg.GS_PT_CMD_ARG p)) = some g →
    g.cur.isSome = true ∨ g.queue ≠ [] →
    exec (.gsUnload p) s = .next (s.gsResult p 0x070A (s.rdN (Reg.GS_PT_CMD_ARG p)))) ∧
  (∀ (p : Fin 16) (g : Graph) (s : State),
    s.gsBusy p = false →
    s.handleGraph p (s.rdN (Reg.GS_PT_CMD_ARG p)) = some g →
    exec (.gsAbort p) s = .next ((s.abortGraph g 0x0708).wrF (Reg.GS_PT_STATUS p) 16 16 0).crzDrain) ∧
  (∀ (p : Fin 16) (g : Graph) (op : Nat) (hit : CopyId → Bool) (s : State),
    s.gsBusy p = false →
    s.handleGraph p (s.rdN (Reg.GS_PT_CMD_ARG p)) = some g →
    op = fld (s.rdN (Reg.GS_PT_CMD_ARG p)) 32 16 →
    op < g.ops.length →
    fld (s.rdN (Reg.GS_PT_CMD_ARG p)) 51 13 = 0 →
    hit = (fun (c : CopyId) => c.graph == g.hdr && c.op == op && c.copy < 2) →
    exec (.setprio p) s = .next ((((List.range 8).flatMap fun k => (s.readyList p k).filter hit).foldl (fun s c => s.enqueue p c false)
      ((s.dequeue p hit).setGraph { g with ops := g.ops.set op { g.opAt op with prio := fld (s.rdN (Reg.GS_PT_CMD_ARG p)) 48 3 } })).gsResult
        p 0 (s.rdN (Reg.GS_PT_CMD_ARG p)))) ∧
  (∀ (p : Fin 16) (s : State),
    s.gsBusy p = false →
    s.handleGraph p (s.rdN (Reg.GS_PT_CMD_ARG p)) = none →
    exec (.gsUnload p) s = .next (s.gsResult p 0x0704 (s.rdN (Reg.GS_PT_CMD_ARG p))) ∧
      exec (.gsAbort p) s = .next (s.gsResult p 0x0704 (s.rdN (Reg.GS_PT_CMD_ARG p))) ∧
      exec (.setprio p) s = .next (s.gsResult p 0x0704 (s.rdN (Reg.GS_PT_CMD_ARG p))))

/-- A launch of an idle graph starts run RUNS + 1 and of a busy one queues it; a fifth is refused with 0x0704. GS_DISPATCH makes the next placement the rules allow, and with no slot free withdraws a prefetched copy of lower priority for the waiting one; PREFETCH_COMPLETE makes the slot ready. GS_OP_RELEASE releases the oldest end whose stores are all visible; the delay tick makes due operations ready; the budget's expiry aborts the run with 0x0709; COPY2_REQUEST that is accepted adds copy 2 at priority 7; DEADLOCK_DECLARE of a partition whose conditions hold raises 0x0705, freezes the trace and records the wait edges. -/
def Obligations.GraphRunCommands : Prop :=
  (∀ (p : Fin 16) (handle : BitVec 32) (g : Graph) (s : State),
    s.handleGraph p handle.toNat = some g →
    s.rdB Reg.REL_STATUS 0 = false →
    g.cur = none →
    exec (.gsLaunch p handle) s = .next (((((s.progress p).needP0.setGraph { g with runs := g.runs + 1 }).runStart g.hdr (g.runs + 1)
      ((s.rdN (Reg.GS_PT_LAUNCH_ARG p))) none).gsSettle p).crzDrain)) ∧
  (∀ (p : Fin 16) (handle : BitVec 32) (g : Graph) (s : State),
    s.handleGraph p handle.toNat = some g →
    s.rdB Reg.REL_STATUS 0 = false →
    g.cur.isSome = true →
    g.queue.length < 4 →
    exec (.gsLaunch p handle) s = .next (((s.progress p).needP0.setGraph { g with runs := g.runs + 1, queue := g.queue ++ [(g.runs + 1, s.rdN (Reg.GS_PT_LAUNCH_ARG p), none)] }).crzDrain)) ∧
  (∀ (p : Fin 16) (handle : BitVec 32) (g : Graph) (s : State),
    s.handleGraph p handle.toNat = some g →
    s.rdB Reg.REL_STATUS 0 = false →
    g.cur.isSome = true →
    4 ≤ g.queue.length →
    exec (.gsLaunch p handle) s = .next ((s.gsErr p 0x0704 handle.toNat).crzDrain)) ∧
  (∀ (p : Fin 16) (n k : Nat) (c : CopyId) (s : State),
    s.rdB Reg.REL_STATUS 0 = false →
    s.nextPlace p = some (n, k, c) →
    exec (.gsDispatch p) s = .next (s.place p n k c)) ∧
  (∀ (p : Fin 16) (n k : Nat) (c : CopyId) (x : Slot) (s : State),
    s.rdB Reg.REL_STATUS 0 = false →
    s.nextPlace p = none →
    s.withdrawal p = some (c, n, k, x) →
    exec (.gsDispatch p) s = .next ((((((s.setTc n ((s.tc n).clearSlot k)).bump (Reg.GS_PT_WITHDRAWN p) 1).place p n k c).returnCopy p x.cid).gsSettle p).crzDrain)) ∧
  (∀ (n : Fin 32) (x : Slot) (s : State),
    (s.tc n).slot1 = some x →
    x.st = 1 →
    exec (.prefetchComplete n 1) s = .next (s.setTc n { s.tc n with slot1 := some { x with st := 2 } })) ∧
  (∀ (p : Fin 16) (e : EndRec) (s : State),
    s.gs.ends.find? (fun e => e.pt == p.val && s.drained e.cid) = some e →
    exec (.gsOpRelease p) s = .next (((s.endRelease e).gsSettle p).crzDrain)) ∧
  (∀ (p : Fin 16) (l : List (Nat × CopyId)) (tick : Nat) (s : State),
    l = s.gs.delay.getD p [] →
    tick = s.now / 1000 / max 1 (s.rdF (Reg.GS_PT_CFG p) 8 8) →
    (∀ e ∈ l, tick < e.1) →
    exec (.gsDelayTick p) s = .next (((({ s with gs := { s.gs with delay := s.gs.delay.put p l } }).gsReady p).gsSettle p).crzDrain)) ∧
  (∀ (p : Fin 16) (due : Nat) (c : CopyId) (x : CopyRun) (s s1 : State),
    s.gs.delay.getD p [] = [(due, c)] →
    due ≤ s.now / 1000 / max 1 (s.rdF (Reg.GS_PT_CFG p) 8 8) →
    s1 = ({ s.wake 4 with gs := { (s.wake 4).gs with delay := (s.wake 4).gs.delay.put p [] } }).gsReady p →
    (s1.graphAt c.graph).bind (fun g => g.copyRun c.op 0) = some x →
    x.phase = .delayed →
    exec (.gsDelayTick p) s = .next (((s1.opReady c.graph c.op).gsSettle p).crzDrain)) ∧
  (∀ (p : Fin 16) (handle : BitVec 32) (g : Graph) (s : State),
    s.handleGraph p handle.toNat = some g →
    g.budget ≠ 0 →
    g.cur.isSome = true →
    exec (.gsBudgetExpiry p handle) s = .next ((s.abortGraph g 0x0709).crzDrain)) ∧
  (∀ (p : Fin 16) (handle : BitVec 32) (run : BitVec 48) (op : BitVec 16) (g : Graph) (s : State),
    s.handleGraph p handle.toNat = some g →
    s.copy2Code g run.toNat op.toNat = 0 →
    exec (.copy2Request p handle run op) s = .next (((s.toMailbox p (copy2Answer p handle.toNat run.toNat op.toNat 0)).setRun g.hdr
      fun r => { r with copies := r.copies ++ [{ op := op.toNat, copy := 2, phase := .waiting }] }).copyReady p ⟨g.hdr, op.toNat, 2⟩ false)) ∧
  (∀ (p : Fin 16) (s s4 : State),
    s.rdB (Reg.GS_PT_CFG p) 1 = true →
    s.deadlocked p = true →
    Tab.get? s.gs.quiet p = none →
    s4 = ((({ s with gs := { s.gs with quiet := s.gs.quiet.put p s.now } }.gsErr p 0x0705).bump (Reg.GS_PT_DEADLOCKS p) 1).wrF
      (Reg.DBG_PT_TRACE_CFG p) 2 1 1).waitEdges p (s.busyFronds p) (s.busyChannels p) →
    exec (.deadlockDeclare p) s = .next (if s4.rdB Reg.DBG_FRZ_CFG 3 then s4.freezeLocal 4 else s4))

/-- FROND_OP_START of a ready copy in slot 0 sets the Frond up from the operation's record, records the start and fetches its first line; when the line cannot be read the operation stops with 0x0605. FROND_OP_END, once END has retired and every load and MMA is done, holds the slot, counts the operation and records its end to be released. FROND_ABORT_COMPLETE empties slot 0 and lets the scheduler decide on the copy. FROND_ZEROING_COMPLETE leaves the Frond with nothing but the number of its placements; one that was fenced leaves the capability table. -/
def Obligations.FrondRunCommands : Prop :=
  (∀ (n : Fin 32) (x : Slot) (g : Graph) (r : GsRun) (y : CopyRun) (s s1 s3 : State),
    (s.tc n).slot0 = some x →
    x.st = 2 →
    (s.tc n).itemWait = false →
    (s.tc n).aborting = none →
    (s.tc n).zeroing = false →
    s.rdB Reg.REL_STATUS 0 = false →
    s.graphAt x.cid.graph = some g →
    g.cur = some r →
    g.copyRun x.cid.op x.cid.copy = some y →
    s1 = (s.progress g.pt).setTc n ({ s.tc n with slot0 := some { x with st := 3 } }.setUp (copyArgs (g.opAt x.cid.op) x.cid.copy r.larg)
      (g.opAt x.cid.op).entry s.now) →
    (s3 = ((if 250 < s.now - y.readyAt then s1.bump Reg.GS_LATE 1 else s1).rcMax Reg.GS_START_MAX (s.now - y.readyAt)).event
      (uTc n) 0x01 g.pt 0 x.cid.op (g.opAt x.cid.op).entry) →
    exec (.frondOpStart n) s = .next (if (s3.fetchLine n (g.opAt x.cid.op).entry).2 then (s3.fetchLine n (g.opAt x.cid.op).entry).1
      else (s3.fetchLine n (g.opAt x.cid.op).entry).1.frondStop n 0x0605 false)) ∧
  (∀ (n : Fin 32) (x : Slot) (p : Nat) (s s1 s3 : State),
    (s.tc n).slot0 = some x →
    (s.tc n).retired = true →
    x.st = 3 →
    (s.tc n).loads = [] →
    (s.tc n).mmas = [] →
    (s.tc n).itemWait = false →
    p = s.tcPt n →
    (s.tc n).digests.any Digest.countErr = false →
    s1 = s.progress p →
    s3 = (((((s1.setTc n { s1.tc n with aborting := none }).holdSlot n).setCopy x.cid fun c => { c with phase := .ended n }).bump (Reg.TC_OPS n) 1).bump
      (Reg.GS_PT_OPS p) 1).event (uTc n) 0x02 p 0 x.cid.op (s.tc n).bytes →
    ∃ e, exec (.frondOpEnd n) s = .next ({ s3 with gs := { s3.gs with ends := s3.gs.ends ++ [e] } }.fenceDue n) ∧ e.cid = x.cid ∧ e.pt = p ∧ e.code = 0 ∧
      e.tc = some n.val ∧ e.arith = (s.tc n).arith ∧ e.digs = digestEntries (s.tc n).digests ∧ e.startAt = (s.tc n).startAt ∧ e.endAt = s.now) ∧
  (∀ (n : Fin 32) (x : Slot) (why : AbortWhy) (s : State),
    (s.tc n).slot0 = some x →
    (s.tc n).aborting = some why →
    exec (.frondAbortComplete n) s = .next (((s.abortComplete n).gsSettle (s.tcPt n)).crzDrain)) ∧
  (∀ (n : Fin 32) (s : State),
    (s.tc n).zeroing = true →
    (s.tc n).fencing = none →
    ∃ t, exec (.frondZeroingComplete n) s = .next t ∧ t.tc n = { placed := (s.tc n).placed } ∧ (∀ m, m ≠ n.val → t.tc m = s.tc m) ∧
      t = { s with frond := t.frond }) ∧
  (∀ (n : Fin 32) (r : Nat) (s : State),
    (s.tc n).zeroing = true →
    (s.tc n).fencing = some r →
    exec (.frondZeroingComplete n) s = .next ((s.setTc n { placed := (s.tc n).placed }).fenceDone n r (s.tc n).fencePt))

/-- When Frond n issues a word of one of the lane instructions VADD, VSUB, VMUL, VFMA, VMIN, VMAX, VDIV, VSQRT, VCMP, VSEL, VLOGIC, VSHIFT or VSFU that meets the encoding rules of R251 to R255, every active lane of VD holds the result of the operation on the lanes of VA, operand B and VC, the other lanes and registers keep their values, the status bits accumulate, the pc moves on by 16, and beyond the Frond only counters change. The checks that ran with the instruction act afterwards. -/
def Obligations.LaneInstructions : Prop :=
  (∀ (n : Fin 32) (chk : FrondCheck) (w : Nat) (s : State),
    s.issuesWord n 2 0x01 w = true →
    vecOk (vINT ||| vB ||| vVD ||| vVA ||| vVLEN ||| vSAT) w = true →
    bFieldsOk w = true →
    satOk w = true →
    ∃ t, exec (.vadd n chk) s = .next (t.afterCheck n chk) ∧ s.ranLanes t n w (fun a b _ => if fINT w then intResult w (signedOf 32 a + signedOf 32 b) else add32 a b)) ∧
  (∀ (n : Fin 32) (chk : FrondCheck) (w : Nat) (s : State),
    s.issuesWord n 2 0x02 w = true →
    vecOk (vINT ||| vB ||| vVD ||| vVA ||| vVLEN ||| vSAT) w = true →
    bFieldsOk w = true →
    satOk w = true →
    ∃ t, exec (.vsub n chk) s = .next (t.afterCheck n chk) ∧ s.ranLanes t n w (fun a b _ => if fINT w then intResult w (signedOf 32 a - signedOf 32 b) else sub32 a b)) ∧
  (∀ (n : Fin 32) (chk : FrondCheck) (w : Nat) (s : State),
    s.issuesWord n 2 0x03 w = true →
    vecOk (vINT ||| vB ||| vVD ||| vVA ||| vVLEN ||| vSAT) w = true →
    bFieldsOk w = true →
    satOk w = true →
    ∃ t, exec (.vmul n chk) s = .next (t.afterCheck n chk) ∧ s.ranLanes t n w (fun a b _ => if fINT w then intResult w (signedOf 32 a * signedOf 32 b) else mul32 a b)) ∧
  (∀ (n : Fin 32) (chk : FrondCheck) (w : Nat) (s : State),
    s.issuesWord n 2 0x04 w = true →
    vecOk (vINT ||| vB ||| vVD ||| vVA ||| vVC ||| vVLEN ||| vSAT) w = true →
    bFieldsOk w = true →
    satOk w = true →
    ∃ t, exec (.vfma n chk) s = .next (t.afterCheck n chk) ∧ s.ranLanes t n w (fun a b c => if fINT w then intResult w (signedOf 32 a * signedOf 32 b + signedOf 32 c) else fma32 a b c)) ∧
  (∀ (n : Fin 32) (chk : FrondCheck) (w : Nat) (s : State),
    s.issuesWord n 2 0x05 w = true →
    vecOk (vINT ||| vB ||| vVD ||| vVA ||| vVLEN) w = true →
    bFieldsOk w = true →
    ∃ t, exec (.vmin n chk) s = .next (t.afterCheck n chk) ∧ s.ranLanes t n w (fun a b _ => if fINT w then (if signedOf 32 b < signedOf 32 a then b else a, 0) else min32 a b)) ∧
  (∀ (n : Fin 32) (chk : FrondCheck) (w : Nat) (s : State),
    s.issuesWord n 2 0x06 w = true →
    vecOk (vINT ||| vB ||| vVD ||| vVA ||| vVLEN) w = true →
    bFieldsOk w = true →
    ∃ t, exec (.vmax n chk) s = .next (t.afterCheck n chk) ∧ s.ranLanes t n w (fun a b _ => if fINT w then (if signedOf 32 a < signedOf 32 b then b else a, 0) else max32 a b)) ∧
  (∀ (n : Fin 32) (chk : FrondCheck) (w : Nat) (s : State),
    s.issuesWord n 2 0x07 w = true →
    vecOk (vB ||| vVD ||| vVA ||| vVLEN) w = true →
    bFieldsOk w = true →
    ∃ t, exec (.vdiv n chk) s = .next (t.afterCheck n chk) ∧ s.ranLanes t n w (fun a b _ => div32 a b)) ∧
  (∀ (n : Fin 32) (chk : FrondCheck) (w : Nat) (s : State),
    s.issuesWord n 2 0x08 w = true →
    vecOk (vVD ||| vVA ||| vVLEN) w = true →
    ∃ t, exec (.vsqrt n chk) s = .next (t.afterCheck n chk) ∧ s.ranLanes t n w (fun a _ _ => sqrt32 a)) ∧
  (∀ (n : Fin 32) (chk : FrondCheck) (w : Nat) (s : State),
    s.issuesWord n 2 0x09 w = true →
    vecOk (vINT ||| vB ||| vVD ||| vVA ||| vVLEN ||| vFN) w = true →
    bFieldsOk w = true →
    fFN w ≤ 3 →
    ∃ t, exec (.vcmp n chk) s = .next (t.afterCheck n chk) ∧ s.ranLanes t n w (fun a b _ => (if (if fINT w then cmpInt (fFN w) a b else cmp32 (fFN w) a b) then 0xFFFFFFFF else 0, 0))) ∧
  (∀ (n : Fin 32) (chk : FrondCheck) (w : Nat) (s : State),
    s.issuesWord n 2 0x0A w = true →
    vecOk (vB ||| vVD ||| vVA ||| vVC ||| vVLEN) w = true →
    bFieldsOk w = true →
    ∃ t, exec (.vsel n chk) s = .next (t.afterCheck n chk) ∧ s.ranLanes t n w (fun a b c => (if c != 0 then a else b, 0))) ∧
  (∀ (n : Fin 32) (chk : FrondCheck) (w : Nat) (s : State),
    s.issuesWord n 2 0x0B w = true →
    vecOk (vB ||| vVD ||| vVA ||| vVLEN ||| vFN) w = true →
    bFieldsOk w = true →
    fFN w ≤ 3 →
    ∃ t, exec (.vlogic n chk) s = .next (t.afterCheck n chk) ∧ s.ranLanes t n w (fun a b _ => (match fFN w with | 0 => a &&& b | 1 => a ||| b | 2 => a ^^^ b | _ => a &&& (b ^^^ 0xFFFFFFFF), 0))) ∧
  (∀ (n : Fin 32) (chk : FrondCheck) (w : Nat) (s : State),
    s.issuesWord n 2 0x0C w = true →
    vecOk (vINT ||| vB ||| vVD ||| vVA ||| vVLEN ||| vFN) w = true →
    bFieldsOk w = true →
    fFN w ≤ 2 ∧ fINT w = true →
    ∃ t, exec (.vshift n chk) s = .next (t.afterCheck n chk) ∧ s.ranLanes t n w (fun a b _ => (match fFN w with | 0 => a * 2 ^ (b % 32) % 2 ^ 32 | 1 => a / 2 ^ (b % 32) | _ => codeOf 32 (signedOf 32 a / (2 ^ (b % 32) : Nat)), 0))) ∧
  (∀ (n : Fin 32) (chk : FrondCheck) (w : Nat) (s : State),
    s.issuesWord n 2 0x0D w = true →
    vecOk (vVD ||| vVA ||| vVLEN ||| vFN) w = true →
    fFN w ≤ 10 →
    ∃ t, exec (.vsfu n chk) s = .next (t.afterCheck n chk) ∧ s.ranLanes t n w (fun a _ _ => sfu (fFN w) a))

/-- VBCST and VIOTA write the active lanes of VD from S[SS], IMM, or IMM plus the lane number; VRDACC reads all 64 lanes from a tile row; VWRACC writes the row; VLD and VST move 64 to 256 bytes between V and scratch, and stall while a load or MMA uses the lines; VCVT and VQNT write the converted codes, and VQNT the block scales. Each moves the pc on by 16 and changes nothing else but counters, status and marks. -/
def Obligations.VectorMoves : Prop :=
  (∀ (n : Fin 32) (chk : FrondCheck) (w : Nat) (s : State),
    s.issuesWord n 2 0x15 w = true →
    vecOk (wm 0 18 1 ||| vVD ||| vSS ||| vVLEN ||| vIMM) w = true →
    ((if fBCI w then fSS w = 0 else fIMM w = 0)) →
    ∃ t, exec (.vbcst n chk) s = .next (t.afterCheck n chk) ∧ s.ranLanes t n w fun _ _ _ => (if fBCI w then fIMM w else (s.tc n).sreg (fSS w) % 2 ^ 32, 0)) ∧
  (∀ (n : Fin 32) (chk : FrondCheck) (w : Nat) (s : State),
    s.issuesWord n 2 0x16 w = true →
    vecOk (vVD ||| vVLEN ||| vIMM) w = true →
    ∃ t, exec (.viota n chk) s = .next (t.afterCheck n chk) ∧ (∀ i, i < activeLanes w → (t.tc n).lane (fVD w) i = (fIMM w + i) % 2 ^ 32) ∧
      (∀ r i, r ≠ fVD w ∨ activeLanes w ≤ i → i < 64 → (t.tc n).lane r i % 2 ^ 32 = (s.tc n).lane r i % 2 ^ 32) ∧ s.wentOn t n) ∧
  (∀ (n : Fin 32) (chk : FrondCheck) (w : Nat) (s : State),
    s.issuesWord n 2 0x13 w = true →
    vecOk (vVD ||| vSS ||| vFN ||| vIMM) w = true →
    fFN w ≤ 7 →
    (s.tc n).sMark (fSS w) = false →
    (s.tc n).sreg (fSS w) + fIMM w < 128 →
    (s.tc n).tileBusy (fFN w) = false →
    ∃ t, exec (.vrdacc n chk) s = .next (t.afterCheck n chk) ∧ (∀ i, i < 64 → (t.tc n).lane (fVD w) i =
      (s.tc n).elem (fFN w) ((s.tc n).sreg (fSS w) + fIMM w) i % 2 ^ 32) ∧ (∀ r i, r ≠ fVD w → i < 64 → (t.tc n).lane r i = (s.tc n).lane r i) ∧ s.wentOn t n) ∧
  (∀ (n : Fin 32) (chk : FrondCheck) (w : Nat) (F : Frond) (row : Nat) (s : State),
    s.issuesWord n 2 0x14 w = true →
    vecOk (vVA ||| vSS ||| vFN ||| vIMM) w = true →
    fFN w ≤ 7 →
    (s.tc n).sMark (fSS w) = false →
    row = (s.tc n).sreg (fSS w) + fIMM w →
    row < 128 →
    (s.tc n).tileBusy (fFN w) = false →
    F = (List.range 64).foldl (fun (g : Frond) i => g.setElem (fFN w) row i ((s.tc n).lane (fVA w) i)) (s.tc n) →
    exec (.vwracc n chk) s = .next ((s.moveOn (s.setTc n { F with accBad := (List.range 4).foldl (fun l g =>
      if (s.tc n).vBad.contains (fVA w * 4 + g) then insSorted (accGroup (fFN w) row (16 * g)) l else l.filter (· != accGroup (fFN w) row (16 * g))) F.accBad }) n ((s.tc n).pc + 16)).afterCheck n chk)) ∧
  (∀ (n : Fin 32) (chk : FrondCheck) (w : Nat) (a size : Nat) (s : State),
    s.issuesWord n 2 0x11 w = true →
    vecOk (vVD ||| vSS ||| vFN ||| vIMM) w = true →
    fFN w ≤ 3 →
    (s.tc n).sMark (fSS w) = false →
    a = (s.tc n).moveAddr w →
    size = 64 * (fFN w + 1) →
    scratchOk a size = true →
    (s.tc n).loadBusy a size = false →
    exec (.vld n chk) s = .next ((s.moveOn (s.setTc n ((s.tc n).writeV (fVD w) fun k => if k < size then some (((s.tc n).scr a size).getD k 0#8,
      (s.tc n).lineBad.contains ((a + k) / 64)) else none)) n ((s.tc n).pc + 16)).afterCheck n chk)) ∧
  (∀ (n : Fin 32) (chk : FrondCheck) (w : Nat) (a size : Nat) (s : State),
    s.issuesWord n 2 0x12 w = true →
    vecOk (vVA ||| vSS ||| vFN ||| vIMM) w = true →
    fFN w ≤ 3 →
    (s.tc n).sMark (fSS w) = false →
    a = (s.tc n).moveAddr w →
    size = 64 * (fFN w + 1) →
    scratchOk a size = true →
    (s.tc n).loadBusy a size = false →
    (s.tc n).mmaReads a size = false →
    exec (.vst n chk) s = .next ((s.moveOn (s.setTc n ((List.range (fFN w + 1)).foldl (fun (g : Frond) k => g.markLine (a / 64 + k)
      ((s.tc n).vBad.contains (fVA w * 4 + k))) ((s.tc n).setScr a (((s.tc n).vBytes (fVA w)).take size)))) n ((s.tc n).pc + 16)).afterCheck n chk)) ∧
  (∀ (n : Fin 32) (chk : FrondCheck) (w : Nat) (res : Nat → Nat × Nat × Bool) (s : State),
    s.issuesWord n 2 0x0E w = true →
    cvtOk w = true →
    (∀ i, res i = (let src := if cvtNarrow w then ((s.tc n).lane (fVA w) i, (s.tc n).vMark (fVA w) i) else (s.tc n).readPart (fVA w) (fPART w) (codeBits (fST w)) i
      let x := if fFN w = 1 then (decodeVal (fST w) src.1).mul (val32 ((s.tc n).opB w i).1) else (decodeVal (fST w) src.1, false)
      let c := convert (fDT w) x.1 (fRM w) (fSAT w) (srBits ((s.tc n).sreg (fSD w) % 2 ^ 32) ((s.tc n).sreg (fSX w) + i))
      (c.1, c.2 ||| x.2.toNat, src.2 || (fFN w == 1 && ((s.tc n).opB w i).2) || (fRM w == 2 && ((s.tc n).sMark (fSD w) || (s.tc n).sMark (fSX w)))))) →
    ∃ F, exec (.vcvt n chk) s = .next ((s.moveOn (((s.setTc n F).setArith n ((List.range (activeLanes w)).foldl (fun a i => a ||| (res i).2.1) 0)).bump
      (Reg.DBG_TC_VCVT n) (activeLanes w)) n ((s.tc n).pc + 16)).afterCheck n chk) ∧
      F = (if codeBits (fDT w) = 32 then (s.tc n).writeLanes (fVD w) fun i => if i < activeLanes w then some ((res i).1, (res i).2.2) else none
        else (s.tc n).writePart (fVD w) (fPART w) (codeBits (fDT w)) fun i => if i < activeLanes w then some ((res i).1, (res i).2.2) else none)) ∧
  (∀ (n : Fin 32) (chk : FrondCheck) (w : Nat) (blk : Nat → List Nat × Nat × Nat) (bad : Nat → Bool) (s : State),
    s.issuesWord n 2 0x0F w = true →
    qntOk w = true →
    fDT w ≠ 0x18 ∨ (s.tc n).sMark (fSS w) = false →
    (∀ q, blk q = qntBlock w ((s.tc n).sreg (fSS w) % 2 ^ 32)
      ((List.range 32).map fun j => if 32 * q + j < activeLanes w then some ((s.tc n).lane (fVA w) (32 * q + j)) else none)
      fun j => srBits ((s.tc n).sreg (fSD w) % 2 ^ 32) ((s.tc n).sreg (fSX w) + 32 * q + j)) →
    (∀ q, bad q = (fRM w == 2 && ((s.tc n).sMark (fSD w) || (s.tc n).sMark (fSX w)) && 32 * q < activeLanes w ||
      (List.range 32).any fun j => 32 * q + j < activeLanes w && (s.tc n).vMark (fVA w) (32 * q + j))) →
    ∃ F, exec (.vqnt n chk) s = .next ((s.moveOn (((s.setTc n F).setArith n ((blk 0).2.2 ||| (blk 1).2.2)).bump
      (Reg.DBG_TC_VQNT n) (activeLanes w)) n ((s.tc n).pc + 16)).afterCheck n chk) ∧
      F = ((s.tc n).writePart (fVD w) (fPART w) (codeBits (elemType (fDT w))) fun i =>
        some ((if i < 32 then (blk 0).1 else (blk 1).1).getD (i % 32) 0, bad (i / 32))).writeV (fVC w) fun j =>
          if j = fPART w * 2 then some (BitVec.ofNat 8 (blk 0).2.1, bad 0) else if j = fPART w * 2 + 1 then some (BitVec.ofNat 8 (blk 1).2.1, bad 1) else none)

/-- VRED writes S[SX] from the fixed tree over the active lanes; VLANE one lane; VSTAT the status bits; DQRY the field of a captured descriptor; SALU and SLI the scalar results of R262; FREAD the value of a flag the partition owns. Each writes that scalar register with its mark and nothing else of the Frond but status bits. BR goes on at its target when the condition holds and its line can be fetched, and at the next instruction otherwise. After END nothing issues. -/
def Obligations.ScalarInstructions : Prop :=
  (∀ (n : Fin 32) (chk : FrondCheck) (w : Nat) (s : State),
    s.issuesWord n 2 0x10 w = true →
    vecOk (vINT ||| vVA ||| vSX ||| vVLEN ||| vFN) w = true →
    fFN w ≤ 4 →
    (fINT w = true → fFN w ≤ 2) →
    ∃ t x, exec (.vred n chk) s = .next (t.afterCheck n chk) ∧ x = redTree (fINT w) (fFN w) ((List.range 64).map fun i =>
      if activeLanes w ≤ i then redIdent (fINT w) (fFN w)
      else if fFN w = 3 then (mul32 ((s.tc n).lane (fVA w) i) ((s.tc n).lane (fVA w) i)).1
      else if fFN w = 4 then (s.tc n).lane (fVA w) i % 2 ^ 31 else (s.tc n).lane (fVA w) i) ∧
      s.ranScalar t n (fSX w) x.1 ((List.range (activeLanes w)).any fun i => (s.tc n).vMark (fVA w) i) (x.2 ||| if fFN w = 3 then
        (List.range (activeLanes w)).foldl (fun a i => a ||| (mul32 ((s.tc n).lane (fVA w) i) ((s.tc n).lane (fVA w) i)).2) 0 else 0)) ∧
  (∀ (n : Fin 32) (chk : FrondCheck) (w : Nat) (s : State),
    s.issuesWord n 2 0x17 w = true →
    vecOk (vVA ||| vSX ||| vIMM) w = true →
    fIMM w ≤ 63 →
    ∃ t, exec (.vlane n chk) s = .next (t.afterCheck n chk) ∧ s.ranScalar t n (fSX w) ((s.tc n).lane (fVA w) (fIMM w)) ((s.tc n).vMark (fVA w) (fIMM w)) 0) ∧
  (∀ (n : Fin 32) (chk : FrondCheck) (w : Nat) (s : State),
    s.issuesWord n 2 0x18 w = true →
    vecOk vSX w = true →
    ∃ t, exec (.vstat n chk) s = .next (t.afterCheck n chk) ∧ s.ranScalar t n (fSX w) ((s.tc n).arith % 8) false 0) ∧
  (∀ (n : Fin 32) (chk : FrondCheck) (w : Nat) (h c : Nat) (image : List Byte) (s s1 : State),
    s.issuesWord n 2 0x19 w = true →
    vecOk (wm 0 17 1 ||| vSS ||| vSX ||| vFN ||| vIMM) w = true →
    fFN w ≤ 4 ∨ 8 ≤ fFN w ∧ fFN w ≤ 12 →
    (if fBCS w then fIMM w = 0 else fSS w = 0 ∧ fIMM w < 65536) →
    fBCS w = false ∨ (s.tc n).sMark (fSS w) = false →
    (h = if fBCS w then (s.tc n).sreg (fSS w) % 65536 else fIMM w) →
    (s.capture (s.tcPt n) h 0xD35C).1.toOption = some image →
    (s.capture (s.tcPt n) h 0xD35C).2 = s1 →
    ((if (Desc.ofBytes image).isIndexed then s1.indexCount (s.tcPt n) (Desc.ofBytes image) else some 0) = some c) →
    exec (.dqry n chk) s = .next ((s.moveOn (s1.setTc n ((s1.tc n).setS (fSX w) ((Desc.ofBytes image).query c (fFN w)))) n ((s.tc n).pc + 16)).afterCheck n chk)) ∧
  (∀ (n : Fin 32) (chk : FrondCheck) (w : Nat) (b : Nat × Bool) (s : State),
    s.issuesWord n 2 0x20 w = true →
    w &&& (wmOp ||| wm 0 16 1 ||| wm 0 0 12 ||| wm 1 0 6 ||| wm 1 8 8 ||| wm 2 0 32) = w →
    cFN w ≤ 0x13 →
    (if bitAt w 16 then cSRC2 w = 0 else cLO w = 0) →
    (b = if bitAt w 16 then (codeOf 64 (signedOf 32 (cLO w)), false) else ((s.tc n).sreg (cSRC2 w), (s.tc n).sMark (cSRC2 w))) →
    ∃ t, exec (.frondSalu n chk) s = .next (t.afterCheck n chk) ∧ s.ranScalar t n (wfld w 0 0 6) (saluOp (cFN w) ((s.tc n).sreg (cSRC1 w)) b.1) ((s.tc n).sMark (cSRC1 w) || b.2) 0) ∧
  (∀ (n : Fin 32) (chk : FrondCheck) (w : Nat) (s : State),
    s.issuesWord n 2 0x21 w = true →
    w &&& (wmOp ||| wm 0 0 6 ||| wm 2 0 32 ||| wm 3 0 32) = w →
    ∃ t, exec (.frondSli n chk) s = .next (t.afterCheck n chk) ∧ s.ranScalar t n (wfld w 0 0 6) (wfld w 3 0 32 * 2 ^ 32 + cLO w) false 0) ∧
  (∀ (n : Fin 32) (chk : FrondCheck) (w : Nat) (s : State),
    s.issuesWord n 2 0x22 w = true →
    w &&& (wmOp ||| wm 0 6 6 ||| wm 1 0 6 ||| wm 1 8 8 ||| wm 2 0 32) = w →
    cFN w ≤ 6 →
    (s.tc n).sMark (cSRC1 w) = false →
    (s.tc n).sMark (cSRC2 w) = false →
    brTaken (cFN w) ((s.tc n).sreg (cSRC1 w)) ((s.tc n).sreg (cSRC2 w)) = false →
    exec (.frondBr n chk) s = .next ((s.moveOn (s.countScalar n) n ((s.tc n).pc + 16)).afterCheck n chk)) ∧
  (∀ (n : Fin 32) (chk : FrondCheck) (w : Nat) (target : Nat) (s s1 : State),
    s.issuesWord n 2 0x22 w = true →
    w &&& (wmOp ||| wm 0 6 6 ||| wm 1 0 6 ||| wm 1 8 8 ||| wm 2 0 32) = w →
    cFN w ≤ 6 →
    (s.tc n).sMark (cSRC1 w) = false →
    (s.tc n).sMark (cSRC2 w) = false →
    brTaken (cFN w) ((s.tc n).sreg (cSRC1 w)) ((s.tc n).sreg (cSRC2 w)) = true →
    target = codeOf 64 (((s.tc n).pc : Int) + signedOf 32 (cLO w) * 16) →
    s.fetchLine n target = (s1, true) →
    exec (.frondBr n chk) s = .next ((s.moveOn (s1.countScalar n) n target).afterCheck n chk)) ∧
  (∀ (n : Fin 32) (chk : FrondCheck) (w : Nat) (s : State),
    s.issuesWord n 2 0x23 w = true →
    w &&& wmOp = w →
    exec (.endOp n chk) s = .next ((s.moveOn ((s.setTc n { s.tc n with retired := true }).countScalar n) n ((s.tc n).pc + 16)).afterCheck n chk)) ∧
  (∀ (n : Fin 32) (cls op : Nat) (chk : FrondCheck) (body : State → Nat → Nat → Issue) (s : State),
    (s.tc n).retired = true →
    s.issue n cls op chk body = s) ∧
  (∀ (n : Fin 32) (chk : FrondCheck) (w : Nat) (s : State),
    s.issuesWord n 3 4 w = true →
    w &&& (wmOp ||| wm 0 16 1 ||| wm 0 19 1 ||| wm 0 0 15 ||| wm 1 0 6 ||| wm 1 12 6) = w →
    flagFieldsOk w = true →
    (s.tc n).flagOperands w false false = 0 →
    s.owns (s.tcPt n) 0x33 ((s.tc n).flagIndex w) = true →
    (s.flag ((s.tc n).flagIndex w)).poisoned = false →
    ∃ t, exec (.fread n chk) s = .next (t.afterCheck n chk) ∧ s.ranScalar t n (wfld w 1 12 6) (s.flag ((s.tc n).flagIndex w)).value false 0)

/-- SIGNAL and FSET of a flag that the partition owns become releases of the operation, which wait for its earlier accesses; a SIGNAL with REMOTE to another device is a release to that device. WAIT begins the wait at the flag unit and holds issue until it is satisfied. FENCE holds issue until the accesses that its kind names are done. Each counts one S-class instruction and moves the pc on by 16. -/
def Obligations.SyncInstructions : Prop :=
  (∀ (n : Fin 32) (chk : FrondCheck) (w : Nat) (op : FlagOp) (s : State),
    s.issuesWord n 3 1 w = true →
    w &&& (wmOp ||| wm 0 16 3 ||| wm 0 0 15 ||| wm 1 0 12 ||| wm 1 18 7 ||| wm 2 0 32) = w →
    flagFieldsOk w = true →
    valueFieldsOk w = true →
    bitAt w 18 = false ∧ wfld w 1 18 7 = 0 ∨ wfld w 1 18 7 = s.devId ∧ bitAt w 18 = true →
    bitAt w 17 = true ∨ wfld w 2 0 32 ≠ 0 →
    (s.tc n).flagOperands w true true = 0 →
    s.owns (s.tcPt n) 0x33 ((s.tc n).flagIndex w) = true →
    op = { isSet := false, flag := (s.tc n).flagIndex w, n := (s.tc n).flagValue w, pt := s.tcPt n, agent := uTc n, ctx := s.tcCtx n } →
    exec (.frondSignal n chk) s = .next ((s.moveOn ((s.pushRelease n op none).countSync n) n ((s.tc n).pc + 16)).afterCheck n chk)) ∧
  (∀ (n : Fin 32) (chk : FrondCheck) (w : Nat) (op : FlagOp) (s : State),
    s.issuesWord n 3 1 w = true →
    w &&& (wmOp ||| wm 0 16 3 ||| wm 0 0 15 ||| wm 1 0 12 ||| wm 1 18 7 ||| wm 2 0 32) = w →
    flagFieldsOk w = true →
    valueFieldsOk w = true →
    bitAt w 18 = true →
    wfld w 1 18 7 ≠ s.devId →
    bitAt w 17 = true ∨ wfld w 2 0 32 ≠ 0 →
    (s.tc n).flagOperands w true true = 0 →
    op = { isSet := false, flag := (s.tc n).flagIndex w, n := (s.tc n).flagValue w, pt := s.tcPt n, agent := uTc n, ctx := s.tcCtx n } →
    exec (.frondSignal n chk) s = .next ((s.moveOn ((s.pushRelease n op (some (wfld w 1 18 7))).countSync n) n ((s.tc n).pc + 16)).afterCheck n chk)) ∧
  (∀ (n : Fin 32) (chk : FrondCheck) (w : Nat) (op : FlagOp) (s : State),
    s.issuesWord n 3 3 w = true →
    w &&& (wmOp ||| wm 0 16 2 ||| wm 0 0 15 ||| wm 1 0 12 ||| wm 2 0 32) = w →
    flagFieldsOk w = true →
    valueFieldsOk w = true →
    (s.tc n).flagOperands w true false = 0 →
    s.owns (s.tcPt n) 0x33 ((s.tc n).flagIndex w) = true →
    op = { isSet := true, flag := (s.tc n).flagIndex w, n := (s.tc n).flagValue w, pt := s.tcPt n, agent := uTc n, ctx := s.tcCtx n } →
    exec (.fset n chk) s = .next ((s.moveOn ((s.pushRelease n op none).countSync n) n ((s.tc n).pc + 16)).afterCheck n chk)) ∧
  (∀ (n : Fin 32) (chk : FrondCheck) (w : Nat) (s s1 : State),
    s.issuesWord n 3 2 w = true →
    w &&& (wmOp ||| wm 0 16 2 ||| wm 0 0 15 ||| wm 1 0 12 ||| wm 2 0 32) = w →
    flagFieldsOk w = true →
    valueFieldsOk w = true →
    (s.tc n).flagOperands w true false = 0 →
    s.flagWait (s.tcPt n) ((s.tc n).flagIndex w) ((s.tc n).flagValue w) (uTc n) (s.tcCtx n) = (s1, 0) →
    exec (.frondWait n chk) s = .next ((s.moveOn ((s1.setTc n { s1.tc n with wait := some ((s.tc n).flagIndex w, (s.tc n).flagValue w) }).countSync n) n ((s.tc n).pc + 16)).afterCheck n chk)) ∧
  (∀ (n : Fin 32) (chk : FrondCheck) (w : Nat) (x : Slot) (done : Bool) (s : State),
    s.issuesWord n 3 5 w = true →
    w &&& (wmOp ||| wm 1 25 2) = w →
    wfld w 1 25 2 ≠ 3 →
    (s.tc n).slot0 = some x →
    done = ((wfld w 1 25 2 == 1 || (s.tc n).loads.isEmpty) && (wfld w 1 25 2 == 2 || ((s.tc n).stores.filter fun y => y.2 == x.cid).isEmpty)) →
    exec (.frondFence n chk) s = .next ((s.moveOn ((s.setTc n { s.tc n with fence := if done then none else some (wfld w 1 25 2) }).countSync n) n ((s.tc n).pc + 16)).afterCheck n chk))

/-- An MMA that meets its rules writes the tile by R249 and counts its MACs, and occupies the tile until its completion; TLOAD whose operands and addresses pass the checks of R264 queues the load; its completion fills the panels and counts the bytes; TSTORE writes its elements, with their digests, and its completion makes the writes visible; TCLR empties tiles. Issue stalls while an earlier instruction uses what these need. -/
def Obligations.TensorInstructions : Prop :=
  (∀ (n : Fin 32) (chk : FrondCheck) (w : Nat) (i : MmaWord) (rs : List (Nat × Nat)) (F : Frond × Nat) (s s1 : State),
    s.issuesWord n 1 1 w = true →
    i = mmaWord w →
    i.ok w = true →
    (s.tc n).sMark i.av = false ∧ (s.tc n).sMark i.bv = false →
    ((isScaled i.ta = true → (s.tc n).sMark i.as_ = false) ∧ (isScaled i.tb = true → (s.tc n).sMark i.bs = false)) →
    ((i.ta = 0x18 → (s.tc n).sMark i.at_ = false) ∧ (i.tb = 0x18 → (s.tc n).sMark i.bt = false)) →
    rs = operandRanges i.ta i.m i.klen ((s.tc n).sreg i.av) ((s.tc n).sreg i.as_) ++ operandRanges i.tb i.n i.klen ((s.tc n).sreg i.bv) ((s.tc n).sreg i.bs) →
    rs.all (fun x => scratchOk x.1 x.2) = true →
    i.clear = true ∨ (s.tc n).accInt.contains i.acc = i.intPath →
    (s.tc n).tileBusy i.acc = false →
    rs.any (fun x => (s.tc n).loadBusy x.1 x.2) = false →
    F = (s.tc n).mma i →
    s1 = (s.setTc n { F.1 with mmas := F.1.mmas ++ [(i.acc, rs)] }).setArith n F.2 →
    exec (.mma n chk) s = .next ((s.moveOn (s1.mmaCount n (s1.tcPt n) i) n ((s.tc n).pc + 16)).afterCheck n chk)) ∧
  (∀ (n : Fin 32) (x : Nat × List (Nat × Nat)) (xs : List (Nat × List (Nat × Nat))) (s : State),
    (s.tc n).mmas = x :: xs →
    ∃ t, exec (.mmaComplete n) s = .next t ∧ t = s.setTc n { s.tc n with mmas := xs }) ∧
  (∀ (n : Fin 32) (chk : FrondCheck) (w : Nat) (t : Tile) (s s1 : State),
    s.issuesWord n 1 2 w = true →
    (s.tileOperands n w 0).toOption = some (s1, t) →
    t.panels.any (fun x => (s1.tc n).loadBusy x.1 x.2 || (s1.tc n).mmaReads x.1 x.2) = false →
    t.originOk = true →
    s1.tileCheck (s1.tcPt n) t t.elems = none →
    s1.tileRemote (s1.tcPt n) t t.elems = [] →
    exec (.tload n chk) s = .next ((s.moveOn (s1.setTc n { s1.tc n with loads := (s1.tc n).loads ++ [{ id := (s1.tc n).nextId, pc := (s.tc n).pc, tile := t }], nextId := (s1.tc n).nextId + 1 }) n ((s.tc n).pc + 16)).afterCheck n chk)) ∧
  (∀ (n : Fin 32) (l : Load) (ls : List Load) (s s2 s3 : State),
    (s.tc n).loads = l :: ls →
    s.remoteOpen (uTc n) 2 = false →
    (s.setTc n { s.tc n with loads := ls }).loadTile n (s.tcPt n) l.tile = (s2, none) →
    s3 = (s2.bump (Reg.DBG_TC_LOAD_BYTES n) l.tile.bytes).chargeShare (s.tcPt n) l.tile.bytes →
    exec (.tloadComplete n) s = .next ((s3.setTc n { s3.tc n with bytes := (s3.tc n).bytes + l.tile.bytes }).accessDone n l.id)) ∧
  (∀ (n : Fin 32) (chk : FrondCheck) (w : Nat) (t : Tile) (x : Slot) (ds : List Digest) (s s1 s3 : State),
    s.issuesWord n 1 3 w = true →
    (s.tileOperands n w 1).toOption = some (s1, t) →
    (s1.tc n).slot0 = some x →
    (s1.tc n).loads = [] →
    t.desc.cmpMode = 1 ∨ ((s1.tc n).digests.any fun g => g.handle == t.handle) = true ∨ (s1.tc n).digests.length < 8 →
    t.originOk = true →
    (ds = if t.desc.cmpMode = 1 ∨ ((s1.tc n).digests.any fun g => g.handle == t.handle) = true then (s1.tc n).digests else (s1.tc n).digests ++ [{ handle := t.handle, image := t.image, count := t.count }]) →
    (s1.setTc n { s1.tc n with digests := ds, nextId := (s1.tc n).nextId + 1, stores := (s1.tc n).stores ++ [((s1.tc n).nextId, x.cid)] }).storeGroups n (s1.tcPt n) t t.groups = (s3, none) →
    exec (.tstore n chk) s = .next ((s.moveOn s3 n ((s.tc n).pc + 16)).afterCheck n chk)) ∧
  (∀ (n : Fin 32) (x : Nat × CopyId) (xs : List (Nat × CopyId)) (s : State),
    (s.tc n).stores = x :: xs →
    s.remoteOpen (uTc n) 1 = false →
    exec (.tstoreComplete n) s = .next ((s.setTc n { s.tc n with stores := xs }).accessDone n x.1)) ∧
  (∀ (n : Fin 32) (chk : FrondCheck) (w : Nat) (s : State),
    s.issuesWord n 1 4 w = true →
    w &&& (wmOp ||| wm 0 16 1 ||| wm 0 0 8) = w →
    (∃ k, k < 8 ∧ bitAt w k = true) →
    (∀ k, k < 8 → bitAt w k = true → (s.tc n).tileBusy k = false) →
    ∃ F, exec (.tclr n chk) s = .next ((s.moveOn (s.setTc n F) n ((s.tc n).pc + 16)).afterCheck n chk) ∧
      (∀ k m c, k < 8 → m < 128 → c < 64 → F.elem k m c = if bitAt w k then 0 else (s.tc n).elem k m c) ∧
      F = { s.tc n with acc := F.acc, accBad := F.accBad, accInt := F.accInt })

/-- Adding to any counter, and raising any interrupt of any partition, changes nothing but registers, the outputs, the event rings and what the queue manager keeps of interrupts: no memory, flag, owner, queue, graph, Frond, channel or record changes, whatever saturates, freezes or drains. -/
def Obligations.CountingLeavesTheRest : Prop :=
  (∀ (s : State) (a n : Nat),
    CountsOnly s (s.bump a n)) ∧
  (∀ (s : State) (p i : Nat),
    CountsOnly s (s.irq p i)) ∧
  (∀ (s : State) (a v : Nat),
    CountsOnly s (s.rcMax a v))

/-- Reporting any code to any partition, and recording any synchronisation in the trace, changes nothing but registers, the outputs, event rings, interrupt state, the aggregator's own state, and the memory (or link packets) that hold the log and the trace: no flag, owner, queue, graph, Frond, channel, stream, engine or device time changes. -/
def Obligations.ReportingLeavesTheRest : Prop :=
  (∀ (s : State) (p : Nat) (r : Report),
    ReportsOnly s (s.report p r)) ∧
  (∀ (s : State) (p op : Nat) (a b : UnitId) (f v x k : Nat) (acq : Bool),
    ReportsOnly s (s.trace p op a f acq b v x k))

/-- A signal of n by the owner of an unpoisoned flag adds n when the sum is below 2^32, and ends exactly the pending waits whose target the new value has reached; a sum of 2^32 or more leaves every flag as it was and the requester unstopped (code 0); a set by the owner gives the flag n and clears poison, and a satisfied wait stays satisfied. A partition that does not own the flag is refused with 0x0503 and an operation on a poisoned flag with 0x0B05, and neither changes a flag. No operation changes any other flag. -/
def Obligations.FlagOperations : Prop :=
  (∀ (s : State) (p i n : Nat) (a : UnitId) (ctx op : Nat),
    s.owns p 0x33 i = true →
    (s.flag i).poisoned = false →
    (s.flag i).value + n < 2 ^ 32 →
    (s.flagSignal p i n a ctx op).2 = 0 ∧ ((s.flagSignal p i n a ctx op).1.flag i).value = (s.flag i).value + n ∧
      ((s.flagSignal p i n a ctx op).1.flag i).waits = (s.flag i).waits.map (fun w =>
        if w.ended = none ∧ w.target ≤ (s.flag i).value + n then { w with ended := some 0, endedBy := a } else w) ∧
      ∀ j, j ≠ i → (s.flagSignal p i n a ctx op).1.flag j = s.flag j) ∧
  (∀ (s : State) (p i n : Nat) (a : UnitId) (ctx op : Nat),
    s.owns p 0x33 i = true →
    (s.flag i).poisoned = false →
    2 ^ 32 ≤ (s.flag i).value + n →
    (s.flagSignal p i n a ctx op).2 = 0 ∧ (∀ j, (s.flagSignal p i n a ctx op).1.flag j = s.flag j) ∧
      (s.flagSignal p i n a ctx op).1 = (((s.bump (Reg.SYN_PT_REFUSED p) 1).wr (Reg.SYN_PT_LAST_REFUSED p) (i + 2 ^ 31)).trace p 5 a i false
        ⟨0, 0⟩ (s.flag i).value n ctx).report p { code := 0x0B02, rep := a, info := i }) ∧
  (∀ (s : State) (p i n : Nat) (a : UnitId) (ctx : Nat),
    s.owns p 0x33 i = true →
    (s.flagSet p i n a ctx).2 = 0 ∧ ((s.flagSet p i n a ctx).1.flag i).value = n % 2 ^ 32 ∧ ((s.flagSet p i n a ctx).1.flag i).poisoned = false ∧
      (∀ w ∈ (s.flag i).waits, w.ended = some 0 → w ∈ ((s.flagSet p i n a ctx).1.flag i).waits) ∧
      ∀ j, j ≠ i → (s.flagSet p i n a ctx).1.flag j = s.flag j) ∧
  (∀ (s : State) (p i n : Nat) (a : UnitId) (ctx op : Nat),
    s.owns p 0x33 i = false →
    (s.flagSignal p i n a ctx op).2 = 0x0503 ∧ (s.flagSet p i n a ctx).2 = 0x0503 ∧ (s.flagWait p i n a ctx).2 = 0x0503 ∧
      ∀ j, (s.flagSignal p i n a ctx op).1.flag j = s.flag j ∧ (s.flagSet p i n a ctx).1.flag j = s.flag j ∧ (s.flagWait p i n a ctx).1.flag j = s.flag j) ∧
  (∀ (s : State) (p i n : Nat) (a : UnitId) (ctx op : Nat),
    s.owns p 0x33 i = true →
    (s.flag i).poisoned = true →
    (s.flagSignal p i n a ctx op).2 = 0x0B05 ∧ (s.flagWait p i n a ctx).2 = 0x0B05 ∧
      ∀ j, (s.flagSignal p i n a ctx op).1.flag j = s.flag j ∧ (s.flagWait p i n a ctx).1.flag j = s.flag j) ∧
  (∀ (s : State) (p i target : Nat) (a : UnitId) (ctx : Nat),
    s.owns p 0x33 i = true →
    (s.flag i).poisoned = false →
    (s.flagWait p i target a ctx).2 = 0 ∧ ((s.flagWait p i target a ctx).1.flag i).value = (s.flag i).value ∧
      ((s.flagWait p i target a ctx).1.flag i).waits = ((s.flag i).waits ++ [({ agent := a, pt := p, target := target, since := s.now, ctx := ctx } : Wait)]).map fun w =>
        if w.ended = none ∧ w.target ≤ (s.flag i).value then { w with ended := some 0, endedBy := a } else w)

/-- The oldest released operation on a flag is taken and applied as a signal or a set; a wait that has ended is reported to the agent that waits; in the time-out mode the limit ends a pending wait with 0x0B03; a host write to VALUE of a flag that its function may reach is a set by the owner and one to ADD a signal, while 0 to ADD is refused with 0x0B01. -/
def Obligations.FlagCommands : Prop :=
  (∀ (i : Fin 32768) (o : FlagOp) (s : State),
    s.nextFlagOp i = some o →
    o.isSet = false →
    ((s.takeFlagOp o).flagSignal o.pt i o.n o.agent o.ctx).2 = 0 →
    exec (.flagSignalApply i false) s = .next ((s.takeFlagOp o).flagSignal o.pt i o.n o.agent o.ctx).1.crzDrain) ∧
  (∀ (i : Fin 32768) (o : FlagOp) (s : State),
    s.nextFlagOp i = some o →
    o.isSet = true →
    ((s.takeFlagOp o).flagSet o.pt i o.n o.agent o.ctx).2 = 0 →
    exec (.flagSetApply i false) s = .next ((s.takeFlagOp o).flagSet o.pt i o.n o.agent o.ctx).1.crzDrain) ∧
  (∀ (i : Fin 32768) (w : Wait) (s : State),
    (s.flag i).waits.find? (fun w => w.ended.isSome) = some w →
    exec (.flagWaitSatisfied i) s = .next ((s.setFlag i { s.flag i with waits := (s.flag i).waits.erase w }).waitOver i w (w.ended.getD 0)).crzDrain) ∧
  (∀ (channel : Bool) (n : Fin 64) (u : UnitId) (i target : Nat) (w : Wait) (s : State),
    (u = if channel then uCh n else uTc n) →
    s.waitOf channel n = some (i, target) →
    (s.flag i).waits.find? (fun w => w.agent == u && w.target == target && w.ended.isNone) = some w →
    s.rdB (Reg.GS_PT_CFG w.pt) 0 = true →
    exec (.waitTimeout channel n) s = .next (((((s.setFlag i { s.flag i with waits := (s.flag i).waits.erase w }).trace w.pt 6 u i false ⟨0, 0⟩
      (s.flag i).value target w.ctx).report w.pt { code := 0x0B03, subj := u, rep := u, info := i }).waitOver i w 0x0B03).crzDrain)) ∧
  (∀ (fn : Fin 16) (i : Fin 32768) (value : BitVec 32) (q : Nat) (s : State),
    s.hostFlagPt fn i = some q →
    exec (.flagValueWrite fn i value false) s = .next ((s.hostWrote q).flagSet q i value.toNat ⟨0x30, fn⟩).1.crzDrain) ∧
  (∀ (fn : Fin 16) (i : Fin 32768) (value : BitVec 32) (q : Nat) (s : State),
    s.hostFlagPt fn i = some q →
    value ≠ 0#32 →
    exec (.flagAddWrite fn i value false) s = .next ((s.hostWrote q).flagSignal q i value.toNat ⟨0x30, fn⟩).1.crzDrain) ∧
  (∀ (fn : Fin 16) (i : Fin 32768) (ue : Bool) (q : Nat) (s : State),
    s.hostFlagPt fn i = some q →
    exec (.flagAddWrite fn i 0 ue) s = .next (s.report fn { code := 0x0B01, info := i }))

/-- A channel that is RUNNING with nothing in progress executes the word at its PC. SETV sets X[xd] to the 48-bit immediate, or adds it with its sign, and nothing else but PC and RESIDUE changes; LOOP pushes its body and count, or passes over a body of count 0; ENDL goes back to the body or ends the loop; WAIT of an owned flag below its target leaves the channel WAITING; SIGNAL adds a release that waits for the writes made so far; HALT ends the run with 0; MOVE and MOVX that pass their checks set RESIDUE and become the instruction in progress. A word of no instruction ends the run with 0x0802. -/
def Obligations.MoverPrograms : Prop :=
  (∀ (ch : Fin 64) (w : Nat) (s : State),
    s.chIssues ch w = true →
    fld w 58 6 = 7 →
    chFields w [(55, 3), (54, 1), (0, 48)] = true →
    ∃ t, exec (.chSetv ch) s = .next t ∧
      t.rdN (Reg.MOV_CH_X ch (fld w 55 3)) =
        (if bitAt w 54 then codeOf 64 ((s.chX ch (fld w 55 3) : Int) + signedOf 48 (fld w 0 48)) else fld w 0 48) % 2 ^ 64 ∧
      t.rdN (Reg.MOV_CH_PC ch) = (s.rdN (Reg.MOV_CH_PC ch) + 8) % 2 ^ 64 ∧ t.rdN (Reg.MOV_CH_RESIDUE ch) = 0 ∧
      (∀ b, b ≠ Reg.MOV_CH_X ch (fld w 55 3) → b ≠ Reg.MOV_CH_PC ch → b ≠ Reg.MOV_CH_RESIDUE ch → t.rd b = s.rd b) ∧
      t = { s with regs := t.regs }) ∧
  (∀ (ch : Fin 64) (w count : Nat) (s : State),
    s.chIssues ch w = true →
    fld w 58 6 = 3 →
    chFields w [(57, 1), (54, 3), (0, 16)] = true →
    ((if bitAt w 57 then fld w 0 16 != 0 else fld w 54 3 != 0) = false) →
    (s.ch ch).loops.length < 4 →
    (count = if bitAt w 57 then s.chX ch (fld w 54 3) % 2 ^ 32 else fld w 0 16 + 1) →
    exec (.chLoop ch) s = .next ((((s.wr (Reg.MOV_CH_RESIDUE ch) 0).setCh ch
      (if count = 0 then { s.ch ch with skip := some 0 }
       else { s.ch ch with loops := (s.rdN (Reg.MOV_CH_PC ch) + 8, count) :: (s.ch ch).loops })).chDepth ch).wr
      (Reg.MOV_CH_PC ch) (s.rdN (Reg.MOV_CH_PC ch) + 8))) ∧
  (∀ (ch : Fin 64) (w body k : Nat) (rest : List (Nat × Nat)) (s : State),
    s.chIssues ch w = true →
    fld w 58 6 = 4 →
    chFields w [] = true →
    (s.ch ch).loops = (body, k) :: rest →
    exec (.chEndl ch) s = .next
      (if 1 < k then ((s.wr (Reg.MOV_CH_RESIDUE ch) 0).setCh ch { s.ch ch with loops := (body, k - 1) :: rest }).wr (Reg.MOV_CH_PC ch) body
       else (((s.wr (Reg.MOV_CH_RESIDUE ch) 0).setCh ch { s.ch ch with loops := rest }).chDepth ch).wr (Reg.MOV_CH_PC ch)
         (s.rdN (Reg.MOV_CH_PC ch) + 8))) ∧
  (∀ (ch : Fin 64) (w i : Nat) (s s1 : State),
    s.chIssues ch w = true →
    fld w 58 6 = 5 →
    s.chFlag ch w = some i →
    chFlagFields w false = true →
    (s.wr (Reg.MOV_CH_RESIDUE ch) 0).flagWait (s.chPt ch) i (s.chValue ch w) (uCh ch) (s.rdN (Reg.MOV_CH_PC ch)) = (s1, 0) →
    exec (.chWait ch) s = .next ((s1.setCh ch { s1.ch ch with wait := some (i, s.chValue ch w) }).setChState ch 2)) ∧
  (∀ (ch : Fin 64) (w i : Nat) (s s1 : State),
    s.chIssues ch w = true →
    fld w 58 6 = 6 →
    s.chFlag ch w = some i →
    chFlagFields w true = true →
    bitAt w 40 = false →
    s.chValue ch w ≠ 0 →
    s.owns (s.chPt ch) 0x33 i = true →
    s1 = ((s.wr (Reg.MOV_CH_RESIDUE ch) 0).setCh ch { s.ch ch with rels := (s.ch ch).rels ++
      [{ needs := (s.ch ch).writes.map (·.id), act := .signal i (s.chValue ch w) none }] }).chReleases ch ((s.ch ch).rels.length + 1) →
    (s1.ch ch).live = true →
    exec (.chSignal ch) s = .next (s1.wr (Reg.MOV_CH_PC ch) (s.rdN (Reg.MOV_CH_PC ch) + 8))) ∧
  (∀ (ch : Fin 64) (w : Nat) (s : State),
    s.chIssues ch w = true →
    fld w 58 6 = 8 →
    chFields w [] = true →
    exec (.chHalt ch) s = .next ((s.wr (Reg.MOV_CH_RESIDUE ch) 0).setCh ch
      { s.ch ch with cur := none, wait := none, run := (s.ch ch).run.map fun r => { r with ended := some 0 } })) ∧
  (∀ (ch : Fin 64) (w len rows : Nat) (s : State) (x : Nat → Nat),
    s.chIssues ch w = true →
    fld w 58 6 = 1 →
    x = (fun lo => s.chX ch (fld w lo 3)) →
    len = fld w 21 20 →
    rows = fld w 5 16 + 1 →
    fld w 0 5 = 0 →
    len ≠ 0 →
    bitAt w 56 = false →
    bitAt w 57 = false →
    x 46 % 64 = 0 →
    x 43 % 64 = 0 →
    ([x 52, x 49, len].any (fun v => v % (if bitAt w 55 then 4 else 64) != 0) = false) →
    exec (.movMove ch) s = .next ((s.wr (Reg.MOV_CH_RESIDUE ch) (rows * len)).setCh ch
      { s.ch ch with cur := some { movx := false, tr := bitAt w 55, src := x 52, dst := x 49, sstr := x 46, dstr := x 43, len := len, rows := rows, ring := false, commit := false, space := true, incs := (if bitAt w 42 then [(fld w 52 3, rows * x 46)] else []) ++ (if bitAt w 41 then [(fld w 49 3, if bitAt w 55 then 4 * rows else rows * x 43)] else []) } })) ∧
  (∀ (ch : Fin 64) (w len rows : Nat) (s : State) (x : Nat → Nat),
    s.chIssues ch w = true →
    fld w 58 6 = 2 →
    x = (fun lo => s.chX ch (fld w lo 3)) →
    len = fld w 21 20 →
    rows = fld w 5 16 + 1 →
    fld w 0 5 = 0 →
    len ≠ 0 →
    bitAt w 55 = false →
    bitAt w 41 = false →
    x 46 % 4 = 0 →
    [x 52, x 49, len].any (fun v => v % 64 != 0) = false →
    exec (.movMovx ch) s = .next ((s.wr (Reg.MOV_CH_RESIDUE ch) (rows * len)).setCh ch
      { s.ch ch with cur := some { movx := true, src := x 52, dst := x 49, tbl := x 46, lim := x 43, len := len, rows := rows, scat := bitAt w 57, skipEn := bitAt w 56, incs := if bitAt w 42 then [(fld w 46 3, 4 * rows)] else [] } })) ∧
  (∀ (ch : Fin 64) (w op : Nat) (body : State → Nat → Nat → State) (s : State),
    s.chIssues ch w = true →
    knownChOp (fld w 58 6) = false →
    s.chStep ch op body = (s.wr (Reg.MOV_CH_RESIDUE ch) 0).chFail ch 0x0802 (s.rdN (Reg.MOV_CH_PC ch)))

/-- MOV_START that passes its checks begins a run from PROG and ARG, and one that does not raises its code and starts nothing; MOV_ABORT of a RUNNING channel raises 0x0806 and ends its run; MOV_RESUME in HALTED queues the failed beats again; MOV_RING_RESET in IDLE clears TAIL and sets both flags to 0. The beat slot of a mover goes to its winner. A read's return makes its data ready to be written and a write's acknowledgement takes the write off the list, with what waits for it released; a bus error latches; at the end of a run the channel is IDLE with the code, then DONE_FLAG is signalled once the writes are visible. DRAIN answers RUNS when the writes it waits for are visible, or bit 63 after 10 µs. A spore request is queued with a snapshot of its operands, and an inline one is written at its destination. -/
def Obligations.MoverCommands : Prop :=
  (∀ (ch : Fin 64) (s : State),
    (s.ch ch).held = none →
    s.startCode ch (s.rdN (Reg.MOV_CH_PROG ch)) = 0 →
    s.rdB Reg.REL_STATUS 0 = false →
    exec (.movStart ch) s = .next
      (s.chBegin ch (s.rdN (Reg.MOV_CH_PROG ch)) ((List.range 4).map fun i => s.rdN (Reg.MOV_CH_ARG ch i)) none).crzDrain) ∧
  (∀ (ch : Fin 64) (s : State),
    s.startCode ch (s.rdN (Reg.MOV_CH_PROG ch)) ≠ 0 →
    (s.ch ch).held = none →
    exec (.movStart ch) s = .next (s.chErr ch (s.startCode ch (s.rdN (Reg.MOV_CH_PROG ch)))).crzDrain) ∧
  (∀ (ch : Fin 64) (s : State),
    (s.ch ch).live = true →
    s.chState ch = 1 →
    (s.ch ch).failed = false →
    exec (.movAbort ch) s = .next ((((s.event (uCh ch) 0x04 (s.chPt ch) 0x0806 (s.rdN (Reg.MOV_CH_RUNS ch)) 0).setChRun ch
      fun r => { r with aborted := true, wasHalted := false }).chErr ch 0x0806).chEnd ch 0x0806).crzDrain) ∧
  (∀ (ch : Fin 64) (s : State),
    (s.ch ch).live = true →
    s.chState ch = 3 →
    exec (.movResume ch) s = .next (((s.setCh ch { s.ch ch with failed := false, redo := (s.ch ch).failedR, ready := (s.ch ch).failedW ++ (s.ch ch).ready, failedR := [], failedW := [] }).setChState ch 1).chRetire ch)) ∧
  (∀ (ch : Fin 64) (s : State),
    s.chState ch ≠ 3 →
    exec (.movResume ch) s = .next (s.chErr ch 0x0809)) ∧
  (∀ (ch : Fin 64) (p fl : Nat) (s : State),
    s.chState ch = 0 →
    s.ownerOf 0x21 ch = some p →
    fl = s.rdN (Reg.MOV_CH_RING_FLAGS ch) →
    exec (.movRingReset ch) s = .next ((((s.wr (Reg.MOV_CH_RING_TAIL ch) 0).setCh ch { s.ch ch with slotOpen := false }).flagPush
      { isSet := true, flag := fld fl 0 15, n := 0, pt := p, agent := uCh ch }).flagPush
      { isSet := true, flag := fld fl 16 15, n := 0, pt := p, agent := uCh ch })) ∧
  (∀ (m : Fin 4) (write : Bool) (n : Nat) (r : List Nat) (s s1 s2 : State),
    s.beatWinner m write = some n →
    r = (((List.range 16).map (m.val * 16 + ·)).filter fun n => s.beatReady n write) →
    s1 = (r.filter fun n => !s.tagFree n write).foldl (fun s n => s.bump (Reg.MOV_CH_TAG_STALL n) 1) s →
    s2 = (r.filter fun k => s.rdF (Reg.MOV_CH_PRIO k) 0 3 < s.rdF (Reg.MOV_CH_PRIO n) 0 3).foldl
      (fun s k => s.bump (Reg.MOV_CH_PREEMPTED k) 1) (s1.progress (s.chPt n)) →
    exec (.moverBeatIssue m write) s = .next (if write then
        ({ s2 with movRR := s2.movRR.put (m * 2 + write.toNat) (n % 16) }).chWriteBeat n
      else ({ s2 with movRR := s2.movRR.put (m * 2 + write.toNat) (n % 16) }).chReadBeat n)) ∧
  (∀ (ch : Fin 64) (b : Beat) (bs : List Beat) (s : State),
    (s.ch ch).reads = b :: bs →
    s.remotePending 2 ch b.pa = false →
    s.poisonedPA b.pa b.len = false →
    ((s.ch ch).run.map (·.noWrite)).getD false = false →
    (s.ch ch).failed = false →
    exec (.moverReadReturn ch) s = .next (s.setCh ch { s.ch ch with reads := bs, ready := (s.ch ch).ready ++ [{ b with data := s.readPA b.pa b.len, bad := false }] })) ∧
  (∀ (ch : Fin 64) (b : Beat) (bs : List Beat) (s : State),
    (s.ch ch).writes = b :: bs →
    s.remotePending 1 ch b.pa = false →
    (s.ch ch).rels = [] →
    (s.ch ch).cur = none →
    (s.ch ch).failed = false →
    ∃ t, exec (.moverWriteAck ch) s = .next t ∧
      t.ch ch = { s.ch ch with writes := bs, drains := (s.ch ch).drains.map fun d => d.filter (· != b.id) } ∧
      (∀ m, m ≠ ch.val → t.ch m = s.ch m) ∧ t = { s with chan := t.chan }) ∧
  (∀ (ch : Fin 64) (b : Beat) (bs : List Beat) (s : State),
    (s.ch ch).reads = b :: bs →
    exec (.moverBusError ch false) s = .next ((s.setCh ch { s.ch ch with reads := bs }).chBeatFailed ch b false)) ∧
  (∀ (ch : Fin 64) (r : ChRun) (code : Nat) (s s1 s2 : State),
    (s.ch ch).run = some r →
    (s.ch ch).runOver = true →
    code = r.ended.getD 0 →
    s1 = (s.setCh ch { s.ch ch with run := none, cur := none, line := none, redo := [], failedR := [], failedW := [], failed := false }).wr
      (Reg.MOV_CH_STATE ch) ((s.ch ch).loops.length * 16 + code * 65536) →
    (s2 = (if s1.rdB (Reg.MOV_CH_IRQ ch) (if code = 0 then 0 else 1) then s1.irqReg (s.chPt ch) (Reg.QM_CH_IVEC ch) else s1).chWriteRecord ch r code) →
    exec (.moverRunComplete ch) s = .next (((s2.setCh ch { s2.ch ch with rels := (s2.ch ch).rels ++
      [{ needs := (s2.ch ch).writes.map (·.id), act := .done (s2.rdN (Reg.MOV_CH_DONE_FLAG ch)) r.node code }] }).event (uCh ch) 0x02
        (s.chPt ch) code (s2.rdN (Reg.MOV_CH_RUNS ch)) r.bytes).crzDrain)) ∧
  (∀ (ch : Fin 64) (flagReg code : Nat) (rs : List ChRel) (s s1 : State),
    (s.ch ch).rels = { needs := [], act := .done flagReg none code } :: rs →
    s1 = s.setCh ch { s.ch ch with rels := rs } →
    exec (.chDoneSignal ch) s = .next (((if bitAt flagReg 31 then
        s1.flagPush { isSet := false, flag := fld flagReg 0 15, n := 1, pt := s.chPt ch, agent := uCh ch }
      else s1).chReleases ch (rs.length + 1)).crzDrain)) ∧
  (∀ (ch : Fin 64) (s : State),
    exec (.chDrainRead ch) s = .next (s.setCh ch { s.ch ch with drains := (s.ch ch).drains ++ [(s.ch ch).writes.map (·.id)] })) ∧
  (∀ (ch : Fin 64) (ds : List (List Nat)) (s : State),
    (s.ch ch).drains = [] :: ds →
    exec (.chDrainReturn ch) s =
      .next ((s.setCh ch { s.ch ch with drains := ds }).emit (.readData (s.rdN (Reg.MOV_CH_RUNS ch) % 2 ^ 48)))) ∧
  (∀ (ch : Fin 64) (d : List Nat) (ds : List (List Nat)) (s : State),
    (s.ch ch).drains = d :: ds →
    ∃ v, exec (.drainTimeout true ch) s = .next ((s.fresh.2.setCh ch { s.ch ch with drains := ds }).emit (.readData (2 ^ 63 + v % 2 ^ 63)))) ∧
  (∀ (p : Fin 64) (s : State),
    s.qm.drainReads.contains p.val = true →
    exec (.drainTimeout false p) s =
      .next { s with qm := { s.qm with drainReads := s.qm.drainReads.erase p.val }, out := s.out ++ [.readData (2 ^ 63)] }) ∧
  (∀ (ch : Fin 64) (value : BitVec 32) (len : Nat) (s : State),
    len = fld value.toNat 0 8 + 1 →
    (s.ch ch).spores.length < 16 →
    (s.ownerOf 0x21 ch).isSome = true →
    s.rdB Reg.REL_STATUS 0 = false →
    bitAt value.toNat 8 = true →
    len ≤ 32 →
    s.rdN (Reg.MOV_CH_SPORE_DST ch) % 4096 + len ≤ 4096 →
    exec (.sporeSubmit ch value) s = .next ((s.setCh ch { s.ch ch with spores := (s.ch ch).spores ++
      [{ inline := some (((List.range 4).flatMap fun i => leBytes 8 (s.rdN (Reg.MOV_CH_SPORE_DATA ch i))).take len),
         src := s.rdN (Reg.MOV_CH_SPORE_SRC ch), dst := s.rdN (Reg.MOV_CH_SPORE_DST ch), len := len,
         flag := if bitAt value.toNat 24 then some (fld value.toNat 9 15) else none }] }).wrF (Reg.MOV_CH_SPORE_STATUS ch) 0 5
      ((s.ch ch).spores.length + 1))) ∧
  (∀ (ch : Fin 64) (x : Spore) (xs : List Spore) (bs : List Byte) (pa : Nat) (s : State),
    (s.ch ch).spores = x :: xs →
    (s.xlate (s.chPt ch) x.dst x.len .write).toOption = some pa →
    x.wrote = false →
    x.inline = some bs →
    targetOf pa = .inPackage →
    exec (.sporeComplete ch) s = .next ((s.sporeStore ch 0 true pa (bs.length + 1) bs).sporeFinish ch x))

/-- While its BUSY is 0 a cache command or a translation invalidation starts: BUSY is 1, the command and its result are held, and nothing else changes; while BUSY is 1, and for a stage-2 operation from a VF, it is refused with 0x0906. Completion writes RESULT, clears BUSY and, after FLUSH_ALL and RELEASE_RETAINED, RETAINED. WAYS_WRITE of the PF without an overlap and PASR_WRITE with bit 7 set store the value; otherwise 0x0906. A good fill only counts; one that is uncorrectable poisons its granule, latches and raises 0x0901. The imbalance windows and the MR4 poll set their status as stated. -/
def Obligations.MemoryCommands : Prop :=
  (∀ (p : Fin 16) (c : Instr) (op result : Nat) (s : State),
    (c, op, result) ∈ [(Instr.cleanRange p, 1, s.cacheResult p), (.flushRange p, 2, s.cacheResult p), (.flushAll p, 3, 0), (.releaseRetained p, 4, 0)] →
    s.rdB (Reg.MEM_PT_CACHE_STATUS p) 0 = false →
    ∃ t, exec c s = .next t ∧ t.rdF (Reg.MEM_PT_CACHE_STATUS p) 0 1 = 1 ∧ Tab.get? t.memx.cacheRun p = some (op, result) ∧
      (∀ b, b ≠ Reg.MEM_PT_CACHE_STATUS p → t.rd b = s.rd b) ∧
      t = { s with regs := t.regs, memx := { s.memx with cacheRun := t.memx.cacheRun } }) ∧
  (∀ (p : Fin 16) (c : Instr) (s : State),
    c ∈ [Instr.cleanRange p, .flushRange p, .flushAll p, .releaseRetained p] →
    s.rdB (Reg.MEM_PT_CACHE_STATUS p) 0 = true →
    exec c s = .next (s.err p uMem 0x0906)) ∧
  (∀ (p : Fin 16) (op : Nat) (s : State),
    Tab.get? s.memx.cacheRun p = some (op, 0) →
    ∃ t, exec (.cacheCmdComplete p) s = .next t ∧ t.rdN (Reg.MEM_PT_CACHE_STATUS p) = 0 ∧ Tab.get? t.memx.cacheRun p = none ∧
      t.rdN (Reg.MEM_PT_RETAINED p) = (if 3 ≤ op then 0 else s.rdN (Reg.MEM_PT_RETAINED p)) ∧
      (∀ b, b ≠ Reg.MEM_PT_CACHE_STATUS p → b ≠ Reg.MEM_PT_RETAINED p → t.rd b = s.rd b) ∧
      t = { s with regs := t.regs, memx := { s.memx with cacheRun := t.memx.cacheRun } }) ∧
  (∀ (p : Fin 16) (op : Nat) (s : State),
    Tab.get? s.memx.cacheRun p = some (op, 0x0503) →
    op < 3 →
    exec (.cacheCmdComplete p) s = .next (({ s.wr (Reg.MEM_PT_CACHE_STATUS p) (0x0503 * 2 ^ 16) with
      memx := { s.memx with cacheRun := s.memx.cacheRun.del p } }).err p uMem 0x0503 (s.rdN (Reg.MEM_PT_CACHE_ADDR p)))) ∧
  (∀ (p : Fin 16) (c : Instr) (op : Nat) (s : State),
    (c, op) ∈ [(Instr.s1All p, 1), (.s1Range p, 2), (.s2All 0 p, 3), (.s2Range 0 p, 4)] →
    s.rdB (Reg.MEM_PT_XLAT_STATUS p) 0 = false →
    ∃ t, exec c s = .next t ∧ t.rdF (Reg.MEM_PT_XLAT_STATUS p) 0 1 = 1 ∧ Tab.get? t.memx.xlatRun p = some op ∧
      (∀ b, b ≠ Reg.MEM_PT_XLAT_STATUS p → t.rd b = s.rd b) ∧
      t = { s with regs := t.regs, memx := { s.memx with xlatRun := t.memx.xlatRun } }) ∧
  (∀ (fn p : Fin 16) (s : State),
    fn ≠ 0 →
    exec (.s2All fn p) s = .next (s.err fn uMem 0x0906) ∧ exec (.s2Range fn p) s = .next (s.err fn uMem 0x0906)) ∧
  (∀ (p : Fin 16) (c : Instr) (s : State),
    c ∈ [Instr.s1All p, .s1Range p, .s2All 0 p, .s2Range 0 p] →
    s.rdB (Reg.MEM_PT_XLAT_STATUS p) 0 = true →
    exec c s = .next (s.err p uMem 0x0906)) ∧
  (∀ (p : Fin 16) (op : Nat) (s : State),
    Tab.get? s.memx.xlatRun p = some op →
    ∃ t, exec (.xlatCmdComplete p) s = .next t ∧ t.rdN (Reg.MEM_PT_XLAT_STATUS p) = 0 ∧ Tab.get? t.memx.xlatRun p = none ∧
      (∀ b, b ≠ Reg.MEM_PT_XLAT_STATUS p → t.rd b = s.rd b) ∧
      t = { s with regs := t.regs, memx := { s.memx with xlatRun := t.memx.xlatRun } }) ∧
  (∀ (fn p : Fin 16) (value : BitVec 32) (s : State),
    exec (.waysWrite fn p value) s = .next
      (if fn ≠ 0 then s
       else if s.waysClash p (value.toNat &&& 0x7FFF7FFF) then s.err 0 uMem 0x0906
       else s.wr (Reg.MEM_PT_WAYS p) (value.toNat &&& 0x7FFF7FFF))) ∧
  (∀ (value : BitVec 32) (s : State),
    exec (.pasrWrite value) s =
      .next (if value.getLsbD 7 then s.wr Reg.MEM_PASR (value.toNat % 256) else s.err 0 uMem 0x0906)) ∧
  (∀ (p : Fin 16) (reader : AgentClass) (inst : Fin 256) (pa : BitVec 48) (s : State),
    targetOf pa.toNat = .inPackage →
    s.granBad (pa.toNat / 64) = false →
    s.memx.poison.contains (pa.toNat / 64) = false →
    exec (.cacheFill p reader inst pa .good) s = .next (((s.bump (Reg.MEM_CH_RD_BYTES (s.channelOf pa.toNat)) 64).bump
      (Reg.MEM_PT_BYTES p) 64).bump (Reg.MEM_PT_MISSES p) 1)) ∧
  (∀ (p : Fin 16) (reader : AgentClass) (inst : Fin 256) (pa : BitVec 48) (s : State),
    targetOf pa.toNat = .inPackage →
    exec (.cacheFill p reader inst pa .uncorrectable) s = .next (((((s.bump (Reg.MEM_CH_RD_BYTES (s.channelOf pa.toNat)) 64).bump
      (Reg.MEM_PT_BYTES p) 64).bump (Reg.MEM_PT_MISSES p) 1).poisonGran (pa.toNat / 64)).fillError pa.toNat 0x0901 Reg.MEM_UE_COUNT p
      (s.channelOf pa.toNat) ⟨agentCode reader, inst⟩)) ∧
  (∀ (p : Fin 16) (reader : AgentClass) (inst : Fin 256) (pa : BitVec 48) (s s1 : State),
    targetOf pa.toNat = .inPackage →
    s.memx.poison.contains (pa.toNat / 64) = false →
    s1 = ((s.bump (Reg.MEM_CH_RD_BYTES (s.channelOf pa.toNat)) 64).bump (Reg.MEM_PT_BYTES p) 64).bump (Reg.MEM_PT_MISSES p) 1 →
    exec (.cacheFill p reader inst pa .mismatch) s = .next (({ s1 with memx := { s1.memx with
      badTag := insSorted (pa.toNat / 64) s1.memx.badTag } }).fillError pa.toNat 0x0902 Reg.MEM_TAG_FAIL p (s.channelOf pa.toNat)
      ⟨agentCode reader, inst⟩)) ∧
  (∀ (total busyCount : Nat) (busiest : Fin 32) (pt : Fin 16) (s s1 s2 : State),
    total * 64 < 61440000 ∨ busyCount * 32 ≤ total * 4 →
    (s1 = (s.wr Reg.MEM_IMB_RATIO (if total = 0 then 0 else min 0xFFFF (busyCount * 32 * 256 / total))).wr Reg.MEM_IMB_STATUS
      (busiest.val + pt.val * 256 + s.rdF Reg.MEM_IMB_STATUS 16 16 * 65536)) →
    s2 = (s1.wrF Reg.MEM_IMB_STATUS 16 16 0).wrF Reg.MEM_STATUS 4 1 0 →
    exec (.imbalanceWindow total busiest busyCount pt) s = .next { s2 with memx := { s2.memx with imbRaised := false } }) ∧
  (∀ (total busyCount run : Nat) (busiest : Fin 32) (pt : Fin 16) (s s1 : State),
    61440000 ≤ total * 64 →
    total * 4 < busyCount * 32 →
    (s1 = (s.wr Reg.MEM_IMB_RATIO (if total = 0 then 0 else min 0xFFFF (busyCount * 32 * 256 / total))).wr Reg.MEM_IMB_STATUS
      (busiest.val + pt.val * 256 + s.rdF Reg.MEM_IMB_STATUS 16 16 * 65536)) →
    run = min 0xFFFF (s.rdF Reg.MEM_IMB_STATUS 16 16 + 1) →
    run < 1000 →
    exec (.imbalanceWindow total busiest busyCount pt) s = .next
      (((s1.wrF Reg.MEM_IMB_STATUS 16 16 run).wrF Reg.MEM_STATUS 4 1 1).bump Reg.MEM_IMB_WINDOWS 1)) ∧
  (∀ (tempC : Fin 256) (channel : Fin 32) (s s1 : State),
    (s1 = (((s.wr Reg.MEM_TEMP (tempC.val + channel.val * 256)).wrF Reg.MEM_STATUS 1 2 (refreshRow tempC)).wrF Reg.MEM_STATUS 3 1
      (if 105 < tempC.val then 1 else if tempC.val ≤ 100 then 0 else (s.rdB Reg.MEM_STATUS 3).toNat))) →
    exec (.mr4Poll tempC channel) s = .next
      (if 105 < tempC.val ∧ s.rdB Reg.MEM_STATUS 3 = false then
        s1.report 0 { code := 0x0905, subj := ⟨0x2A, channel⟩, info := tempC, event := true }
       else s1))

/-- An accepted ASSIGN or RELEASE changes the owners and runs until ASSIGN_COMPLETE; a refused one writes its RESULT and reports, and owners stay. A GRANT of free chunks runs: each CHUNK_FILL_COMPLETE zeroes and grants the next chunk, and the last ends it; CHUNK_RELEASE frees the chunks of p. MODE_WRITE, VMAP_WRITE, QOS_MEM_WRITE and QOS_LINK_WRITE by the PF store what is allowed and refuse the rest with the stated code; a VF's write is ignored. PT_DRAIN_READ waits and PT_DRAIN_RETURN answers 0. QOS_INTERVAL restarts the admission counts. MSIX_ENABLE_SET ends the drain of the function and delivers what is pending. -/
def Obligations.AssignmentCommands : Prop :=
  (∀ (p : Fin 16) (c : Instr) (assign : Bool) (cls first n : Nat) (s s1 : State),
    (c, assign) ∈ [(Instr.unitAssign p, true), (.unitRelease p, false)] →
    s.rdB Reg.QM_ASSIGN_STATUS 0 = false →
    cls = s.rdN Reg.QM_ASSIGN_CLASS →
    first = s.rdN Reg.QM_ASSIGN_FIRST →
    n = s.rdN Reg.QM_ASSIGN_COUNT →
    s.assignRefusal assign cls first n p = 0 →
    cls ≠ 0x01 →
    s1 = (s.assignApply assign cls first n p).capChange →
    exec c s = .next { s1.wr Reg.QM_ASSIGN_STATUS 1 with qm := { s1.qm with assignRun := some (if assign then 1 else 2, cls, first, n, p.val) } }) ∧
  (∀ (p : Fin 16) (c : Instr) (assign : Bool) (first n : Nat) (s s1 : State),
    (c, assign) ∈ [(Instr.unitAssign p, true), (.unitRelease p, false)] →
    s.rdB Reg.QM_ASSIGN_STATUS 0 = false →
    s.rdN Reg.QM_ASSIGN_CLASS = 0x01 →
    first = s.rdN Reg.QM_ASSIGN_FIRST →
    n = s.rdN Reg.QM_ASSIGN_COUNT →
    s.assignRefusal assign 0x01 first n p = 0 →
    s1 = (s.assignApply assign 0x01 first n p).capChange.rejudgeAll p →
    exec c s = .next { s1.wr Reg.QM_ASSIGN_STATUS 1 with qm := { s1.qm with assignRun := some (if assign then 1 else 2, 0x01, first, n, p.val) } }) ∧
  (∀ (p : Fin 16) (c : Instr) (assign : Bool) (code : Nat) (s : State),
    (c, assign) ∈ [(Instr.unitAssign p, true), (.unitRelease p, false)] →
    s.rdB Reg.QM_ASSIGN_STATUS 0 = false →
    code = s.assignRefusal assign (s.rdN Reg.QM_ASSIGN_CLASS) (s.rdN Reg.QM_ASSIGN_FIRST) (s.rdN Reg.QM_ASSIGN_COUNT) p →
    code ≠ 0 →
    exec c s = .next ((s.wr Reg.QM_ASSIGN_STATUS (code * 2 ^ 16)).qmErr 0 code)) ∧
  (∀ (op cls first n p : Nat) (s : State),
    s.qm.assignRun = some (op, cls, first, n, p) →
    ¬(op = 2 ∧ cls = 0x01 ∧ (List.range n).any (fun k => s.frondZeroing (first + k)) = true) →
    exec .assignComplete s = .next { s.wr Reg.QM_ASSIGN_STATUS 0 with qm := { s.qm with assignRun := none } }) ∧
  (∀ (p : Fin 16) (first n : Nat) (s : State),
    s.rdB Reg.QM_GRANT_STATUS 0 = false →
    s.ptReady p = true →
    first = s.rdN Reg.QM_GRANT_FIRST →
    n = s.rdN Reg.QM_GRANT_COUNT →
    ¬(n = 0 ∨ chunkCount < first + n ∨ s.isConf p = true ∨ s.chunks.any (fun e => first ≤ e.1 && e.1 < first + n) = true) →
    exec (.chunkGrant p) s = .next { s.wr Reg.QM_GRANT_STATUS 1 with qm := { s.qm with grantRun := some (1, first, first + n, p.val) } }) ∧
  (∀ (next last p : Nat) (s s1 : State),
    s.qm.grantRun = some (1, next, last, p) →
    s1 = ({ s.zeroChunk next with chunks := (s.zeroChunk next).chunks.put next p }).countChunks p →
    exec .chunkFillComplete s = .next (if next + 1 < last then { s1 with qm := { s1.qm with grantRun := some (1, next + 1, last, p) } }
      else { s1.wr Reg.QM_GRANT_STATUS 0 with qm := { s1.qm with grantRun := none } })) ∧
  (∀ (p : Fin 16) (first n : Nat) (s s1 : State),
    s.rdB Reg.QM_GRANT_STATUS 0 = false →
    s.ptReady p = true →
    first = s.rdN Reg.QM_GRANT_FIRST →
    n = s.rdN Reg.QM_GRANT_COUNT →
    ¬(n = 0 ∨ chunkCount < first + n ∨ s.isConf p = true ∨ (s.chunks.filter fun e => first ≤ e.1 && e.1 < first + n && e.2 == p.val).length ≠ n) →
    s1 = s.freeChunks first n p →
    exec (.chunkRelease p) s = .next { s1.wr Reg.QM_GRANT_STATUS 1 with qm := { s1.qm with grantRun := some (2, first, first + n, p.val) } }) ∧
  (∀ (first last p : Nat) (s : State),
    s.qm.grantRun = some (2, first, last, p) →
    exec .chunkReleaseComplete s = .next { s.wr Reg.QM_GRANT_STATUS 0 with qm := { s.qm with grantRun := none } }) ∧
  (∀ (p : Fin 16) (c : Instr) (s : State),
    c = .chunkGrant p ∨ c = .chunkRelease p →
    s.rdB Reg.QM_GRANT_STATUS 0 = false →
    s.ptReady p = false →
    exec c s = .next (s.grantRefuse 0x0A0B)) ∧
  (∀ (fn p : Fin 16) (value : BitVec 32) (s : State),
    exec (.modeWrite fn p value) s = .next (if fn ≠ 0 then s
      else if s.isConf p = true ∨ s.workPresent p = true ∨ s.ptReady p = false then s.qmErr 0 0x0A0B
      else s.wr (Reg.QM_PT_MODE p) (value.getLsbD 0).toNat)) ∧
  (∀ (fn p : Fin 16) (i : Fin 256) (value : BitVec 32) (s : State),
    exec (.vmapWrite fn p i value) s = .next (if fn ≠ 0 then s
      else if (p ≠ 0 ∧ 128 ≤ i.val) ∨ (value.getLsbD 31 = true ∧ s.owns p 0x32 (value.toNat % 2048) = false) then s.qmErr 0 0x0A09 i
      else s.wr (Reg.QM_PT_VMAP p i) (value.toNat % 2048 + (value.getLsbD 31).toNat * 2 ^ 31))) ∧
  (∀ (fn p : Fin 16) (value : BitVec 32) (lo hi : Nat) (s : State),
    lo = fld value.toNat 0 16 →
    hi = fld value.toNat 16 16 →
    exec (.qosMemWrite fn p value) s = .next (if fn ≠ 0 then s
      else if 8125 < s.minSum Reg.QOS_PT_MEM 16 p + lo ∨ (hi ≠ 0 ∧ hi < lo) then s.qmErr 0 0x0A0A p
      else s.wr (Reg.QOS_PT_MEM p) value.toNat)) ∧
  (∀ (fn p : Fin 16) (value : BitVec 32) (v lo hi : Nat) (s : State),
    v = value.toNat &&& 0x0FFF0FFF →
    lo = fld v 0 12 →
    hi = fld v 16 12 →
    exec (.qosLinkWrite fn p value) s = .next (if fn ≠ 0 then s
      else if 350 < s.minSum Reg.QOS_PT_LINK 12 p + lo ∨ (hi ≠ 0 ∧ hi < lo) then s.qmErr 0 0x0A0A p
      else s.wr (Reg.QOS_PT_LINK p) v)) ∧
  (∀ (s s1 : State),
    (s1 = (List.range 16).foldl (fun s p => if s.rdF (Reg.QOS_PT_MEM p) 16 16 ≠ 0 ∧ s.rdF (Reg.QOS_PT_MEM p) 16 16 ≤ s.qm.admitted.getD p 0
      then s.bump (Reg.QOS_PT_CAPPED p) 1 else s) s) →
    exec .qosInterval s = .next { s1 with qm := { s1.qm with admitted := [] } }) ∧
  (∀ (p : Fin 16) (s : State),
    exec (.ptDrainRead p) s = .next { s with qm := { s.qm with drainReads := s.qm.drainReads ++ [p.val] } }) ∧
  (∀ (p : Fin 16) (s : State),
    s.qm.drainReads.contains p.val = true →
    exec (.ptDrainReturn p) s =
      .next { s with qm := { s.qm with drainReads := s.qm.drainReads.erase p.val }, out := s.out ++ [.readData 0] }) ∧
  (∀ (p : Fin 16) (s : State),
    exec (.unexpectedCompletion p) s = .next s) ∧
  (∀ (fn : Fin 16) (s s1 : State),
    s1 = { s with qm := { s.qm with msixEn := insSorted fn s.qm.msixEn, draining := s.qm.draining.filter (· != fn.val), drainFirst := s.qm.drainFirst.filter (· != fn.val) } } →
    exec (.msixEnableSet fn) s =
      .next (if s.qm.fnMask.contains fn.val = true then s1 else (List.range 256).foldl (fun s i => s.deliverPending fn i) s1))

/-- A well-formed doorbell of an owned, enabled ring of its kind with the current EPOCH stores TAIL_RAW or HEAD when the value fits, and otherwise raises its code. Entries that arrive advance TAIL past whole items. Each item of its opcode, in order and past its FENCE, is taken and does what its opcode names, then its completion entry follows. COMPLETION_POST writes the oldest item and then advances TAIL; without room the producer stalls. HOLDOFF_EXPIRY raises one interrupt when one is due. QM_RING_FLUSH, FLUSH_ALL, RESET and RING_CFG_WRITE act as stated. -/
def Obligations.RingCommands : Prop :=
  (∀ (p : Fin 16) (ring : Fin 8192) (epoch : BitVec 16) (value : BitVec 32) (s : State),
    s.ptReady p = true →
    s.doorbellCheck p false ring 0 epoch.toNat = none →
    (value.toNat + 2 ^ 32 - s.rdN (Reg.RING_TAIL ring)) % 2 ^ 32 ≤ s.ringSize ring - s.ringUsed ring →
    exec (.doorbellTail p false ring epoch value) s = .next (s.wr (Reg.RING_TAIL_RAW ring) value.toNat)) ∧
  (∀ (p : Fin 16) (ring : Fin 8192) (epoch : BitVec 16) (value : BitVec 32) (s : State),
    s.ptReady p = true →
    s.doorbellCheck p false ring 1 epoch.toNat = none →
    (value.toNat + 2 ^ 32 - s.rdN (Reg.RING_HEAD ring)) % 2 ^ 32 ≤ s.ringUsed ring →
    exec (.doorbellHead p false ring epoch value) s = .next (s.wr (Reg.RING_HEAD ring) value.toNat)) ∧
  (∀ (p : Fin 16) (malformed : Bool) (ring : Fin 8192) (epoch : BitVec 16) (value : BitVec 32) (code : Nat) (s : State),
    s.ptReady p = true →
    code ≠ 0x0503 →
    (s.doorbellCheck p malformed ring 0 epoch.toNat = some code → exec (.doorbellTail p malformed ring epoch value) s = .next (s.qmErr p code ring)) ∧
      (s.doorbellCheck p malformed ring 1 epoch.toNat = some code → exec (.doorbellHead p malformed ring epoch value) s = .next (s.qmErr p code ring))) ∧
  (∀ (p : Fin 16) (malformed : Bool) (ring : Fin 8192) (epoch : BitVec 16) (value : BitVec 32) (s : State),
    s.ptReady p = false →
    exec (.doorbellTail p malformed ring epoch value) s = .next s ∧ exec (.doorbellHead p malformed ring epoch value) s = .next s) ∧
  (∀ (ring : Fin 8192) (hostData bs : List Byte) (hostBad : Bool) (p tail n : Nat) (its : List Item) (s s1 : State),
    s.ownerOf 0x31 ring = some p →
    tail = s.rdN (Reg.RING_TAIL ring) →
    n = (s.rdN (Reg.RING_TAIL_RAW ring) + 2 ^ 32 - tail) % 2 ^ 32 →
    ¬((!s.ptReady p) = true ∨ (!s.rdB (Reg.RING_CFG ring) 0) = true ∨ s.rdB (Reg.RING_CFG ring) 1 = true ∨ n = 0) →
    s.readEntries p ring hostBad n tail hostData = .data bs false →
    its = cutItems ring n tail bs →
    s1 = (s.wr (Reg.RING_TAIL ring) ((tail + its.foldl (fun a i => a + i.bytes.length / 64) 0) % 2 ^ 32)).bump (Reg.RING_ITEMS ring) its.length →
    exec (.ringEntriesArrive ring hostData hostBad) s =
      .next ({ s1 with qm := { s1.qm with items := s1.qm.items ++ its } }.refuseInvalid p ring (its.length + 1))) ∧
  (∀ (ring : Fin 8192) (hostData bs : List Byte) (hostBad : Bool) (p tail n : Nat) (s : State),
    s.ownerOf 0x31 ring = some p →
    tail = s.rdN (Reg.RING_TAIL ring) →
    n = (s.rdN (Reg.RING_TAIL_RAW ring) + 2 ^ 32 - tail) % 2 ^ 32 →
    ¬((!s.ptReady p) = true ∨ (!s.rdB (Reg.RING_CFG ring) 0) = true ∨ s.rdB (Reg.RING_CFG ring) 1 = true ∨ n = 0) →
    s.readEntries p ring hostBad n tail hostData = .data bs true →
    exec (.ringEntriesArrive ring hostData hostBad) s = .next ((s.ringFault ring).qmErr p 0x0A05 ring)) ∧
  (∀ (ring : Fin 8192) (c : Instr) (opc p : Nat) (i : Item) (s s1 s2 : State) (code : Nat),
    s.takeItem ring opc = some (s1, p, i) →
    ((c = .itemLaunch ring ∧ opc = 0x01 ∧ (s2, code) = s1.launch p (getLE i.bytes 8 4) (getLE i.bytes 0x10 8)) ∨
      (c = .itemSignal ring ∧ opc = 0x02 ∧ (s2, code) = s1.flagSignal p (getLE i.bytes 8 2) (getLE i.bytes 0x0C 4) ⟨0x30, p⟩) ∨
      (c = .itemSet ring ∧ opc = 0x03 ∧ (s2, code) = s1.flagSet p (getLE i.bytes 8 2) (getLE i.bytes 0x0C 4) ⟨0x30, p⟩) ∨
      (c = .itemTrigger ring ∧ opc = 0x04 ∧ s1.owns p 0x19 (getLE i.bytes 8 1) = true ∧ code = 0 ∧
        s2 = if s1.rdF (Reg.CRZ_GR_CFG (getLE i.bytes 8 1)) 4 4 = 0 then s1.crzFire (getLE i.bytes 8 1) else s1) ∨
      (c = .itemMstart ring ∧ opc = 0x05 ∧ s1.owns p 0x21 (getLE i.bytes 8 1) = true ∧
        (s2, code) = s1.movStart (getLE i.bytes 8 1) (some (getLE i.bytes 0x10 8, (List.range 4).map fun k => getLE i.bytes (0x18 + 8 * k) 8)) none)) →
    exec c s = .next (s2.itemEnd p i code).crzDrain) ∧
  (∀ (ring : Fin 8192) (p : Nat) (i : Item) (s s1 : State),
    (s.takeItem ring 0x04 = some (s1, p, i) → s1.owns p 0x19 (getLE i.bytes 8 1) = false →
        exec (.itemTrigger ring) s = .next ((s1.notOwned p uQm (getLE i.bytes 8 1)).itemEnd p i 0x0503)) ∧
      (s.takeItem ring 0x05 = some (s1, p, i) → s1.owns p 0x21 (getLE i.bytes 8 1) = false →
        exec (.itemMstart ring) s = .next ((s1.notOwned p uQm (getLE i.bytes 8 1)).itemEnd p i 0x0503))) ∧
  (∀ (ring : Fin 8192) (p code : Nat) (i : Item) (s s1 s2 s3 : State),
    s.takeItem ring 0x06 = some (s1, p, i) →
    s1.dscBusy p = false →
    (s2, code) = s1.dscRun p (getLE i.bytes 8 2) (getLE i.bytes 0x0A 1) (.ok (i.bytes.drop 64)) →
    s3 = { s2 with qm := { s2.qm with handed := s2.qm.handed ++ [i.handed] } } →
    exec (.itemDsc ring) s = .next ((s3.dscStart p (getLE i.bytes 8 2) (getLE i.bytes 0x0A 1) code
      (some (i.ring * 2 ^ 32 + i.index))).refuseInvalid p i.ring (s3.qm.items.length + 1))) ∧
  (∀ (ring : Fin 8192) (p : Nat) (i : Item) (s s1 : State),
    s.takeItem ring 0x07 = some (s1, p, i) →
    exec (.itemNop ring) s = .next (s1.itemEnd p i 0)) ∧
  (∀ (ring : Fin 8192) (x : Post) (n tail t : Nat) (s s1 s2 : State),
    s.qm.posts.find? (fun x => x.ring == ring.val) = some x →
    n = x.bytes.length / 64 →
    tail = s.rdN (Reg.RING_TAIL ring) →
    ¬((!s.rdB (Reg.RING_CFG ring) 0) = true ∨ (!s.rdB (Reg.RING_CFG ring) 1) = true ∨ s.ringSize ring < s.ringUsed ring + n) →
    s.writeEntries x.pt ring n tail x.bytes = .done s1 →
    t = (tail + n) % 2 ^ 32 →
    s2 = ((({ s1 with qm := { s1.qm with posts := s1.qm.posts.erase x } }).wrF (Reg.RING_STATUS ring) 5 1 0).wr (Reg.RING_TAIL ring) t).bump (Reg.RING_ITEMS ring) 1 →
    exec (.completionPost ring) s = .next ((((s2.ringWriteBack x.pt ring t).ringIrq x.pt ring).postAct x.act).gsSettle x.pt).crzDrain) ∧
  (∀ (ring : Fin 8192) (x : Post) (s : State),
    s.qm.posts.find? (fun x => x.ring == ring.val) = some x →
    s.ringSize ring < s.ringUsed ring + x.bytes.length / 64 →
    exec (.completionPost ring) s = .next (s.wrF (Reg.RING_STATUS ring) 5 1 1)) ∧
  (∀ (ring : Fin 8192) (h : Holdoff) (p : Nat) (s s1 : State),
    Tab.get? s.qm.holdoff ring = some h →
    s.ownerOf 0x31 ring = some p →
    s1 = { s with qm := { s.qm with holdoff := s.qm.holdoff.del ring } } →
    exec (.holdoffExpiry ring) s = .next (if h.due then s1.ringIrq p ring else s1)) ∧
  (∀ (ring : Fin 8192) (s : State),
    exec (.qmRingFlush ring) s = .next (if s.rdB (Reg.RING_CFG ring) 1 then s.epochUp ring
      else (s.wr (Reg.RING_TAIL_RAW ring) (s.rdN (Reg.RING_TAIL ring))).epochUp ring)) ∧
  (∀ (ring : Fin 8192) (tail : Nat) (s s1 : State),
    s.rdB (Reg.RING_CFG ring) 1 = false →
    tail = s.rdN (Reg.RING_TAIL ring) →
    s1 = (s.wr (Reg.RING_HEAD ring) tail).wr (Reg.RING_TAIL_RAW ring) tail →
    exec (.qmRingFlushAll ring) s = .next (({ s1 with qm := { s1.qm with items := s1.qm.items.filter fun i => i.ring != ring.val } }).epochUp ring)) ∧
  (∀ (ring : Fin 8192) (s : State),
    s.rdB (Reg.RING_CFG ring) 1 = true →
    exec (.qmRingFlushAll ring) s = .next ((s.wr (Reg.RING_HEAD ring) (s.rdN (Reg.RING_TAIL ring))).epochUp ring)) ∧
  (∀ (ring : Fin 8192) (s s1 : State),
    s.rdB (Reg.RING_CFG ring) 0 = false →
    s1 = ((s.wr (Reg.RING_HEAD ring) 0).wr (Reg.RING_TAIL ring) 0).wr (Reg.RING_TAIL_RAW ring) 0 →
    exec (.qmRingReset ring) s = .next (({ s1 with qm := { s1.qm with items := s1.qm.items.filter fun i => i.ring != ring.val } }).epochUp ring)) ∧
  (∀ (ring : Fin 8192) (s : State),
    s.rdB (Reg.RING_CFG ring) 0 = true →
    exec (.qmRingReset ring) s = .next (s.qmErr ((s.ownerOf 0x31 ring).getD 0) 0x0A02 ring)) ∧
  (∀ (ring : Fin 8192) (value : BitVec 32) (v cur : Nat) (s : State),
    v = value.toNat % 2 ^ 25 →
    cur = s.rdN (Reg.RING_CFG ring) →
    exec (.ringCfgWrite ring value) s = .next
      (if (if bitAt cur 0 = true then fld v 1 7 = fld cur 1 7 ∧ fld v 9 8 = fld cur 9 8 else bitAt v 0 = true → s.ringEnOk ring v = true) then s.wr (Reg.RING_CFG ring) v
       else (s.wrF (Reg.RING_STATUS ring) 16 16 0x0A02).qmErr ((s.ownerOf 0x31 ring).getD 0) 0x0A02 ring))

/-- PARTITION_RESET of PT_1 to PT_15, a VF's FLR and VF Enable clearing put the partition that is not resetting into RESETTING with its interrupts drained; a partition that is resetting stays as it is. PT_RESET_ACCESSES_DONE in RESETTING goes to SCRUBBING; PT_SCRUB_COMPLETE in SCRUBBING goes to ZEROING, with the units' registers, rings, keys and sessions scrubbed; PT_ZEROING_COMPLETE in ZEROING goes to READY with its chunks zero and the reset counted. -/
def Obligations.PartitionResets : Prop :=
  (∀ (p : Fin 16) (c : Instr) (s s1 s2 : State),
    c = .partitionReset p ∨ c = .functionReset p →
    p ≠ 0 →
    s.resetting p = false →
    s1 = ((s.finishRuns p).dropRestart p).setPtState p 2 →
    s2 = { s1 with qm := { s1.qm with draining := insSorted p s1.qm.draining, drainFirst := s1.qm.drainFirst.filter (· != p.val) } } →
    exec c s = .next (((List.range 48).filter fun u => s.ictxPt u == p.val).foldl
      (fun s u => s.wrF (Reg.ISP_CTX_CFG (u / 4) (u % 4)) 0 1 0) (s2.abortWork p)).crzDrain) ∧
  (∀ (p : Fin 16) (s : State),
    p ≠ 0 →
    s.resetting p = true →
    exec (.partitionReset p) s = .next s ∧ exec (.functionReset p) s = .next s) ∧
  (∀ (s s1 : State),
    s1 = { s with qm := { s.qm with vfEnable := false, vfClearing := (List.range 16).drop 1 } } →
    exec .vfEnableClear s = .next (((List.range 16).drop 1).foldl (fun s p => s.resetPartition p) s1) ∧
      exec (.functionReset 0) s = .next (s.resetPartition 0).vfClear) ∧
  (∀ (p : Fin 16) (s : State),
    s.rdF (Reg.QM_PT_STATE p) 0 3 = 2 →
    exec (.ptResetAccessesDone p) s = .next ((s.abandonAccesses p).wrF (Reg.QM_PT_STATE p) 0 3 3)) ∧
  (∀ (p : Fin 16) (s : State),
    s.rdF (Reg.QM_PT_STATE p) 0 3 = 3 →
    ∃ t, exec (.ptScrubComplete p) s = .next t ∧ t.rdF (Reg.QM_PT_STATE p) 0 3 = 4 ∧ Tab.get? t.sec.sess p = none ∧
      Tab.get? t.gs.loading p = none ∧ Tab.get? t.dsc.running p = none ∧ Tab.get? t.memx.cacheRun p = none ∧ Tab.get? t.memx.xlatRun p = none ∧
      Tab.get? t.dbg.dump p = none ∧ (∀ e ∈ t.dsc.valid, e.1 / 65536 ≠ p.val) ∧ (∀ e ∈ t.sec.pmr, e.1 / 4 ≠ p.val)) ∧
  (∀ (p : Fin 16) (s s1 s2 : State),
    s.rdF (Reg.QM_PT_STATE p) 0 3 = 4 →
    s1 = ((((s.chunks.filter fun e => e.2 == p.val).map (·.1)).foldl (fun s c => s.zeroChunk c) s).setPtState p 1).bump (Reg.QM_PT_RESETS p) 1 →
    s.qm.vfClearing = [] →
    s1.qm.vfClearing = [] →
    (s2 = { s1 with qm := { s1.qm with msixEn := s1.qm.msixEn.filter (· != p.val), fnMask := s1.qm.fnMask.filter (· != p.val), d3hot := s1.qm.d3hot.filter (· != p.val) }, safe := { s1.safe with armAt := s1.safe.armAt.map fun (e : Nat × Nat) => match s1.task e.1 with | some x => if taskPt x = p.val then (e.1, s1.now) else e | none => e } }) →
    exec (.ptZeroingComplete p) s = .next s2.debugEnter)

/-- DBG_CLEAR leaves every counter of the groups of its mask at 0 and PT_COUNTER_CLEAR those of the debug window of p, and nothing else changes. FREEZE is a local freeze with trigger 1; THAW clears FROZEN and nothing else. DUMP to an aligned destination while none runs starts a copy and sets STATUS to 1; otherwise it is refused with 0x0B06. DUMP_COMPLETE writes the ring's records, oldest first, and sets STATUS to the result. -/
def Obligations.DebugCommands : Prop :=
  (∀ (mask : BitVec 16) (s : State),
    ∃ t, exec (.dbgClear mask) s = .next t ∧
      (∀ a, t.rd a = if isCounter a && mask.getLsbD (counterGroup a) then Reg.resetOf a else s.rd a) ∧ t = { s with regs := t.regs }) ∧
  (∀ (p : Fin 16) (s : State),
    ∃ t, exec (.ptCounterClear p) s = .next t ∧
      (∀ a, t.rd a = if Reg.DBG_PT_TRACE_DROP p ≤ a ∧ a < Reg.DBG_PT_CLEAR p then Reg.resetOf a else s.rd a) ∧ t = { s with regs := t.regs }) ∧
  (∀ (s : State),
    exec .dbgFreeze s = .next (s.freezeBy 1 s.devId ((s.rdN Reg.DBG_FREEZE_SEQ + 1) % 65536) true)) ∧
  (∀ (s : State),
    ∃ t, exec .dbgThaw s = .next t ∧ t.rdF Reg.DBG_STATUS 0 1 = 0 ∧ t.rdF Reg.DBG_STATUS 1 63 = s.rdF Reg.DBG_STATUS 1 63 ∧
      (∀ b, b ≠ Reg.DBG_STATUS → t.rd b = s.rd b) ∧ t = { s with regs := t.regs }) ∧
  (∀ (pf : Bool) (p : Fin 16) (s s1 : State),
    Tab.get? s.dbg.dump (dumpKey pf p) = none →
    s.rdN (dumpDst pf p) % 64 = 0 →
    s1 = s.wr (dumpStatus pf p) 1 →
    exec (.dbgDump pf p) s = .next { s1 with dbg := { s.dbg with dump := s.dbg.dump.put (dumpKey pf p) (s.rdN (dumpSel pf p), s.rdN (dumpDst pf p)) } }) ∧
  (∀ (pf : Bool) (p : Fin 16) (s : State),
    (Tab.get? s.dbg.dump (dumpKey pf p) ≠ none → exec (.dbgDump pf p) s = .next (s.err (dumpPt pf p) ⟨0, 0⟩ 0x0B06)) ∧
      (Tab.get? s.dbg.dump (dumpKey pf p) = none → s.rdN (dumpDst pf p) % 64 ≠ 0 →
        exec (.dbgDump pf p) s = .next ((s.wr (dumpStatus pf p) (0x0B06 * 65536)).err (dumpPt pf p) ⟨0, 0⟩ 0x0B06))) ∧
  (∀ (pf : Bool) (p : Fin 16) (sel dst code : Nat) (s s0 s1 : State),
    Tab.get? s.dbg.dump (dumpKey pf p) = some (sel, dst) →
    s0 = { s with dbg := { s.dbg with dump := s.dbg.dump.del (dumpKey pf p) } } →
    (s1, code) = s0.dumpRecs (dumpPt pf p) dst (s0.selRing pf p sel).recs.reverse →
    exec (.dumpComplete pf p) s = .next (s1.wr (dumpStatus pf p) (code * 65536)))

/-- While the schedule runs a slice of a live Frond falls due; it starts on a Frond that is free, and one later than 2 × PERIOD is reported; at its end the Frond's registers and tiles are cleared, its scratch holds free bytes and a verdict is awaited; a failing verdict fences the Frond with 0x0D02. FENCE of a live Frond is BUSY and fences it with 0x0D04; READMIT starts the suite and READMIT_COMPLETE makes the Frond live or leaves it fenced. CE_WINDOW_BOUNDARY forgets the counts, a monitor fault is fatal, ERR_IRQ_TIMER raises what is due, and LATCH_CLEAR clears VALID and nothing else. -/
def Obligations.ReliabilityCommands : Prop :=
  (∀ (n : Fin 32) (s : State),
    s.kakRuns = true →
    s.tcLive n = true →
    exec (.kakSliceDue n) s = .next { s with rel := { s.rel with kakDue := insSorted n s.rel.kakDue } }) ∧
  (∀ (n : Fin 32) (s s1 s2 : State),
    s.rel.kakDue.contains n.val = true →
    s.tcLive n = true →
    (s.tc n).slot0.isNone = true →
    ((s.tc n).itemWait || (s.tc n).zeroing || (s.tc n).aborting.isSome || (s.tc n).kak.isSome) = false →
    Tab.get? s.rel.kakLast n = none →
    s1 = s.setTc n { s.tc n with kak := some s.now } →
    s2 = { s1 with rel := { s1.rel with kakDue := s1.rel.kakDue.filter (· != n.val), kakLast := s1.rel.kakLast.put n s.now } } →
    exec (.kakSliceStart n) s = .next s2) ∧
  (∀ (n : Fin 32) (t : Nat) (s s1 s2 : State),
    s.rel.kakDue.contains n.val = true →
    s.tcLive n = true →
    (s.tc n).slot0.isNone = true →
    ((s.tc n).itemWait || (s.tc n).zeroing || (s.tc n).aborting.isSome || (s.tc n).kak.isSome) = false →
    Tab.get? s.rel.kakLast n = some t →
    t + 2 * s.rdF Reg.REL_KAK_CFG 8 12 * 1000000 < s.now →
    s1 = s.setTc n { s.tc n with kak := some s.now } →
    s2 = { s1 with rel := { s1.rel with kakDue := s1.rel.kakDue.filter (· != n.val), kakLast := s1.rel.kakLast.put n s.now } } →
    exec (.kakSliceStart n) s = .next ((s2.bump Reg.REL_KAK_LATE 1).report 0 { code := 0x0D0C, subj := uTc n, event := true })) ∧
  (∀ (n : Fin 32) (t : Nat) (s s1 s2 : State),
    (s.tc n).kak = some t →
    s1 = s.fresh.2.setTc n { s.tc n with kak := none, scratch := (Config.kakScratch s.fresh.1).foldl (fun (m : Tab Byte) e => Tab.write (fun _ => 0#8) m (e.1 % scratchSize) e.2) (s.tc n).scratch, lineBad := [], s := [], sBad := [], v := [], vBad := [], acc := [], accInt := [], accBad := [] } →
    s2 = { s1 with rel := { s1.rel with kakWait := s1.rel.kakWait ++ [(n.val, t)], kakSlice := s1.rel.kakSlice.put n ((s1.rel.kakSlice.getD n 0 + 1) % 64) } } →
    exec (.kakSliceEnd n) s = .next (((s2.bump Reg.REL_KAK_SLICES 1).bump (Reg.DBG_TC_KAK n) 1).promote n)) ∧
  (∀ (n : Fin 32) (pass : Bool) (e : Nat × Nat) (s s1 : State),
    s.rel.kakWait.find? (fun e => e.1 == n.val) = some e →
    s1 = { s with rel := { s.rel with kakWait := s.rel.kakWait.erase e } } →
    exec (.kakVerdict n pass) s = .next (if pass then s1 else ((s1.wr (Reg.REL_TC_EXPOSED n) e.2).fenceFrond n 0x0D02).crzDrain)) ∧
  (∀ (n : Fin 32) (s : State),
    s.rdB Reg.REL_FENCE_STATUS 0 = false →
    exec (.fenceCmd n) s = .next (if s.tcLive n then ((s.wr Reg.REL_FENCE_STATUS (1 + n * 256)).fenceFrond n 0x0D04).crzDrain
      else (s.wr Reg.REL_FENCE_STATUS 0).fenceFrond n 0x0D04)) ∧
  (∀ (n : Fin 32) (s : State),
    s.rdB Reg.REL_FENCE_STATUS 0 = true →
    exec (.fenceCmd n) s = .next (s.fenceRefuse n) ∧ exec (.readmitFrond n) s = .next (s.fenceRefuse n)) ∧
  (∀ (n : Fin 32) (s s1 : State),
    s.rdB Reg.REL_FENCE_STATUS 0 = false →
    s.tcLive n = false →
    (s.tc n).fencing = none →
    s.rdF (Reg.REL_TC_FENCE_INFO n) 16 8 < 3 →
    s1 = s.wr Reg.REL_FENCE_STATUS (1 + n.val * 256) →
    exec (.readmitFrond n) s = .next { s1 with rel := { s.rel with readmit := some n.val } }) ∧
  (∀ (n : Nat) (s s0 s1 s2 : State),
    s.rel.readmit = some n →
    s0 = { s.wr Reg.REL_FENCE_STATUS 0 with rel := { s.rel with readmit := none } } →
    s1 = (s0.wr Reg.REL_FENCED_MAP (setFld (s0.rdN Reg.REL_FENCED_MAP) n 1 0)).setTc n { placed := (s0.tc n).placed } →
    s2 = { s1 with rel := { s1.rel with kakSlice := s1.rel.kakSlice.del n } } →
    exec (.readmitComplete true) s = .next (s2.event (uTc n) 0x05 0x80 0x0D01 n 0).capChange ∧
      exec (.readmitComplete false) s = .next ((s0.wrF (Reg.REL_TC_FENCE_INFO n) 0 16 0x0D02).fenceRefuse n)) ∧
  (∀ (s : State),
    exec .ceWindowBoundary s = .next { s with rel := { s.rel with ceCount := [] } }) ∧
  (∀ (row : Fin 10) (s : State),
    exec (.clockMonitorFault row) s = .next (s.deviceFatal 0x0D0D ⟨0, row⟩).crzDrain) ∧
  (∀ (p b : Fin 16) (s s1 : State),
    s.rel.irqDue.contains (p.val * 16 + b.val) = true →
    s1 = { s with rel := { s.rel with irqDue := s.rel.irqDue.filter (· != p.val * 16 + b.val), irqAt := s.rel.irqAt.put (p.val * 16 + b.val) s.now } } →
    exec (.errIrqTimer p b) s = .next (s1.irqReg p (Reg.QM_PT_ERR_VEC p))) ∧
  (∀ (p b : Fin 16) (s : State),
    ∃ t, exec (.latchClear p b) s = .next t ∧ t.rdF (Reg.ERR_PT_B_FIRST p b) 31 1 = 0 ∧
      t.rdF (Reg.ERR_PT_B_FIRST p b) 0 31 = s.rdF (Reg.ERR_PT_B_FIRST p b) 0 31 ∧
      (∀ a, a ≠ Reg.ERR_PT_B_FIRST p b → t.rd a = s.rd a) ∧ t = { s with regs := t.regs })

/-- A cold reset and a VDD_AON fault leave the reset state but for the fuses, the flash and what is outside the device. The release of PORST_N starts the boot unless TEST_MODE holds it. While images are served, BOOT_IMAGE_LOADED serves the next one from its preferred slot or the other, or its type is missing. Training sets MEM_STATUS[0] and draws the hash key, and BOOT_READY brings the device to READY. The restart key restarts the device and another value does nothing; the fatal timer restarts when enabled. A host reset in READY resets every partition. A main-rail fault keeps the island and the checker. The PCIe events, the end of a CFW switch, EXTEST and the 32 kHz crystal act as stated. -/
def Obligations.BootAndResets : Prop :=
  (∀ (s : State),
    s.sec.cmd = none →
    exec .coldReset s = .next { State.reset with pending := s.pending, mem := s.hostMem, memx := s.hostPoison, freeCtr := s.freeCtr, out := s.out, sec := s.fuses, boot := { flash := s.boot.flash, perst := s.boot.perst, porst := true } } ∧
      exec .vddAonFault s = .next { State.reset with pending := s.pending, mem := s.hostMem, memx := s.hostPoison, freeCtr := s.freeCtr, out := s.out, sec := s.fuses, boot := { flash := s.boot.flash, perst := s.boot.perst, porst := false } }) ∧
  (∀ (straps : BitVec 12) (s s1 : State),
    s.boot.porst = true →
    s1 = { s with boot := { s.boot with porst := false, testHold := false } } →
    exec (.porstRelease straps false) s = .next (s1.startBoot straps.toNat) ∧
      exec (.porstRelease straps true) s = .next { s1 with boot := { s1.boot with testHold := true } }) ∧
  (∀ (straps : BitVec 12) (s s1 : State),
    s.boot.testHold = true →
    s1 = { s with boot := { s.boot with testHold := false } } →
    exec (.testModeFall straps) s = .next (s1.startBoot straps.toNat)) ∧
  (∀ (t : Nat) (d : List Byte) (two pref : Bool) (s s1 : State),
    t = s.boot.next →
    1 ≤ t →
    t ≤ 4 →
    s.bootDir = none ∨ s.bootDir = some (d, two) →
    pref = bitAt (getLE d 8 4) (t - 1) →
    s1 = s.wrF Reg.GLB_BOOT_STATUS 16 16 (s.bootCode t (s.slotImage d t pref)) →
    exec .bootImageLoaded s = .next
      (if s.bootDir = none then s.halt 0
       else if s.bootCode t (s.slotImage d t pref) = 0 then s.imageServed t (s.slotImage d t pref) pref
       else if s.bootCode t (s.slotImage d t (!pref)) = 0 then s1.imageServed t (s.slotImage d t (!pref)) (!pref)
       else (s1.wrF Reg.GLB_BOOT_STATUS 16 16 (s.bootCode t (s.slotImage d t (!pref)))).imageMissing t)) ∧
  (∀ (s : State),
    s.boot.next ≠ 0 →
    s.rdB Reg.MEM_STATUS 0 = false →
    ∃ k t, exec .memoryTrainingComplete s = .next t ∧ t.rdF Reg.MEM_STATUS 0 1 = 1 ∧ t.memx = { s.memx with hashKey := k } ∧
      (∀ b, b ≠ Reg.MEM_STATUS → t.rd b = s.rd b) ∧ t = { s.fresh.2 with regs := t.regs, memx := t.memx }) ∧
  (∀ (failed : BitVec 32) (s s1 s2 s3 : State),
    s.stage = 4 →
    s.rdB Reg.MEM_STATUS 0 = true →
    s1 = ((((List.range 32).filter fun n => failed.getLsbD n).foldl (fun s n => s.bootFence n) s).bootConfig).kSync →
    s2 = (s1.wrF Reg.GLB_BOOT_STATUS 0 4 6).wr Reg.GLB_BOOT_TIME s.now →
    Tab.get? s1.sec.imgs 3 = none →
    s3 = { s2 with boot := { s2.boot with next := 0 } } →
    exec (.bootReady failed) s = .next (s3.safeSync 0 0).debugEnter) ∧
  (∀ (value : BitVec 32) (straps : BitVec 12) (s : State),
    exec (.wholeDeviceRestart value straps) s = .next (if value = 0xD1E5#32 then s.restart 2 straps.toNat else s)) ∧
  (∀ (source straps : Nat) (s s1 s2 : State),
    s.stage = 6 →
    s.mgt.mainGone = false →
    (s1 = ((if s.safe.heldSince.isNone then s.mgtEvent 5 (leBytes 8 0 ++ leBytes 8 s.now) else s).setRung 0).clearMain) →
    s2 = (s1.wr Reg.GLB_RESTARTS (min 0xFFFF (s1.rdN Reg.GLB_RESTARTS + 1))).wr Reg.GLB_RESET_CAUSE (2 + source * 16) →
    s.restart source straps = s2.startBoot straps) ∧
  (∀ (straps : BitVec 12) (s : State),
    s.boot.fatalAt.isSome = true →
    s.rdB Reg.GLB_CFG 0 = true →
    exec (.fatalRestartTimer straps) s = .next (s.restart 4 straps.toNat)) ∧
  (∀ (how : HostResetBy) (straps : BitVec 12) (s s1 s2 : State),
    s1 = { s with boot := { s.boot with linkUp := false, inL1 := false, perst := s.boot.perst || how == .perst } } →
    s1.stage = 6 →
    (how == .perst && s1.rdB Reg.GLB_CFG 1) = false →
    s2 = (s1.resetPartition 0).vfClear →
    exec (.hostReset how straps) s = .next { s2 with qm := { s2.qm with msixEn := [], fnMask := [], d3hot := [] } }) ∧
  (∀ (straps : BitVec 12) (s s1 : State),
    s1 = { s with boot := { s.boot with linkUp := false, inL1 := false, perst := true } } →
    s1.stage = 6 →
    s1.rdB Reg.GLB_CFG 1 = true →
    exec (.hostReset .perst straps) s = .next (s1.restart 5 straps.toNat)) ∧
  (∀ (s : State),
    s.mgt.mainGone = false →
    ∃ t, exec .mainRailFault s = .next t ∧ t.safe = s.safe ∧ t.mgt.mainGone = true ∧ t.mgt.events = s.mgt.events ∧ t.time = s.time ∧
      (∀ a, t.rd a = if restartKeeps a || decide (0x1B00000 ≤ a ∧ a < 0x1D00000) then s.rd a else Reg.resetOf a) ∧
      t.chan = [] ∧ t.frond = [] ∧ t.chunks = [] ∧ t.own = []) ∧
  (∀ (s : State),
    exec .perstRelease s = .next { s with boot := { s.boot with perst := false } }) ∧
  (∀ (s : State),
    s.boot.porst = false →
    s.boot.perst = false →
    s.rung ≠ 4 →
    exec .pcieLinkUp s = .next { s with boot := { s.boot with linkUp := true } }) ∧
  (∀ (s s1 : State),
    s1 = { s with boot := { s.boot with inL1 := false } } →
    exec .pcieL1Exit s = .next (s1.wake 0)) ∧
  (∀ (u : Update) (s s1 : State),
    s.sec.upd = some u →
    u.type = 2 →
    s1 = { s with mgt := { s.mgt with switching := false }, pwr := { s.pwr with asked := [] } } →
    exec .cfwSwitchComplete s = .next (s.pwr.asked.foldl (fun s k => s.askRung k) ((s1.updRun u).updDone u))) ∧
  (∀ (s : State),
    exec .tapExtest s = .next (if s.sec.level = 0 then s else s.clearMain)) ∧
  (∀ (s : State),
    exec .aon32kStable s = .next { s with boot := { s.boot with xtal32k := true } })

/-- A good frame that names a command with a payload of R559 is handed to the housekeeping controller; a bad one is answered with 0x0F20, one during a request sets OVERRUN. STATUS_READ answers the status word and clears OVERRUN, RESPONSE_READ the response. The controller runs an accepted request (R561, R562): each command does what R559 says of it, answers with its status and payload, and ends the session where R561 says so. AUTH_LOCKOUT_END ends the lock-out. -/
def Obligations.ManagementPort : Prop :=
  (∀ (frame r : List Byte) (n : Nat) (s s1 s2 : State),
    (n = 12 + frLen frame + (if frAuth frame then 16 else 0)) →
    ¬(frame.length < 8 ∨ (frLen frame ≤ 1024 ∧ frame.length < n)) →
    s.mgt.request = none →
    s.stage ≠ 0xF →
    frameGood frame = true →
    s.mgt.switching = false →
    r = frame.take (n - 4) →
    payloadOk (frCmd r) (frPayload r) = true →
    s1 = s.bump Reg.MGT_FRAMES 1 →
    s2 = { s1 with mgt := { s1.mgt with request := some r, reqAt := s.now, response := none } } →
    exec (.frameWrite frame) s = .next
      (if cmdMain (frCmd r) && (!cmdAuth (frCmd r) || s.tagOk r) && !s.mgt.mainGone && !s.pwr.stopped then s2.wake 2 else s2)) ∧
  (∀ (frame : List Byte) (s : State),
    (¬(frame.length < 8 ∨ (frLen frame ≤ 1024 ∧ frame.length < 12 + frLen frame + (if frAuth frame then 16 else 0)))) →
    (s.mgt.request ≠ none → exec (.frameWrite frame) s = .next { s with mgt := { s.mgt with overrun := true } }) ∧
      (s.mgt.request = none → s.stage ≠ 0xF → frameGood frame = false →
        exec (.frameWrite frame) s = .next ((s.bump Reg.MGT_CRC_FAIL 1).answer (leBytes 8 0) 0x0F20 []))) ∧
  (∀ (whole : Bool) (s : State),
    exec .statusRead s = .next { s with out := s.out ++ [.mgmt (leBytes 4 s.statusWord)], mgt := { s.mgt with overrun := false } } ∧
      exec (.responseRead whole) s = .next { s with out := s.out ++ [.mgmt (s.mgt.response.getD [])], mgt := { s.mgt with response := if whole then none else s.mgt.response } }) ∧
  (∀ (r : List Byte) (s : State),
    s.mgtAccepts 0x01 false r = true →
    exec .getInfo s = .next (s.answer r 0 (leBytes 1 (s.rdN Reg.CAP_VARIANT) ++ leBytes 1 s.devId ++ leBytes 1 (roleCode s.lnk.role) ++ leBytes 1 0 ++
      ((List.range 4).flatMap fun i => leBytes 1 (s.imgSvn (i + 1))) ++
      leBytes 4 (((Tab.get? s.sec.imgs 2).map (·.build)).getD 0) ++ leBytes 1 1 ++ leBytes 3 0))) ∧
  (∀ (r : List Byte) (s : State),
    s.mgtAccepts 0x02 false r = true →
    exec .getStatus s = .next (s.answer r 0 (leBytes 4 s.statusWord ++ (if s.mainUp then s.mainValues else s.mgt.kept) ++
      leBytes 2 (s.rdF Reg.PWR_WAKE_CAUSE 0 6) ++ leBytes 2 s.mgt.events.length ++ leBytes 4 0))) ∧
  (∀ (r : List Byte) (e : MgtEv) (es : List MgtEv) (s s1 : State),
    s.mgtAccepts 0x03 false r = true →
    s.mgt.events = e :: es →
    s.mgt.waiting = [] →
    s1 = { s with mgt := { s.mgt with events := es } } →
    exec .getEvent s = .next (s1.answer r 0 (leBytes 1 e.cls ++ leBytes 1 e.lost.toNat ++ leBytes 2 e.body.length ++ leBytes 4 e.seq ++ e.body))) ∧
  (∀ (r : List Byte) (s : State),
    s.mgtAccepts 0x03 false r = true →
    s.mgt.events = [] →
    exec .getEvent s = .next (s.answer r 0 [])) ∧
  (∀ (r : List Byte) (s : State),
    s.mgtAccepts 0x04 false r = true →
    exec .getTime s = .next (s.answer r 0 (leBytes 8 s.mgt.reqAt))) ∧
  (∀ (r : List Byte) (s : State),
    s.mgtAccepts 0x05 false r = true →
    exec .getErrors s = .next (s.answer r 0 ((List.range 15).flatMap fun b => leBytes 4 (s.rdN (Reg.ERR_PT_B_FIRST 0 (b + 1))) ++
      leBytes 4 (s.rdN (Reg.ERR_PT_B_SUBJECT 0 (b + 1))) ++ leBytes 8 (s.rdN (Reg.ERR_PT_B_TIME 0 (b + 1)))))) ∧
  (∀ (r body : List Byte) (k : Nat) (s s1 : State),
    s.mgtAccepts 0x06 false r = true →
    s.sec.rngBad = false →
    (k, s1) = s.freshPriv →
    body = s1.attestBody 0 (frPayload r) →
    exec .getAttest s = .next (s1.answer r 0 (body ++ ecdsaSign s1.sec.ak k body))) ∧
  (∀ (r n : List Byte) (d : Nat) (s s1 s2 : State),
    s.mgtAccepts 0x10 false r = true →
    s.mgt.lockedOut = false →
    s.sec.rngBad = false →
    (n, s1) = s.freshBytes 32 →
    (d, s2) = s1.freshPriv →
    exec .authOpen s = .next (({ s2 with mgt := { s2.mgt with challenge := some (n, d, ecPub d), refusals := if s2.mgt.key.isNone then 0 else s2.mgt.refusals } }).answer r 0 (n ++ ecPub d))) ∧
  (∀ (r : List Byte) (s : State),
    s.mgtAccepts 0x10 false r = true →
    s.mgt.lockedOut = true →
    exec .authOpen s = .next (s.authRefuse r 0x0F25)) ∧
  (∀ (r n dpub epub pub b : List Byte) (d k : Nat) (s s1 : State),
    s.mgtAccepts 0x11 false r = true →
    s.mgt.challenge = some (n, d, dpub) →
    b = frPayload r →
    k = getLE b 0 1 →
    epub = (b.drop 4).take 96 →
    pub = (b.drop 100).take 96 →
    s1 = { s with mgt := { s.mgt with challenge := none } } →
    exec .authFinish s = .next (if 4 ≤ k ∨ s1.keyOk (4 + k) pub = false ∨
        ecdsaOk pub (n ++ dpub ++ epub ++ leBytes 1 k) ((b.drop 196).take 96) = false ∨ ecdh d epub = none then s1.authRefuse r 0x0F25
      else ({ s1 with mgt := { s1.mgt with key := some (kdf ((ecdh d epub).getD []) "MGMT" (n ++ dpub ++ epub)), lastSeq := none, refusals := 0 } }).answer r 0 [])) ∧
  (∀ (r : List Byte) (s : State),
    s.mgtAccepts 0x12 false r = true →
    exec .authClose s = .next ((s.mgtStarts 0x12 r).answer r 0 []).sessionEnd) ∧
  (∀ (s : State),
    exec .authLockoutEnd s = .next { s with mgt := { s.mgt with lockedOut := false } }) ∧
  (∀ (r : List Byte) (k : Nat) (ok : Bool) (s s1 : State),
    s.mgt.switching = false →
    s.mgtAccepts 0x20 false r = true →
    k = getLE (frPayload r) 0 1 →
    ((s1, ok) = if k = 1 then ((s.mgtStarts 0x20 r).wakeNow 2, true) else (s.mgtStarts 0x20 r).rungRequest k) →
    exec .setRung s = .next ((if ok then s1.answer r 0 [] else s1.answer r 0x0F26 (leBytes 2 0x0F01)).mgtEnds 0x20 r)) ∧
  (∀ (r : List Byte) (s : State),
    (s.mgtAccepts 0x21 false r = true → exec .setPowerLimit s =
        .next ((((s.mgtStarts 0x21 r).wr Reg.PWR_LIMIT (getLE (frPayload r) 0 1)).answer r 0 []).mgtEnds 0x21 r)) ∧
      (s.mgtAccepts 0x22 false r = true → exec .setAlertMask s =
        .next ((((s.mgtStarts 0x22 r).wr Reg.MGT_ALERT_MASK (getLE (frPayload r) 0 2)).answer r 0 []).mgtEnds 0x22 r)) ∧
      (s.mgtAccepts 0x24 true r = true → exec .mgmtHoldTest s = .next (((s.mgtStarts 0x24 r).startHoldTest.answer r 0 []).mgtEnds 0x24 r))) ∧
  (∀ (r : List Byte) (p : Nat) (s s0 : State),
    s.mgtAccepts 0x23 true r = true →
    getLE (frPayload r) 0 1 = 1 →
    p = getLE (frPayload r) 1 1 →
    s0 = s.mgtStarts 0x23 r →
    exec .mgmtResetPartition s = .next ((if s0.resetting p then s0.answer r 0x0F26 (leBytes 2 0x0A0B)
      else (s0.resetPartition p).answer r 0 []).mgtEnds 0x23 r)) ∧
  (∀ (straps : BitVec 12) (r : List Byte) (s s1 : State),
    s.mgtAccepts 0x23 false r = true →
    getLE (frPayload r) 0 1 = 2 →
    s1 = ((s.mgtStarts 0x23 r).answer r 0 []).mgtEnds 0x23 r →
    exec (.mgmtResetDevice straps) s = .next (s1.restart 3 straps.toNat))

/-- EN written 1 on a DOWN port starts training. TRAINING_COMPLETE brings a retraining port up again, and a training port up with its neighbour admitted unless identifiers or roles conflict (0x0B22) or authentication fails (0x0B21); a failure leaves it DOWN. A good flit in sequence is taken with its packets and one that fails or is out of sequence is NAKed; NAKs replay and count, and 16 in a row or silence retrain. A write, a read or a signal of a bound device is performed in the LOCAL_PT and answered, one without a binding is refused with 0x0503 and counted. A response or an acknowledgement of status 0 ends the request it answers, another status or no answer fails it. -/
def Obligations.LinkTransport : Prop :=
  (∀ (n : Fin 8) (value : BitVec 32) (s s1 : State),
    s1 = s.wr (Reg.LNK_PORT_CTRL n) (value.getLsbD 0).toNat →
    exec (.lnkCtrlWrite n value) s = .next
      (if value.getLsbD 0 = true ∧ s.rdB (Reg.LNK_PORT_CTRL n) 0 = false ∧ s.portState n = 0 ∧ s.lnk.strapRole ≠ .standalone
       then s1.wrF (Reg.LNK_PORT_STATUS n) 0 2 1 else s1)) ∧
  (∀ (n : Fin 8) (neighbour : Fin 128) (nrole : Role) (authOk joining : Bool) (peerNow : Nat) (s : State),
    s.portState n = 3 →
    exec (.trainingComplete n neighbour nrole authOk joining peerNow) s = .next (s.wrF (Reg.LNK_PORT_STATUS n) 0 2 2)) ∧
  (∀ (n : Fin 8) (neighbour : Fin 128) (nrole : Role) (joining : Bool) (peerNow : Nat) (s s1 s2 s3 : State),
    s.portState n = 1 →
    s1 = (s.wr (Reg.LNK_PORT_STATUS n) (2 + neighbour.val * 16)).setPort n { s.port n with rxSeq := 255, nakRun := 0, lastFlit := s.now } →
    ¬(neighbour.val = s.devId ∨ (nrole = .master ∧ s.lnk.role = .master) ∨ (nrole = .standby ∧ s.lnk.role = .standby)) →
    s2 = (s1.wrF (Reg.LNK_PORT_STATUS n) 2 1 1).rejoin neighbour →
    s3 = { s2 with lnk := { s2.lnk with seqTop := (s2.lnk.seqTop.del (neighbour * 2)).del (neighbour * 2 + 1), seqSeen := (s2.lnk.seqSeen.del (neighbour * 2)).del (neighbour * 2 + 1), alive := s2.lnk.alive.put neighbour s.now, devices := insSorted neighbour s2.lnk.devices } } →
    exec (.trainingComplete n neighbour nrole true joining peerNow) s =
      .next ((if nrole = .master then s3.wrF Reg.LNK_STATUS 16 7 neighbour else s3).admitTime joining peerNow)) ∧
  (∀ (n : Fin 8) (neighbour : Fin 128) (nrole : Role) (authOk joining conflict : Bool) (peerNow : Nat) (s s1 : State),
    s.portState n = 1 →
    s1 = (s.wr (Reg.LNK_PORT_STATUS n) (2 + neighbour.val * 16)).setPort n { s.port n with rxSeq := 255, nakRun := 0, lastFlit := s.now } →
    conflict = decide (neighbour.val = s.devId ∨ (nrole = .master ∧ s.lnk.role = .master) ∨ (nrole = .standby ∧ s.lnk.role = .standby)) →
    (conflict || !authOk) = true →
    exec (.trainingComplete n neighbour nrole authOk joining peerNow) s =
      .next (s1.linkErr (uPort n) (if conflict then 0x0B22 else 0x0B21) neighbour)) ∧
  (∀ (n : Fin 8) (s s1 : State),
    s.portState n = 1 ∨ s.portState n = 3 →
    s1 = (s.wr (Reg.LNK_PORT_STATUS n) 0).setPort n { s.port n with lastFail := s.now, nakRun := 0 } →
    exec (.trainingFailure n) s = .next (((if s.portState n = 3 then s1.bump (Reg.LNK_PORT_DOWNS n) 1 else s1).emit (.flit n 3 0)).linkErr (uPort n) 0x0B20)) ∧
  (∀ (n : Fin 8) (s : State),
    s.portState n = 0 →
    s.rdB (Reg.LNK_PORT_CTRL n) 0 = true →
    s.lnk.strapRole ≠ .standalone →
    exec (.trainingRetry n) s = .next (s.wrF (Reg.LNK_PORT_STATUS n) 0 2 1)) ∧
  (∀ (n : Fin 8) (check : FlitCheck) (kind : FlitKind) (seq : Fin 256) (creditVc : Fin 4) (credits : Fin 4096) (packets : List Packet) (s s0 s1 : State),
    s.portState n = 2 →
    check ≠ .crcFail →
    seq.val = ((s.port n).rxSeq + 1) % 256 →
    (s0 = if check = .corrected then s.bump (Reg.LNK_PORT_FEC_CE n) 1 else s) →
    s1 = s0.setPort n { s.port n with rxSeq := seq, lastFlit := s.now, credits := (s.port n).credits.modify creditVc (· + credits.val) } →
    exec (.flitReceive n check kind seq creditVc credits packets) s = .next (if kind = .data then
        packets.foldl (fun s pk => s.takePacket n pk) (if packets.any (fun pk => pk.type != 7) then s1.wake 1 else s1)
      else s1)) ∧
  (∀ (n : Fin 8) (check : FlitCheck) (kind : FlitKind) (seq : Fin 256) (creditVc : Fin 4) (credits : Fin 4096) (packets : List Packet) (s s0 : State),
    s.portState n = 2 →
    check = .crcFail ∨ seq.val ≠ ((s.port n).rxSeq + 1) % 256 →
    (s0 = if check = .corrected then s.bump (Reg.LNK_PORT_FEC_CE n) 1 else s) →
    exec (.flitReceive n check kind seq creditVc credits packets) s = .next (s0.emit (.flit n 2 (s.port n).rxSeq))) ∧
  (∀ (n : Fin 8) (lastGood : Fin 256) (run : Nat) (s : State),
    s.portState n = 2 →
    (run = if (s.port n).nakRun ≠ 0 ∧ (s.port n).nakSeq = lastGood.val then (s.port n).nakRun + 1 else 1) →
    exec (.nakReceive n lastGood) s = .next (((s.setPort n { s.port n with nakSeq := lastGood, nakRun := run }).bump
      (Reg.LNK_PORT_RETRIES n) 1).emit (.flit n 4 lastGood))) ∧
  (∀ (n : Fin 8) (s : State),
    s.portState n = 2 →
    (16 ≤ (s.port n).nakRun → exec (.nakLimit n) s = .next ((s.wrF (Reg.LNK_PORT_STATUS n) 0 2 3).setPort n { s.port n with nakRun := 0 })) ∧
      exec (.flitTimeout n) s = .next (s.wrF (Reg.LNK_PORT_STATUS n) 0 2 3)) ∧
  (∀ (pk : Packet) (p dva : Nat) (ps : List (Nat × Nat)) (s s1 : State),
    s1 = s.consume pk →
    s1.bindFor pk true = some (p, dva) →
    (s1.xlateAll p .write false (pieces dva (pk.len * 64))).toOption = some ps →
    ps.any (fun e => targetOf e.1 == .undecoded) = false →
    exec (.linkWrite pk) s = .next ((s1.writeGranules p dva pk.poison pk.len pk.payload 0).emit (.link pk.src 4 [pk.tag, 0] []))) ∧
  (∀ (pk : Packet) (p dva : Nat) (bs : List Byte) (bad : Bool) (s s1 : State),
    s1 = s.consume pk →
    s1.bindFor pk false = some (p, dva) →
    s1.readDva p dva (pk.len * 64) = .data bs bad →
    exec (.linkRead pk) s = .next ((s1.txBytes pk.src s1.devId p pk.tag bs.length).emit (.link pk.src 3 [pk.tag, 0, s1.poisonBits p dva pk.len] bs))) ∧
  (∀ (pk : Packet) (s s1 : State),
    s1 = s.consume pk →
    (s1.bindFor pk true = none → exec (.linkWrite pk) s = .next (s1.refuseRequest pk 4)) ∧
      (s1.bindFor pk false = none → exec (.linkRead pk) s = .next (s1.refuseRequest pk 3)) ∧
      (s1.lnk.bindings.find? (fun e => e.2.srcDev == pk.src && e.2.srcPt == pk.pt && e.2.sig) = none →
        exec (.linkSignal pk) s = .next (s1.refuseRequest pk 6))) ∧
  (∀ (pk : Packet) (sel flag n code : Nat) (b : Binding) (s s0 s1 : State),
    s0 = s.consume pk →
    flag = fld (getLE pk.payload 0 8) 0 15 →
    n = fld (getLE pk.payload 0 8) 32 32 →
    s0.lnk.bindings.find? (fun e => e.2.srcDev == pk.src && e.2.srcPt == pk.pt && e.2.sig) = some (sel, b) →
    s0.owns b.localPt 0x33 flag = true →
    s0.ptReady b.localPt = true →
    (s1, code) = s0.flagSignal b.localPt flag n ⟨0x38, pk.src⟩ 0 8 →
    exec (.linkSignal pk) s = .next (((if code = 0 then { s1.wr (Reg.SYN_PT_REMOTE_IN b.localPt) ((s1.rdN (Reg.SYN_PT_REMOTE_IN b.localPt) + 1) % 2 ^ 32) with gs := { s1.gs with remoteAt := s1.gs.remoteAt.put b.localPt s0.now } } else s1).emit (.link pk.src 6 [pk.tag, code] [])).crzDrain)) ∧
  (∀ (tag : Fin 65536) (poison : Fin 16) (data : List Byte) (r : Remote) (s : State),
    (s.remoteOf 2 tag = some r → exec (.readResp tag 0 poison data) s = .next ((List.range ((r.len + 63) / 64)).foldl
        (fun s i => s.storePA (r.addr + 64 * i) ((data.drop (64 * i)).take (min 64 (r.len - 64 * i))) (bitAt poison i)) (s.forget r))) ∧
      (s.remoteOf 1 tag = some r → exec (.writeAck tag 0) s = .next (s.forget r)) ∧
      (s.remoteOf 5 tag = some r → exec (.signalAck tag 0) s = .next (s.forget r))) ∧
  (∀ (tag status : Fin 65536) (poison : Fin 16) (data : List Byte) (r : Remote) (s : State),
    status ≠ 0 →
    (s.remoteOf 2 tag = some r → exec (.readResp tag status poison data) s = .next (s.remoteRefused r status)) ∧
      (s.remoteOf 1 tag = some r → exec (.writeAck tag status) s = .next (s.remoteRefused r status)) ∧
      (s.remoteOf 5 tag = some r → exec (.signalAck tag status) s = .next (s.remoteRefused r status)) ∧
      (s.lnk.outstanding.find? (fun r => r.tag == tag.val) = some r → exec (.respTimeout tag) s = .next (s.failRemote r)))

/-- The master broadcasts heartbeats, and a device answers the one it follows; a silent device is declared lost; the standby promotes itself when its master is silent, and a higher MEPOCH is accepted. The time exchange records the error and tracks the lock, with a free correction of the rate within 100 ppm. The master latches error reports and counts repetitions; a freeze packet is forwarded once and freezes with RECV. Bindings are written, read and cleared through the staged registers. Checkpoint epochs are requested, snapshot, transferred, committed and acknowledged as stated. -/
def Obligations.LinkSystem : Prop :=
  (∀ (s : State),
    s.lnk.role = .master →
    exec .heartbeatBroadcast s = .next (s.emit (.link everyDevice kHeartbeat [s.rdN Reg.LNK_MEPOCH, s.rdN Reg.LNK_SYS_GEN] []))) ∧
  (∀ (src : Fin 128) (mepoch sysGen : BitVec 32) (s s1 s2 : State),
    mepoch.toNat = s.rdN Reg.LNK_MEPOCH →
    s.lnk.role ≠ .master →
    s1 = s.wrF Reg.LNK_STATUS 16 7 src →
    s2 = { s1.wr Reg.LNK_SYS_GEN sysGen.toNat with lnk := { s1.lnk with beat := s.now } } →
    exec (.lnkHeartbeat src mepoch sysGen) s = .next (s2.emit (.link src kAnswer [] []))) ∧
  (∀ (src : Fin 128) (mepoch sysGen : BitVec 32) (s s1 s2 : State),
    s.rdN Reg.LNK_MEPOCH < mepoch.toNat →
    s1 = s.acceptMaster src mepoch.toNat →
    s2 = { s1.wr Reg.LNK_SYS_GEN sysGen.toNat with lnk := { s1.lnk with beat := s.now } } →
    exec (.lnkHeartbeat src mepoch sysGen) s = .next (s2.emit (.link src kAnswer [] [])) ) ∧
  (∀ (src : Fin 128) (s : State),
    s.lnk.role = .master →
    exec (.heartbeatAnswer src) s = .next { s with lnk := { s.lnk with alive := s.lnk.alive.put src s.now, devices := insSorted src s.lnk.devices } }) ∧
  (∀ (dev : Fin 128) (s : State),
    s.lnk.role = .master →
    bitAt (s.rdN (Reg.LNK_UNREACH (dev / 64))) (dev % 64) = false →
    exec (.lossTimeout dev) s = .next (s.declareLost dev)) ∧
  (∀ (dev : Fin 128) (sysGen : BitVec 32) (s : State),
    exec (.lossNotice dev sysGen) s = .next (((s.wake 1).wr Reg.LNK_SYS_GEN sysGen.toNat).markLost dev)) ∧
  (∀ (e : Nat) (s s1 : State),
    s.lnk.role = .standby →
    e = (s.rdN Reg.LNK_MEPOCH + 1) % 2 ^ 32 →
    s1 = ((((s.wr Reg.LNK_MEPOCH e).setRole .master).wrF Reg.LNK_STATUS 16 7 s.devId).wr Reg.LNK_STANDBY 0).emit (.link everyDevice kMaster [s.devId, e] []) →
    exec .masterTimeout s = .next (((if s.lnk.ckpt.openEpoch.isSome then s1.discardEpoch.evt 0 0x0B2B else s1).declareLost s.masterId).evt 0 0x0B27 s.devId)) ∧
  (∀ (src : Fin 128) (mepoch : BitVec 32) (s s1 : State),
    s1 = s.wake 1 →
    s1.rdN Reg.LNK_MEPOCH < mepoch.toNat →
    exec (.masterNotice src mepoch) s = .next (s1.acceptMaster src mepoch.toNat)) ∧
  (∀ (value : BitVec 32) (v : Nat) (s : State),
    v = value.toNat % 128 + (value.getLsbD 31).toNat * 2 ^ 31 →
    exec (.standbyWrite value) s = .next (if s.lnk.role = .master then (s.wr Reg.LNK_STANDBY v).emit (.link everyDevice kStandby [v] [])
      else s.linkErr ⟨0, 0⟩ 0x0B2D)) ∧
  (∀ (value : BitVec 32) (v : Nat) (s : State),
    v = value.toNat % 128 + (value.getLsbD 31).toNat * 2 ^ 31 →
    exec (.standbyNotice value) s = .next (((s.wake 1).wr Reg.LNK_STANDBY v).takeStandby v)) ∧
  (∀ (errNs : Int) (s s1 : State),
    s.lnk.role ≠ .master →
    s.lnk.role ≠ .standalone →
    s1 = (s.fresh.2.wr Reg.LNK_TIME_ERR (codeOf 32 errNs)).wr Reg.DT_RATE (nominalRate - nominalRate / 10000 + s.fresh.1 % (2 * (nominalRate / 10000) + 1)) →
    (errNs.natAbs ≤ 20 → s.lnk.goodRun + 1 < 16 → exec (.timeExchange errNs) s = .next { s1 with lnk := { s1.lnk with goodRun := s.lnk.goodRun + 1, badRun := 0 } }) ∧
      (errNs.natAbs ≤ 20 → 16 ≤ s.lnk.goodRun + 1 → exec (.timeExchange errNs) s = .next (({ s1 with lnk := { s1.lnk with goodRun := s.lnk.goodRun + 1, badRun := 0 } }).wrF Reg.LNK_STATUS 9 1 1)) ∧
      (20 < errNs.natAbs → s.lnk.badRun + 1 < 4 → exec (.timeExchange errNs) s = .next { s1 with lnk := { s1.lnk with goodRun := 0, badRun := s.lnk.badRun + 1 } }) ∧
      (20 < errNs.natAbs → 4 ≤ s.lnk.badRun + 1 → s.rdB Reg.LNK_STATUS 9 = true → exec (.timeExchange errNs) s = .next ((({ s1 with lnk := { s1.lnk with goodRun := 0, badRun := s.lnk.badRun + 1 } }).wrF Reg.LNK_STATUS 9 1 0).evt 0 0x0B28))) ∧
  (∀ (ns : Nat) (s : State),
    exec (.timeStepNotice ns) s =
      .next ((if (s.wake 1).rdB Reg.LNK_STATUS 9 then (s.wake 1).stepTime ns else s.wake 1).evt 0 0x0B2F ns)) ∧
  (∀ (src : Fin 128) (code : BitVec 16) (subjClass subjInst : Fin 256) (info time : BitVec 64) (k : Nat) (s s0 s1 : State),
    s0 = s.wake 1 →
    s0.lnk.role = .master →
    k = code.toNat * 128 + src →
    code ≠ 0x0D0B#16 →
    Tab.get? s0.lnk.storms k = none →
    s1 = { s0 with lnk := { s0.lnk with storms := s0.lnk.storms.put k ⟨src, time.toNat, s0.now⟩ } } →
    exec (.errorReport src code subjClass subjInst info time) s =
      .next (s1.report 0 { code := code.toNat, subj := ⟨subjClass, subjInst⟩, dev := src, info := info.toNat, remote := true })) ∧
  (∀ (n : Fin 8) (originator : Fin 128) (seq : Fin 65536) (s s0 s1 s2 : State),
    s0 = s.wake 1 →
    s0.dbg.seen.contains (originator.val, seq.val) = false →
    s1 = { s0 with dbg := { s0.dbg with seen := (originator.val, seq.val) :: s0.dbg.seen } } →
    s0.isFrozen = false →
    s2 = ((List.range 8).filter fun k => k != n.val && s0.portState k == 2).foldl (fun s k => s.emit (.flit k 5 (originator.val * 65536 + seq.val))) s1 →
    exec (.freezePacket n originator seq) s = .next (if s0.rdB Reg.DBG_FRZ_CFG 1 then s2.freezeBy 2 originator seq false else s2)) ∧
  (∀ (sel : Nat) (s s1 : State),
    sel = s.rdF Reg.LNK_BIND_SEL 0 10 →
    s.bindBusy = false →
    s1 = s.wr Reg.LNK_BIND_STATUS 1 →
    (s.bindBad sel s.stagedBinding = false → exec .bindWrite s = .next { s1 with lnk := { s.lnk with bindRun := some 1 } }) ∧
      (Tab.get? s.lnk.bindings sel = none → exec .bindClear s = .next { s1 with lnk := { s.lnk with bindRun := some 3 } }) ∧
      (s.bindBad sel s.stagedBinding = true → exec .bindWrite s = .next s.bindRefuse)) ∧
  (∀ (b : Binding) (s : State),
    s.bindBusy = false →
    Tab.get? s.lnk.bindings (s.rdF Reg.LNK_BIND_SEL 0 10) = some b →
    exec .bindRead s = .next ((((s.wr Reg.LNK_BIND_BASE b.base).wr Reg.LNK_BIND_SIZE b.size).wr Reg.LNK_BIND_ATTR
        (b.srcDev + b.srcPt * 2 ^ 8 + b.index * 2 ^ 12 + b.localPt * 2 ^ 16 + b.r.toNat * 2 ^ 20 + b.w.toNat * 2 ^ 21 +
          b.sig.toNat * 2 ^ 22 + 2 ^ 31)).wr Reg.LNK_BIND_STATUS 0)) ∧
  (∀ (c sel : Nat) (s s1 : State),
    s.lnk.bindRun = some c →
    sel = s.rdF Reg.LNK_BIND_SEL 0 10 →
    s1 = s.wr Reg.LNK_BIND_STATUS 0 →
    exec .bindCmdComplete s = .next { s1 with lnk := { s.lnk with bindings := if c = 1 ∧ s.rdB Reg.LNK_BIND_ATTR 31 = true then s.lnk.bindings.put sel s.stagedBinding else s.lnk.bindings.del sel, bindRun := none } }) ∧
  (∀ (d : Fin 128) (value : BitVec 32) (s : State),
    ∃ t, exec (.aliasWrite d value) s = .next t ∧ t.rdN (Reg.LNK_ALIAS d) = value.toNat % 128 + (value.getLsbD 31).toNat * 2 ^ 31 ∧
      (∀ b, b ≠ Reg.LNK_ALIAS d → t.rd b = s.rd b) ∧ t = { s with regs := t.regs }) ∧
  (∀ (value : BitVec 32) (v : Nat) (s s1 : State),
    v = value.toNat % 65536 / 16 * 16 + (value.getLsbD 0).toNat →
    s.rdB Reg.LNK_CKPT_CFG 0 = false →
    s1 = (s.wr Reg.LNK_CKPT_CFG v).wr Reg.LNK_CKPT_EPOCH 0 →
    exec (.ckptEnable value) s = .next (if bitAt v 0 = false then s.wr Reg.LNK_CKPT_CFG v
      else if s.ckptOk (fld v 4 4) (fld v 8 8) then { s1 with lnk := { s.lnk with ckpt := {} } } else s.linkErr ⟨0, 0⟩ 0x0B2D)) ∧
  (∀ (s s1 : State),
    s.lnk.role = .master →
    s.rdB Reg.LNK_CKPT_CFG 0 = true →
    s.lnk.ckpt.waiting = false →
    s.lnk.ckpt.acked = true →
    s1 = s.wr Reg.LNK_CKPT_EPOCH (s.rdN Reg.LNK_CKPT_EPOCH + 1) →
    exec .ckptRequest s = .next (({ s1 with lnk := { s1.lnk with ckpt := { s1.lnk.ckpt with waiting := true, acked := false, reqTime := s.now } } }).ckptSignal (s.rdF Reg.LNK_CKPT_FLAGS_A 0 15))) ∧
  (∀ (e sb : Nat) (bs : List Byte) (s s1 : State),
    e = s.rdN Reg.LNK_CKPT_EPOCH →
    sb = s.rdF Reg.LNK_STANDBY 0 7 →
    s.lnk.ckpt.waiting = true →
    e ≤ (s.flag (s.rdF Reg.LNK_CKPT_FLAGS_A 16 15)).value →
    (s.ckptList s.ckptPt (s.rdN Reg.LNK_CKPT_LIST) (s.rdF Reg.LNK_CKPT_CFG 8 8)).bind (s.ckptBytes s.ckptPt) = some bs →
    s.rdB Reg.LNK_STANDBY 31 = true →
    s.reachable sb = true →
    s1 = { s with lnk := { s.lnk with ckpt := { s.lnk.ckpt with waiting := false, prevSnap := s.lnk.ckpt.snapTime, snapTime := s.now } } } →
    exec .ckptSnapshot s = .next ((((s1.txBytes sb s1.devId s1.ckptPt 0 bs.length).emit (.link sb kBegin [e, bs.length] [])).emit (.link sb kData [e] bs)).emit (.link sb kCommit [e, crc64 bs, s.now] []))) ∧
  (∀ (epoch total : BitVec 64) (s s1 : State),
    s.lnk.role = .standby →
    s.rdB Reg.LNK_CKPT_CFG 0 = true →
    s.rdN Reg.LNK_CKPT_COMMITTED < epoch.toNat →
    total.toNat ≤ s.rdN Reg.LNK_CKPT_SLOT_SIZE →
    s1 = (s.discardEpoch.wrF Reg.LNK_CKPT_STATUS 16 1 1).wr Reg.LNK_CKPT_EPOCH epoch.toNat →
    exec (.ckptBegin epoch total) s =
      .next { s1 with lnk := { s1.lnk with ckpt := { s1.lnk.ckpt with openEpoch := some epoch.toNat, total := total.toNat, got := [] } } }) ∧
  (∀ (epoch : BitVec 64) (data : List Byte) (s s1 : State),
    s.lnk.role = .standby →
    s.lnk.ckpt.openEpoch = some epoch.toNat →
    s.writeDva s.ckptPt (uPort 0) (s.slotBase s.openSlot + s.lnk.ckpt.got.length) data = .done s1 →
    exec (.ckptData epoch data) s =
      .next { s1 with lnk := { s1.lnk with ckpt := { s1.lnk.ckpt with got := s.lnk.ckpt.got ++ data } } }) ∧
  (∀ (epoch crc snap : BitVec 64) (s s1 s2 : State),
    s.lnk.role = .standby →
    s.lnk.ckpt.openEpoch = some epoch.toNat →
    s.lnk.ckpt.got.length = s.lnk.ckpt.total →
    crc64 s.lnk.ckpt.got = crc.toNat →
    s1 = ((s.wr Reg.LNK_CKPT_COMMITTED epoch.toNat).wr Reg.LNK_CKPT_SNAP_TIME snap.toNat).wr Reg.LNK_CKPT_STATUS (s.openSlot * 2 ^ 17) →
    s2 = { s1 with lnk := { s1.lnk with ckpt := { s1.lnk.ckpt with openEpoch := none, total := 0, got := [] } } } →
    exec (.ckptCommit epoch crc snap) s =
      .next ((s2.ckptSignal (s.rdF Reg.LNK_CKPT_FLAGS_B 16 15)).emit (.link s.masterId kAck [epoch.toNat, 0] []))) ∧
  (∀ (epoch crc snap : BitVec 64) (s : State),
    s.lnk.role = .standby →
    s.lnk.ckpt.openEpoch = some epoch.toNat →
    s.lnk.ckpt.got.length ≠ s.lnk.ckpt.total ∨ crc64 s.lnk.ckpt.got ≠ crc.toNat →
    exec (.ckptCommit epoch crc snap) s = .next (s.ckptDrop epoch.toNat 0x0B29)) ∧
  (∀ (epoch : BitVec 64) (code : BitVec 16) (s s1 : State),
    s.lnk.role = .master →
    epoch.toNat = s.rdN Reg.LNK_CKPT_EPOCH →
    s.lnk.ckpt.acked = false →
    s.lnk.ckpt.waiting = false →
    s1 = { s with lnk := { s.lnk with ckpt := { s.lnk.ckpt with lastD := s.now - s.lnk.ckpt.reqTime, nextReq := max s.now (s.lnk.ckpt.snapTime + s.rdN Reg.LNK_CKPT_INTERVAL * 1000 - (s.now - s.lnk.ckpt.reqTime)) } } } →
    exec (.ckptAck epoch code) s = .next (if code.toNat ≠ 0 then (s.evt 0 code.toNat (s.rdN Reg.LNK_CKPT_EPOCH)).ckptDone code.toNat
      else (if 1 < s.rdN Reg.LNK_CKPT_EPOCH ∧ s.lnk.ckpt.prevSnap + s.rdN Reg.LNK_CKPT_INTERVAL * 1000 < s.now
        then (s1.bump Reg.LNK_CKPT_LATE 1).evt 0 0x0B2A (s.rdN Reg.LNK_CKPT_EPOCH) else s1).ckptDone 0))

/-- While no security command runs, each command does its part and runs until SEC_CMD_COMPLETE, which writes RESULT and LEN, counts it and signals SEC_FLAG; a CONF_DISABLE waits for its partition's reset and an SVN_COMMIT has raised the floor. While one runs, another is refused with 0x0C0A and counted. ATTEST, CHAIN, SESSION, IMPORT, EXPORT, UPDATE and the commands of confidential partitions do what R449 to R454, R464 and R467 say. A debug challenge is fresh; a good response grants its level, level 3 by resetting every partition, and the third bad one locks the interface. Levels go down freely. A failing random source refuses keys until a retry passes. -/
def Obligations.SecurityCommands : Prop :=
  (∀ (p : Fin 16) (c : Instr) (s : State),
    c ∈ [Instr.secAttest p, .secChain p, .secSession p, .secImport p, .secExport p, .confEnable p, .confDisable p, .confGrant p, .confRelease p, .confMode p, .svnCommit p] →
    s.sec.cmd.isSome = true →
    exec c s = .next ((s.bump Reg.SEC_REFUSED 1).secErr p 0x0C0A)) ∧
  (∀ (p : Fin 16) (nonce body : List Byte) (k : Nat) (s s1 : State),
    s.sec.cmd = none →
    s.secArg 1 % 64 = 0 →
    (s.secRead 0 (s.secArg 0) 32).toOption = some nonce →
    (k, s1) = s.freshPriv →
    body = s1.attestBody p nonce →
    exec (.secAttest p) s = .next (s.secEnds 1 p (match s1.secWrite 0 (s.secArg 1) (body ++ ecdsaSign s1.sec.ak k body) with | .error s2 => (s2, 0x0503, 0) | .ok s2 => (s2, 0, 736)))) ∧
  (∀ (p : Fin 16) (b : List Byte) (s : State),
    s.sec.cmd = none →
    b = (s.idkCert ++ Config.certificate 1 (ecPub s.sec.l1k) (s.imgHash 1) (s.imgSvn 1) ++
      Config.certificate 2 (ecPub s.sec.ak) (s.imgHash 2 ++ s.imgHash 3 ++ s.imgHash 4 ++ s.hCfg) (s.imgSvn 2)).take (s.secArg 2) →
    exec (.secChain p) s = .next (s.secEnds 2 p (match s.secWrite 0 (s.secArg 1) b with | .error s1 => (s1, 0x0503, 0) | .ok s1 => (s1, 0, b.length)))) ∧
  (∀ (p : Fin 16) (d : Nat) (s s1 : State),
    s.sec.cmd = none →
    s.sec.rngBad = false →
    (d, s1) = s.freshPriv →
    exec (.secSession p) s = .next (s.secEnds 3 p ({ s1 with sec := { s1.sec with sess := s1.sec.sess.put p { priv := d, pub := ecPub d } } }, 0, 0))) ∧
  (∀ (p : Fin 16) (h b ct : List Byte) (x : Session) (s : State),
    s.sec.cmd = none →
    (s.secRead 0 (s.secArg 0) 128).toOption = some h →
    Tab.get? s.sec.sess p = some x →
    bundleOk h x.lastSeq = true →
    (s.secRead 0 (s.secArg 0 + 128) (getLE h 0x10 4 + 16)).toOption = some b →
    ct = b.take (getLE h 0x10 4) →
    exec (.secImport p) s = .next (s.secEnds 4 p (match sessionKey x "IMPORT" ((h.drop 0x20).take 96) with | none => (s, 0x0C06, 0) | some key => s.importApply p x h (gcmCrypt key ((h.drop 0x14).take 12) ct) (gcmTag key ((h.drop 0x14).take 12) h ct == b.drop (getLE h 0x10 4))))) ∧
  (∀ (p : Fin 16) (data : List Byte) (dest : List Byte) (x : Session) (s s1 : State),
    s.sec.cmd = none →
    Tab.get? s.sec.sess p = some x →
    x.owner.isEmpty = false →
    (s.secRead p (s.secArg 1) (s.secArg 3)).toOption = some data →
    (dest, s1) = s.freshBytes 8 →
    exec (.secExport p) s = .next (s.secEnds 5 p (match sessionKey x "EXPORT" x.owner with
      | none => (s, 0x0C07, 0)
      | some key =>
        let iv := leBytes 12 ((x.exports + 1) % 2 ^ 32)
        let h := leBytes 2 0xB0D1 ++ leBytes 1 4 ++ leBytes 1 1 ++ leBytes 4 ((x.exports + 1) % 2 ^ 32) ++ dest ++ leBytes 4 data.length ++ iv ++ x.owner
        match s1.secWrite 0 (s.secArg 2) (h ++ gcmCrypt key iv data ++ gcmTag key iv h (gcmCrypt key iv data)) with
        | .error s2 => (s2, 0x0503, 0)
        | .ok s2 => ({ s2 with sec := { s2.sec with sess := s2.sec.sess.put p { x with exports := (x.exports + 1) % 2 ^ 32 } } }, 0, 128 + data.length + 16)))) ∧
  (∀ (p : Fin 16) (c : Nat) (s s1 s2 : State),
    s.sec.cmd = none →
    c = s.secArg 1 →
    p ≠ 0 →
    s.ptReady p = true →
    s.ownsNothing p = true →
    c < chunkCount →
    Tab.get? s.chunks c = none →
    s1 = { s.zeroChunk c with chunks := (s.zeroChunk c).chunks.put c p } →
    s2 = (s1.countChunks p).wr (Reg.MEM_PT_S2_BASE p) (c * 0x200000) →
    exec (.confEnable p) s = .next (s.secEnds 6 p
      (((s2.dropMeasures p).wrF (Reg.QM_PT_STATE p) 8 1 1).wr Reg.SEC_CONF (setFld (s2.rdN Reg.SEC_CONF) p 1 1), 0, 0))) ∧
  (∀ (p : Fin 16) (s : State),
    s.sec.cmd = none →
    s.isConf p = true →
    exec (.confDisable p) s = .next (s.secEnds 7 p (s.resetPartition p, 0, 0)) ∧
      (s.confRange p false = 0 → exec (.confRelease p) s = .next (s.secEnds 9 p (s.freeChunks (s.secArg 1) (s.secArg 3) p, 0, 0))) ∧
      (s.workPresent p = false → exec (.confMode p) s = .next (s.secEnds 0x0C p (s.wr (Reg.QM_PT_MODE p) (s.secArg 0 % 2), 0, 0)))) ∧
  (∀ (p : Fin 16) (s s1 : State),
    s.sec.cmd = none →
    s.confRange p true = 0 →
    s1 = (List.range (s.secArg 3)).foldl (fun s k => { s.zeroChunk (s.secArg 1 + k) with chunks := (s.zeroChunk (s.secArg 1 + k)).chunks.put (s.secArg 1 + k) p }) s →
    exec (.confGrant p) s = .next (s.secEnds 8 p (s1.countChunks p, 0, 0))) ∧
  (∀ (p : Fin 16) (h body b : List Byte) (t : Nat) (s : State),
    s.sec.upd = none →
    s.sec.cmd = none →
    (s.secRead 0 (s.secArg 0) 256).toOption = some h →
    getLE h 0x0C 4 ≤ 0x400000 →
    (s.secRead 0 (s.secArg 0 + 256) (getLE h 0x0C 4)).toOption = some body →
    b = h ++ body →
    t = getLE h 4 1 →
    exec (.secUpdate p) s = .next (s.secEnds 0x0A p
      (if s.updCode t b ≠ 0 then (s, s.updCode t b, 0)
       else if t = 4 ∧ !tableOk (Config.taskTable body) then (s, 0x0C03, 0)
       else if 3 ≤ t ∧ s.degraded = true then (s, 0x0C08, 0)
       else match s.bootDir with
         | none => (s, 0x0C08, 0)
         | some (d, _) => if getLE d (0x10 + (t - 1) * 16 + 8) 4 < b.length then (s, 0x0C08, 0)
             else ((s.writeFlash (dirSlot d t (s.inactiveB d t)) b).updActivate t b (s.inactiveB d t), 0, 0)))) ∧
  (∀ (p : Fin 16) (i : RunImg) (s : State),
    s.sec.cmd = none →
    Tab.get? s.sec.imgs (s.rdF (Reg.SEC_ARG 0) 0 2 + 1) = some i →
    exec (.svnCommit p) s = .next (s.secEnds 0x0B p (if 127 < i.svn then (s, 0x0C09, 0) else (s, 0, 0)))) ∧
  (∀ (c : SecCmd) (s s0 s1 : State),
    s.sec.cmd = some c →
    ¬(c.op = 7 ∧ c.code = 0 ∧ s.ptReady c.pt = false) →
    (s0 = if c.op = 7 ∧ c.code = 0 then s.confRelease c.pt else if c.op = 0x0B ∧ c.code = 0 then { s with sec := { s.sec with floor := s.sec.floor.put c.arg (max (s.svnFloor c.arg) (s.imgSvn c.arg)) } } else s) →
    (s1 = ((({ s0 with sec := { s0.sec with cmd := none } }).wr Reg.SEC_CMD_STATUS (c.code * 2 ^ 16)).wr Reg.SEC_CMD_LEN c.len).bump (if c.code = 0 then Reg.SEC_CMDS else Reg.SEC_REFUSED) 1) →
    exec .secCmdComplete s = .next (s1.flagReg c.pt Reg.SEC_FLAG 1 uSec)) ∧
  (∀ (x c : List Byte) (s s1 : State),
    s.sec.locked = false →
    s.sec.rngBad = false →
    (x, s1) = s.freshBytes 32 →
    c = x ++ sha384 s.idkPub →
    exec .debugChallenge s = .next { s1 with sec := { s1.sec with challenge := some c }, out := s1.out ++ [.readData (ofLE c)] }) ∧
  (∀ (s : State),
    s.sec.locked = true →
    exec .debugChallenge s = .next (s.secErr 0 0x0C05) ∧ ∀ a, exec (.debugResponse a) s = .next (s.secErr 0 0x0C05)) ∧
  (∀ (answer : List Byte) (s s1 : State),
    s.sec.locked = false →
    s.debugOk answer = true →
    s1 = { s with sec := { s.sec with challenge := none } } →
    exec (.debugResponse answer) s = .next
      (if getLE answer 0 1 = 3 then (List.range 16).foldl (fun s p => s.resetPartition p) { s1 with sec := { s1.sec with entering := true } }
       else { s1 with sec := { s1.sec with level := getLE answer 0 1 } })) ∧
  (∀ (answer : List Byte) (n : Nat) (s s0 s1 : State),
    s.sec.locked = false →
    s.debugOk answer = false →
    n = s.rdN Reg.SEC_DBG_FAILS + 1 →
    s0 = s.wr Reg.SEC_DBG_FAILS n →
    s1 = { s0 with sec := { s.sec with challenge := none, locked := decide (3 ≤ n) } } →
    exec (.debugResponse answer) s = .next (if 3 ≤ n then s1.secErr 0 0x0C05 else s1)) ∧
  (∀ (level : Fin 3) (s : State),
    exec (.debugLevelLower level) s = .next (if level.val < s.sec.level then { s with sec := { s.sec with level := level } } else s)) ∧
  (∀ (s s1 : State),
    s.sec.rngBad = false →
    s1 = { s with sec := { s.sec with rngBad := true, rngFails := 1 } } →
    exec .rngHealthFail s = .next (s1.secErr 0 0x0C0B)) ∧
  (∀ (s s1 : State),
    s.sec.rngBad = true →
    s1 = { s with sec := { s.sec with rngFails := s.sec.rngFails + 1 } } →
    exec (.rngRetry true) s = .next { s with sec := { s.sec with rngBad := false, rngFails := 0 } } ∧
      exec (.rngRetry false) s = .next (if s.sec.rngFails + 1 = 100 then (s1.deviceFatal 0x0C0B ⟨0, 0⟩).crzDrain else s1))

/-- While the checker runs, CHECKER_ITEM takes the oldest message of the mailbox; one that an uncorrectable error lost puts every task in HOLD with 0x0E0D, and one of a partition in a safety restart is discarded. RUN_JUDGEMENT keeps the records, resolves a disagreement, and then passes the run, fails it with the code that the procedure of R503 gives or with 0x0E05 when it is late, asks for copy 2, starts the program, or acts on the program's end. RECORD_REREAD, PROGRAM_READ and the time-outs of the program, of a copy, of the latency and of an arrival do what R502 to R506 give them. -/
def Obligations.CheckerRuns : Prop :=
  (∀ (p : Nat) (b : List Byte) (rest : List (Nat × List Byte)) (s s1 : State),
    s.safe.mailbox = (p, b) :: rest →
    s.checkerRuns = true →
    s1 = { s with safe := { s.safe with mailbox := rest } } →
    exec (.checkerItem true) s = .next ((s1.err 0 ⟨0, 0⟩ 0x0E0D).holdAll 0x0E0D) ∧
      exec (.checkerItem false) s = .next (if s1.safe.restarts.contains p then s1 else if getLE b 0 1 = 0x20 then s1.takeNotice p b
        else if getLE b 0 1 = 0x21 then (s1.takeAnswer b).safeSync 0 0 else (s1.takeItemEnd p b).safeSync 0 0)) ∧
  (∀ (task : Fin 256) (key : Nat) (ended : Option ProgEnd) (e : List Byte) (r r1 r2 : SafeRun) (s s1 s2 : State),
    s.runOf task key = some (e, r) →
    s.keepRecs e r = (s1, r1) →
    s1.resolveRun e r1 = (s2, r2) →
    exec (.runJudgement task key ended) s = .next (s2.judgeStep e r2 ended) ∧
      (s2.judgeRun e r2 = .pass → s2.runOrigin e r2 + taskLatency e < s2.now → s2.judgeStep e r2 ended = s2.failRun e r2 0x0E05) ∧
      (s2.judgeRun e r2 = .pass → s2.now ≤ s2.runOrigin e r2 + taskLatency e → s2.postRoom e = true →
        s2.judgeStep e r2 ended = s2.passRun e r2 [] []) ∧
      (∀ c, s2.judgeRun e r2 = .fail c → s2.judgeStep e r2 ended = s2.failRun e r2 c) ∧
      (s2.judgeRun e r2 = .ask → s2.judgeStep e r2 ended = (s2.setSafeRun { r2 with asked := true }).safeSync 0 0) ∧
      (s2.judgeRun e r2 = .waitRec → s2.judgeStep e r2 ended = (s2.setSafeRun { r2 with waitRec := true }).safeSync 0 0)) ∧
  (∀ (task : Fin 256) (key t0 n : Nat) (x : ProgEnd) (e : List Byte) (r r1 r2 : SafeRun) (s s1 s2 : State),
    s.runOf task key = some (e, r) →
    s.keepRecs e r = (s1, r1) →
    s1.resolveRun e r1 = (s2, r2) →
    s2.judgeRun e r2 = .program →
    r2.prog = some (t0, n) →
    s2.postRoom e = true →
    exec (.runJudgement task key (some x)) s = .next (if x.fault then s2.failRun e r2 0x0E08
      else if x.reason ≠ 0#16 then s2.failRun e r2 0x0E04 x.reason.toNat
      else if s2.runOrigin e r2 + taskLatency e < s2.now then s2.failRun e r2 0x0E05
      else s2.passRun e r2 (x.result.take 16) (x.kept.take 1024))) ∧
  (∀ (task : Fin 256) (key : Nat) (ended : Option ProgEnd) (e : List Byte) (r r1 r2 : SafeRun) (s s1 s2 : State),
    s.runOf task key = some (e, r) →
    s.keepRecs e r = (s1, r1) →
    s1.resolveRun e r1 = (s2, r2) →
    s2.judgeRun e r2 = .program →
    r2.prog = none →
    exec (.runJudgement task key ended) s = .next ((s2.setSafeRun { r2 with prog := some (s2.now, 0) }).safeSync 0 0)) ∧
  (∀ (task : Fin 256) (key : Nat) (e : List Byte) (r : SafeRun) (l : List (List Byte)) (s : State),
    s.runOf task key = some (e, r) →
    r.waitRec = true →
    (s.runRecs e r = .good l → exec (.recordReread task key) s = .next ((s.setSafeRun { r with recs := l, waitRec := false }).safeSync 0 0)) ∧
      (s.runRecs e r = .bad → exec (.recordReread task key) s = .next (s.failRun e r 0x0E07))) ∧
  (∀ (task : Fin 256) (key t0 n : Nat) (dva : BitVec 64) (length : BitVec 32) (b : List Byte) (e : List Byte) (r : SafeRun) (s s1 : State),
    s.runOf task key = some (e, r) →
    r.prog = some (t0, n) →
    n + length.toNat ≤ taskReadMax e →
    s.readDva r.pt dva.toNat length.toNat = .data b false →
    s1 = s.setSafeRun { r with prog := some (t0, n + length.toNat) } →
    exec (.programRead task key dva length) s = .next { s1 with out := s1.out ++ [.progData task b] }) ∧
  (∀ (task : Fin 256) (key t0 n : Nat) (e : List Byte) (r : SafeRun) (s : State),
    s.runOf task key = some (e, r) →
    r.prog = some (t0, n) →
    exec (.programTimeout task key) s = .next (s.failRun e r 0x0E08) ∧
      ∀ dva (length : BitVec 32), taskReadMax e < n + length.toNat → exec (.programRead task key dva length) s = .next (s.failRun e r 0x0E08)) ∧
  (∀ (task : Fin 256) (key : Nat) (e : List Byte) (r : SafeRun) (s : State),
    s.runOf task key = some (e, r) →
    taskMode e 0 = true →
    Tab.get? r.items 0 = none ∨ Tab.get? r.items 1 = none →
    exec (.copyTimeout task key) s = .next (s.failRun e r (match s.judgeRun e r with | .fail c => c | _ => 0x0E06))) ∧
  (∀ (task : Fin 256) (key : Nat) (e : List Byte) (r : SafeRun) (s : State),
    s.runOf task key = some (e, r) →
    exec (.latencyTimeout task key) s =
      .next (s.failRun e r (match s.judgeRun e r with | .fail c => c | .waitRec => 0x0E07 | .wait2 => 0x0E02 | _ => 0x0E05))) ∧
  (∀ (task : Fin 256) (t : Nat) (e : List Byte) (s : State),
    s.task task = some e →
    Tab.get? s.safe.armAt task = some t →
    s.checkerRuns = true →
    exec (.arrivalTimeout task) s = .next (s.failTask task e 0x0E06 0 0 0 false true).crzDrain)

/-- When a run or a timer of a task fails (R509), the task enters HOLD with the code, a reject item is posted, SAFE_REJECTED and SAFE_TASK_t_REJECTS count, the code goes to PT_0 and to the partition, and the arrival timer starts again. Then a safety restart of the partition begins, except for a task with NO_RESTART, for the timer of a task that was in HOLD, and for 0x0E0F. A restart of a partition that is READY and not in one puts the tasks' partition into the state of a safety restart, records the code and the task, reports 0x0E09 and aborts its work; of any other partition it does nothing. -/
def Obligations.FailedTasks : Prop :=
  (∀ (t : Nat) (e : List Byte) (code run digest fs : Nat) (resolved timer : Bool) (s s1 s2 s3 s4 : State),
    s1 = (s.enterHold t code).safeSync code t →
    s2 = s1.postReject t e code run digest fs resolved (s.safe.hold.contains t) →
    s3 = ((s2.bump Reg.SAFE_REJECTED 1).bump (Reg.SAFE_TASK_REJECTS t) 1).taskErr (taskPt e) t code run →
    s4 = { s3 with safe := { s3.safe with armAt := s3.safe.armAt.put t s.now } } →
    s.failTask t e code run digest fs resolved timer =
      (if taskMode e 6 = true ∨ (timer = true ∧ t ∈ s.safe.hold) ∨ code = 0x0E0F then s4 else s4.safetyRestart (taskPt e) code t)) ∧
  (∀ (p code t : Nat) (s s1 : State),
    s.safe.restarts.contains p = false →
    s.ptReady p = true →
    s.pwr.entry = none →
    s1 = { ((s.wrF (Reg.QM_PT_STATE p) 0 3 5).wr (Reg.SAFE_PT_RESTART_CODE p) (code + t * 2 ^ 16)) with safe := { s.safe with restarts := insSorted p s.safe.restarts } } →
    s.safetyRestart p code t =
      (((s1.errAll (if p = 0 then [0] else [0, p]) { code := 0x0E09, event := true, info := t }).abortWork p).safeSync code t)) ∧
  (∀ (p code t : Nat) (s : State),
    s.safe.restarts.contains p = true ∨ s.ptReady p = false →
    s.safetyRestart p code t = s) ∧
  (∀ (p : Fin 16) (s s1 s2 : State),
    p.val ∈ s.safe.restarts →
    s1 = (((((s.abandonAccesses p).zeroFronds p).clearCounters p).clearFlags p).flushRings p).dropCaches p →
    s2 = s1.dropRuns p →
    exec (.restartAccessesDone p) s = .next { s2 with safe := { s2.safe with
      pers := s2.safe.pers.filter (fun (e : Nat × List Byte) => match s.task e.1 with | some x => taskPt x != p.val | none => true) } }) ∧
  (∀ (p : Fin 16) (s s1 s2 s3 s4 : State),
    p.val ∈ s.safe.restarts →
    s1 = (s.gs.graphs.filter (fun g => g.pt == p.val)).foldl (fun s g => s.reloadGraph g) s →
    s2 = (s1.crz.graphs.filter (fun e => s1.crzOwned e.1 && s1.cgPt e.1 == p.val)).foldl (fun s e => s.reloadProgram e.1 e.2) s1 →
    s3 = ((s2.wrF (Reg.QM_PT_STATE p) 0 3 1).bump (Reg.SAFE_PT_RESTARTS p) 1).wr (Reg.SAFE_PT_LAST_READY p) s.now →
    (s4 = { s3 with safe := { s3.safe with restarts := s3.safe.restarts.filter (· != p.val), mailbox := s3.safe.mailbox.filter (fun m => m.1 != p.val), notices := s3.safe.notices.filter (fun n => n.1 != p.val), runs := s3.safe.runs.filter (fun r => r.pt != p.val), judged := s3.safe.judged.filter (fun (e : Nat × Nat × Nat) => match s3.task e.1 with | some x => taskPt x != p.val | none => false), armAt := s3.safe.table.foldl (fun (t : Tab Nat) (e : Nat × List Byte) => if taskPt e.2 = p.val then t.put e.1 s.now else t) s3.safe.armAt } }) →
    exec (.restartReloadComplete p) s = .next (s4.safeSync 0 0).crzDrain)

/-- With both pairs working and no request in progress DUTY_SWAP passes duty and counts it. A self-test that passes or fails is recorded; a failed one retires the pair off duty with 0x0E0B unless it was loading an update. A mismatch of the duty pair discards the programs in progress, retires the pair with 0x0E0A and puts every task in HOLD; one of the other pair is a failed self-test. A watchdog expiry reports 0x0E0C, forgets the runs and holds every task until the restart completes. The limit of degraded operation, the heartbeat, the hold test, the loss and return of the safe rail and of the clock do what R494 to R498 and R512 say. -/
def Obligations.CheckerPairs : Prop :=
  (∀ (deferred : BitVec 32) (s s1 : State),
    s.checkerRuns = true →
    s.degraded = false →
    s.dutyBusy = false →
    s1 = ({ s with safe := { s.safe with dutyB := !s.safe.dutyB } }.bump Reg.SAFE_SWAPS 1).rcMax Reg.SAFE_SWAP_DEFER_MAX deferred.toNat →
    exec (.dutySwap deferred) s = .next (((s1.updTakes (1 - s.safe.dutyB.toNat)).updLoad s.safe.dutyB.toNat).safeSync 0 0)) ∧
  (∀ (pass : Bool) (k : Nat) (s s1 : State),
    s.checkerRuns = true →
    s.degraded = false →
    s.sec.upd = none →
    k = 1 - s.safe.dutyB.toNat →
    s1 = s.wrF Reg.SAFE_SELFTEST (16 + k) 1 pass.toNat →
    exec (.selftestComplete pass) s = .next (if pass then s1 else (s1.wrF Reg.SAFE_SELFTEST 0 16 0x0E0B).retirePair k 0x0E0B)) ∧
  (∀ (k code : Nat) (s s1 : State),
    s.degraded = false →
    (s1 = { s with safe := { s.safe with retA := s.safe.retA || k == 0, retB := s.safe.retB || k == 1, dutyB := if s.safe.dutyB.toNat = k then !s.safe.dutyB else s.safe.dutyB } }) →
    s.retirePair k code = ((s1.err 0 ⟨0, 0⟩ code).updSurvive (1 - k)).safeSync code 0) ∧
  (∀ (pairB : Bool) (s s1 : State),
    s.checkerRuns = true →
    ((if pairB then s.safe.retB else s.safe.retA) = false) →
    s1 = { s with safe := { s.safe with runs := s.safe.runs.map (fun (r : SafeRun) => { r with prog := none }) } } →
    (pairB = s.safe.dutyB → exec (.lockstepMismatch pairB) s = .next ((s1.retirePair pairB.toNat 0x0E0A).holdAll 0x0E0A)) ∧
      (pairB ≠ s.safe.dutyB → exec (.lockstepMismatch pairB) s = exec (.selftestComplete false) s)) ∧
  (∀ (s s1 : State),
    s.checkerRuns = true →
    s1 = { s.beatStops with safe := { s.beatStops.safe with down := true, runs := [], notices := [], judged := [], pers := [], seq := [], armAt := [], heldBack := [] } } →
    exec .watchdogExpiry s = .next ((s1.err 0 ⟨0, 0⟩ 0x0E0C).holdAll 0x0E0C)) ∧
  (∀ (s : State),
    s.safe.down = true →
    exec .checkerRestartComplete s =
      .next ({ s with safe := { s.safe with down := false, armAt := s.safe.table.map (fun (e : Nat × List Byte) => (e.1, s.now)) } }.safeSync 0 0)) ∧
  (∀ (s s1 : State),
    s.degraded = true →
    s.safe.limit = false →
    s1 = { s with safe := { s.safe with limit := true } } →
    exec .degradedLimit s = .next ((s1.err 0 ⟨0, 0⟩ 0x0E0B).safeSync 0x0E0B 0)) ∧
  (∀ (s : State),
    exec .heartbeatToggle s = .next (if s.checkerRuns then { s with safe := { s.safe with beat := !s.safe.beat } } else s)) ∧
  (∀ (s : State),
    exec .holdTest s = .next ({ s with safe := { s.safe with holdTest := some s.now } }.safeSync 0 0) ∧
      (s.safe.holdTest.isSome = true → exec .holdTestEnd s = .next ({ s with safe := { s.safe with holdTest := none } }.safeSync 0 0))) ∧
  (∀ (s s1 s2 : State),
    s1 = { s.beatStops with safe := { s.beatStops.safe with vddBad := true, mailbox := [], runs := [], notices := [], judged := [], pers := [], seq := [], armAt := [], heldBack := [], holdTest := none } } →
    s2 = { s with safe := { s.safe with vddBad := false, down := false, armAt := s.safe.table.map (fun (e : Nat × List Byte) => (e.1, s.now)) } } →
    exec .vddSafeFault s = .next (s1.safeSync 0 0) ∧ (s.safe.vddBad = true → exec .vddSafeReturn s = .next (s2.holdAll 0))) ∧
  (∀ (s s1 s2 : State),
    s1 = { s with safe := { s.safe with clkBad := true } } →
    s2 = { s with safe := { s.safe with clkBad := false } } →
    exec .safeClockFault s = .next ((s1.err 0 ⟨0, 0⟩ 0x0E10).safeSync 0x0E10 0) ∧
      (s.safe.clkBad = true → exec .safeClockRecovery s = .next (s2.safeSync 0 0)))

/-- An idle device in P0 enters P1. A request for P2, P3 or P4 that R519 admits begins an entry, which the checker is told; any other is refused with 0x0F01; while a CFW switch runs, requests wait. RUNG_ENTRY_COMPLETE reaches and counts the rung, and a late wake starts the exit at once; RUNG_EXIT_COMPLETE arrives in P1. A temperature is recorded with its maximum, and k is 4 from 105 degrees on, where 115 stops the clocks. A thermal or power period and a power sample move k one level as R532 and R533 say. -/
def Obligations.PowerLadder : Prop :=
  (∀ (s : State),
    s.rung = 0 →
    s.pwr.entry = none →
    s.pwr.exiting = false →
    s.idleNow = true →
    exec .p1Entry s = .next ((s.setRung 1).bump (Reg.PWR_ENTRIES 1) 1)) ∧
  (∀ (s : State),
    s.mgt.switching = false →
    exec .pwrCmdP2 s = .next (s.rungRequest 2).1 ∧ exec .pwrCmdP3 s = .next (s.rungRequest 3).1 ∧ exec .pwrCmdP4 s = .next (s.rungRequest 4).1 ∧
      (s.rdB Reg.PWR_CFG 0 = true → s.rung = 1 → exec .autoP2Request s = .next (s.rungRequest 2).1)) ∧
  (∀ (k : Nat) (s : State),
    (s.rungOk k = true → s.rungRequest k = ({ s.wrF Reg.PWR_STATUS 3 1 1 with pwr := { s.pwr with entry := some (k, s.now), late := false } }.checkerSleep, true)) ∧
      (s.rungOk k = false → s.rungRequest k = (s.pwrErr 0x0F01 k, false))) ∧
  (∀ (s : State),
    s.mgt.switching = true →
    exec .pwrCmdP2 s = .next { s with pwr := { s.pwr with asked := s.pwr.asked ++ [2] } } ∧
      exec .pwrCmdP3 s = .next { s with pwr := { s.pwr with asked := s.pwr.asked ++ [3] } } ∧
      exec .pwrCmdP4 s = .next { s with pwr := { s.pwr with asked := s.pwr.asked ++ [4] } }) ∧
  (∀ (k t : Nat) (s s1 : State),
    s.pwr.entry = some (k, t) →
    s1 = ((s.wrF Reg.PWR_STATUS 3 1 0).setRung k).bump (Reg.PWR_ENTRIES k) 1 →
    exec .rungEntryComplete s = .next { s1 with pwr := { s1.pwr with entry := none, exiting := s1.pwr.late, late := false }, mgt := { s1.mgt with kept := if s.mainUp then s.mainValues else s.mgt.kept }, boot := { s1.boot with linkUp := s1.boot.linkUp && k != 4, inL1 := if k = 4 then false else s1.boot.inL1 || k == 3 } }) ∧
  (∀ (s s1 s2 s3 s4 : State),
    s.pwr.exiting = true →
    s1 = { s.setRung 1 with pwr := { (s.setRung 1).pwr with exiting := false } } →
    (s2 = if 3 ≤ s.rung then s1.wakeFronds else s1) →
    (s3 = (if s.rung = 4 then s2.losePasr else s2).checkerWake) →
    s4 = s3.pwr.kwWait.foldl (fun s b => s.kwDeliver b) { s3 with pwr := { s3.pwr with kwWait := [] } } →
    exec .rungExitComplete s = .next s4.servePorts) ∧
  (∀ (tj : Fin 256) (sensor : Fin 24) (s s1 s2 s3 s4 : State),
    s1 = (s.wr Reg.PWR_TJ (tj + sensor * 256)).rcMax Reg.PWR_TJ_MAX tj →
    (s2 = if s.rdF Reg.PWR_TJ_THR 0 8 ≤ tj then s1 else { s1 with pwr := { s1.pwr with heatSteps := false } }) →
    (s3 = if 105 ≤ tj.val then { (if s.rdF Reg.PWR_TJ 0 8 < 105 then s2.thermalEvent 0x0F04 tj else s2) with pwr := { s2.pwr with kHeat := 4 } } else s2) →
    (s4 = if 115 ≤ tj.val && !s3.pwr.stopped then { (s3.wrF Reg.PWR_STATUS 14 1 1).thermalEvent 0x0F05 tj with pwr := { s3.pwr with stopped := true } } else s3) →
    exec (.thermalSample tj sensor) s = .next s4.kSync) ∧
  (∀ (s : State),
    s.pwr.throttledAt = none →
    (s.kNow < s.rdF Reg.PWR_CFG 24 5 → s.kSync.pwr = { s.pwr with throttledAt := some s.now }) ∧ (s.rdF Reg.PWR_CFG 24 5 ≤ s.kNow → s.kSync.pwr = s.pwr) ∧
      s.kNow = min (min s.pwr.kHeat s.pwr.kPower) (s.rdF Reg.PWR_CFG 24 5)) ∧
  (∀ (tj thr : Nat) (s s1 : State),
    tj = s.rdF Reg.PWR_TJ 0 8 →
    thr = s.rdF Reg.PWR_TJ_THR 0 8 →
    (s1 = if s.pwr.heatSteps then s else s.evt 0 0x0F03 tj) →
    exec (.throttleStep false) s = .next (if thr ≤ tj then State.kSync { s1 with pwr := { s1.pwr with kHeat := s.stepDown s.pwr.kHeat, heatSteps := true } }
      else if tj + 3 ≤ thr then State.kSync { s with pwr := { s.pwr with kHeat := min 16 (s.pwr.kHeat + 1) } } else s)) ∧
  (∀ (s : State),
    exec (.throttleStep true) s = .next (if s.rdN Reg.PWR_PKG_MW * 100 ≤ s.rdF Reg.PWR_LIMIT 0 7 * 95000 then
      State.kSync { s with pwr := { s.pwr with kPower := min 16 (s.pwr.kPower + 1) } } else s)) ∧
  (∀ (mw : BitVec 32) (s s1 s2 : State),
    s1 = s.wr Reg.PWR_PKG_MW mw.toNat →
    (s2 = if s1.pwr.powerSteps then s1 else s1.evt 0 0x0F06 mw.toNat) →
    exec (.powerSample mw) s = .next (if s.rdF Reg.PWR_LIMIT 0 7 * 1000 < mw.toNat then
        State.kSync { s2 with pwr := { s2.pwr with kPower := s.stepDown s.pwr.kPower, powerSteps := true } }
      else { s1 with pwr := { s1.pwr with powerSteps := false } }))

/-- A PPS edge is captured, wakes a device that lets it, and on the master or a standalone device with the input enabled moves the device time or its rate and counts towards the lock; a missing edge sets the status and reports 0x0F07 once. A sample of every microphone is kept in the ring of 32000, with 0 for a microphone that is off, and its time error is recorded. A copy that R527 admits starts and completes, and any other ends with 0x0F0A. A frame of the keyword detector takes 40 features from the last 400 samples; an evaluation compares scores with thresholds; a pop takes the oldest record; and model data is written at the address, which goes on by 4, while the detector is off. -/
def Obligations.TimeAndAudio : Prop :=
  (∀ (jitter : Fin 9) (t : Nat) (d e : Int) (s s1 s2 s3 : State),
    t = s.now + jitter.val - 4 →
    (s1 = if (s.wr Reg.PPS_LAST t).rdB Reg.PPS_CFG 1 then (s.wr Reg.PPS_LAST t).wake 5 else s.wr Reg.PPS_LAST t) →
    d = (t : Int) - s1.rdN Reg.PPS_OFFSET →
    e = d - (d + 500000000) / 1000000000 * 1000000000 →
    s2 = (s1.wr Reg.PPS_ERR (codeOf 32 e)).wrF Reg.PPS_STATUS 1 1 0 →
    (s3 = if s2.pwr.ppsFirst = true ∧ e < 0 then s2.stepTime e.natAbs else s2.ppsSlew) →
    exec (.ppsEdge jitter) s = .next (if s1.ppsActive then State.ppsLock { s3 with pwr := { s3.pwr with ppsFirst := false } } e else s1)) ∧
  (∀ (s : State),
    exec .ppsTimeout s = .next (if s.ppsActive = true ∧ s.rdB Reg.PPS_STATUS 1 = false then (s.wrF Reg.PPS_STATUS 1 1 1).evt 0 0x0F07 else s)) ∧
  (∀ (samples : List (BitVec 16)) (n : Nat) (x : List Nat) (s s1 s2 : State),
    s.rdB Reg.AUD_CFG 0 = true →
    n = s.rdN Reg.AUD_NEXT →
    (x = (List.range 8).map (fun m => if s.rdB Reg.AUD_CFG (8 + m) then (samples.getD m 0#16).toNat else 0)) →
    (s1 = if n = 0 then s.wr Reg.AUD_T0 s.now else s) →
    s2 = s1.wr Reg.AUD_T0_ERR (codeOf 32 ((s.now : Int) - (s1.rdN Reg.AUD_T0 + n * 62500 : Nat))) →
    exec (.audioSample samples) s = .next { s2.wr Reg.AUD_NEXT ((n + 1) % 2 ^ 48) with pwr := { s2.pwr with audio := if audioDepth ≤ n then (s2.pwr.audio.put n x).del (n - audioDepth) else s2.pwr.audio.put n x } }) ∧
  (∀ (first n dst : Nat) (s : State),
    first = s.rdN Reg.AUD_FIRST →
    n = s.rdN Reg.AUD_COUNT →
    dst = s.rdN Reg.AUD_DST →
    s.pwr.copying = none →
    exec .audCopy s = .next (if s.rung ≤ 1 ∧ 1 ≤ n ∧ n ≤ audioDepth ∧ dst % 64 = 0 ∧ s.audioHas first n = true then
        { s.wr Reg.AUD_STATUS 1 with pwr := { s.pwr with copying := some (first, n, dst) } }
      else (s.wr Reg.AUD_STATUS (0x0F0A * 65536)).pwrErr 0x0F0A)) ∧
  (∀ (first n dst : Nat) (bytes : List Byte) (s s0 s1 : State),
    s.pwr.copying = some (first, n, dst) →
    s.audioHas first n = true →
    s0 = { s with pwr := { s.pwr with copying := none } } →
    bytes = (List.range n).flatMap (fun k => (s.pwr.audio.getD (first + k) []).flatMap (leBytes 2)) →
    s0.writeDva 0 ⟨0, 0⟩ dst bytes = .done s1 →
    exec .audCopyComplete s = .next (s1.wr Reg.AUD_STATUS 0)) ∧
  (∀ (first n dst : Nat) (s s0 : State),
    s.pwr.copying = some (first, n, dst) →
    s.audioHas first n = false →
    s0 = { s with pwr := { s.pwr with copying := none } } →
    exec .audCopyComplete s = .next ((s0.wr Reg.AUD_STATUS (0x0F0A * 65536)).pwrErr 0x0F0A)) ∧
  (∀ (n : Nat) (win : List (Option Int)) (row : List Nat) (s : State),
    n = s.rdN Reg.AUD_NEXT →
    s.rdB Reg.KWS_CFG 0 = true →
    s.rdB Reg.AUD_CFG 0 = true →
    n ≠ 0 ∧ n % 160 = 0 →
    (win = (List.range 400).map (fun i => if n + i < 400 then none else some (signedOf 16 ((s.pwr.audio.getD (n + i - 400) []).getD (s.rdF Reg.KWS_CFG 1 3) 0)))) →
    row = (List.range 40).map (fun j => codeOf 8 (max (-128) (min 127 (Config.kwsFeature win j)))) →
    exec .kwsFrameEnd s = .next { s with pwr := { s.pwr with feats := (row :: s.pwr.feats).take kwsFrames, frame := some (n / 160 - 1, s.rung) } }) ∧
  (∀ (f rung nk : Nat) (now : List Int) (s s1 : State),
    s.pwr.frame = some (f, rung) →
    nk = s.rdF Reg.KWS_CFG 4 3 + 1 →
    now = kwsScores s.pwr.model s.pwr.feats (s.rdF Reg.KWS_SHIFT 0 5) (s.rdF Reg.KWS_SHIFT 8 5) nk →
    s1 = { s with pwr := { s.pwr with frame := none, scores := now } } →
    exec .kwsEvaluationComplete s = .next ((List.range nk).foldl (fun st k =>
      match s.pwr.scores[k]?, now[k]? with
      | some a, some b => if a < signedOf 32 (st.rdN (Reg.KWS_THRESH k)) ∧ signedOf 32 (st.rdN (Reg.KWS_THRESH k)) ≤ b ∧
            (match Tab.get? st.pwr.hold k with | some g => decide ((f - g) * 10 < st.rdF Reg.KWS_CFG 16 12) | none => false) = false
          then st.kwDetect k f rung b else st
      | _, _ => st) s1)) ∧
  (∀ (s : State),
    exec .kwsPop s = .next { s with pwr := { s.pwr with fifo := s.pwr.fifo.drop 1 } }) ∧
  (∀ (value : BitVec 32) (a : Nat) (m : Tab Byte) (s : State),
    s.rdB Reg.KWS_CFG 0 = false →
    a = s.rdF Reg.KWS_MODEL_ADDR 0 16 →
    m = (List.range 4).foldl (fun (t : Tab Byte) i => Tab.write (fun _ => 0#8) t (a + i) (BitVec.ofNat 8 (value.toNat / 256 ^ i))) s.pwr.model →
    exec (.kwsModelData value) s = .next { s.wr Reg.KWS_MODEL_ADDR ((a + 4) % 65536) with pwr := { s.pwr with model := m } }) ∧
  (∀ (value : BitVec 32) (s : State),
    s.rdB Reg.KWS_CFG 0 = true →
    exec (.kwsModelData value) s = .next (s.pwrErr 0x0F02))

/-- VSTAT writes the per-operation status to S[SX]: INV in bit 0, OVF in bit 1, SAT in bit 2, and 0 in bits 63 to 3. The status, every other scalar register and the rest of the Frond keep their values, apart from the pc. -/
def Obligations.VstatWritesTheOperationStatus : Prop :=
  ∀ (n : Fin 32) (chk : FrondCheck) (w : Nat) (s : State),
    s.issuesWord n 2 0x18 w = true →
    vecOk vSX w = true →
    ∃ t, exec (.vstat n chk) s = .next (t.afterCheck n chk) ∧
      (∀ i, bitAt ((t.tc n).sreg (fSX w)) i = (decide (i < 3) && bitAt (s.tc n).arith i)) ∧ (t.tc n).arith = (s.tc n).arith ∧
      (∀ i, i ≠ fSX w → (t.tc n).sreg i = (s.tc n).sreg i) ∧ (∀ m : Nat, m ≠ n → t.tc m = s.tc m) ∧
      CountsOnly { s with frond := t.frond } t

/-- For every partition, DVA and access whose stage 2 gives an in-package address: when the address's chunk is not owned by the partition the access is refused with CAUSE 5, also as a read or a write of bytes within one page; whatever passes lies in a chunk of the partition. A host or link address is not checked against chunks: its outcome is the same whatever chunks are owned. -/
def Obligations.InPackageMemoryPassesOnlyInOwnChunks : Prop :=
  (∀ (p dva n ia pa : Nat) (acc : Access) (ring : Bool) (u : UnitId) (b : List Byte) (s : State),
    dva < 2 ^ 48 →
    s.walk1 p acc 4 (s.rdN (Reg.MEM_PT_S1_BASE p)) dva = .ok ia →
    s.stage2 p ia (some acc) = .ok pa →
    targetOf pa = .inPackage →
    s.chunkOwner pa ≠ some p →
    s.xlate p dva n acc ring = .error ⟨5, false⟩ ∧
      (0 < n → n ≤ 4096 - dva % 4096 → s.readDva p dva n acc ring = .refused ⟨5, false⟩ dva) ∧
      (acc = .write → 0 < b.length → b.length ≤ 4096 - dva % 4096 → s.writeDva p u dva b = .refused ⟨5, false⟩ dva)) ∧
  (∀ (p dva n pa : Nat) (acc : Access) (ring : Bool) (s : State),
    s.xlate p dva n acc ring = .ok pa →
    targetOf pa = .inPackage →
    s.chunkOwner pa = some p) ∧
  (∀ (p dva n ia pa : Nat) (acc : Access) (ring : Bool) (s : State),
    dva < 2 ^ 48 →
    s.walk1 p acc 4 (s.rdN (Reg.MEM_PT_S1_BASE p)) dva = .ok ia →
    s.stage2 p ia (some acc) = .ok pa →
    targetOf pa = .host ∨ targetOf pa = .link →
    s.xlate p dva n acc ring = (if targetOf pa = .host ∧ s.isConf p = true ∧ ring = false then .error ⟨5, false⟩
        else if s.regionCovers p dva n acc then .ok pa else .error ⟨6, false⟩))

/-- After THAW the device is not frozen and no counter group is; every register but DBG_STATUS reads as before, so that counters have their frozen values and FROZEN of every partition trace stays; an increment of a counter that stays below its limit is counted from that value. No message leaves the device, and nothing but registers has changed. -/
def Obligations.ThawEndsTheFreeze : Prop :=
  ∀ (s : State),
    ∃ t, exec .dbgThaw s = .next t ∧ t.isFrozen = false ∧ (∀ g, t.groupFrozen g = false) ∧ (∀ b, b ≠ Reg.DBG_STATUS → t.rd b = s.rd b) ∧
      (∀ p : Fin 16, t.rd (Reg.DBG_PT_TRACE_CFG p) = s.rd (Reg.DBG_PT_TRACE_CFG p)) ∧
      (∀ a k, a ≠ Reg.DBG_STATUS → s.rdN a + k < cntMax → (t.bump a k).rdN a = s.rdN a + k) ∧ t.out = s.out ∧ t = { s with regs := t.regs }

/-- BUSY, RESP_READY and OVERRUN of the status word say that a request is in progress, that a response waits, and that a frame was lost. A frame that arrives while BUSY is 1 is discarded, OVERRUN is set, and nothing else changes, the response of the request in progress included. A frame accepted while RESP_READY is 1 loses the unread response. A read of the whole response clears RESP_READY, and a shorter one leaves the response in place. -/
def Obligations.PortTakesOneRequestAtATime : Prop :=
  (∀ (s : State),
    bitAt s.statusWord 0 = s.mgt.response.isSome ∧ bitAt s.statusWord 1 = s.mgt.request.isSome ∧ bitAt s.statusWord 4 = s.mgt.overrun) ∧
  (∀ (frame : List Byte) (s : State),
    bitAt s.statusWord 1 = true →
    (¬(frame.length < 8 ∨ (frLen frame ≤ 1024 ∧ frame.length < 12 + frLen frame + (if frAuth frame then 16 else 0)))) →
    exec (.frameWrite frame) s = .next { s with mgt := { s.mgt with overrun := true } }) ∧
  (∀ (frame r : List Byte) (n : Nat) (s : State),
    (n = 12 + frLen frame + (if frAuth frame then 16 else 0)) →
    ¬(frame.length < 8 ∨ (frLen frame ≤ 1024 ∧ frame.length < n)) →
    s.mgt.request = none →
    s.stage ≠ 0xF →
    frameGood frame = true →
    s.mgt.switching = false →
    r = frame.take (n - 4) →
    payloadOk (frCmd r) (frPayload r) = true →
    ∃ t, exec (.frameWrite frame) s = .next t ∧ t.mgt.response = none ∧ t.mgt.request = some r) ∧
  (∀ (s : State),
    (∃ t, exec (.responseRead true) s = .next t ∧ bitAt t.statusWord 0 = false) ∧
      (∃ t, exec (.responseRead false) s = .next t ∧ t.mgt = s.mgt ∧ bitAt t.statusWord 0 = bitAt s.statusWord 0))

end
end

