-- ==== Sys2Proof/Laws/Tab.lean ====
section
/-! SUPPORT. Sys2Proof/Laws/Tab.lean: the laws of sorted tables: read after write, and that every operation keeps the canonical
form. -/

namespace Sys2Proof.Tab

variable {α : Type}

@[simp] theorem get?_nil (k : Nat) : get? ([] : Tab α) k = none := rfl

/-- A put entry reads back; the others stay. -/
theorem get?_put (t : Tab α) (k j : Nat) (v : α) : get? (put t k v) j = if j = k then some v else get? t j := by
  induction t with
  | nil =>
    by_cases h : j = k
    · simp [put, get?, h]
    · simp [put, get?, h, Ne.symm h]
  | cons e t ih =>
    obtain ⟨k', v'⟩ := e
    simp only [put]
    split
    · by_cases h : j = k
      · simp [get?, h]
      · simp [get?, h, Ne.symm h]
    · split
      · subst_vars
        by_cases h : j = k'
        · simp [get?, h]
        · simp [get?, h, Ne.symm h]
      · simp only [get?, ih]
        by_cases h : k' = j
        · subst h; rw [if_pos rfl]; simp; omega
        · simp [h]

/-- A deleted entry is gone; the others stay. -/
theorem get?_del (t : Tab α) (k j : Nat) : get? (del t k) j = if j = k then none else get? t j := by
  induction t with
  | nil => simp [del]
  | cons e t ih =>
    obtain ⟨k', v'⟩ := e
    simp only [del]
    split
    · subst_vars
      rw [ih]
      by_cases h : j = k'
      · simp [h]
      · simp [get?, h, Ne.symm h]
    · simp only [get?, ih]
      by_cases h : k' = j
      · subst h; simp; omega
      · simp [h]

/-- A written key reads as written, another key as before, listed or not. -/
theorem getD_write [DecidableEq α] (d : Nat → α) (t : Tab α) (k j : Nat) (v : α) :
    getD (write d t k v) j (d j) = if j = k then v else getD t j (d j) := by
  unfold write
  by_cases hv : v = d k
  · rw [if_pos hv]
    simp only [getD, get?_del]
    by_cases h : j = k
    · subst_vars; simp
    · simp [h]
  · rw [if_neg hv]
    simp only [getD, get?_put]
    by_cases h : j = k <;> simp [h]

theorem getD_put (t : Tab α) (k j : Nat) (v d : α) : getD (put t k v) j d = if j = k then v else getD t j d := by
  unfold getD
  rw [get?_put]
  by_cases h : j = k <;> simp [h]

theorem sortedFrom_mono {lo lo' : Nat} {t : Tab α} (h : lo' ≤ lo) (ht : sortedFrom lo t = true) : sortedFrom lo' t = true := by
  cases t with
  | nil => rfl
  | cons e t =>
    simp only [sortedFrom, Bool.and_eq_true, decide_eq_true_eq] at ht ⊢
    exact ⟨Nat.le_trans h ht.1, ht.2⟩

theorem sortedFrom_put {lo k : Nat} {t : Tab α} (v : α) (hk : lo ≤ k) (ht : sortedFrom lo t = true) :
    sortedFrom lo (put t k v) = true := by
  induction t generalizing lo with
  | nil => simp [put, sortedFrom, hk]
  | cons e t ih =>
    obtain ⟨k', v'⟩ := e
    simp only [sortedFrom, Bool.and_eq_true, decide_eq_true_eq] at ht
    simp only [put]
    split
    · simp only [sortedFrom, Bool.and_eq_true, decide_eq_true_eq]
      exact ⟨hk, by omega, ht.2⟩
    · split
      · subst_vars
        simp only [sortedFrom, Bool.and_eq_true, decide_eq_true_eq]
        exact ⟨hk, ht.2⟩
      · simp only [sortedFrom, Bool.and_eq_true, decide_eq_true_eq]
        exact ⟨ht.1, ih (by omega) ht.2⟩

theorem sortedFrom_filter {lo : Nat} {t : Tab α} (P : Nat × α → Bool) (ht : sortedFrom lo t = true) :
    sortedFrom lo (t.filter P) = true := by
  induction t generalizing lo with
  | nil => rfl
  | cons e t ih =>
    simp only [sortedFrom, Bool.and_eq_true, decide_eq_true_eq] at ht
    rw [List.filter_cons]
    split
    · simp only [sortedFrom, Bool.and_eq_true, decide_eq_true_eq]
      exact ⟨ht.1, ih ht.2⟩
    · exact ih (sortedFrom_mono (by omega) ht.2)

theorem del_eq_filter (t : Tab α) (k : Nat) : del t k = t.filter fun e => e.1 != k := by
  induction t with
  | nil => rfl
  | cons e t ih =>
    obtain ⟨k', v'⟩ := e
    simp only [del, List.filter_cons, ih]
    by_cases h : k = k'
    · simp [h]
    · simp [h, Ne.symm h]

theorem mem_put {t : Tab α} {k : Nat} {v : α} {e : Nat × α} (h : e ∈ put t k v) : e = (k, v) ∨ e ∈ t := by
  induction t with
  | nil => simpa [put] using h
  | cons e' t ih =>
    obtain ⟨k', v'⟩ := e'
    simp only [put] at h
    split at h
    · simpa using h
    · split at h
      · rcases List.mem_cons.mp h with h | h
        · exact .inl h
        · exact .inr (List.mem_cons_of_mem _ h)
      · rcases List.mem_cons.mp h with h | h
        · exact .inr (h ▸ List.mem_cons_self)
        · rcases ih h with h | h
          · exact .inl h
          · exact .inr (List.mem_cons_of_mem _ h)

theorem canon_nil [DecidableEq α] (d : Nat → α) : canon d [] = true := rfl

/-- A filtered table is canonical if the table was. -/
theorem canon_filter [DecidableEq α] {d : Nat → α} {t : Tab α} (P : Nat × α → Bool) (h : canon d t = true) :
    canon d (t.filter P) = true := by
  simp only [canon, Bool.and_eq_true, List.all_eq_true] at h ⊢
  exact ⟨sortedFrom_filter P h.1, fun e he => h.2 e (List.mem_filter.mp he).1⟩

/-- A write keeps the canonical form. -/
theorem canon_write [DecidableEq α] {d : Nat → α} {t : Tab α} (k : Nat) (v : α) (h : canon d t = true) :
    canon d (write d t k v) = true := by
  unfold write
  split
  · rw [del_eq_filter]; exact canon_filter _ h
  · next hv =>
    simp only [canon, Bool.and_eq_true, List.all_eq_true] at h ⊢
    refine ⟨sortedFrom_put v (Nat.zero_le k) h.1, fun e he => ?_⟩
    rcases mem_put he with rfl | he
    · simpa using hv
    · exact h.2 e he

end Sys2Proof.Tab
end

