-- ==== Sys2Proof/Laws/State.lean ====
section
/-! SUPPORT. Sys2Proof/Laws/State.lean: what each update of the state leaves unchanged, field by field, and the laws of registers and
of memory bytes. -/

namespace Sys2Proof.Machine

variable (s : State)

/-! ### Registers -/

/-- A register reads as it was last written, and every other register as before. -/
theorem rd_wr (a v b : Nat) : (s.wr a v).rd b = if b = a then BitVec.ofNat 64 v else s.rd b := Tab.getD_write ..

@[simp] theorem rd_wr_same (a v : Nat) : (s.wr a v).rd a = BitVec.ofNat 64 v := by simp [rd_wr]

theorem rd_wr_ne {a b : Nat} (v : Nat) (h : b ≠ a) : (s.wr a v).rd b = s.rd b := by simp [rd_wr, h]

theorem rdN_wr (a v b : Nat) : (s.wr a v).rdN b = if b = a then v % 2 ^ 64 else s.rdN b := by
  simp only [State.rdN, rd_wr]
  split <;> simp

@[simp] theorem rdN_wr_same (a v : Nat) : (s.wr a v).rdN a = v % 2 ^ 64 := by simp [rdN_wr]

theorem rdN_wr_ne {a b : Nat} (v : Nat) (h : b ≠ a) : (s.wr a v).rdN b = s.rdN b := by simp [rdN_wr, h]

/-- A field set in a word reads back. -/
theorem fld_setFld (v lo w x : Nat) : fld (setFld v lo w x) lo w = x % 2 ^ w := by
  have h1 : 0 < 2 ^ lo := Nat.two_pow_pos lo
  have e : setFld v lo w x = v % 2 ^ lo + (x % 2 ^ w + v / 2 ^ (lo + w) * 2 ^ w) * 2 ^ lo := by
    simp only [setFld, Nat.pow_add, Nat.add_mul, Nat.mul_assoc, Nat.mul_comm (2 ^ w) (2 ^ lo)]
    omega
  simp only [fld, e, Nat.add_mul_div_right _ _ h1, Nat.div_eq_of_lt (Nat.mod_lt v h1), Nat.zero_add]
  rw [Nat.add_mul_mod_self_right, Nat.mod_mod]

theorem fld_mod_64 {lo w : Nat} (v : Nat) (h : lo + w ≤ 64) : fld (v % 2 ^ 64) lo w = fld v lo w := by
  have e : (2 : Nat) ^ 64 = 2 ^ lo * 2 ^ (64 - lo) := by rw [← Nat.pow_add]; congr 1; omega
  simp only [fld, e, Nat.mod_mul_right_div_self]
  exact Nat.mod_mod_of_dvd _ (Nat.pow_dvd_pow 2 (by omega))

theorem rdF_wrF_same {lo w : Nat} (a x : Nat) (h : lo + w ≤ 64) : (s.wrF a lo w x).rdF a lo w = x % 2 ^ w := by
  simp only [State.rdF, State.wrF, rdN_wr_same, fld_mod_64 _ h, fld_setFld]

theorem rd_wrF_ne {a b : Nat} (lo w x : Nat) (h : b ≠ a) : (s.wrF a lo w x).rd b = s.rd b := rd_wr_ne _ _ h

theorem rd_congr {s t : State} (h : s.regs = t.regs) (a : Nat) : s.rd a = t.rd a := by simp [State.rd, h]

/-! ### Memory bytes -/

/-- A byte of memory reads as it was last written, and every other byte as before. -/
theorem getD_memory_write (m : List Host.Cell) (a : Nat) (b : Byte) (x : Nat) :
    Tab.getD (Memory.write m a b) x (memDefault x) = if x = a then b else Tab.getD m x (memDefault x) := Tab.getD_write ..

theorem getD_memory_writeAll (m : List Host.Cell) (a : Nat) (bs : List Byte) (x : Nat) :
    Tab.getD (Memory.writeAll m a bs) x (memDefault x) =
      if a ≤ x ∧ x < a + bs.length then bs.getD (x - a) 0#8 else Tab.getD m x (memDefault x) := by
  induction bs generalizing m a with
  | nil => simp [Memory.writeAll, show ¬(a ≤ x ∧ x < a) by omega]
  | cons b bs ih =>
    simp only [Memory.writeAll, ih, getD_memory_write, List.length_cons]
    by_cases h1 : x = a
    · subst h1; simp
    · by_cases h2 : a + 1 ≤ x ∧ x < a + 1 + bs.length
      · obtain ⟨k, rfl⟩ : ∃ k, x = a + 1 + k := ⟨x - (a + 1), by omega⟩
        simp [h2, show a ≤ a + 1 + k ∧ a + 1 + k < a + (bs.length + 1) by omega, show a + 1 + k - a = k + 1 by omega]
      · rw [if_neg h2, if_neg h1, if_neg (by omega)]

/-- Bytes stored at a PA are read there, and every byte outside them is as before. -/
theorem readByte_storePA (a : Nat) (bs : List Byte) (bad : Bool) (x : Nat) :
    (s.storePA a bs bad).readByte x = if a ≤ x ∧ x < a + bs.length then bs.getD (x - a) 0#8 else s.readByte x := by
  cases bs with
  | nil => simp [State.storePA, show ¬(a ≤ x ∧ x < a) by omega]
  | cons b bs =>
    simp only [State.storePA, State.readByte, List.isEmpty_cons, Bool.false_eq_true, ↓reduceIte]
    exact getD_memory_writeAll ..

/-! ### Fields that an update leaves -/

@[simp] theorem pending_wr (a v : Nat) : (s.wr a v).pending = s.pending := rfl
@[simp] theorem mem_wr (a v : Nat) : (s.wr a v).mem = s.mem := rfl
@[simp] theorem chunks_wr (a v : Nat) : (s.wr a v).chunks = s.chunks := rfl
@[simp] theorem own_wr (a v : Nat) : (s.wr a v).own = s.own := rfl
@[simp] theorem pool_wr (a v : Nat) : (s.wr a v).pool = s.pool := rfl
@[simp] theorem time_wr (a v : Nat) : (s.wr a v).time = s.time := rfl
@[simp] theorem freeCtr_wr (a v : Nat) : (s.wr a v).freeCtr = s.freeCtr := rfl
@[simp] theorem out_wr (a v : Nat) : (s.wr a v).out = s.out := rfl
@[simp] theorem flags_wr (a v : Nat) : (s.wr a v).flags = s.flags := rfl
@[simp] theorem dbg_wr (a v : Nat) : (s.wr a v).dbg = s.dbg := rfl
@[simp] theorem rel_wr (a v : Nat) : (s.wr a v).rel = s.rel := rfl
@[simp] theorem qm_wr (a v : Nat) : (s.wr a v).qm = s.qm := rfl
@[simp] theorem dsc_wr (a v : Nat) : (s.wr a v).dsc = s.dsc := rfl
@[simp] theorem memx_wr (a v : Nat) : (s.wr a v).memx = s.memx := rfl
@[simp] theorem lnk_wr (a v : Nat) : (s.wr a v).lnk = s.lnk := rfl
@[simp] theorem mgt_wr (a v : Nat) : (s.wr a v).mgt = s.mgt := rfl
@[simp] theorem frond_wr (a v : Nat) : (s.wr a v).frond = s.frond := rfl
@[simp] theorem gs_wr (a v : Nat) : (s.wr a v).gs = s.gs := rfl
@[simp] theorem chan_wr (a v : Nat) : (s.wr a v).chan = s.chan := rfl
@[simp] theorem movRR_wr (a v : Nat) : (s.wr a v).movRR = s.movRR := rfl
@[simp] theorem safe_wr (a v : Nat) : (s.wr a v).safe = s.safe := rfl
@[simp] theorem crz_wr (a v : Nat) : (s.wr a v).crz = s.crz := rfl
@[simp] theorem stream_wr (a v : Nat) : (s.wr a v).stream = s.stream := rfl
@[simp] theorem isp_wr (a v : Nat) : (s.wr a v).isp = s.isp := rfl
@[simp] theorem brk_wr (a v : Nat) : (s.wr a v).brk = s.brk := rfl
@[simp] theorem sec_wr (a v : Nat) : (s.wr a v).sec = s.sec := rfl
@[simp] theorem pwr_wr (a v : Nat) : (s.wr a v).pwr = s.pwr := rfl
@[simp] theorem boot_wr (a v : Nat) : (s.wr a v).boot = s.boot := rfl

@[simp] theorem pending_clearRegs (P : Nat → Bool) : (s.clearRegs P).pending = s.pending := rfl
@[simp] theorem mem_clearRegs (P : Nat → Bool) : (s.clearRegs P).mem = s.mem := rfl
@[simp] theorem chunks_clearRegs (P : Nat → Bool) : (s.clearRegs P).chunks = s.chunks := rfl
@[simp] theorem own_clearRegs (P : Nat → Bool) : (s.clearRegs P).own = s.own := rfl
@[simp] theorem pool_clearRegs (P : Nat → Bool) : (s.clearRegs P).pool = s.pool := rfl
@[simp] theorem time_clearRegs (P : Nat → Bool) : (s.clearRegs P).time = s.time := rfl
@[simp] theorem freeCtr_clearRegs (P : Nat → Bool) : (s.clearRegs P).freeCtr = s.freeCtr := rfl
@[simp] theorem out_clearRegs (P : Nat → Bool) : (s.clearRegs P).out = s.out := rfl
@[simp] theorem flags_clearRegs (P : Nat → Bool) : (s.clearRegs P).flags = s.flags := rfl
@[simp] theorem dbg_clearRegs (P : Nat → Bool) : (s.clearRegs P).dbg = s.dbg := rfl
@[simp] theorem rel_clearRegs (P : Nat → Bool) : (s.clearRegs P).rel = s.rel := rfl
@[simp] theorem qm_clearRegs (P : Nat → Bool) : (s.clearRegs P).qm = s.qm := rfl
@[simp] theorem dsc_clearRegs (P : Nat → Bool) : (s.clearRegs P).dsc = s.dsc := rfl
@[simp] theorem memx_clearRegs (P : Nat → Bool) : (s.clearRegs P).memx = s.memx := rfl
@[simp] theorem lnk_clearRegs (P : Nat → Bool) : (s.clearRegs P).lnk = s.lnk := rfl
@[simp] theorem mgt_clearRegs (P : Nat → Bool) : (s.clearRegs P).mgt = s.mgt := rfl
@[simp] theorem frond_clearRegs (P : Nat → Bool) : (s.clearRegs P).frond = s.frond := rfl
@[simp] theorem gs_clearRegs (P : Nat → Bool) : (s.clearRegs P).gs = s.gs := rfl
@[simp] theorem chan_clearRegs (P : Nat → Bool) : (s.clearRegs P).chan = s.chan := rfl
@[simp] theorem movRR_clearRegs (P : Nat → Bool) : (s.clearRegs P).movRR = s.movRR := rfl
@[simp] theorem safe_clearRegs (P : Nat → Bool) : (s.clearRegs P).safe = s.safe := rfl
@[simp] theorem crz_clearRegs (P : Nat → Bool) : (s.clearRegs P).crz = s.crz := rfl
@[simp] theorem stream_clearRegs (P : Nat → Bool) : (s.clearRegs P).stream = s.stream := rfl
@[simp] theorem isp_clearRegs (P : Nat → Bool) : (s.clearRegs P).isp = s.isp := rfl
@[simp] theorem brk_clearRegs (P : Nat → Bool) : (s.clearRegs P).brk = s.brk := rfl
@[simp] theorem sec_clearRegs (P : Nat → Bool) : (s.clearRegs P).sec = s.sec := rfl
@[simp] theorem pwr_clearRegs (P : Nat → Bool) : (s.clearRegs P).pwr = s.pwr := rfl
@[simp] theorem boot_clearRegs (P : Nat → Bool) : (s.clearRegs P).boot = s.boot := rfl

@[simp] theorem pending_emit (o : Out) : (s.emit o).pending = s.pending := rfl
@[simp] theorem regs_emit (o : Out) : (s.emit o).regs = s.regs := rfl
@[simp] theorem mem_emit (o : Out) : (s.emit o).mem = s.mem := rfl
@[simp] theorem chunks_emit (o : Out) : (s.emit o).chunks = s.chunks := rfl
@[simp] theorem own_emit (o : Out) : (s.emit o).own = s.own := rfl
@[simp] theorem pool_emit (o : Out) : (s.emit o).pool = s.pool := rfl
@[simp] theorem time_emit (o : Out) : (s.emit o).time = s.time := rfl
@[simp] theorem freeCtr_emit (o : Out) : (s.emit o).freeCtr = s.freeCtr := rfl
@[simp] theorem flags_emit (o : Out) : (s.emit o).flags = s.flags := rfl
@[simp] theorem dbg_emit (o : Out) : (s.emit o).dbg = s.dbg := rfl
@[simp] theorem rel_emit (o : Out) : (s.emit o).rel = s.rel := rfl
@[simp] theorem qm_emit (o : Out) : (s.emit o).qm = s.qm := rfl
@[simp] theorem dsc_emit (o : Out) : (s.emit o).dsc = s.dsc := rfl
@[simp] theorem memx_emit (o : Out) : (s.emit o).memx = s.memx := rfl
@[simp] theorem lnk_emit (o : Out) : (s.emit o).lnk = s.lnk := rfl
@[simp] theorem mgt_emit (o : Out) : (s.emit o).mgt = s.mgt := rfl
@[simp] theorem frond_emit (o : Out) : (s.emit o).frond = s.frond := rfl
@[simp] theorem gs_emit (o : Out) : (s.emit o).gs = s.gs := rfl
@[simp] theorem chan_emit (o : Out) : (s.emit o).chan = s.chan := rfl
@[simp] theorem movRR_emit (o : Out) : (s.emit o).movRR = s.movRR := rfl
@[simp] theorem safe_emit (o : Out) : (s.emit o).safe = s.safe := rfl
@[simp] theorem crz_emit (o : Out) : (s.emit o).crz = s.crz := rfl
@[simp] theorem stream_emit (o : Out) : (s.emit o).stream = s.stream := rfl
@[simp] theorem isp_emit (o : Out) : (s.emit o).isp = s.isp := rfl
@[simp] theorem brk_emit (o : Out) : (s.emit o).brk = s.brk := rfl
@[simp] theorem sec_emit (o : Out) : (s.emit o).sec = s.sec := rfl
@[simp] theorem pwr_emit (o : Out) : (s.emit o).pwr = s.pwr := rfl
@[simp] theorem boot_emit (o : Out) : (s.emit o).boot = s.boot := rfl
@[simp] theorem rd_emit (o : Out) (r : Nat) : (s.emit o).rd r = s.rd r := rfl
@[simp] theorem rdN_emit (o : Out) (r : Nat) : (s.emit o).rdN r = s.rdN r := rfl

@[simp] theorem pending_fresh : (s.fresh.2).pending = s.pending := rfl
@[simp] theorem regs_fresh : (s.fresh.2).regs = s.regs := rfl
@[simp] theorem mem_fresh : (s.fresh.2).mem = s.mem := rfl
@[simp] theorem chunks_fresh : (s.fresh.2).chunks = s.chunks := rfl
@[simp] theorem own_fresh : (s.fresh.2).own = s.own := rfl
@[simp] theorem pool_fresh : (s.fresh.2).pool = s.pool := rfl
@[simp] theorem time_fresh : (s.fresh.2).time = s.time := rfl
@[simp] theorem out_fresh : (s.fresh.2).out = s.out := rfl
@[simp] theorem flags_fresh : (s.fresh.2).flags = s.flags := rfl
@[simp] theorem dbg_fresh : (s.fresh.2).dbg = s.dbg := rfl
@[simp] theorem rel_fresh : (s.fresh.2).rel = s.rel := rfl
@[simp] theorem qm_fresh : (s.fresh.2).qm = s.qm := rfl
@[simp] theorem dsc_fresh : (s.fresh.2).dsc = s.dsc := rfl
@[simp] theorem memx_fresh : (s.fresh.2).memx = s.memx := rfl
@[simp] theorem lnk_fresh : (s.fresh.2).lnk = s.lnk := rfl
@[simp] theorem mgt_fresh : (s.fresh.2).mgt = s.mgt := rfl
@[simp] theorem frond_fresh : (s.fresh.2).frond = s.frond := rfl
@[simp] theorem gs_fresh : (s.fresh.2).gs = s.gs := rfl
@[simp] theorem chan_fresh : (s.fresh.2).chan = s.chan := rfl
@[simp] theorem movRR_fresh : (s.fresh.2).movRR = s.movRR := rfl
@[simp] theorem safe_fresh : (s.fresh.2).safe = s.safe := rfl
@[simp] theorem crz_fresh : (s.fresh.2).crz = s.crz := rfl
@[simp] theorem stream_fresh : (s.fresh.2).stream = s.stream := rfl
@[simp] theorem isp_fresh : (s.fresh.2).isp = s.isp := rfl
@[simp] theorem brk_fresh : (s.fresh.2).brk = s.brk := rfl
@[simp] theorem sec_fresh : (s.fresh.2).sec = s.sec := rfl
@[simp] theorem pwr_fresh : (s.fresh.2).pwr = s.pwr := rfl
@[simp] theorem boot_fresh : (s.fresh.2).boot = s.boot := rfl
@[simp] theorem rd_fresh (r : Nat) : (s.fresh.2).rd r = s.rd r := rfl
@[simp] theorem rdN_fresh (r : Nat) : (s.fresh.2).rdN r = s.rdN r := rfl

@[simp] theorem pending_setFlag (i : Nat) (f : Flag) : (s.setFlag i f).pending = s.pending := rfl
@[simp] theorem regs_setFlag (i : Nat) (f : Flag) : (s.setFlag i f).regs = s.regs := rfl
@[simp] theorem mem_setFlag (i : Nat) (f : Flag) : (s.setFlag i f).mem = s.mem := rfl
@[simp] theorem chunks_setFlag (i : Nat) (f : Flag) : (s.setFlag i f).chunks = s.chunks := rfl
@[simp] theorem own_setFlag (i : Nat) (f : Flag) : (s.setFlag i f).own = s.own := rfl
@[simp] theorem pool_setFlag (i : Nat) (f : Flag) : (s.setFlag i f).pool = s.pool := rfl
@[simp] theorem time_setFlag (i : Nat) (f : Flag) : (s.setFlag i f).time = s.time := rfl
@[simp] theorem freeCtr_setFlag (i : Nat) (f : Flag) : (s.setFlag i f).freeCtr = s.freeCtr := rfl
@[simp] theorem out_setFlag (i : Nat) (f : Flag) : (s.setFlag i f).out = s.out := rfl
@[simp] theorem dbg_setFlag (i : Nat) (f : Flag) : (s.setFlag i f).dbg = s.dbg := rfl
@[simp] theorem rel_setFlag (i : Nat) (f : Flag) : (s.setFlag i f).rel = s.rel := rfl
@[simp] theorem qm_setFlag (i : Nat) (f : Flag) : (s.setFlag i f).qm = s.qm := rfl
@[simp] theorem dsc_setFlag (i : Nat) (f : Flag) : (s.setFlag i f).dsc = s.dsc := rfl
@[simp] theorem memx_setFlag (i : Nat) (f : Flag) : (s.setFlag i f).memx = s.memx := rfl
@[simp] theorem lnk_setFlag (i : Nat) (f : Flag) : (s.setFlag i f).lnk = s.lnk := rfl
@[simp] theorem mgt_setFlag (i : Nat) (f : Flag) : (s.setFlag i f).mgt = s.mgt := rfl
@[simp] theorem frond_setFlag (i : Nat) (f : Flag) : (s.setFlag i f).frond = s.frond := rfl
@[simp] theorem gs_setFlag (i : Nat) (f : Flag) : (s.setFlag i f).gs = s.gs := rfl
@[simp] theorem chan_setFlag (i : Nat) (f : Flag) : (s.setFlag i f).chan = s.chan := rfl
@[simp] theorem movRR_setFlag (i : Nat) (f : Flag) : (s.setFlag i f).movRR = s.movRR := rfl
@[simp] theorem safe_setFlag (i : Nat) (f : Flag) : (s.setFlag i f).safe = s.safe := rfl
@[simp] theorem crz_setFlag (i : Nat) (f : Flag) : (s.setFlag i f).crz = s.crz := rfl
@[simp] theorem stream_setFlag (i : Nat) (f : Flag) : (s.setFlag i f).stream = s.stream := rfl
@[simp] theorem isp_setFlag (i : Nat) (f : Flag) : (s.setFlag i f).isp = s.isp := rfl
@[simp] theorem brk_setFlag (i : Nat) (f : Flag) : (s.setFlag i f).brk = s.brk := rfl
@[simp] theorem sec_setFlag (i : Nat) (f : Flag) : (s.setFlag i f).sec = s.sec := rfl
@[simp] theorem pwr_setFlag (i : Nat) (f : Flag) : (s.setFlag i f).pwr = s.pwr := rfl
@[simp] theorem boot_setFlag (i : Nat) (f : Flag) : (s.setFlag i f).boot = s.boot := rfl
@[simp] theorem rd_setFlag (i : Nat) (f : Flag) (r : Nat) : (s.setFlag i f).rd r = s.rd r := rfl
@[simp] theorem rdN_setFlag (i : Nat) (f : Flag) (r : Nat) : (s.setFlag i f).rdN r = s.rdN r := rfl

@[simp] theorem pending_flagPush (o : FlagOp) : (s.flagPush o).pending = s.pending := rfl
@[simp] theorem regs_flagPush (o : FlagOp) : (s.flagPush o).regs = s.regs := rfl
@[simp] theorem mem_flagPush (o : FlagOp) : (s.flagPush o).mem = s.mem := rfl
@[simp] theorem chunks_flagPush (o : FlagOp) : (s.flagPush o).chunks = s.chunks := rfl
@[simp] theorem own_flagPush (o : FlagOp) : (s.flagPush o).own = s.own := rfl
@[simp] theorem pool_flagPush (o : FlagOp) : (s.flagPush o).pool = s.pool := rfl
@[simp] theorem time_flagPush (o : FlagOp) : (s.flagPush o).time = s.time := rfl
@[simp] theorem freeCtr_flagPush (o : FlagOp) : (s.flagPush o).freeCtr = s.freeCtr := rfl
@[simp] theorem out_flagPush (o : FlagOp) : (s.flagPush o).out = s.out := rfl
@[simp] theorem dbg_flagPush (o : FlagOp) : (s.flagPush o).dbg = s.dbg := rfl
@[simp] theorem rel_flagPush (o : FlagOp) : (s.flagPush o).rel = s.rel := rfl
@[simp] theorem qm_flagPush (o : FlagOp) : (s.flagPush o).qm = s.qm := rfl
@[simp] theorem dsc_flagPush (o : FlagOp) : (s.flagPush o).dsc = s.dsc := rfl
@[simp] theorem memx_flagPush (o : FlagOp) : (s.flagPush o).memx = s.memx := rfl
@[simp] theorem lnk_flagPush (o : FlagOp) : (s.flagPush o).lnk = s.lnk := rfl
@[simp] theorem mgt_flagPush (o : FlagOp) : (s.flagPush o).mgt = s.mgt := rfl
@[simp] theorem frond_flagPush (o : FlagOp) : (s.flagPush o).frond = s.frond := rfl
@[simp] theorem gs_flagPush (o : FlagOp) : (s.flagPush o).gs = s.gs := rfl
@[simp] theorem chan_flagPush (o : FlagOp) : (s.flagPush o).chan = s.chan := rfl
@[simp] theorem movRR_flagPush (o : FlagOp) : (s.flagPush o).movRR = s.movRR := rfl
@[simp] theorem safe_flagPush (o : FlagOp) : (s.flagPush o).safe = s.safe := rfl
@[simp] theorem crz_flagPush (o : FlagOp) : (s.flagPush o).crz = s.crz := rfl
@[simp] theorem stream_flagPush (o : FlagOp) : (s.flagPush o).stream = s.stream := rfl
@[simp] theorem isp_flagPush (o : FlagOp) : (s.flagPush o).isp = s.isp := rfl
@[simp] theorem brk_flagPush (o : FlagOp) : (s.flagPush o).brk = s.brk := rfl
@[simp] theorem sec_flagPush (o : FlagOp) : (s.flagPush o).sec = s.sec := rfl
@[simp] theorem pwr_flagPush (o : FlagOp) : (s.flagPush o).pwr = s.pwr := rfl
@[simp] theorem boot_flagPush (o : FlagOp) : (s.flagPush o).boot = s.boot := rfl
@[simp] theorem rd_flagPush (o : FlagOp) (r : Nat) : (s.flagPush o).rd r = s.rd r := rfl
@[simp] theorem rdN_flagPush (o : FlagOp) (r : Nat) : (s.flagPush o).rdN r = s.rdN r := rfl

@[simp] theorem pending_postItem (p q : Nat) (bs : List Byte) (x : Option PostAct) : (s.postItem p q bs x).pending = s.pending := rfl
@[simp] theorem regs_postItem (p q : Nat) (bs : List Byte) (x : Option PostAct) : (s.postItem p q bs x).regs = s.regs := rfl
@[simp] theorem mem_postItem (p q : Nat) (bs : List Byte) (x : Option PostAct) : (s.postItem p q bs x).mem = s.mem := rfl
@[simp] theorem chunks_postItem (p q : Nat) (bs : List Byte) (x : Option PostAct) : (s.postItem p q bs x).chunks = s.chunks := rfl
@[simp] theorem own_postItem (p q : Nat) (bs : List Byte) (x : Option PostAct) : (s.postItem p q bs x).own = s.own := rfl
@[simp] theorem pool_postItem (p q : Nat) (bs : List Byte) (x : Option PostAct) : (s.postItem p q bs x).pool = s.pool := rfl
@[simp] theorem time_postItem (p q : Nat) (bs : List Byte) (x : Option PostAct) : (s.postItem p q bs x).time = s.time := rfl
@[simp] theorem freeCtr_postItem (p q : Nat) (bs : List Byte) (x : Option PostAct) : (s.postItem p q bs x).freeCtr = s.freeCtr := rfl
@[simp] theorem out_postItem (p q : Nat) (bs : List Byte) (x : Option PostAct) : (s.postItem p q bs x).out = s.out := rfl
@[simp] theorem flags_postItem (p q : Nat) (bs : List Byte) (x : Option PostAct) : (s.postItem p q bs x).flags = s.flags := rfl
@[simp] theorem dbg_postItem (p q : Nat) (bs : List Byte) (x : Option PostAct) : (s.postItem p q bs x).dbg = s.dbg := rfl
@[simp] theorem rel_postItem (p q : Nat) (bs : List Byte) (x : Option PostAct) : (s.postItem p q bs x).rel = s.rel := rfl
@[simp] theorem dsc_postItem (p q : Nat) (bs : List Byte) (x : Option PostAct) : (s.postItem p q bs x).dsc = s.dsc := rfl
@[simp] theorem memx_postItem (p q : Nat) (bs : List Byte) (x : Option PostAct) : (s.postItem p q bs x).memx = s.memx := rfl
@[simp] theorem lnk_postItem (p q : Nat) (bs : List Byte) (x : Option PostAct) : (s.postItem p q bs x).lnk = s.lnk := rfl
@[simp] theorem mgt_postItem (p q : Nat) (bs : List Byte) (x : Option PostAct) : (s.postItem p q bs x).mgt = s.mgt := rfl
@[simp] theorem frond_postItem (p q : Nat) (bs : List Byte) (x : Option PostAct) : (s.postItem p q bs x).frond = s.frond := rfl
@[simp] theorem gs_postItem (p q : Nat) (bs : List Byte) (x : Option PostAct) : (s.postItem p q bs x).gs = s.gs := rfl
@[simp] theorem chan_postItem (p q : Nat) (bs : List Byte) (x : Option PostAct) : (s.postItem p q bs x).chan = s.chan := rfl
@[simp] theorem movRR_postItem (p q : Nat) (bs : List Byte) (x : Option PostAct) : (s.postItem p q bs x).movRR = s.movRR := rfl
@[simp] theorem safe_postItem (p q : Nat) (bs : List Byte) (x : Option PostAct) : (s.postItem p q bs x).safe = s.safe := rfl
@[simp] theorem crz_postItem (p q : Nat) (bs : List Byte) (x : Option PostAct) : (s.postItem p q bs x).crz = s.crz := rfl
@[simp] theorem stream_postItem (p q : Nat) (bs : List Byte) (x : Option PostAct) : (s.postItem p q bs x).stream = s.stream := rfl
@[simp] theorem isp_postItem (p q : Nat) (bs : List Byte) (x : Option PostAct) : (s.postItem p q bs x).isp = s.isp := rfl
@[simp] theorem brk_postItem (p q : Nat) (bs : List Byte) (x : Option PostAct) : (s.postItem p q bs x).brk = s.brk := rfl
@[simp] theorem sec_postItem (p q : Nat) (bs : List Byte) (x : Option PostAct) : (s.postItem p q bs x).sec = s.sec := rfl
@[simp] theorem pwr_postItem (p q : Nat) (bs : List Byte) (x : Option PostAct) : (s.postItem p q bs x).pwr = s.pwr := rfl
@[simp] theorem boot_postItem (p q : Nat) (bs : List Byte) (x : Option PostAct) : (s.postItem p q bs x).boot = s.boot := rfl
@[simp] theorem rd_postItem (p q : Nat) (bs : List Byte) (x : Option PostAct) (r : Nat) : (s.postItem p q bs x).rd r = s.rd r := rfl
@[simp] theorem rdN_postItem (p q : Nat) (bs : List Byte) (x : Option PostAct) (r : Nat) : (s.postItem p q bs x).rdN r = s.rdN r := rfl

@[simp] theorem pending_progress (p : Nat) : (s.progress p).pending = s.pending := rfl
@[simp] theorem regs_progress (p : Nat) : (s.progress p).regs = s.regs := rfl
@[simp] theorem mem_progress (p : Nat) : (s.progress p).mem = s.mem := rfl
@[simp] theorem chunks_progress (p : Nat) : (s.progress p).chunks = s.chunks := rfl
@[simp] theorem own_progress (p : Nat) : (s.progress p).own = s.own := rfl
@[simp] theorem pool_progress (p : Nat) : (s.progress p).pool = s.pool := rfl
@[simp] theorem time_progress (p : Nat) : (s.progress p).time = s.time := rfl
@[simp] theorem freeCtr_progress (p : Nat) : (s.progress p).freeCtr = s.freeCtr := rfl
@[simp] theorem out_progress (p : Nat) : (s.progress p).out = s.out := rfl
@[simp] theorem flags_progress (p : Nat) : (s.progress p).flags = s.flags := rfl
@[simp] theorem dbg_progress (p : Nat) : (s.progress p).dbg = s.dbg := rfl
@[simp] theorem rel_progress (p : Nat) : (s.progress p).rel = s.rel := rfl
@[simp] theorem qm_progress (p : Nat) : (s.progress p).qm = s.qm := rfl
@[simp] theorem dsc_progress (p : Nat) : (s.progress p).dsc = s.dsc := rfl
@[simp] theorem memx_progress (p : Nat) : (s.progress p).memx = s.memx := rfl
@[simp] theorem lnk_progress (p : Nat) : (s.progress p).lnk = s.lnk := rfl
@[simp] theorem mgt_progress (p : Nat) : (s.progress p).mgt = s.mgt := rfl
@[simp] theorem frond_progress (p : Nat) : (s.progress p).frond = s.frond := rfl
@[simp] theorem chan_progress (p : Nat) : (s.progress p).chan = s.chan := rfl
@[simp] theorem movRR_progress (p : Nat) : (s.progress p).movRR = s.movRR := rfl
@[simp] theorem safe_progress (p : Nat) : (s.progress p).safe = s.safe := rfl
@[simp] theorem crz_progress (p : Nat) : (s.progress p).crz = s.crz := rfl
@[simp] theorem stream_progress (p : Nat) : (s.progress p).stream = s.stream := rfl
@[simp] theorem isp_progress (p : Nat) : (s.progress p).isp = s.isp := rfl
@[simp] theorem brk_progress (p : Nat) : (s.progress p).brk = s.brk := rfl
@[simp] theorem sec_progress (p : Nat) : (s.progress p).sec = s.sec := rfl
@[simp] theorem pwr_progress (p : Nat) : (s.progress p).pwr = s.pwr := rfl
@[simp] theorem boot_progress (p : Nat) : (s.progress p).boot = s.boot := rfl
@[simp] theorem rd_progress (p : Nat) (r : Nat) : (s.progress p).rd r = s.rd r := rfl
@[simp] theorem rdN_progress (p : Nat) (r : Nat) : (s.progress p).rdN r = s.rdN r := rfl

@[simp] theorem pending_eventRaw (u : UnitId) (k p c x y : Nat) : (s.eventRaw u k p c x y).pending = s.pending := rfl
@[simp] theorem regs_eventRaw (u : UnitId) (k p c x y : Nat) : (s.eventRaw u k p c x y).regs = s.regs := rfl
@[simp] theorem mem_eventRaw (u : UnitId) (k p c x y : Nat) : (s.eventRaw u k p c x y).mem = s.mem := rfl
@[simp] theorem chunks_eventRaw (u : UnitId) (k p c x y : Nat) : (s.eventRaw u k p c x y).chunks = s.chunks := rfl
@[simp] theorem own_eventRaw (u : UnitId) (k p c x y : Nat) : (s.eventRaw u k p c x y).own = s.own := rfl
@[simp] theorem pool_eventRaw (u : UnitId) (k p c x y : Nat) : (s.eventRaw u k p c x y).pool = s.pool := rfl
@[simp] theorem time_eventRaw (u : UnitId) (k p c x y : Nat) : (s.eventRaw u k p c x y).time = s.time := rfl
@[simp] theorem freeCtr_eventRaw (u : UnitId) (k p c x y : Nat) : (s.eventRaw u k p c x y).freeCtr = s.freeCtr := rfl
@[simp] theorem out_eventRaw (u : UnitId) (k p c x y : Nat) : (s.eventRaw u k p c x y).out = s.out := rfl
@[simp] theorem flags_eventRaw (u : UnitId) (k p c x y : Nat) : (s.eventRaw u k p c x y).flags = s.flags := rfl
@[simp] theorem rel_eventRaw (u : UnitId) (k p c x y : Nat) : (s.eventRaw u k p c x y).rel = s.rel := rfl
@[simp] theorem qm_eventRaw (u : UnitId) (k p c x y : Nat) : (s.eventRaw u k p c x y).qm = s.qm := rfl
@[simp] theorem dsc_eventRaw (u : UnitId) (k p c x y : Nat) : (s.eventRaw u k p c x y).dsc = s.dsc := rfl
@[simp] theorem memx_eventRaw (u : UnitId) (k p c x y : Nat) : (s.eventRaw u k p c x y).memx = s.memx := rfl
@[simp] theorem lnk_eventRaw (u : UnitId) (k p c x y : Nat) : (s.eventRaw u k p c x y).lnk = s.lnk := rfl
@[simp] theorem mgt_eventRaw (u : UnitId) (k p c x y : Nat) : (s.eventRaw u k p c x y).mgt = s.mgt := rfl
@[simp] theorem frond_eventRaw (u : UnitId) (k p c x y : Nat) : (s.eventRaw u k p c x y).frond = s.frond := rfl
@[simp] theorem gs_eventRaw (u : UnitId) (k p c x y : Nat) : (s.eventRaw u k p c x y).gs = s.gs := rfl
@[simp] theorem chan_eventRaw (u : UnitId) (k p c x y : Nat) : (s.eventRaw u k p c x y).chan = s.chan := rfl
@[simp] theorem movRR_eventRaw (u : UnitId) (k p c x y : Nat) : (s.eventRaw u k p c x y).movRR = s.movRR := rfl
@[simp] theorem safe_eventRaw (u : UnitId) (k p c x y : Nat) : (s.eventRaw u k p c x y).safe = s.safe := rfl
@[simp] theorem crz_eventRaw (u : UnitId) (k p c x y : Nat) : (s.eventRaw u k p c x y).crz = s.crz := rfl
@[simp] theorem stream_eventRaw (u : UnitId) (k p c x y : Nat) : (s.eventRaw u k p c x y).stream = s.stream := rfl
@[simp] theorem isp_eventRaw (u : UnitId) (k p c x y : Nat) : (s.eventRaw u k p c x y).isp = s.isp := rfl
@[simp] theorem brk_eventRaw (u : UnitId) (k p c x y : Nat) : (s.eventRaw u k p c x y).brk = s.brk := rfl
@[simp] theorem sec_eventRaw (u : UnitId) (k p c x y : Nat) : (s.eventRaw u k p c x y).sec = s.sec := rfl
@[simp] theorem pwr_eventRaw (u : UnitId) (k p c x y : Nat) : (s.eventRaw u k p c x y).pwr = s.pwr := rfl
@[simp] theorem boot_eventRaw (u : UnitId) (k p c x y : Nat) : (s.eventRaw u k p c x y).boot = s.boot := rfl
@[simp] theorem rd_eventRaw (u : UnitId) (k p c x y : Nat) (r : Nat) : (s.eventRaw u k p c x y).rd r = s.rd r := rfl
@[simp] theorem rdN_eventRaw (u : UnitId) (k p c x y : Nat) (r : Nat) : (s.eventRaw u k p c x y).rdN r = s.rdN r := rfl

@[simp] theorem pending_setTc (n : Nat) (f : Frond) : (s.setTc n f).pending = s.pending := rfl
@[simp] theorem regs_setTc (n : Nat) (f : Frond) : (s.setTc n f).regs = s.regs := rfl
@[simp] theorem mem_setTc (n : Nat) (f : Frond) : (s.setTc n f).mem = s.mem := rfl
@[simp] theorem chunks_setTc (n : Nat) (f : Frond) : (s.setTc n f).chunks = s.chunks := rfl
@[simp] theorem own_setTc (n : Nat) (f : Frond) : (s.setTc n f).own = s.own := rfl
@[simp] theorem pool_setTc (n : Nat) (f : Frond) : (s.setTc n f).pool = s.pool := rfl
@[simp] theorem time_setTc (n : Nat) (f : Frond) : (s.setTc n f).time = s.time := rfl
@[simp] theorem freeCtr_setTc (n : Nat) (f : Frond) : (s.setTc n f).freeCtr = s.freeCtr := rfl
@[simp] theorem out_setTc (n : Nat) (f : Frond) : (s.setTc n f).out = s.out := rfl
@[simp] theorem flags_setTc (n : Nat) (f : Frond) : (s.setTc n f).flags = s.flags := rfl
@[simp] theorem dbg_setTc (n : Nat) (f : Frond) : (s.setTc n f).dbg = s.dbg := rfl
@[simp] theorem rel_setTc (n : Nat) (f : Frond) : (s.setTc n f).rel = s.rel := rfl
@[simp] theorem qm_setTc (n : Nat) (f : Frond) : (s.setTc n f).qm = s.qm := rfl
@[simp] theorem dsc_setTc (n : Nat) (f : Frond) : (s.setTc n f).dsc = s.dsc := rfl
@[simp] theorem memx_setTc (n : Nat) (f : Frond) : (s.setTc n f).memx = s.memx := rfl
@[simp] theorem lnk_setTc (n : Nat) (f : Frond) : (s.setTc n f).lnk = s.lnk := rfl
@[simp] theorem mgt_setTc (n : Nat) (f : Frond) : (s.setTc n f).mgt = s.mgt := rfl
@[simp] theorem gs_setTc (n : Nat) (f : Frond) : (s.setTc n f).gs = s.gs := rfl
@[simp] theorem chan_setTc (n : Nat) (f : Frond) : (s.setTc n f).chan = s.chan := rfl
@[simp] theorem movRR_setTc (n : Nat) (f : Frond) : (s.setTc n f).movRR = s.movRR := rfl
@[simp] theorem safe_setTc (n : Nat) (f : Frond) : (s.setTc n f).safe = s.safe := rfl
@[simp] theorem crz_setTc (n : Nat) (f : Frond) : (s.setTc n f).crz = s.crz := rfl
@[simp] theorem stream_setTc (n : Nat) (f : Frond) : (s.setTc n f).stream = s.stream := rfl
@[simp] theorem isp_setTc (n : Nat) (f : Frond) : (s.setTc n f).isp = s.isp := rfl
@[simp] theorem brk_setTc (n : Nat) (f : Frond) : (s.setTc n f).brk = s.brk := rfl
@[simp] theorem sec_setTc (n : Nat) (f : Frond) : (s.setTc n f).sec = s.sec := rfl
@[simp] theorem pwr_setTc (n : Nat) (f : Frond) : (s.setTc n f).pwr = s.pwr := rfl
@[simp] theorem boot_setTc (n : Nat) (f : Frond) : (s.setTc n f).boot = s.boot := rfl
@[simp] theorem rd_setTc (n : Nat) (f : Frond) (r : Nat) : (s.setTc n f).rd r = s.rd r := rfl
@[simp] theorem rdN_setTc (n : Nat) (f : Frond) (r : Nat) : (s.setTc n f).rdN r = s.rdN r := rfl

@[simp] theorem pending_setCh (n : Nat) (c : Chan) : (s.setCh n c).pending = s.pending := rfl
@[simp] theorem regs_setCh (n : Nat) (c : Chan) : (s.setCh n c).regs = s.regs := rfl
@[simp] theorem mem_setCh (n : Nat) (c : Chan) : (s.setCh n c).mem = s.mem := rfl
@[simp] theorem chunks_setCh (n : Nat) (c : Chan) : (s.setCh n c).chunks = s.chunks := rfl
@[simp] theorem own_setCh (n : Nat) (c : Chan) : (s.setCh n c).own = s.own := rfl
@[simp] theorem pool_setCh (n : Nat) (c : Chan) : (s.setCh n c).pool = s.pool := rfl
@[simp] theorem time_setCh (n : Nat) (c : Chan) : (s.setCh n c).time = s.time := rfl
@[simp] theorem freeCtr_setCh (n : Nat) (c : Chan) : (s.setCh n c).freeCtr = s.freeCtr := rfl
@[simp] theorem out_setCh (n : Nat) (c : Chan) : (s.setCh n c).out = s.out := rfl
@[simp] theorem flags_setCh (n : Nat) (c : Chan) : (s.setCh n c).flags = s.flags := rfl
@[simp] theorem dbg_setCh (n : Nat) (c : Chan) : (s.setCh n c).dbg = s.dbg := rfl
@[simp] theorem rel_setCh (n : Nat) (c : Chan) : (s.setCh n c).rel = s.rel := rfl
@[simp] theorem qm_setCh (n : Nat) (c : Chan) : (s.setCh n c).qm = s.qm := rfl
@[simp] theorem dsc_setCh (n : Nat) (c : Chan) : (s.setCh n c).dsc = s.dsc := rfl
@[simp] theorem memx_setCh (n : Nat) (c : Chan) : (s.setCh n c).memx = s.memx := rfl
@[simp] theorem lnk_setCh (n : Nat) (c : Chan) : (s.setCh n c).lnk = s.lnk := rfl
@[simp] theorem mgt_setCh (n : Nat) (c : Chan) : (s.setCh n c).mgt = s.mgt := rfl
@[simp] theorem frond_setCh (n : Nat) (c : Chan) : (s.setCh n c).frond = s.frond := rfl
@[simp] theorem gs_setCh (n : Nat) (c : Chan) : (s.setCh n c).gs = s.gs := rfl
@[simp] theorem movRR_setCh (n : Nat) (c : Chan) : (s.setCh n c).movRR = s.movRR := rfl
@[simp] theorem safe_setCh (n : Nat) (c : Chan) : (s.setCh n c).safe = s.safe := rfl
@[simp] theorem crz_setCh (n : Nat) (c : Chan) : (s.setCh n c).crz = s.crz := rfl
@[simp] theorem stream_setCh (n : Nat) (c : Chan) : (s.setCh n c).stream = s.stream := rfl
@[simp] theorem isp_setCh (n : Nat) (c : Chan) : (s.setCh n c).isp = s.isp := rfl
@[simp] theorem brk_setCh (n : Nat) (c : Chan) : (s.setCh n c).brk = s.brk := rfl
@[simp] theorem sec_setCh (n : Nat) (c : Chan) : (s.setCh n c).sec = s.sec := rfl
@[simp] theorem pwr_setCh (n : Nat) (c : Chan) : (s.setCh n c).pwr = s.pwr := rfl
@[simp] theorem boot_setCh (n : Nat) (c : Chan) : (s.setCh n c).boot = s.boot := rfl
@[simp] theorem rd_setCh (n : Nat) (c : Chan) (r : Nat) : (s.setCh n c).rd r = s.rd r := rfl
@[simp] theorem rdN_setCh (n : Nat) (c : Chan) (r : Nat) : (s.setCh n c).rdN r = s.rdN r := rfl

@[simp] theorem pending_setCg (g : Nat) (x : CGraph) : (s.setCg g x).pending = s.pending := rfl
@[simp] theorem regs_setCg (g : Nat) (x : CGraph) : (s.setCg g x).regs = s.regs := rfl
@[simp] theorem mem_setCg (g : Nat) (x : CGraph) : (s.setCg g x).mem = s.mem := rfl
@[simp] theorem chunks_setCg (g : Nat) (x : CGraph) : (s.setCg g x).chunks = s.chunks := rfl
@[simp] theorem own_setCg (g : Nat) (x : CGraph) : (s.setCg g x).own = s.own := rfl
@[simp] theorem pool_setCg (g : Nat) (x : CGraph) : (s.setCg g x).pool = s.pool := rfl
@[simp] theorem time_setCg (g : Nat) (x : CGraph) : (s.setCg g x).time = s.time := rfl
@[simp] theorem freeCtr_setCg (g : Nat) (x : CGraph) : (s.setCg g x).freeCtr = s.freeCtr := rfl
@[simp] theorem out_setCg (g : Nat) (x : CGraph) : (s.setCg g x).out = s.out := rfl
@[simp] theorem flags_setCg (g : Nat) (x : CGraph) : (s.setCg g x).flags = s.flags := rfl
@[simp] theorem dbg_setCg (g : Nat) (x : CGraph) : (s.setCg g x).dbg = s.dbg := rfl
@[simp] theorem rel_setCg (g : Nat) (x : CGraph) : (s.setCg g x).rel = s.rel := rfl
@[simp] theorem qm_setCg (g : Nat) (x : CGraph) : (s.setCg g x).qm = s.qm := rfl
@[simp] theorem dsc_setCg (g : Nat) (x : CGraph) : (s.setCg g x).dsc = s.dsc := rfl
@[simp] theorem memx_setCg (g : Nat) (x : CGraph) : (s.setCg g x).memx = s.memx := rfl
@[simp] theorem lnk_setCg (g : Nat) (x : CGraph) : (s.setCg g x).lnk = s.lnk := rfl
@[simp] theorem mgt_setCg (g : Nat) (x : CGraph) : (s.setCg g x).mgt = s.mgt := rfl
@[simp] theorem frond_setCg (g : Nat) (x : CGraph) : (s.setCg g x).frond = s.frond := rfl
@[simp] theorem gs_setCg (g : Nat) (x : CGraph) : (s.setCg g x).gs = s.gs := rfl
@[simp] theorem chan_setCg (g : Nat) (x : CGraph) : (s.setCg g x).chan = s.chan := rfl
@[simp] theorem movRR_setCg (g : Nat) (x : CGraph) : (s.setCg g x).movRR = s.movRR := rfl
@[simp] theorem safe_setCg (g : Nat) (x : CGraph) : (s.setCg g x).safe = s.safe := rfl
@[simp] theorem stream_setCg (g : Nat) (x : CGraph) : (s.setCg g x).stream = s.stream := rfl
@[simp] theorem isp_setCg (g : Nat) (x : CGraph) : (s.setCg g x).isp = s.isp := rfl
@[simp] theorem brk_setCg (g : Nat) (x : CGraph) : (s.setCg g x).brk = s.brk := rfl
@[simp] theorem sec_setCg (g : Nat) (x : CGraph) : (s.setCg g x).sec = s.sec := rfl
@[simp] theorem pwr_setCg (g : Nat) (x : CGraph) : (s.setCg g x).pwr = s.pwr := rfl
@[simp] theorem boot_setCg (g : Nat) (x : CGraph) : (s.setCg g x).boot = s.boot := rfl
@[simp] theorem rd_setCg (g : Nat) (x : CGraph) (r : Nat) : (s.setCg g x).rd r = s.rd r := rfl
@[simp] theorem rdN_setCg (g : Nat) (x : CGraph) (r : Nat) : (s.setCg g x).rdN r = s.rdN r := rfl

@[simp] theorem pending_setIctx (u : Nat) (c : IspCtx) : (s.setIctx u c).pending = s.pending := rfl
@[simp] theorem regs_setIctx (u : Nat) (c : IspCtx) : (s.setIctx u c).regs = s.regs := rfl
@[simp] theorem mem_setIctx (u : Nat) (c : IspCtx) : (s.setIctx u c).mem = s.mem := rfl
@[simp] theorem chunks_setIctx (u : Nat) (c : IspCtx) : (s.setIctx u c).chunks = s.chunks := rfl
@[simp] theorem own_setIctx (u : Nat) (c : IspCtx) : (s.setIctx u c).own = s.own := rfl
@[simp] theorem pool_setIctx (u : Nat) (c : IspCtx) : (s.setIctx u c).pool = s.pool := rfl
@[simp] theorem time_setIctx (u : Nat) (c : IspCtx) : (s.setIctx u c).time = s.time := rfl
@[simp] theorem freeCtr_setIctx (u : Nat) (c : IspCtx) : (s.setIctx u c).freeCtr = s.freeCtr := rfl
@[simp] theorem out_setIctx (u : Nat) (c : IspCtx) : (s.setIctx u c).out = s.out := rfl
@[simp] theorem flags_setIctx (u : Nat) (c : IspCtx) : (s.setIctx u c).flags = s.flags := rfl
@[simp] theorem dbg_setIctx (u : Nat) (c : IspCtx) : (s.setIctx u c).dbg = s.dbg := rfl
@[simp] theorem rel_setIctx (u : Nat) (c : IspCtx) : (s.setIctx u c).rel = s.rel := rfl
@[simp] theorem qm_setIctx (u : Nat) (c : IspCtx) : (s.setIctx u c).qm = s.qm := rfl
@[simp] theorem dsc_setIctx (u : Nat) (c : IspCtx) : (s.setIctx u c).dsc = s.dsc := rfl
@[simp] theorem memx_setIctx (u : Nat) (c : IspCtx) : (s.setIctx u c).memx = s.memx := rfl
@[simp] theorem lnk_setIctx (u : Nat) (c : IspCtx) : (s.setIctx u c).lnk = s.lnk := rfl
@[simp] theorem mgt_setIctx (u : Nat) (c : IspCtx) : (s.setIctx u c).mgt = s.mgt := rfl
@[simp] theorem frond_setIctx (u : Nat) (c : IspCtx) : (s.setIctx u c).frond = s.frond := rfl
@[simp] theorem gs_setIctx (u : Nat) (c : IspCtx) : (s.setIctx u c).gs = s.gs := rfl
@[simp] theorem chan_setIctx (u : Nat) (c : IspCtx) : (s.setIctx u c).chan = s.chan := rfl
@[simp] theorem movRR_setIctx (u : Nat) (c : IspCtx) : (s.setIctx u c).movRR = s.movRR := rfl
@[simp] theorem safe_setIctx (u : Nat) (c : IspCtx) : (s.setIctx u c).safe = s.safe := rfl
@[simp] theorem crz_setIctx (u : Nat) (c : IspCtx) : (s.setIctx u c).crz = s.crz := rfl
@[simp] theorem stream_setIctx (u : Nat) (c : IspCtx) : (s.setIctx u c).stream = s.stream := rfl
@[simp] theorem brk_setIctx (u : Nat) (c : IspCtx) : (s.setIctx u c).brk = s.brk := rfl
@[simp] theorem sec_setIctx (u : Nat) (c : IspCtx) : (s.setIctx u c).sec = s.sec := rfl
@[simp] theorem pwr_setIctx (u : Nat) (c : IspCtx) : (s.setIctx u c).pwr = s.pwr := rfl
@[simp] theorem boot_setIctx (u : Nat) (c : IspCtx) : (s.setIctx u c).boot = s.boot := rfl
@[simp] theorem rd_setIctx (u : Nat) (c : IspCtx) (r : Nat) : (s.setIctx u c).rd r = s.rd r := rfl
@[simp] theorem rdN_setIctx (u : Nat) (c : IspCtx) (r : Nat) : (s.setIctx u c).rdN r = s.rdN r := rfl

@[simp] theorem pending_setSt (m : Nat) (x : Stream) : (s.setSt m x).pending = s.pending := rfl
@[simp] theorem regs_setSt (m : Nat) (x : Stream) : (s.setSt m x).regs = s.regs := rfl
@[simp] theorem mem_setSt (m : Nat) (x : Stream) : (s.setSt m x).mem = s.mem := rfl
@[simp] theorem chunks_setSt (m : Nat) (x : Stream) : (s.setSt m x).chunks = s.chunks := rfl
@[simp] theorem own_setSt (m : Nat) (x : Stream) : (s.setSt m x).own = s.own := rfl
@[simp] theorem pool_setSt (m : Nat) (x : Stream) : (s.setSt m x).pool = s.pool := rfl
@[simp] theorem time_setSt (m : Nat) (x : Stream) : (s.setSt m x).time = s.time := rfl
@[simp] theorem freeCtr_setSt (m : Nat) (x : Stream) : (s.setSt m x).freeCtr = s.freeCtr := rfl
@[simp] theorem out_setSt (m : Nat) (x : Stream) : (s.setSt m x).out = s.out := rfl
@[simp] theorem flags_setSt (m : Nat) (x : Stream) : (s.setSt m x).flags = s.flags := rfl
@[simp] theorem dbg_setSt (m : Nat) (x : Stream) : (s.setSt m x).dbg = s.dbg := rfl
@[simp] theorem rel_setSt (m : Nat) (x : Stream) : (s.setSt m x).rel = s.rel := rfl
@[simp] theorem qm_setSt (m : Nat) (x : Stream) : (s.setSt m x).qm = s.qm := rfl
@[simp] theorem dsc_setSt (m : Nat) (x : Stream) : (s.setSt m x).dsc = s.dsc := rfl
@[simp] theorem memx_setSt (m : Nat) (x : Stream) : (s.setSt m x).memx = s.memx := rfl
@[simp] theorem lnk_setSt (m : Nat) (x : Stream) : (s.setSt m x).lnk = s.lnk := rfl
@[simp] theorem mgt_setSt (m : Nat) (x : Stream) : (s.setSt m x).mgt = s.mgt := rfl
@[simp] theorem frond_setSt (m : Nat) (x : Stream) : (s.setSt m x).frond = s.frond := rfl
@[simp] theorem gs_setSt (m : Nat) (x : Stream) : (s.setSt m x).gs = s.gs := rfl
@[simp] theorem chan_setSt (m : Nat) (x : Stream) : (s.setSt m x).chan = s.chan := rfl
@[simp] theorem movRR_setSt (m : Nat) (x : Stream) : (s.setSt m x).movRR = s.movRR := rfl
@[simp] theorem safe_setSt (m : Nat) (x : Stream) : (s.setSt m x).safe = s.safe := rfl
@[simp] theorem crz_setSt (m : Nat) (x : Stream) : (s.setSt m x).crz = s.crz := rfl
@[simp] theorem isp_setSt (m : Nat) (x : Stream) : (s.setSt m x).isp = s.isp := rfl
@[simp] theorem brk_setSt (m : Nat) (x : Stream) : (s.setSt m x).brk = s.brk := rfl
@[simp] theorem sec_setSt (m : Nat) (x : Stream) : (s.setSt m x).sec = s.sec := rfl
@[simp] theorem pwr_setSt (m : Nat) (x : Stream) : (s.setSt m x).pwr = s.pwr := rfl
@[simp] theorem boot_setSt (m : Nat) (x : Stream) : (s.setSt m x).boot = s.boot := rfl
@[simp] theorem rd_setSt (m : Nat) (x : Stream) (r : Nat) : (s.setSt m x).rd r = s.rd r := rfl
@[simp] theorem rdN_setSt (m : Nat) (x : Stream) (r : Nat) : (s.setSt m x).rdN r = s.rdN r := rfl

@[simp] theorem pending_setEng (e : Nat) (x : Engine) : (s.setEng e x).pending = s.pending := rfl
@[simp] theorem regs_setEng (e : Nat) (x : Engine) : (s.setEng e x).regs = s.regs := rfl
@[simp] theorem mem_setEng (e : Nat) (x : Engine) : (s.setEng e x).mem = s.mem := rfl
@[simp] theorem chunks_setEng (e : Nat) (x : Engine) : (s.setEng e x).chunks = s.chunks := rfl
@[simp] theorem own_setEng (e : Nat) (x : Engine) : (s.setEng e x).own = s.own := rfl
@[simp] theorem pool_setEng (e : Nat) (x : Engine) : (s.setEng e x).pool = s.pool := rfl
@[simp] theorem time_setEng (e : Nat) (x : Engine) : (s.setEng e x).time = s.time := rfl
@[simp] theorem freeCtr_setEng (e : Nat) (x : Engine) : (s.setEng e x).freeCtr = s.freeCtr := rfl
@[simp] theorem out_setEng (e : Nat) (x : Engine) : (s.setEng e x).out = s.out := rfl
@[simp] theorem flags_setEng (e : Nat) (x : Engine) : (s.setEng e x).flags = s.flags := rfl
@[simp] theorem dbg_setEng (e : Nat) (x : Engine) : (s.setEng e x).dbg = s.dbg := rfl
@[simp] theorem rel_setEng (e : Nat) (x : Engine) : (s.setEng e x).rel = s.rel := rfl
@[simp] theorem qm_setEng (e : Nat) (x : Engine) : (s.setEng e x).qm = s.qm := rfl
@[simp] theorem dsc_setEng (e : Nat) (x : Engine) : (s.setEng e x).dsc = s.dsc := rfl
@[simp] theorem memx_setEng (e : Nat) (x : Engine) : (s.setEng e x).memx = s.memx := rfl
@[simp] theorem lnk_setEng (e : Nat) (x : Engine) : (s.setEng e x).lnk = s.lnk := rfl
@[simp] theorem mgt_setEng (e : Nat) (x : Engine) : (s.setEng e x).mgt = s.mgt := rfl
@[simp] theorem frond_setEng (e : Nat) (x : Engine) : (s.setEng e x).frond = s.frond := rfl
@[simp] theorem gs_setEng (e : Nat) (x : Engine) : (s.setEng e x).gs = s.gs := rfl
@[simp] theorem chan_setEng (e : Nat) (x : Engine) : (s.setEng e x).chan = s.chan := rfl
@[simp] theorem movRR_setEng (e : Nat) (x : Engine) : (s.setEng e x).movRR = s.movRR := rfl
@[simp] theorem safe_setEng (e : Nat) (x : Engine) : (s.setEng e x).safe = s.safe := rfl
@[simp] theorem crz_setEng (e : Nat) (x : Engine) : (s.setEng e x).crz = s.crz := rfl
@[simp] theorem stream_setEng (e : Nat) (x : Engine) : (s.setEng e x).stream = s.stream := rfl
@[simp] theorem isp_setEng (e : Nat) (x : Engine) : (s.setEng e x).isp = s.isp := rfl
@[simp] theorem sec_setEng (e : Nat) (x : Engine) : (s.setEng e x).sec = s.sec := rfl
@[simp] theorem pwr_setEng (e : Nat) (x : Engine) : (s.setEng e x).pwr = s.pwr := rfl
@[simp] theorem boot_setEng (e : Nat) (x : Engine) : (s.setEng e x).boot = s.boot := rfl
@[simp] theorem rd_setEng (e : Nat) (x : Engine) (r : Nat) : (s.setEng e x).rd r = s.rd r := rfl
@[simp] theorem rdN_setEng (e : Nat) (x : Engine) (r : Nat) : (s.setEng e x).rdN r = s.rdN r := rfl

@[simp] theorem pending_setPort (n : Nat) (p : LinkPort) : (s.setPort n p).pending = s.pending := rfl
@[simp] theorem regs_setPort (n : Nat) (p : LinkPort) : (s.setPort n p).regs = s.regs := rfl
@[simp] theorem mem_setPort (n : Nat) (p : LinkPort) : (s.setPort n p).mem = s.mem := rfl
@[simp] theorem chunks_setPort (n : Nat) (p : LinkPort) : (s.setPort n p).chunks = s.chunks := rfl
@[simp] theorem own_setPort (n : Nat) (p : LinkPort) : (s.setPort n p).own = s.own := rfl
@[simp] theorem pool_setPort (n : Nat) (p : LinkPort) : (s.setPort n p).pool = s.pool := rfl
@[simp] theorem time_setPort (n : Nat) (p : LinkPort) : (s.setPort n p).time = s.time := rfl
@[simp] theorem freeCtr_setPort (n : Nat) (p : LinkPort) : (s.setPort n p).freeCtr = s.freeCtr := rfl
@[simp] theorem out_setPort (n : Nat) (p : LinkPort) : (s.setPort n p).out = s.out := rfl
@[simp] theorem flags_setPort (n : Nat) (p : LinkPort) : (s.setPort n p).flags = s.flags := rfl
@[simp] theorem dbg_setPort (n : Nat) (p : LinkPort) : (s.setPort n p).dbg = s.dbg := rfl
@[simp] theorem rel_setPort (n : Nat) (p : LinkPort) : (s.setPort n p).rel = s.rel := rfl
@[simp] theorem qm_setPort (n : Nat) (p : LinkPort) : (s.setPort n p).qm = s.qm := rfl
@[simp] theorem dsc_setPort (n : Nat) (p : LinkPort) : (s.setPort n p).dsc = s.dsc := rfl
@[simp] theorem memx_setPort (n : Nat) (p : LinkPort) : (s.setPort n p).memx = s.memx := rfl
@[simp] theorem mgt_setPort (n : Nat) (p : LinkPort) : (s.setPort n p).mgt = s.mgt := rfl
@[simp] theorem frond_setPort (n : Nat) (p : LinkPort) : (s.setPort n p).frond = s.frond := rfl
@[simp] theorem gs_setPort (n : Nat) (p : LinkPort) : (s.setPort n p).gs = s.gs := rfl
@[simp] theorem chan_setPort (n : Nat) (p : LinkPort) : (s.setPort n p).chan = s.chan := rfl
@[simp] theorem movRR_setPort (n : Nat) (p : LinkPort) : (s.setPort n p).movRR = s.movRR := rfl
@[simp] theorem safe_setPort (n : Nat) (p : LinkPort) : (s.setPort n p).safe = s.safe := rfl
@[simp] theorem crz_setPort (n : Nat) (p : LinkPort) : (s.setPort n p).crz = s.crz := rfl
@[simp] theorem stream_setPort (n : Nat) (p : LinkPort) : (s.setPort n p).stream = s.stream := rfl
@[simp] theorem isp_setPort (n : Nat) (p : LinkPort) : (s.setPort n p).isp = s.isp := rfl
@[simp] theorem brk_setPort (n : Nat) (p : LinkPort) : (s.setPort n p).brk = s.brk := rfl
@[simp] theorem sec_setPort (n : Nat) (p : LinkPort) : (s.setPort n p).sec = s.sec := rfl
@[simp] theorem pwr_setPort (n : Nat) (p : LinkPort) : (s.setPort n p).pwr = s.pwr := rfl
@[simp] theorem boot_setPort (n : Nat) (p : LinkPort) : (s.setPort n p).boot = s.boot := rfl
@[simp] theorem rd_setPort (n : Nat) (p : LinkPort) (r : Nat) : (s.setPort n p).rd r = s.rd r := rfl
@[simp] theorem rdN_setPort (n : Nat) (p : LinkPort) (r : Nat) : (s.setPort n p).rdN r = s.rdN r := rfl

/-! ### Units -/

@[simp] theorem tc_setTc (n m : Nat) (f : Frond) : (s.setTc n f).tc m = if m = n then f else s.tc m := by
  simp [State.setTc, State.tc, Tab.getD_write]

@[simp] theorem flag_setFlag (i j : Nat) (f : Flag) : (s.setFlag i f).flag j = if j = i then f else s.flag j := by
  simp [State.setFlag, State.flag, Tab.getD_write]

@[simp] theorem ch_setCh (n m : Nat) (c : Chan) : (s.setCh n c).ch m = if m = n then c else s.ch m := by
  simp [State.setCh, State.ch, Tab.getD_write]

@[simp] theorem cg_setCg (g h : Nat) (x : CGraph) : (s.setCg g x).cg h = if h = g then some x else s.cg h := by
  simp [State.setCg, State.cg, Tab.get?_put]

@[simp] theorem st_setSt (m k : Nat) (x : Stream) : (s.setSt m x).st k = if k = m then x else s.st k := by
  simp [State.setSt, State.st, Tab.getD_put]

@[simp] theorem ictx_setIctx (u k : Nat) (c : IspCtx) : (s.setIctx u c).ictx k = if k = u then c else s.ictx k := by
  simp [State.setIctx, State.ictx, Tab.getD_put]

@[simp] theorem eng_setEng (e k : Nat) (x : Engine) : (s.setEng e x).eng k = if k = e then x else s.eng k := by
  simp [State.setEng, State.eng, Tab.getD_put]

end Sys2Proof.Machine
end

