-- ==== Sys2Proof/Laws/Clear.lean ====
section
/-! SUPPORT. Sys2Proof/Laws/Clear.lean: what a register reads once a group of registers has its reset values. -/

namespace Sys2Proof.Machine

/-- A key of a filtered table. -/
theorem get?_filter {α : Type} (t : Tab α) (P : Nat → Bool) (k : Nat) :
    Tab.get? (t.filter fun e => P e.1) k = if P k then Tab.get? t k else none := by
  induction t with
  | nil => simp
  | cons e t ih =>
    obtain ⟨a, v⟩ := e
    by_cases hk : a = k
    · subst hk
      cases hp : P a
      · simp [hp, ih]
      · simp [hp, Tab.get?]
    · cases hp : P a <;> simp [hp, Tab.get?, hk, ih]

/-- Cleared registers read their reset values, and the others as before. -/
theorem rd_clearRegs (s : State) (P : Nat → Bool) (a : Nat) : (s.clearRegs P).rd a = if P a then Reg.resetOf a else s.rd a := by
  simp only [State.rd, State.clearRegs, Tab.getD, get?_filter s.regs (fun a => !P a)]
  cases P a <;> simp

end Sys2Proof.Machine
end

