-- ==== Sys2Proof/Laws/Frames.lean ====
section
/-! SUPPORT. Sys2Proof/Laws/Frames.lean: what counting, reporting and tracing can change. -/

namespace Sys2Proof.Machine

namespace CountsOnly

theorem rfl' (s : State) : CountsOnly s s := rfl

theorem trans {s t u : State} (h1 : CountsOnly s t) (h2 : CountsOnly t u) : CountsOnly s u := by
  cases s; cases t; cases u; simp_all [CountsOnly]

theorem wr (s : State) (a v : Nat) : CountsOnly s (s.wr a v) := rfl

theorem irqTo (s : State) (p i : Nat) : CountsOnly s (s.irqTo p i) := by
  unfold State.irqTo State.signalVec State.count
  dsimp only
  split
  · split <;> rfl
  · rfl

theorem irq (s : State) (p i : Nat) : CountsOnly s (s.irq p i) := by
  unfold State.irq State.count
  dsimp only
  split
  · split
    · rfl
    · split
      · refine trans ?_ (irqTo _ _ _); rfl
      · rfl
  · exact irqTo _ _ _

theorem irqReg (s : State) (p a : Nat) : CountsOnly s (s.irqReg p a) := by
  unfold State.irqReg
  split
  · exact irq _ _ _
  · rfl

theorem event (s : State) (u : UnitId) (k p c a b : Nat) : CountsOnly s (s.event u k p c a b) := by
  unfold State.event State.eventRaw
  split <;> rfl

theorem bump (s : State) (a n : Nat) : CountsOnly s (s.bump a n) := by
  unfold State.bump
  dsimp only
  split
  · rfl
  · split
    · split
      · exact trans (trans (wr _ _ _) (event _ _ _ _ _ _ _)) (wr _ _ _)
      · exact trans (trans (trans (wr _ _ _) (event _ _ _ _ _ _ _)) (wr _ _ _)) (irqReg _ _ _)
    · rfl

theorem tc {s t : State} (h : CountsOnly s t) (n : Nat) : t.tc n = s.tc n := by rw [h]; rfl

theorem frond {s t : State} (h : CountsOnly s t) : t.frond = s.frond := by rw [h]

end CountsOnly


namespace ReportsOnly

theorem rfl' (s : State) : ReportsOnly s s := rfl

theorem trans {s t u : State} (h1 : ReportsOnly s t) (h2 : ReportsOnly t u) : ReportsOnly s u := by
  cases s; cases t; cases u; simp_all [ReportsOnly]

theorem of_counts {s t : State} (h : CountsOnly s t) : ReportsOnly s t := by
  cases s; cases t; simp_all [CountsOnly, ReportsOnly]

theorem wr (s : State) (a v : Nat) : ReportsOnly s (s.wr a v) := rfl

theorem bump (s : State) (a n : Nat) : ReportsOnly s (s.bump a n) := of_counts (CountsOnly.bump _ _ _)

theorem ite' {c : Prop} [Decidable c] {s a b : State} (h1 : ReportsOnly s a) (h2 : ReportsOnly s b) : ReportsOnly s (if c then a else b) := by
  split
  · exact h1
  · exact h2

theorem freezeBy (s : State) (trig dev seq : Nat) (l : Bool) : ReportsOnly s (s.freezeBy trig dev seq l) := by
  unfold State.freezeBy State.count State.eventRaw
  dsimp only
  split
  · rfl
  · split <;> rfl

theorem freezeLocal (s : State) (trig : Nat) : ReportsOnly s (s.freezeLocal trig) := freezeBy _ _ _ _ _

theorem errIrq (s : State) (p b : Nat) : ReportsOnly s (s.errIrq p b) := by
  unfold State.errIrq
  dsimp only
  split
  · split
    · exact trans (by rfl) (of_counts (CountsOnly.irqReg _ _ _))
    · rfl
  · exact trans (by rfl) (of_counts (CountsOnly.irqReg _ _ _))

theorem writePA (s : State) (p : Nat) (u : UnitId) (pa : Nat) (bs : List Byte) (bad : Bool) : ReportsOnly s (s.writePA p u pa bs bad) := by
  unfold State.writePA
  split
  · unfold State.sendRemote State.txBytes
    dsimp only
    split
    · split
      · rfl
      · exact trans (bump _ _ _) (by rfl)
    · rfl
  · unfold State.storePA
    split <;> rfl

theorem writePieces (p : Nat) (u : UnitId) (bad : Bool) (ps : List (Nat × Nat)) :
    ∀ (s : State) (bs : List Byte), ReportsOnly s (s.writePieces p u bad ps bs) := by
  induction ps with
  | nil => intro s bs; rfl
  | cons e ps ih =>
    intro s bs
    exact trans (writePA _ _ _ _ _ _) (ih _ _)

theorem writeDva {s t : State} {p : Nat} {u : UnitId} {a : Nat} {bs : List Byte} {bad : Bool} (h : s.writeDva p u a bs bad = .done t) :
    ReportsOnly s t := by
  unfold State.writeDva at h
  split at h
  · cases h
  · split at h
    · cases h
    · cases h; exact writePieces _ _ _ _ _ _

theorem logWrite (s : State) (p : Nat) (r : Report) (i q : Nat) : ReportsOnly s (s.logWrite p r i q).1 := by
  unfold State.logWrite
  dsimp only
  split
  · rfl
  · split
    · exact bump _ _ _
    · split
      · rename_i h; exact trans (writeDva h) (wr _ _ _)
      · rfl

theorem latchReport (s : State) (p : Nat) (r : Report) (i : Nat) : ReportsOnly s (s.latchReport p r i).1 := by
  unfold State.latchReport
  dsimp only
  split
  · exact trans (trans (trans (trans (trans (wr _ _ _) (wr _ _ _)) (wr _ _ _)) (wr _ _ _)) (wr _ _ _)) (wr _ _ _)
  · split <;> exact bump _ _ _

theorem reportOnce (s : State) (p : Nat) (r : Report) : ReportsOnly s (s.reportOnce p r).1 := by
  unfold State.reportOnce
  dsimp only
  generalize hL : (s.event r.rep 3 p r.code _ 0).latchReport p r _ = L
  have h1 : ReportsOnly s L.1 := by rw [← hL]; exact trans (of_counts (CountsOnly.event _ _ _ _ _ _ _)) (latchReport _ _ _ _)
  have h2 : ∀ i q, ReportsOnly s (if L.2 = true then L.1.logWrite p r i q else (L.1, false)).1 := by
    intro i q
    split
    · exact trans h1 (logWrite _ _ _ _ _)
    · exact h1
  have h3 : ∀ (x : State) (q : Tab Nat), ReportsOnly s x →
      ReportsOnly s (((({ x with rel := { x.rel with seq := q } } : State).wr (Reg.ERR_PT_PENDING p)
        (({ x with rel := { x.rel with seq := q } } : State).rdN (Reg.ERR_PT_PENDING p) ||| 2 ^ (r.code / 256))).bump (Reg.ERR_PT_REPORTS p) 1).errIrq p (r.code / 256)) := by
    intro x q hx
    exact trans (trans (trans (trans hx (by rfl)) (wr _ _ _)) (bump _ _ _)) (errIrq _ _ _)
  have h4 : ∀ (x : State) (c : Bool), ReportsOnly s x → ReportsOnly s (if c = true then x.freezeLocal 5 else x) := by
    intro x c hx
    cases c
    · exact hx
    · exact trans hx (freezeLocal _ _)
  exact h4 _ _ (h3 _ _ (h2 _ _))

theorem report (s : State) (p : Nat) (r : Report) : ReportsOnly s (s.report p r) := by
  unfold State.report
  have h := reportOnce s p r
  split
  · rename_i s1 h1; rw [h1] at h; exact h
  · rename_i s1 h1; rw [h1] at h; exact trans h (reportOnce _ _ _)

theorem err (s : State) (p : Nat) (u : UnitId) (c i : Nat) : ReportsOnly s (s.err p u c i) := report _ _ _

theorem sticky (s : State) (a i : Nat) : ReportsOnly s (s.sticky a i) := rfl

theorem latchFault (s : State) (p h : Nat) (u : UnitId) (c a : Nat) : ReportsOnly s (s.latchFault p h u c a) := by
  unfold State.latchFault
  split
  · rfl
  · exact trans (wr _ _ _) (wr _ _ _)

theorem notOwned (s : State) (p : Nat) (u : UnitId) (i : Nat) : ReportsOnly s (s.notOwned p u i) := trans (latchFault _ _ _ _ _ _) (err _ _ _ _ _)

theorem trace (s : State) (p op : Nat) (a : UnitId) (f : Nat) (acq : Bool) (b : UnitId) (v x c : Nat) :
    ReportsOnly s (s.trace p op a f acq b v x c) := by
  unfold State.trace
  dsimp only
  refine ite' (by rfl) (ite' (trans (bump _ _ _) (by rfl)) ?_)
  split
  · rename_i h; exact trans (writeDva h) (by rfl)
  · exact trans (wr _ _ _) (err _ _ _ _ _)

theorem errAll (ps : List Nat) (r : Report) : ∀ s : State, ReportsOnly s (s.errAll ps r) := by
  induction ps with
  | nil => intro s; rfl
  | cons p ps ih => intro s; exact trans (report _ _ _) (ih _)

theorem flags {s t : State} (h : ReportsOnly s t) : t.flags = s.flags := by rw [h]
theorem own {s t : State} (h : ReportsOnly s t) : t.own = s.own := by rw [h]
theorem gs {s t : State} (h : ReportsOnly s t) : t.gs = s.gs := by rw [h]

end ReportsOnly

/-! ### Flags -/

theorem flag_congr {s t : State} (h : t.flags = s.flags) (j : Nat) : t.flag j = s.flag j := by unfold State.flag; rw [h]

/-- Counting and tracing a wait that is over leaves the flags. -/
theorem waitDone_flags (s : State) (i v : Nat) (a : UnitId) (w : Wait) : (s.waitDone i v a w).flags = s.flags := by
  unfold State.waitDone
  dsimp only
  refine (ReportsOnly.trace _ _ _ _ _ _ _ _ _ _).flags.trans ?_
  have h := (CountsOnly.bump (s.progress w.pt) (Reg.SYN_PT_WAITS w.pt) 1)
  split
  · exact (ReportsOnly.of_counts (CountsOnly.trans h (CountsOnly.bump _ _ _))).flags
  · exact (ReportsOnly.of_counts h).flags

/-- Evaluating the waits of a flag ends those whose target it has reached, and changes no flag otherwise. -/
theorem evalWaits_flag (s : State) (i : Nat) (a : UnitId) (j : Nat) :
    (s.evalWaits i a).flag j = if j = i then { s.flag i with waits := (s.flag i).waits.map fun w =>
      if w.ended = none ∧ w.target ≤ (s.flag i).value then { w with ended := some 0, endedBy := a } else w } else s.flag j := by
  unfold State.evalWaits
  dsimp only
  have h : ∀ (v : Nat) (l : List Wait) (u : State), (l.foldl (fun s w => s.waitDone i v a w) u).flags = u.flags := by
    intro v l
    induction l with
    | nil => intro u; rfl
    | cons w l ih => intro u; exact (ih _).trans (waitDone_flags _ _ _ _ _)
  rw [flag_congr (h _ _ _), flag_setFlag]

end Sys2Proof.Machine
end

