-- ==== Sys2Proof/Laws/Frond.lean ====
section
/-! SUPPORT. Sys2Proof/Laws/Frond.lean: what issuing an instruction of a Frond can do. -/

namespace Sys2Proof.Machine

/-! ### Lanes -/

/-- The bytes of a number read back. -/
theorem ofLE_leBytes (n v : Nat) : ofLE (leBytes n v) = v % 256 ^ n := by
  induction n generalizing v with
  | zero => simp [leBytes, ofLE, Nat.mod_one]
  | succ n ih =>
    rw [leBytes, ofLE, ih, Nat.pow_succ, Nat.mul_comm (256 ^ n) 256, Nat.mod_mul]
    simp [BitVec.toNat_ofNat]

theorem length_leBytes (n v : Nat) : (leBytes n v).length = n := by
  induction n generalizing v with
  | zero => rfl
  | succ n ih => simp [leBytes, ih]

theorem getD_vBytes (f : Frond) (r i k : Nat) (hi : i < 64) (hk : k < 4) :
    (f.vBytes r).getD (4 * i + k) 0#8 = BitVec.ofNat 8 (f.lane r i / 256 ^ k) := by
  have key : ∀ (l : List Nat) (i : Nat), i < l.length →
      ((l.flatMap fun i => leBytes 4 (f.lane r i)).getD (4 * i + k) 0#8) = BitVec.ofNat 8 (f.lane r (l.getD i 0) / 256 ^ k) := by
    intro l
    induction l with
    | nil => intro i h; simp at h
    | cons x xs ih =>
      intro i h
      cases i with
      | zero =>
        have : k = 0 ∨ k = 1 ∨ k = 2 ∨ k = 3 := by omega
        rcases this with rfl | rfl | rfl | rfl <;> simp [leBytes, Nat.div_div_eq_div_mul]
      | succ i =>
        have e : 4 * (i + 1) + k = 4 + (4 * i + k) := by omega
        rw [List.flatMap_cons, e]
        have hl : (leBytes 4 (f.lane r x)).length = 4 := length_leBytes _ _
        rw [List.getD_append_right _ _ _ _ (by omega)]
        rw [hl, Nat.add_sub_cancel_left]
        have := ih i (by simpa using h)
        simpa using this
  have := key (List.range 64) i (by simpa using hi)
  simpa [Frond.vBytes, hi] using this

/-- The field of four bytes of a mapped range. -/
theorem getLE_map (g : Nat → Byte) (i : Nat) (hi : i < 64) :
    getLE ((List.range 256).map g) (4 * i) 4 = (g (4 * i)).toNat + 256 * ((g (4 * i + 1)).toNat + 256 * ((g (4 * i + 2)).toNat +
      256 * (g (4 * i + 3)).toNat)) := by
  have : (((List.range 256).map g).drop (4 * i)).take 4 = [g (4 * i), g (4 * i + 1), g (4 * i + 2), g (4 * i + 3)] := by
    apply List.ext_getElem
    · simp; omega
    · intro k h1 h2
      simp at h2
      have : k = 0 ∨ k = 1 ∨ k = 2 ∨ k = 3 := by omega
      rcases this with rfl | rfl | rfl | rfl <;> simp
  simp [getLE, this, ofLE]

theorem getD_foldl_write {α : Type} [DecidableEq α] (d : Nat → α) (g : Nat → α) (r n : Nat) (t : Tab α) (j : Nat) :
    ((List.range n).foldl (fun t i => Tab.write d t (r + i) (g i)) t).getD j (d j) =
      if r ≤ j ∧ j < r + n then g (j - r) else t.getD j (d j) := by
  induction n with
  | zero => simp
  | succ n ih =>
    rw [List.range_succ, List.foldl_append]
    simp only [List.foldl_cons, List.foldl_nil, Tab.getD_write, ih]
    by_cases h : j = r + n
    · subst h; simp
    · simp only [h, if_false]
      by_cases h2 : r ≤ j ∧ j < r + n
      · rw [if_pos h2, if_pos ⟨h2.1, by omega⟩]
      · rw [if_neg h2, if_neg (by omega)]

/-- A lane after a write of whole lanes. -/
theorem lane_writeLanes (f : Frond) (r : Nat) (w : Nat → Option (Nat × Bool)) (q i : Nat) (hi : i < 64) :
    (f.writeLanes r w).lane q i =
      if q = r then (match w i with | some x => x.1 % 2 ^ 32 | none => f.lane r i % 2 ^ 32) else f.lane q i := by
  unfold Frond.writeLanes Frond.writeV Frond.lane
  dsimp only
  rw [getD_foldl_write (fun _ => 0)]
  by_cases hq : q = r
  · subst hq
    rw [if_pos ⟨by omega, by omega⟩, if_pos rfl, Nat.add_sub_cancel_left, getLE_map _ _ hi]
    have e0 : 4 * i / 4 = i := by omega
    have e1 : (4 * i + 1) / 4 = i := by omega
    have e2 : (4 * i + 2) / 4 = i := by omega
    have e3 : (4 * i + 3) / 4 = i := by omega
    have m0 : 4 * i % 4 = 0 := by omega
    have m1 : (4 * i + 1) % 4 = 1 := by omega
    have m2 : (4 * i + 2) % 4 = 2 := by omega
    have m3 : (4 * i + 3) % 4 = 3 := by omega
    rw [e0, e1, e2, e3, m0, m1, m2, m3]
    cases w i with
    | some x =>
      simp only [Option.map_some, BitVec.toNat_ofNat]
      omega
    | none =>
      have h0 := getD_vBytes f q i 0 hi (by omega)
      have h1 := getD_vBytes f q i 1 hi (by omega)
      have h2 := getD_vBytes f q i 2 hi (by omega)
      have h3 := getD_vBytes f q i 3 hi (by omega)
      rw [Nat.add_zero] at h0
      simp only [Option.map_none, h0, h1, h2, h3, BitVec.toNat_ofNat, Frond.lane]
      omega
  · rw [if_neg, if_neg hq]
    intro ⟨h1, h2⟩
    rcases Nat.lt_or_gt_of_ne hq with h | h <;> omega

/-! ### Issue -/

/-- An instruction whose body succeeds is done, and the checks follow. -/
theorem issue_ok {s s2 : State} {n cls op w next : Nat} {chk : FrondCheck} {body : State → Nat → Nat → Issue}
    (h : s.issuesWord n cls op w = true) (hk : knownOp cls op = true) (hb : body s w (s.tc n).pc = .ok s2 next) :
    s.issue n cls op chk body = (s.moveOn s2 n next).afterCheck n chk := by
  simp only [State.issuesWord, Bool.and_eq_true, beq_iff_eq] at h
  obtain ⟨⟨⟨h1, h2⟩, h3⟩, h4⟩ := h
  have ha : s.atWord n = (s, true) := by unfold State.atWord; rw [h2]
  unfold State.issue
  simp only [h1, ha, h2, h3, h4, hk, hb, State.moveOn]
  simp

/-- Setting status bits. -/
theorem setArith_tc (s : State) (n st m : Nat) :
    (s.setArith n st).tc m = if m = n then { s.tc n with arith := (s.tc n).arith ||| st } else s.tc m := by
  unfold State.setArith
  split
  · rename_i h; subst h; split
    · rename_i h; subst h; simp
    · rfl
  · show ((s.setTc n _).wr _ _).tc m = _
    have : ∀ (u : State) a v, (u.wr a v).tc m = u.tc m := fun _ _ _ => rfl
    rw [this, tc_setTc]

theorem setArith_counts (s : State) (n st : Nat) : CountsOnly { s with frond := (s.setArith n st).frond } (s.setArith n st) := by
  unfold State.setArith
  split <;> rfl

/-- Going on after an instruction that wrote only its Frond and counted. -/
theorem wentOn_of {s u : State} {n : Nat} (h : CountsOnly { s with frond := u.frond } u) (hm : ∀ m, m ≠ n → u.tc m = s.tc m) :
    s.wentOn (s.moveOn u n ((s.tc n).pc + 16)) n := by
  have hw : ∀ (x : State) a v m, (x.wr a v).tc m = x.tc m := fun _ _ _ _ => rfl
  refine ⟨?_, ?_, ?_, ?_⟩
  · simp [State.moveOn, hw]
  · simp [State.moveOn]
  · intro m h'; simp [State.moveOn, hw, h', hm m h']
  · unfold CountsOnly at h ⊢
    cases s; cases u; simp_all [State.moveOn, State.wr, State.setTc, State.tc]

theorem moveOn_tc (s u : State) (n next : Nat) : (s.moveOn u n next).tc n = { u.tc n with pc := next % 2 ^ 64 } := by
  have hw : ∀ (x : State) a v m, (x.wr a v).tc m = x.tc m := fun _ _ _ _ => rfl
  simp [State.moveOn, hw]

/-- Writing lanes changes only V registers and marks. -/
theorem writeLanes_frame (f : Frond) (r : Nat) (w : Nat → Option (Nat × Bool)) :
    f.writeLanes r w = { f with v := (f.writeLanes r w).v, vBad := (f.writeLanes r w).vBad } := by
  unfold Frond.writeLanes Frond.writeV
  simp only

/-- A Frond whose V registers and marks were written, with status bits and a count, has gone on. -/
theorem ran_writes {s u : State} {n st : Nat} {F : Frond} (hF : F = { s.tc n with v := F.v, vBad := F.vBad })
    (hu : CountsOnly ((s.setTc n F).setArith n st) u) :
    s.wentOn (s.moveOn u n ((s.tc n).pc + 16)) n ∧
      (s.moveOn u n ((s.tc n).pc + 16)).tc n = { F with arith := (s.tc n).arith ||| st, pc := ((s.tc n).pc + 16) % 2 ^ 64 } := by
  have ha : F.arith = (s.tc n).arith := by rw [hF]
  have hn : u.tc n = { F with arith := (s.tc n).arith ||| st } := by
    rw [hu.tc, setArith_tc, if_pos rfl, tc_setTc, if_pos rfl, ha]
  refine ⟨wentOn_of ?_ ?_, ?_⟩
  · have h1 := setArith_counts (s.setTc n F) n st
    rw [hu.frond]
    exact CountsOnly.trans h1 hu
  · intro m hm; rw [hu.tc, setArith_tc, if_neg hm, tc_setTc, if_neg hm]
  · rw [moveOn_tc, hn]

/-- A write of lanes with status bits and a count, as what a lane instruction leaves. -/
theorem ran_lanes {s u : State} {n w st : Nat} {op : Nat → Nat → Nat → Nat × Nat} {F : Frond} {x : Nat → Option (Nat × Bool)}
    (hF : F = (s.tc n).writeLanes (fVD w) x)
    (hx : ∀ i, i < activeLanes w → (x i).map (·.1) = some (op ((s.tc n).lane (fVA w) i) ((s.tc n).opB w i).1 ((s.tc n).lane (fVC w) i)).1)
    (hy : ∀ i, activeLanes w ≤ i → x i = none)
    (hu : CountsOnly ((s.setTc n F).setArith n st) u)
    (hst : st = (List.range (activeLanes w)).foldl (fun a i => a ||| (op ((s.tc n).lane (fVA w) i) ((s.tc n).opB w i).1 ((s.tc n).lane (fVC w) i)).2) 0)
    (h64 : activeLanes w ≤ 64) :
    s.ranLanes (s.moveOn u n ((s.tc n).pc + 16)) n w op := by
  have hf : F = { s.tc n with v := F.v, vBad := F.vBad } := by rw [hF]; exact writeLanes_frame _ _ _
  have hlane : ∀ q i, i < 64 → F.lane q i =
      if q = fVD w then (match x i with | some x => x.1 % 2 ^ 32 | none => (s.tc n).lane (fVD w) i % 2 ^ 32) else (s.tc n).lane q i := by
    intro q i hi; rw [hF]; exact lane_writeLanes _ _ _ _ _ hi
  obtain ⟨h1, h2⟩ := ran_writes hf hu
  clear hF
  have hl : ∀ q i, ((s.moveOn u n ((s.tc n).pc + 16)).tc n).lane q i = F.lane q i := by intro q i; rw [h2]; rfl
  refine ⟨h1, ?_, ?_, ?_, ?_, ?_⟩
  · intro i hi
    rw [hl, hlane _ _ (by omega), if_pos rfl]
    have := hx i hi
    cases hxi : x i with
    | none => simp [hxi] at this
    | some y => simp [hxi] at this; simp [this]
  · intro i h3 h4
    rw [hl, hlane _ _ h4, if_pos rfl, hy i h3]
  · intro r i hr hi
    rw [hl, hlane _ _ hi, if_neg hr]
  · rw [h2, hst]
  · rw [h2, hf]

/-- A write of lanes and nothing else. -/
theorem moved_lanes (s : State) (n r : Nat) (x : Nat → Option (Nat × Bool)) :
    s.wentOn (s.moveOn (s.setTc n ((s.tc n).writeLanes r x)) n ((s.tc n).pc + 16)) n ∧
      ∀ q i, i < 64 → ((s.moveOn (s.setTc n ((s.tc n).writeLanes r x)) n ((s.tc n).pc + 16)).tc n).lane q i =
        if q = r then (match x i with | some y => y.1 % 2 ^ 32 | none => (s.tc n).lane r i % 2 ^ 32) else (s.tc n).lane q i := by
  have hl := lane_writeLanes (s.tc n) r x
  have hf := writeLanes_frame (s.tc n) r x
  generalize (s.tc n).writeLanes r x = F at hl hf
  obtain ⟨h1, h2⟩ := ran_writes (u := s.setTc n F) (st := 0) hf (CountsOnly.rfl' _)
  refine ⟨h1, fun q i hi => ?_⟩
  rw [h2]
  exact hl q i hi

/-- Membership in a rising list after an insertion. -/
theorem contains_insSorted (k j : Nat) (l : List Nat) : (insSorted k l).contains j = (j == k || l.contains j) := by
  have h : j ∈ insSorted k l ↔ j = k ∨ j ∈ l := by
    induction l with
    | nil => simp [insSorted]
    | cons x xs ih =>
      unfold insSorted
      split
      · simp
      · split
        · rename_i h; subst h; simp
        · simp only [List.mem_cons, ih]; tauto
  rw [Bool.eq_iff_iff]
  simpa using h

/-- A scalar register after a write. -/
theorem sreg_setS (f : Frond) (d v : Nat) (bad : Bool) (i : Nat) : (f.setS d v bad).sreg i = if i = d then v % 2 ^ 64 else f.sreg i := by
  unfold Frond.setS Frond.sreg
  exact Tab.getD_write (fun _ => 0) _ _ _ _

/-- A scalar mark after a write. -/
theorem sMark_setS (f : Frond) (d v : Nat) (bad : Bool) (i : Nat) : (f.setS d v bad).sMark i = if i = d then bad else f.sMark i := by
  unfold Frond.setS Frond.sMark
  cases bad with
  | true =>
    simp only [if_true, contains_insSorted]
    by_cases h : i = d <;> simp [h]
  | false =>
    simp only [Bool.false_eq_true, if_false]
    by_cases h : i = d
    · subst h; simp
    · rw [if_neg h, Bool.eq_iff_iff]; simp [h]

/-- A write of a scalar register with status bits and a count. -/
theorem ran_scalar {s u : State} {n d v st : Nat} {bad : Bool}
    (hu : CountsOnly ((s.setTc n ((s.tc n).setS d v bad)).setArith n st) u) :
    s.ranScalar (s.moveOn u n ((s.tc n).pc + 16)) n d v bad st := by
  have hn : u.tc n = { (s.tc n).setS d v bad with arith := (s.tc n).arith ||| st } := by
    rw [hu.tc, setArith_tc, if_pos rfl, tc_setTc, if_pos rfl]; rfl
  refine ⟨wentOn_of ?_ ?_, ?_, ?_, ?_, ?_, ?_⟩
  · have h1 := setArith_counts (s.setTc n ((s.tc n).setS d v bad)) n st
    rw [hu.frond]
    exact CountsOnly.trans h1 hu
  · intro m hm; rw [hu.tc, setArith_tc, if_neg hm, tc_setTc, if_neg hm]
  · rw [moveOn_tc, hn]; exact (sreg_setS (s.tc n) d v bad d).trans (if_pos rfl)
  · rw [moveOn_tc, hn]; exact (sMark_setS (s.tc n) d v bad d).trans (if_pos rfl)
  · intro i hi
    rw [moveOn_tc, hn]
    exact ⟨(sreg_setS (s.tc n) d v bad i).trans (if_neg hi), (sMark_setS (s.tc n) d v bad i).trans (if_neg hi)⟩
  · rw [moveOn_tc, hn]
  · rw [moveOn_tc, hn]; rfl

/-- Setting no status bit changes nothing. -/
@[simp] theorem setArith_zero (s : State) (n : Nat) : s.setArith n 0 = s := rfl

/-- An instruction whose body writes a scalar register is done as `ranScalar` says, and the checks follow. -/
theorem issue_scalar {s : State} {n cls op w d v st : Nat} {bad : Bool} {chk : FrondCheck} {body : State → Nat → Nat → Issue}
    (h : s.issuesWord n cls op w = true) (hk : knownOp cls op = true)
    (hb : ∃ u, body s w (s.tc n).pc = .ok u ((s.tc n).pc + 16) ∧ CountsOnly ((s.setTc n ((s.tc n).setS d v bad)).setArith n st) u) :
    ∃ t, s.issue n cls op chk body = t.afterCheck n chk ∧ s.ranScalar t n d v bad st := by
  obtain ⟨u, h1, h2⟩ := hb
  exact ⟨_, issue_ok h hk h1, ran_scalar h2⟩

/-- The same for one that sets no status bit. -/
theorem issue_scalar0 {s : State} {n cls op w d v : Nat} {bad : Bool} {chk : FrondCheck} {body : State → Nat → Nat → Issue}
    (h : s.issuesWord n cls op w = true) (hk : knownOp cls op = true)
    (hb : ∃ u, body s w (s.tc n).pc = .ok u ((s.tc n).pc + 16) ∧ CountsOnly (s.setTc n ((s.tc n).setS d v bad)) u) :
    ∃ t, s.issue n cls op chk body = t.afterCheck n chk ∧ s.ranScalar t n d v bad 0 := by
  obtain ⟨u, h1, h2⟩ := hb
  exact ⟨_, issue_ok h hk h1, ran_scalar h2⟩

/-- At most 64 lanes are active in a word that meets R251. -/
theorem active_le {mask w : Nat} (h : vecOk mask w = true) : activeLanes w ≤ 64 := by
  simp only [vecOk, Bool.and_eq_true, decide_eq_true_eq] at h
  unfold activeLanes
  split <;> omega

/-- The body of a lane instruction runs. -/
theorem lane_body {mask n w pc : Nat} {ok : Nat → Bool} {ub uc : Bool} {op : Nat → Nat → Nat → Nat → Nat × Nat}
    {counter : Nat → Option Nat} {s : State} (hv : vecOk mask w = true) (hb : ub = true → bFieldsOk w = true) (hok : ok w = true)
    (h1 : ub = false → ∀ a b c, op w a b c = op w a 0 c) (h2 : uc = false → ∀ a b c, op w a b c = op w a b 0) :
    ∃ u, laneBody mask ok ub uc op counter n s w pc = .ok u (pc + 16) ∧
      ∃ (x : Nat → Option (Nat × Bool)) (st : Nat), CountsOnly ((s.setTc n ((s.tc n).writeLanes (fVD w) x)).setArith n st) u ∧
      (∀ i, i < activeLanes w → (x i).map (·.1) = some (op w ((s.tc n).lane (fVA w) i) ((s.tc n).opB w i).1 ((s.tc n).lane (fVC w) i)).1) ∧
      (∀ i, activeLanes w ≤ i → x i = none) ∧
      st = (List.range (activeLanes w)).foldl (fun a i => a ||| (op w ((s.tc n).lane (fVA w) i) ((s.tc n).opB w i).1
        ((s.tc n).lane (fVC w) i)).2) 0 := by
  have hB : (ub && !bFieldsOk w) = false := by cases ub <;> simp_all
  have hval : ∀ i, op w ((s.tc n).lane (fVA w) i) (if ub = true then (s.tc n).opB w i else (0, false)).1
      (if uc = true then ((s.tc n).lane (fVC w) i, (s.tc n).vMark (fVC w) i) else (0, false)).1 =
      op w ((s.tc n).lane (fVA w) i) ((s.tc n).opB w i).1 ((s.tc n).lane (fVC w) i) := by
    intro i
    cases ub <;> cases uc <;> simp
    · rw [h1 rfl _ ((s.tc n).opB w i).1, h2 rfl _ 0 ((s.tc n).lane (fVC w) i)]
    · rw [h1 rfl _ ((s.tc n).opB w i).1]
    · rw [h2 rfl _ _ ((s.tc n).lane (fVC w) i)]
  unfold laneBody
  rw [hv, hB, hok]
  simp only [Bool.not_true, Bool.or_self, Bool.false_eq_true, if_false]
  refine ⟨_, rfl, fun i => if i < activeLanes w then some ((op w ((s.tc n).lane (fVA w) i) (if ub = true then (s.tc n).opB w i else (0, false)).1
    (if uc = true then ((s.tc n).lane (fVC w) i, (s.tc n).vMark (fVC w) i) else (0, false)).1).1,
    (s.tc n).vMark (fVA w) i || (if ub = true then (s.tc n).opB w i else (0, false)).2 ||
      (if uc = true then ((s.tc n).lane (fVC w) i, (s.tc n).vMark (fVC w) i) else (0, false)).2) else none,
    (List.range (activeLanes w)).foldl (fun a i => a ||| (op w ((s.tc n).lane (fVA w) i) (if ub = true then (s.tc n).opB w i else (0, false)).1
      (if uc = true then ((s.tc n).lane (fVC w) i, (s.tc n).vMark (fVC w) i) else (0, false)).1).2) 0, ?_, ?_, ?_, ?_⟩
  · cases counter w with
    | none => exact CountsOnly.rfl' _
    | some a => exact CountsOnly.bump _ _ _
  · intro i hi; simp only [hi, if_true, Option.map_some]; rw [hval]
  · intro i hi; simp [Nat.not_lt.mpr hi]
  · simp only [hval]

/-- A lane instruction whose word meets its rules is done as `ranLanes` says, and the checks follow. -/
theorem issue_lanes {s : State} {n cls opc w mask : Nat} {chk : FrondCheck} {ok : Nat → Bool} {ub uc : Bool}
    {op : Nat → Nat → Nat → Nat → Nat × Nat} {counter : Nat → Option Nat} (h : s.issuesWord n cls opc w = true)
    (hk : knownOp cls opc = true) (hv : vecOk mask w = true) (hb : ub = true → bFieldsOk w = true) (hok : ok w = true)
    (h1 : ub = false → ∀ a b c, op w a b c = op w a 0 c) (h2 : uc = false → ∀ a b c, op w a b c = op w a b 0) :
    ∃ t, s.issue n cls opc chk (laneBody mask ok ub uc op counter n) = t.afterCheck n chk ∧ s.ranLanes t n w (op w) := by
  obtain ⟨u, hu, x, st, hc, hx, hy, hst⟩ := lane_body (pc := (s.tc n).pc) (n := n) (counter := counter) (s := s) hv hb hok h1 h2
  exact ⟨_, issue_ok h hk hu, ran_lanes rfl hx hy hc hst (active_le hv)⟩

end Sys2Proof.Machine
end

