-- ==== Sys2Proof/Laws/Keeps.lean ====
section
/-! SUPPORT. Sys2Proof/Laws/Keeps.lean: what every operation of the model keeps, as one relation, and its laws for the operations that
write registers, memory, flags, outputs and free values. -/

namespace Sys2Proof.Machine

/-- What holds between the state before and after every operation: the queue is untouched, the invariant is kept, free values are
drawn in order, and outputs are only added. -/
structure Keeps (s t : State) : Prop where
  pending : t.pending = s.pending
  inv : s.Inv → t.Inv
  freeCtr : s.freeCtr ≤ t.freeCtr
  out : s.out <+: t.out

@[simp] theorem Keeps.refl (s : State) : Keeps s s := ⟨rfl, id, Nat.le_refl _, List.prefix_refl _⟩

theorem Keeps.trans {a b c : State} (h1 : Keeps a b) (h2 : Keeps b c) : Keeps a c :=
  ⟨h2.pending.trans h1.pending, fun h => h2.inv (h1.inv h), Nat.le_trans h1.freeCtr h2.freeCtr, h1.out.trans h2.out⟩

variable {s0 s : State}

/-- A change of anything but the queue, registers, memory, flags, the counter of free values and outputs. -/
@[simp ↓] theorem keeps_mk {chunks own pool time dbg rel qm dsc memx lnk mgt frond gs chan movRR safe crz stream isp brk sec pwr boot}
    (h : Keeps s0 s) :
    Keeps s0 ⟨s.pending, s.regs, s.mem, chunks, own, pool, time, s.freeCtr, s.out, s.flags, dbg, rel, qm, dsc, memx, lnk, mgt, frond, gs,
      chan, movRR, safe, crz, stream, isp, brk, sec, pwr, boot⟩ :=
  h.trans ⟨rfl, id, Nat.le_refl _, List.prefix_refl _⟩

/-- As `keeps_mk`, with outputs added. -/
@[simp ↓] theorem keeps_mk_out {chunks own pool time dbg rel qm dsc memx lnk mgt frond gs chan movRR safe crz stream isp brk sec pwr boot l}
    (h : Keeps s0 s) :
    Keeps s0 ⟨s.pending, s.regs, s.mem, chunks, own, pool, time, s.freeCtr, s.out ++ l, s.flags, dbg, rel, qm, dsc, memx, lnk, mgt, frond,
      gs, chan, movRR, safe, crz, stream, isp, brk, sec, pwr, boot⟩ :=
  h.trans ⟨rfl, id, Nat.le_refl _, List.prefix_append _ _⟩

/-- As `keeps_mk`, with the queue of released flag operations changed. -/
@[simp ↓] theorem keeps_mk_queue {chunks own pool time q dbg rel qm dsc memx lnk mgt frond gs chan movRR safe crz stream isp brk sec pwr boot}
    (h : Keeps s0 s) :
    Keeps s0 ⟨s.pending, s.regs, s.mem, chunks, own, pool, time, s.freeCtr, s.out, ⟨s.flags.tab, q⟩, dbg, rel, qm, dsc, memx, lnk, mgt,
      frond, gs, chan, movRR, safe, crz, stream, isp, brk, sec, pwr, boot⟩ :=
  h.trans ⟨rfl, id, Nat.le_refl _, List.prefix_refl _⟩

@[simp ↓] theorem keeps_ite {c : Prop} [Decidable c] {a b : State} (ha : c → Keeps s0 a) (hb : ¬c → Keeps s0 b) :
    Keeps s0 (if c then a else b) := by
  split
  · exact ha ‹_›
  · exact hb ‹_›

@[simp ↓] theorem keeps_ite_fst {α : Type} {c : Prop} [Decidable c] {a b : State × α} (ha : c → Keeps s0 a.1) (hb : ¬c → Keeps s0 b.1) :
    Keeps s0 (if c then a else b).1 := by
  split
  · exact ha ‹_›
  · exact hb ‹_›

@[simp ↓] theorem keeps_foldl {α : Type} (l : List α) {f : State → α → State} (h : Keeps s0 s) (hf : ∀ t x, Keeps s0 t → Keeps s0 (f t x)) :
    Keeps s0 (l.foldl f s) := by
  induction l generalizing s with
  | nil => exact h
  | cons x l ih => exact ih (hf _ _ h)

/-- `Keeps` of the outcome of a command. -/
def KeepsR (s0 : State) (r : Res) : Prop := ∀ t, r = .next t → Keeps s0 t

@[simp ↓] theorem keepsR_next (h : Keeps s0 s) : KeepsR s0 (.next s) := fun _ e => by cases e; exact h

@[simp ↓] theorem keepsR_ite {c : Prop} [Decidable c] {a b : Res} (ha : c → KeepsR s0 a) (hb : ¬c → KeepsR s0 b) :
    KeepsR s0 (if c then a else b) := by
  split
  · exact ha ‹_›
  · exact hb ‹_›

@[simp ↓] theorem keeps_wr (a v : Nat) (h : Keeps s0 s) : Keeps s0 (s.wr a v) :=
  h.trans ⟨rfl, fun h => ⟨⟨Tab.canon_write _ _ h.1.1, h.1.2⟩, h.2⟩, Nat.le_refl _, List.prefix_refl _⟩

@[simp ↓] theorem keeps_wrF (a lo w x : Nat) (h : Keeps s0 s) : Keeps s0 (s.wrF a lo w x) := keeps_wr _ _ h

@[simp ↓] theorem keeps_clearRegs (P : Nat → Bool) (h : Keeps s0 s) : Keeps s0 (s.clearRegs P) :=
  h.trans ⟨rfl, fun h => ⟨⟨Tab.canon_filter _ h.1.1, h.1.2⟩, h.2⟩, Nat.le_refl _, List.prefix_refl _⟩

@[simp ↓] theorem keeps_fresh (h : Keeps s0 s) : Keeps s0 s.fresh.2 :=
  h.trans ⟨rfl, id, Nat.le_succ _, List.prefix_refl _⟩

@[simp ↓] theorem keeps_count (a n : Nat) (h : Keeps s0 s) : Keeps s0 (s.count a n) := keeps_wr _ _ h

theorem Memory.wf_write {m : List Host.Cell} (a : Nat) (b : Byte) (h : Memory.wf m = true) : Memory.wf (Memory.write m a b) = true :=
  Tab.canon_write _ _ h

theorem Memory.wf_writeAll {m : List Host.Cell} (a : Nat) (bs : List Byte) (h : Memory.wf m = true) :
    Memory.wf (Memory.writeAll m a bs) = true := by
  induction bs generalizing m a with
  | nil => exact h
  | cons b bs ih => exact ih _ (Memory.wf_write _ _ h)

@[simp ↓] theorem keeps_storePA (a : Nat) (bs : List Byte) (bad : Bool) (h : Keeps s0 s) : Keeps s0 (s.storePA a bs bad) := by
  unfold State.storePA
  split
  · exact h
  · exact h.trans ⟨rfl, fun h => ⟨⟨h.1.1, Memory.wf_writeAll _ _ h.1.2.1, h.1.2.2⟩, h.2⟩, Nat.le_refl _, List.prefix_refl _⟩

/-- In a state that keeps the invariant a flag's value fits 32 bits. -/
theorem State.Inv.flag_lt {s : State} (h : s.Inv) (i : Nat) : (s.flag i).value < 2 ^ 32 := by
  unfold State.flag Tab.getD
  split
  · next v hv =>
    have : (i, v) ∈ s.flags.tab := by
      have := h.2
      clear this h
      revert hv
      generalize s.flags.tab = t
      induction t with
      | nil => simp
      | cons e t ih =>
        obtain ⟨k, x⟩ := e
        simp only [Tab.get?]
        split
        · rintro ⟨rfl⟩; subst_vars; simp
        · intro hv; exact List.mem_cons_of_mem _ (ih hv)
    exact h.2 _ this
  · decide

theorem keeps_setFlag (i : Nat) (f : Flag) (h : Keeps s0 s) (hv : s.Inv → f.value < 2 ^ 32) : Keeps s0 (s.setFlag i f) := by
  refine h.trans ⟨rfl, fun h => ⟨⟨h.1.1, h.1.2.1, Tab.canon_write _ _ h.1.2.2⟩, ?_⟩, Nat.le_refl _, List.prefix_refl _⟩
  intro e he
  simp only [State.setFlag, Tab.write] at he
  split at he
  · rw [Tab.del_eq_filter] at he; exact h.2 e (List.mem_filter.mp he).1
  · rcases Tab.mem_put he with rfl | he
    · exact hv h
    · exact h.2 e he

/-- A change of a flag that keeps its value. -/
@[simp ↓] theorem keeps_setFlag_same {i : Nat} {p : Bool} {w : List Wait} (h : Keeps s0 s) :
    Keeps s0 (s.setFlag i ⟨(s.flag i).value, p, w⟩) := keeps_setFlag _ _ h fun h => h.flag_lt i

/-- The state in a pair that is known. -/
theorem keeps_of_snd {α : Type} {x : α × State} {a : α} {t : State} (e : x = (a, t)) (h : Keeps s0 x.2) : Keeps s0 t := by
  rw [e] at h; exact h

theorem keeps_of_fst {α : Type} {x : State × α} {a : α} {t : State} (e : x = (t, a)) (h : Keeps s0 x.1) : Keeps s0 t := by
  rw [e] at h; exact h

/-- Flags dropped from the table. -/
theorem keeps_filterFlags (P : Nat × Flag → Bool) (q : List FlagOp) (h : Keeps s0 s) :
    Keeps s0 { s with flags := ⟨s.flags.tab.filter P, q⟩ } :=
  h.trans ⟨rfl, fun h => ⟨⟨h.1.1, h.1.2.1, Tab.canon_filter _ h.1.2.2⟩, fun e he => h.2 e (List.mem_filter.mp he).1⟩, Nat.le_refl _,
    List.prefix_refl _⟩

end Sys2Proof.Machine
end

