-- ==== Sys2Proof/Laws/KeepsOps.lean ====
section
/-! SUPPORT. Sys2Proof/Laws/KeepsOps.lean: what the operations of Machine/Ops.lean keep. -/

namespace Sys2Proof.Machine

set_option linter.unusedSimpArgs false
set_option linter.unusedTactic false
set_option linter.unreachableTactic false

@[simp ↓] theorem keeps_emit {s0 s : State} (o : Out) (hk : Keeps s0 s) : Keeps s0 (s.emit o) := by
  dsimp only [State.emit]
  repeat' first | (simp +contextual (maxDischargeDepth := 40) [hk]; done) | split

@[simp ↓] theorem keeps_eventRaw {s0 s : State} (u : UnitId) (kind pt code a b : Nat) (hk : Keeps s0 s) : Keeps s0 (s.eventRaw u kind pt code a b) := by
  dsimp only [State.eventRaw]
  repeat' first | (simp +contextual (maxDischargeDepth := 40) [hk]; done) | split

@[simp ↓] theorem keeps_event {s0 s : State} (u : UnitId) (kind pt code a b : Nat) (hk : Keeps s0 s) : Keeps s0 (s.event u kind pt code a b) := by
  dsimp only [State.event]
  repeat' first | (simp +contextual (maxDischargeDepth := 40) [hk]; done) | split

@[simp ↓] theorem keeps_signalVec {s0 s : State} (p i v : Nat) (hk : Keeps s0 s) : Keeps s0 (s.signalVec p i v) := by
  dsimp only [State.signalVec]
  repeat' first | (simp +contextual (maxDischargeDepth := 40) [hk]; done) | split

@[simp ↓] theorem keeps_irqTo {s0 s : State} (p i : Nat) (hk : Keeps s0 s) : Keeps s0 (s.irqTo p i) := by
  dsimp only [State.irqTo]
  repeat' first | (simp +contextual (maxDischargeDepth := 40) [hk]; done) | split

@[simp ↓] theorem keeps_irq {s0 s : State} (p i : Nat) (hk : Keeps s0 s) : Keeps s0 (s.irq p i) := by
  dsimp only [State.irq]
  repeat' first | (simp +contextual (maxDischargeDepth := 40) [hk]; done) | split

@[simp ↓] theorem keeps_irqReg {s0 s : State} (p a : Nat) (hk : Keeps s0 s) : Keeps s0 (s.irqReg p a) := by
  dsimp only [State.irqReg]
  repeat' first | (simp +contextual (maxDischargeDepth := 40) [hk]; done) | split

@[simp ↓] theorem keeps_bump {s0 s : State} (a n : Nat) (hk : Keeps s0 s) : Keeps s0 (s.bump a n) := by
  dsimp only [State.bump]
  repeat' first | (simp +contextual (maxDischargeDepth := 40) [hk]; done) | split

@[simp ↓] theorem keeps_rcMax {s0 s : State} (a v : Nat) (hk : Keeps s0 s) : Keeps s0 (s.rcMax a v) := by
  dsimp only [State.rcMax]
  repeat' first | (simp +contextual (maxDischargeDepth := 40) [hk]; done) | split

@[simp ↓] theorem keeps_freezeBy {s0 s : State} (trig dev seq : Nat) (isLocal : Bool) (hk : Keeps s0 s) : Keeps s0 (s.freezeBy trig dev seq isLocal) := by
  dsimp only [State.freezeBy]
  repeat' first | (simp +contextual (maxDischargeDepth := 40) [hk]; done) | split

@[simp ↓] theorem keeps_freezeLocal {s0 s : State} (trig : Nat) (hk : Keeps s0 s) : Keeps s0 (s.freezeLocal trig) := by
  dsimp only [State.freezeLocal]
  repeat' first | (simp +contextual (maxDischargeDepth := 40) [hk]; done) | split

@[simp ↓] theorem keeps_txBytes {s0 s : State} (dst src p tag n : Nat) (hk : Keeps s0 s) : Keeps s0 (s.txBytes dst src p tag n) := by
  dsimp only [State.txBytes]
  repeat' first | (simp +contextual (maxDischargeDepth := 40) [hk]; done) | split

@[simp ↓] theorem keeps_sendRemote {s0 s : State} (kind dst p : Nat) (agent : UnitId) (addr len : Nat) (data : List Byte) (poison : Nat) (hk : Keeps s0 s) : Keeps s0 (s.sendRemote kind dst p agent addr len data poison) := by
  dsimp only [State.sendRemote]
  repeat' first | (simp +contextual (maxDischargeDepth := 40) [hk]; done) | split

@[simp ↓] theorem keeps_writePA {s0 s : State} (p : Nat) (agent : UnitId) (pa : Nat) (bs : List Byte) (bad : Bool) (hk : Keeps s0 s) : Keeps s0 (s.writePA p agent pa bs bad) := by
  dsimp only [State.writePA]
  repeat' first | (simp +contextual (maxDischargeDepth := 40) [hk]; done) | split

theorem keeps_writePieces {s0 s : State} (p : Nat) (agent : UnitId) (bad : Bool) (ps : List (Nat × Nat)) (bs : List Byte)
    (h : Keeps s0 s) : Keeps s0 (s.writePieces p agent bad ps bs) := by
  induction ps generalizing s bs with
  | nil => exact h
  | cons x ps ih => exact ih _ (keeps_writePA _ _ _ _ _ h)

theorem keeps_writeDva {s0 s t : State} {p dva : Nat} {agent : UnitId} {bs : List Byte} {bad : Bool}
    (e : s.writeDva p agent dva bs bad = .done t) (h : Keeps s0 s) : Keeps s0 t := by
  unfold State.writeDva at e
  split at e
  · cases e
  · split at e
    · cases e
    · cases e; exact keeps_writePieces _ _ _ _ _ h

@[simp ↓] theorem keeps_errIrq {s0 s : State} (p b : Nat) (hk : Keeps s0 s) : Keeps s0 (s.errIrq p b) := by
  dsimp only [State.errIrq]
  repeat' first | (simp +contextual (maxDischargeDepth := 40) [hk]; done) | split

@[simp ↓] theorem keeps_logWrite {s0 s : State} (p : Nat) (r : Report) (info seq : Nat) (hk : Keeps s0 s) : Keeps s0 (s.logWrite p r info seq).1 := by
  dsimp only [State.logWrite]
  repeat' first | (simp +contextual (maxDischargeDepth := 40) [hk]; done) | (have hw := keeps_writeDva (by assumption) (by simp +contextual (maxDischargeDepth := 40) [hk] : Keeps s0 _); simp +contextual (maxDischargeDepth := 40) [hw]; done) | split

@[simp ↓] theorem keeps_latchReport {s0 s : State} (p : Nat) (r : Report) (info : Nat) (hk : Keeps s0 s) : Keeps s0 (s.latchReport p r info).1 := by
  dsimp only [State.latchReport]
  repeat' first | (simp +contextual (maxDischargeDepth := 40) [hk]; done) | split

@[simp ↓] theorem keeps_reportOnce {s0 s : State} (p : Nat) (r : Report) (hk : Keeps s0 s) : Keeps s0 (s.reportOnce p r).1 := by
  dsimp only [State.reportOnce]
  repeat' first | (simp +contextual (maxDischargeDepth := 40) [hk]; done) | split

@[simp ↓] theorem keeps_report {s0 s : State} (p : Nat) (r : Report) (h : Keeps s0 s) : Keeps s0 (s.report p r) := by
  dsimp only [State.report]
  have hk := keeps_reportOnce p r h
  split
  · next e => rw [e] at hk; exact hk
  · next e => rw [e] at hk; exact keeps_reportOnce _ _ hk

@[simp ↓] theorem keeps_err {s0 s : State} (p : Nat) (u : UnitId) (code : Nat) (info : Nat) (hk : Keeps s0 s) : Keeps s0 (s.err p u code info) := by
  dsimp only [State.err]
  repeat' first | (simp +contextual (maxDischargeDepth := 40) [hk]; done) | split

@[simp ↓] theorem keeps_evt {s0 s : State} (p : Nat) (code : Nat) (info : Nat) (hk : Keeps s0 s) : Keeps s0 (s.evt p code info) := by
  dsimp only [State.evt]
  repeat' first | (simp +contextual (maxDischargeDepth := 40) [hk]; done) | split

@[simp ↓] theorem keeps_errAll {s0 s : State} (ps : List Nat) (r : Report) (hk : Keeps s0 s) : Keeps s0 (s.errAll ps r) := by
  dsimp only [State.errAll]
  repeat' first | (simp +contextual (maxDischargeDepth := 40) [hk, ‹Keeps s0 _›]; done) | refine keeps_foldl _ ?_ fun _ _ _ => ?_ | split

@[simp ↓] theorem keeps_sticky {s0 s : State} (a i : Nat) (hk : Keeps s0 s) : Keeps s0 (s.sticky a i) := by
  dsimp only [State.sticky]
  repeat' first | (simp +contextual (maxDischargeDepth := 40) [hk]; done) | split

@[simp ↓] theorem keeps_latchFault {s0 s : State} (p handle : Nat) (u : UnitId) (cause addr : Nat) (hk : Keeps s0 s) : Keeps s0 (s.latchFault p handle u cause addr) := by
  dsimp only [State.latchFault]
  repeat' first | (simp +contextual (maxDischargeDepth := 40) [hk]; done) | split

@[simp ↓] theorem keeps_oob {s0 s : State} (p : Nat) (u : UnitId) (handle : Option Nat) (f : XFault) (addr : Nat) (hk : Keeps s0 s) : Keeps s0 (s.oob p u handle f addr) := by
  dsimp only [State.oob]
  repeat' first | (simp +contextual (maxDischargeDepth := 40) [hk]; done) | split

@[simp ↓] theorem keeps_notOwned {s0 s : State} (p : Nat) (u : UnitId) (i : Nat) (hk : Keeps s0 s) : Keeps s0 (s.notOwned p u i) := by
  dsimp only [State.notOwned]
  repeat' first | (simp +contextual (maxDischargeDepth := 40) [hk]; done) | split

@[simp ↓] theorem keeps_capChange {s0 s : State}  (hk : Keeps s0 s) : Keeps s0 s.capChange := by
  dsimp only [State.capChange]
  repeat' first | (simp +contextual (maxDischargeDepth := 40) [hk]; done) | split

@[simp ↓] theorem keeps_trace {s0 s : State} (p op : Nat) (agent : UnitId) (flag : Nat) (acq : Bool) (byU : UnitId) (value arg ctx : Nat) (hk : Keeps s0 s) : Keeps s0 (s.trace p op agent flag acq byU value arg ctx) := by
  dsimp only [State.trace]
  repeat' first | (simp +contextual (maxDischargeDepth := 40) [hk]; done) | (have hw := keeps_writeDva (by assumption) (by simp +contextual (maxDischargeDepth := 40) [hk] : Keeps s0 _); simp +contextual (maxDischargeDepth := 40) [hw]; done) | split

@[simp ↓] theorem keeps_progress {s0 s : State} (p : Nat) (hk : Keeps s0 s) : Keeps s0 (s.progress p) := by
  dsimp only [State.progress]
  repeat' first | (simp +contextual (maxDischargeDepth := 40) [hk]; done) | split

@[simp ↓] theorem keeps_waitDone {s0 s : State} (i value : Nat) (agent : UnitId) (w : Wait) (hk : Keeps s0 s) : Keeps s0 (s.waitDone i value agent w) := by
  dsimp only [State.waitDone]
  repeat' first | (simp +contextual (maxDischargeDepth := 40) [hk]; done) | split

@[simp ↓] theorem keeps_evalWaits {s0 s : State} (i : Nat) (agent : UnitId) (hk : Keeps s0 s) : Keeps s0 (s.evalWaits i agent) := by
  dsimp only [State.evalWaits]
  repeat' first | (simp +contextual (maxDischargeDepth := 40) [hk, ‹Keeps s0 _›]; done) | refine keeps_foldl _ ?_ fun _ _ _ => ?_ | split

@[simp ↓] theorem keeps_flagPoisonErr {s0 s : State} (i p q : Nat) (u : UnitId) (hk : Keeps s0 s) : Keeps s0 (s.flagPoisonErr i p q u) := by
  dsimp only [State.flagPoisonErr]
  repeat' first | (simp +contextual (maxDischargeDepth := 40) [hk]; done) | split

@[simp ↓] theorem keeps_flagSignal {s0 s : State} (p i n : Nat) (agent : UnitId) (ctx : Nat) (op : Nat) (hk : Keeps s0 s) :
    Keeps s0 (s.flagSignal p i n agent ctx op).1 := by
  dsimp only [State.flagSignal]
  split
  · exact keeps_notOwned _ _ _ hk
  · split
    · exact keeps_flagPoisonErr _ _ _ _ hk
    · split
      · simp (maxDischargeDepth := 40) [hk]
      · next hw =>
        exact keeps_evalWaits _ _ (keeps_trace _ _ _ _ _ _ _ _ _ (keeps_bump _ _ (keeps_setFlag _ _ (keeps_progress _ hk)
          fun _ => by simpa using hw)))

@[simp ↓] theorem keeps_flagSet {s0 s : State} (p i n : Nat) (agent : UnitId) (ctx : Nat) (hk : Keeps s0 s) :
    Keeps s0 (s.flagSet p i n agent ctx).1 := by
  dsimp only [State.flagSet]
  split
  · exact keeps_notOwned _ _ _ hk
  · exact keeps_evalWaits _ _ (keeps_trace _ _ _ _ _ _ _ _ _ (keeps_bump _ _ (keeps_setFlag _ _ (keeps_progress _ hk)
      fun _ => Nat.mod_lt _ (by decide))))

@[simp ↓] theorem keeps_flagWait {s0 s : State} (p i target : Nat) (agent : UnitId) (ctx : Nat) (hk : Keeps s0 s) : Keeps s0 (s.flagWait p i target agent ctx).1 := by
  dsimp only [State.flagWait]
  repeat' first | (simp +contextual (maxDischargeDepth := 40) [hk]; done) | split

@[simp ↓] theorem keeps_flagPush {s0 s : State} (op : FlagOp) (hk : Keeps s0 s) : Keeps s0 (s.flagPush op) := by
  dsimp only [State.flagPush]
  repeat' first | (simp +contextual (maxDischargeDepth := 40) [hk]; done) | split

@[simp ↓] theorem keeps_flagReg {s0 s : State} (p a n : Nat) (agent : UnitId) (hk : Keeps s0 s) : Keeps s0 (s.flagReg p a n agent) := by
  dsimp only [State.flagReg]
  repeat' first | (simp +contextual (maxDischargeDepth := 40) [hk]; done) | split

@[simp ↓] theorem keeps_dropWaits {s0 s : State} (agent : UnitId) (hk : Keeps s0 s) : Keeps s0 (s.dropWaits agent) := by
  dsimp only [State.dropWaits]
  refine keeps_foldl _ ?_ fun _ _ h => keeps_trace _ _ _ _ _ _ _ _ _ h
  refine hk.trans ⟨rfl, fun h => ⟨⟨h.1.1, h.1.2.1, ?_⟩, ?_⟩, Nat.le_refl _, List.prefix_refl _⟩
  · have hs : ∀ {lo} {t : Tab Flag}, Tab.sortedFrom lo t = true → Tab.sortedFrom lo (t.map fun e =>
        (e.1, ({ e.2 with waits := e.2.waits.filter fun w => w.agent != agent } : Flag))) = true := by
      intro lo t
      induction t generalizing lo with
      | nil => exact id
      | cons e t ih =>
        intro ht
        simp only [Tab.sortedFrom, Bool.and_eq_true, List.map_cons] at ht ⊢
        exact ⟨ht.1, ih ht.2⟩
    have hc := h.1.2.2
    simp only [Tab.canon, Bool.and_eq_true] at hc ⊢
    refine ⟨Tab.sortedFrom_filter _ (hs hc.1), List.all_eq_true.mpr fun e he => ?_⟩
    simpa using (List.mem_filter.mp he).2
  · intro e he
    obtain ⟨x, hx, rfl⟩ := List.mem_map.mp (List.mem_filter.mp he).1
    exact h.2 x hx

@[simp ↓] theorem keeps_postItem {s0 s : State} (p ring : Nat) (bytes : List Byte) (act : Option PostAct) (hk : Keeps s0 s) : Keeps s0 (s.postItem p ring bytes act) := by
  dsimp only [State.postItem]
  repeat' first | (simp +contextual (maxDischargeDepth := 40) [hk]; done) | split

@[simp ↓] theorem keeps_mgtPush {s0 s : State} (cls : Nat) (body : List Byte) (hk : Keeps s0 s) : Keeps s0 (s.mgtPush cls body) := by
  dsimp only [State.mgtPush]
  repeat' first | (simp +contextual (maxDischargeDepth := 40) [hk]; done) | split

@[simp ↓] theorem keeps_mgtEvent {s0 s : State} (cls : Nat) (body : List Byte) (hk : Keeps s0 s) : Keeps s0 (s.mgtEvent cls body) := by
  dsimp only [State.mgtEvent]
  repeat' first | (simp +contextual (maxDischargeDepth := 40) [hk]; done) | split

@[simp ↓] theorem keeps_ringIrq {s0 s : State} (p r : Nat) (hk : Keeps s0 s) : Keeps s0 (s.ringIrq p r) := by
  dsimp only [State.ringIrq]
  repeat' first | (simp +contextual (maxDischargeDepth := 40) [hk]; done) | split

@[simp ↓] theorem keeps_ringWriteBack {s0 s : State} (p r v : Nat) (hk : Keeps s0 s) : Keeps s0 (s.ringWriteBack p r v) := by
  dsimp only [State.ringWriteBack]
  repeat' first | (simp +contextual (maxDischargeDepth := 40) [hk]; done) | (have hw := keeps_writeDva (by assumption) (by simp +contextual (maxDischargeDepth := 40) [hk] : Keeps s0 _); simp +contextual (maxDischargeDepth := 40) [hw]; done) | split

@[simp ↓] theorem keeps_ringHead {s0 s : State} (p r n : Nat) (hk : Keeps s0 s) : Keeps s0 (s.ringHead p r n) := by
  dsimp only [State.ringHead]
  repeat' first | (simp +contextual (maxDischargeDepth := 40) [hk]; done) | split

@[simp ↓] theorem keeps_itemFinish {s0 s : State} (h : Handed) (code : Nat) (hk : Keeps s0 s) : Keeps s0 (s.itemFinish h code) := by
  dsimp only [State.itemFinish]
  repeat' first | (simp +contextual (maxDischargeDepth := 40) [hk]; done) | split

@[simp ↓] theorem keeps_itemDone {s0 s : State} (key code : Nat) (hk : Keeps s0 s) : Keeps s0 (s.itemDone key code) := by
  dsimp only [State.itemDone]
  repeat' first | (simp +contextual (maxDischargeDepth := 40) [hk]; done) | split

@[simp ↓] theorem keeps_chargeShare {s0 s : State} (p bytes : Nat) (hk : Keeps s0 s) : Keeps s0 (s.chargeShare p bytes) := by
  dsimp only [State.chargeShare]
  repeat' first | (simp +contextual (maxDischargeDepth := 40) [hk]; done) | split

@[simp ↓] theorem keeps_setRung {s0 s : State} (k : Nat) (hk : Keeps s0 s) : Keeps s0 (s.setRung k) := by
  dsimp only [State.setRung]
  repeat' first | (simp +contextual (maxDischargeDepth := 40) [hk]; done) | split

@[simp ↓] theorem keeps_needP0 {s0 s : State}  (hk : Keeps s0 s) : Keeps s0 s.needP0 := by
  dsimp only [State.needP0]
  repeat' first | (simp +contextual (maxDischargeDepth := 40) [hk]; done) | split

@[simp ↓] theorem keeps_wakeNow {s0 s : State} (i : Nat) (hk : Keeps s0 s) : Keeps s0 (s.wakeNow i) := by
  dsimp only [State.wakeNow]
  repeat' first | (simp +contextual (maxDischargeDepth := 40) [hk]; done) | (have hw := keeps_of_snd (by assumption) (by simp +contextual (maxDischargeDepth := 40) [hk] : Keeps s0 _); simp +contextual (maxDischargeDepth := 40) [hw, hk]; done) | (have hw := keeps_of_fst (by assumption) (by simp +contextual (maxDischargeDepth := 40) [hk] : Keeps s0 _); simp +contextual (maxDischargeDepth := 40) [hw, hk]; done) | split

@[simp ↓] theorem keeps_wake {s0 s : State} (i : Nat) (hk : Keeps s0 s) : Keeps s0 (s.wake i) := by
  dsimp only [State.wake]
  repeat' first | (simp +contextual (maxDischargeDepth := 40) [hk]; done) | (have hw := keeps_of_snd (by assumption) (by simp +contextual (maxDischargeDepth := 40) [hk] : Keeps s0 _); simp +contextual (maxDischargeDepth := 40) [hw, hk]; done) | (have hw := keeps_of_fst (by assumption) (by simp +contextual (maxDischargeDepth := 40) [hk] : Keeps s0 _); simp +contextual (maxDischargeDepth := 40) [hw, hk]; done) | split

end Sys2Proof.Machine
end

