-- ==== Sys2Proof/Laws/KeepsDescriptor.lean ====
section
/-! SUPPORT. Sys2Proof/Laws/KeepsDescriptor.lean: what the operations of Machine/Descriptor.lean keep. -/

namespace Sys2Proof.Machine

set_option linter.unusedSimpArgs false
set_option linter.unusedTactic false
set_option linter.unreachableTactic false

@[simp ↓] theorem keeps_capture {s0 s : State} (p i kind : Nat) (hk : Keeps s0 s) : Keeps s0 (s.capture p i kind).2 := by
  dsimp only [State.capture]
  repeat' first | (simp +contextual (maxDischargeDepth := 40) [hk]; done) | split

end Sys2Proof.Machine
end

