-- ==== Sys2Proof/Laws/KeepsSched.lean ====
section
/-! SUPPORT. Sys2Proof/Laws/KeepsSched.lean: what the operations of Machine/Sched.lean keep. -/

namespace Sys2Proof.Machine

set_option linter.unusedSimpArgs false
set_option linter.unusedTactic false
set_option linter.unreachableTactic false

@[simp ↓] theorem keeps_setTc {s0 s : State} (n : Nat) (f : Frond) (hk : Keeps s0 s) : Keeps s0 (s.setTc n f) := by
  dsimp only [State.setTc]
  repeat' first | (simp +contextual (maxDischargeDepth := 40) [hk]; done) | split

@[simp ↓] theorem keeps_setGraph {s0 s : State} (g : Graph) (hk : Keeps s0 s) : Keeps s0 (s.setGraph g) := by
  dsimp only [State.setGraph]
  repeat' first | (simp +contextual (maxDischargeDepth := 40) [hk]; done) | split

@[simp ↓] theorem keeps_setCopy {s0 s : State} (c : CopyId) (f : CopyRun → CopyRun) (hk : Keeps s0 s) : Keeps s0 (s.setCopy c f) := by
  dsimp only [State.setCopy]
  repeat' first | (simp +contextual (maxDischargeDepth := 40) [hk]; done) | split

@[simp ↓] theorem keeps_setRun {s0 s : State} (h : Nat) (f : GsRun → GsRun) (hk : Keeps s0 s) : Keeps s0 (s.setRun h f) := by
  dsimp only [State.setRun]
  repeat' first | (simp +contextual (maxDischargeDepth := 40) [hk]; done) | split

@[simp ↓] theorem keeps_gsErr {s0 s : State} (p code : Nat) (info : Nat) (hk : Keeps s0 s) : Keeps s0 (s.gsErr p code info) := by
  dsimp only [State.gsErr]
  repeat' first | (simp +contextual (maxDischargeDepth := 40) [hk]; done) | split

@[simp ↓] theorem keeps_gsStatus {s0 s : State}  (hk : Keeps s0 s) : Keeps s0 s.gsStatus := by
  dsimp only [State.gsStatus]
  repeat' first | (simp +contextual (maxDischargeDepth := 40) [hk, ‹Keeps s0 _›]; done) | refine keeps_foldl _ ?_ fun _ _ _ => ?_ | split

@[simp ↓] theorem keeps_gsReady {s0 s : State} (p : Nat) (hk : Keeps s0 s) : Keeps s0 (s.gsReady p) := by
  dsimp only [State.gsReady]
  repeat' first | (simp +contextual (maxDischargeDepth := 40) [hk, ‹Keeps s0 _›]; done) | refine keeps_foldl _ ?_ fun _ _ _ => ?_ | split

@[simp ↓] theorem keeps_setReady {s0 s : State} (p k : Nat) (l : List CopyId) (hk : Keeps s0 s) : Keeps s0 (s.setReady p k l) := by
  dsimp only [State.setReady]
  repeat' first | (simp +contextual (maxDischargeDepth := 40) [hk]; done) | split

@[simp ↓] theorem keeps_enqueue {s0 s : State} (p : Nat) (c : CopyId) (head : Bool) (hk : Keeps s0 s) : Keeps s0 (s.enqueue p c head) := by
  dsimp only [State.enqueue]
  repeat' first | (simp +contextual (maxDischargeDepth := 40) [hk]; done) | split

@[simp ↓] theorem keeps_dequeue {s0 s : State} (p : Nat) (P : CopyId → Bool) (hk : Keeps s0 s) : Keeps s0 (s.dequeue p P) := by
  dsimp only [State.dequeue]
  repeat' first | (simp +contextual (maxDischargeDepth := 40) [hk, ‹Keeps s0 _›]; done) | refine keeps_foldl _ ?_ fun _ _ _ => ?_ | split

@[simp ↓] theorem keeps_toMailbox {s0 s : State} (p : Nat) (b : List Byte) (hk : Keeps s0 s) : Keeps s0 (s.toMailbox p b) := by
  dsimp only [State.toMailbox]
  repeat' first | (simp +contextual (maxDischargeDepth := 40) [hk]; done) | split

@[simp ↓] theorem keeps_runEnded {s0 s : State} (p flag value : Nat) (on : Bool) (node : Option NodeRef) (code : Nat) (hk : Keeps s0 s) : Keeps s0 (s.runEnded p flag value on node code) := by
  dsimp only [State.runEnded]
  repeat' first | (simp +contextual (maxDischargeDepth := 40) [hk]; done) | split

@[simp ↓] theorem keeps_promote {s0 s : State} (n : Nat) (hk : Keeps s0 s) : Keeps s0 (s.promote n) := by
  dsimp only [State.promote]
  repeat' first | (simp +contextual (maxDischargeDepth := 40) [hk]; done) | split

@[simp ↓] theorem keeps_startZeroing {s0 s : State} (n : Nat) (hk : Keeps s0 s) : Keeps s0 (s.startZeroing n) := by
  dsimp only [State.startZeroing]
  repeat' first | (simp +contextual (maxDischargeDepth := 40) [hk]; done) | split

@[simp ↓] theorem keeps_freeFrond {s0 s : State} (n : Nat) (hk : Keeps s0 s) : Keeps s0 (s.freeFrond n) := by
  dsimp only [State.freeFrond]
  repeat' first | (simp +contextual (maxDischargeDepth := 40) [hk]; done) | split

@[simp ↓] theorem keeps_postAct {s0 s : State} (a : Option PostAct) (hk : Keeps s0 s) : Keeps s0 (s.postAct a) := by
  unfold State.postAct
  repeat' first | (simp +contextual (maxDischargeDepth := 40) [hk]; done) | split

@[simp ↓] theorem keeps_gsPost {s0 s : State} (p : Nat) (b : List Byte) (act : Option PostAct) (hk : Keeps s0 s) : Keeps s0 (s.gsPost p b act) := by
  dsimp only [State.gsPost]
  repeat' first | (simp +contextual (maxDischargeDepth := 40) [hk]; done) | split

@[simp ↓] theorem keeps_cancelOps {s0 s : State} (h : Nat) (P : Nat → Bool) (hk : Keeps s0 s) : Keeps s0 (s.cancelOps h P) := by
  dsimp only [State.cancelOps]
  repeat' first | (simp +contextual (maxDischargeDepth := 40) [hk]; done) | split

@[simp ↓] theorem keeps_frondAbort {s0 s : State} (n : Nat) (why : AbortWhy) (hk : Keeps s0 s) : Keeps s0 (s.frondAbort n why) := by
  dsimp only [State.frondAbort]
  repeat' first | (simp +contextual (maxDischargeDepth := 40) [hk]; done) | split

@[simp ↓] theorem keeps_dropPrefetched {s0 s : State} (h : Nat) (P : Nat → Bool) (hk : Keeps s0 s) : Keeps s0 (s.dropPrefetched h P) := by
  dsimp only [State.dropPrefetched]
  repeat' first | (simp +contextual (maxDischargeDepth := 40) [hk, ‹Keeps s0 _›]; done) | refine keeps_foldl _ ?_ fun _ _ _ => ?_ | split

@[simp ↓] theorem keeps_abortExecuting {s0 s : State} (h : Nat) (why : AbortWhy) (hk : Keeps s0 s) : Keeps s0 (s.abortExecuting h why) := by
  dsimp only [State.abortExecuting]
  repeat' first | (simp +contextual (maxDischargeDepth := 40) [hk, ‹Keeps s0 _›]; done) | refine keeps_foldl _ ?_ fun _ _ _ => ?_ | split

@[simp ↓] theorem keeps_abortRun {s0 s : State} (h code op : Nat) (why : AbortWhy) (hk : Keeps s0 s) : Keeps s0 (s.abortRun h code op why) := by
  dsimp only [State.abortRun]
  repeat' first | (simp +contextual (maxDischargeDepth := 40) [hk]; done) | split

@[simp ↓] theorem keeps_opFail {s0 s : State} (c : CopyId) (code : Nat) (e : EndRec) (hk : Keeps s0 s) : Keeps s0 (s.opFail c code e) := by
  dsimp only [State.opFail]
  repeat' first | (simp +contextual (maxDischargeDepth := 40) [hk]; done) | split

@[simp ↓] theorem keeps_opFailRaise {s0 s : State} (p : Nat) (c : CopyId) (code : Nat) (redisp : Bool) (hk : Keeps s0 s) : Keeps s0 (s.opFailRaise p c code redisp) := by
  dsimp only [State.opFailRaise]
  repeat' first | (simp +contextual (maxDischargeDepth := 40) [hk]; done) | split

@[simp ↓] theorem keeps_copyReady {s0 s : State} (p : Nat) (c : CopyId) (head : Bool) (hk : Keeps s0 s) : Keeps s0 (s.copyReady p c head) := by
  dsimp only [State.copyReady]
  repeat' first | (simp +contextual (maxDischargeDepth := 40) [hk]; done) | split

@[simp ↓] theorem keeps_rejudge {s0 s : State} (p : Nat) (P : CopyId → Bool) (hk : Keeps s0 s) : Keeps s0 (s.rejudge p P) := by
  dsimp only [State.rejudge]
  repeat' first | (simp +contextual (maxDischargeDepth := 40) [hk, ‹Keeps s0 _›]; done) | refine keeps_foldl _ ?_ fun _ _ _ => ?_ | split

@[simp ↓] theorem keeps_rejudgeAll {s0 s : State} (p : Nat) (hk : Keeps s0 s) : Keeps s0 (s.rejudgeAll p) := by
  dsimp only [State.rejudgeAll]
  repeat' first | (simp +contextual (maxDischargeDepth := 40) [hk]; done) | split

@[simp ↓] theorem keeps_opReady {s0 s : State} (h i : Nat) (hk : Keeps s0 s) : Keeps s0 (s.opReady h i) := by
  dsimp only [State.opReady]
  repeat' first | (simp +contextual (maxDischargeDepth := 40) [hk, ‹Keeps s0 _›]; done) | refine keeps_foldl _ ?_ fun _ _ _ => ?_ | split

@[simp ↓] theorem keeps_opDue {s0 s : State} (h i : Nat) (hk : Keeps s0 s) : Keeps s0 (s.opDue h i) := by
  dsimp only [State.opDue]
  repeat' first | (simp +contextual (maxDischargeDepth := 40) [hk, ‹Keeps s0 _›]; done) | refine keeps_foldl _ ?_ fun _ _ _ => ?_ | split

@[simp ↓] theorem keeps_releaseSucc {s0 s : State} (h i : Nat) (hk : Keeps s0 s) : Keeps s0 (s.releaseSucc h i) := by
  dsimp only [State.releaseSucc]
  repeat' first | (simp +contextual (maxDischargeDepth := 40) [hk, ‹Keeps s0 _›]; done) | refine keeps_foldl _ ?_ fun _ _ _ => ?_ | split

@[simp ↓] theorem keeps_runStart {s0 s : State} (h num larg : Nat) (node : Option NodeRef) (hk : Keeps s0 s) : Keeps s0 (s.runStart h num larg node) := by
  dsimp only [State.runStart]
  repeat' first | (simp +contextual (maxDischargeDepth := 40) [hk, ‹Keeps s0 _›]; done) | refine keeps_foldl _ ?_ fun _ _ _ => ?_ | split

@[simp ↓] theorem keeps_runEnd {s0 s : State} (h : Nat) (hk : Keeps s0 s) : Keeps s0 (s.runEnd h) := by
  dsimp only [State.runEnd]
  repeat' first | (simp +contextual (maxDischargeDepth := 40) [hk]; done) | (have hw := keeps_of_snd (by assumption) (by simp +contextual (maxDischargeDepth := 40) [hk] : Keeps s0 _); simp +contextual (maxDischargeDepth := 40) [hw, hk]; done) | (have hw := keeps_of_fst (by assumption) (by simp +contextual (maxDischargeDepth := 40) [hk] : Keeps s0 _); simp +contextual (maxDischargeDepth := 40) [hw, hk]; done) | split

@[simp ↓] theorem keeps_endRelease {s0 s : State} (e : EndRec) (hk : Keeps s0 s) : Keeps s0 (s.endRelease e) := by
  dsimp only [State.endRelease]
  repeat' first | (simp +contextual (maxDischargeDepth := 40) [hk]; done) | split

@[simp ↓] theorem keeps_settle {s0 s : State} (p n : Nat) (hk : Keeps s0 s) : Keeps s0 (s.settle p n) := by
  induction n generalizing s with
  | zero => exact hk
  | succ n ih =>
    unfold State.settle
    have hf : Keeps s0 ((s.gs.graphs.filter fun g => g.pt == p).foldl (fun s g => s.runEnd g.hdr) s) :=
      keeps_foldl _ hk fun _ _ h => keeps_runEnd _ h
    split
    · exact ih (keeps_endRelease _ hk)
    · dsimp only
      split
      · exact ih hf
      · exact hf

@[simp ↓] theorem keeps_gsSettle {s0 s : State} (p : Nat) (hk : Keeps s0 s) : Keeps s0 (s.gsSettle p) := by
  dsimp only [State.gsSettle]
  repeat' first | (simp +contextual (maxDischargeDepth := 40) [hk]; done) | split

@[simp ↓] theorem keeps_launchAs {s0 s : State} (p handle larg : Nat) (node : Option NodeRef) (hk : Keeps s0 s) : Keeps s0 (s.launchAs p handle larg node).1 := by
  dsimp only [State.launchAs]
  repeat' first | (simp +contextual (maxDischargeDepth := 40) [hk]; done) | split

@[simp ↓] theorem keeps_launch {s0 s : State} (p handle larg : Nat) (hk : Keeps s0 s) : Keeps s0 (s.launch p handle larg).1 := by
  dsimp only [State.launch]
  repeat' first | (simp +contextual (maxDischargeDepth := 40) [hk]; done) | split

@[simp ↓] theorem keeps_returnCopy {s0 s : State} (p : Nat) (c : CopyId) (hk : Keeps s0 s) : Keeps s0 (s.returnCopy p c) := by
  dsimp only [State.returnCopy]
  repeat' first | (simp +contextual (maxDischargeDepth := 40) [hk]; done) | split

@[simp ↓] theorem keeps_withdrawAll {s0 s : State} (n : Nat) (hk : Keeps s0 s) : Keeps s0 (s.withdrawAll n) := by
  dsimp only [State.withdrawAll]
  repeat' first | (simp +contextual (maxDischargeDepth := 40) [hk, ‹Keeps s0 _›]; done) | refine keeps_foldl _ ?_ fun _ _ _ => ?_ | split

@[simp ↓] theorem keeps_fenceFrond {s0 s : State} (n reason : Nat) (hk : Keeps s0 s) : Keeps s0 (s.fenceFrond n reason) := by
  dsimp only [State.fenceFrond]
  repeat' first | (simp +contextual (maxDischargeDepth := 40) [hk]; done) | split

end Sys2Proof.Machine
end

