-- ==== Sys2Proof/Laws/KeepsMoverCore.lean ====
section
/-! SUPPORT. Sys2Proof/Laws/KeepsMoverCore.lean: what the operations of Machine/MoverCore.lean keep. -/

namespace Sys2Proof.Machine

set_option linter.unusedSimpArgs false
set_option linter.unusedTactic false
set_option linter.unreachableTactic false

@[simp ↓] theorem keeps_setCh {s0 s : State} (n : Nat) (c : Chan) (hk : Keeps s0 s) : Keeps s0 (s.setCh n c) := by
  dsimp only [State.setCh]
  repeat' first | (simp +contextual (maxDischargeDepth := 40) [hk]; done) | split

@[simp ↓] theorem keeps_setChState {s0 s : State} (n v : Nat) (hk : Keeps s0 s) : Keeps s0 (s.setChState n v) := by
  dsimp only [State.setChState]
  repeat' first | (simp +contextual (maxDischargeDepth := 40) [hk]; done) | split

@[simp ↓] theorem keeps_chErr {s0 s : State} (n code : Nat) (info : Nat) (hk : Keeps s0 s) : Keeps s0 (s.chErr n code info) := by
  dsimp only [State.chErr]
  repeat' first | (simp +contextual (maxDischargeDepth := 40) [hk]; done) | split

@[simp ↓] theorem keeps_setChX {s0 s : State} (n i v : Nat) (hk : Keeps s0 s) : Keeps s0 (s.setChX n i v) := by
  dsimp only [State.setChX]
  repeat' first | (simp +contextual (maxDischargeDepth := 40) [hk]; done) | split

@[simp ↓] theorem keeps_setChRun {s0 s : State} (n : Nat) (f : ChRun → ChRun) (hk : Keeps s0 s) : Keeps s0 (s.setChRun n f) := by
  dsimp only [State.setChRun]
  repeat' first | (simp +contextual (maxDischargeDepth := 40) [hk]; done) | split

@[simp ↓] theorem keeps_chEnd {s0 s : State} (n code : Nat) (hk : Keeps s0 s) : Keeps s0 (s.chEnd n code) := by
  dsimp only [State.chEnd]
  repeat' first | (simp +contextual (maxDischargeDepth := 40) [hk]; done) | split

@[simp ↓] theorem keeps_chFail {s0 s : State} (n code : Nat) (info : Nat) (hk : Keeps s0 s) : Keeps s0 (s.chFail n code info) := by
  dsimp only [State.chFail]
  repeat' first | (simp +contextual (maxDischargeDepth := 40) [hk]; done) | split

@[simp ↓] theorem keeps_chLatch {s0 s : State} (n addr code : Nat) (isWrite : Bool) (hk : Keeps s0 s) : Keeps s0 (s.chLatch n addr code isWrite) := by
  dsimp only [State.chLatch]
  repeat' first | (simp +contextual (maxDischargeDepth := 40) [hk]; done) | split

@[simp ↓] theorem keeps_chRefused {s0 s : State} (n addr : Nat) (isWrite : Bool) (f : XFault) (hk : Keeps s0 s) : Keeps s0 (s.chRefused n addr isWrite f) := by
  dsimp only [State.chRefused]
  repeat' first | (simp +contextual (maxDischargeDepth := 40) [hk]; done) | split

@[simp ↓] theorem keeps_chFetch {s0 s : State} (n a : Nat) (hk : Keeps s0 s) : Keeps s0 (s.chFetch n a).1 := by
  dsimp only [State.chFetch]
  repeat' first | (simp +contextual (maxDischargeDepth := 40) [hk]; done) | split

@[simp ↓] theorem keeps_chBegin {s0 s : State} (n prog : Nat) (args : List Nat) (node : Option NodeRef) (hk : Keeps s0 s) : Keeps s0 (s.chBegin n prog args node) := by
  dsimp only [State.chBegin]
  repeat' first | (simp +contextual (maxDischargeDepth := 40) [hk, ‹Keeps s0 _›]; done) | refine keeps_foldl _ ?_ fun _ _ _ => ?_ | split

@[simp ↓] theorem keeps_movStart {s0 s : State} (n : Nat) (params : Option (Nat × List Nat)) (node : Option NodeRef) (hk : Keeps s0 s) : Keeps s0 (s.movStart n params node).1 := by
  dsimp only [State.movStart]
  repeat' first | (simp +contextual (maxDischargeDepth := 40) [hk, ‹Keeps s0 _›]; done) | (have hw := keeps_of_snd (by assumption) (by simp +contextual (maxDischargeDepth := 40) [hk] : Keeps s0 _); simp +contextual (maxDischargeDepth := 40) [hw, hk]; done) | (have hw := keeps_of_fst (by assumption) (by simp +contextual (maxDischargeDepth := 40) [hk] : Keeps s0 _); simp +contextual (maxDischargeDepth := 40) [hw, hk]; done) | refine keeps_foldl _ ?_ fun _ _ _ => ?_ | split

@[simp ↓] theorem keeps_chReleases {s0 s : State} (n k : Nat) (hk : Keeps s0 s) : Keeps s0 (s.chReleases n k) := by
  induction k generalizing s with
  | zero => exact hk
  | succ k ih =>
    dsimp only [State.chReleases]
    repeat' first | (simp +contextual (maxDischargeDepth := 40) [hk, ih]; done) | split

@[simp ↓] theorem keeps_chVisible {s0 s : State} (n id : Nat) (hk : Keeps s0 s) : Keeps s0 (s.chVisible n id) := by
  dsimp only [State.chVisible]
  repeat' first | (simp +contextual (maxDischargeDepth := 40) [hk]; done) | split

set_option maxHeartbeats 1000000 in
@[simp ↓] theorem keeps_chStep {s0 s : State} (n op : Nat) (body : State → Nat → Nat → State) (hk : Keeps s0 s)
    (hb : ∀ t w pc, Keeps s0 t → Keeps s0 (body t w pc)) : Keeps s0 (s.chStep n op body) := by
  have h1 : ∀ o : Option Nat, Keeps s0 (match o with
      | some _ => (s, true)
      | none => s.chFetch n (s.rdN (Reg.MOV_CH_PC n))).1 := by
    intro o
    split
    · exact hk
    · exact keeps_chFetch _ _ hk
  dsimp only [State.chStep]
  repeat' first | (simp +contextual (maxDischargeDepth := 40) [hk, h1, hb]; done) | split

@[simp ↓] theorem keeps_chDepth {s0 s : State} (n : Nat) (hk : Keeps s0 s) : Keeps s0 (s.chDepth n) := by
  dsimp only [State.chDepth]
  repeat' first | (simp +contextual (maxDischargeDepth := 40) [hk]; done) | split

@[simp ↓] theorem keeps_loopBody {s0 s : State} (n : Nat) (w pc : Nat) (hk : Keeps s0 s) : Keeps s0 (loopBody n s w pc) := by
  dsimp only [loopBody]
  repeat' first | (simp +contextual (maxDischargeDepth := 40) [hk]; done) | (have hw := keeps_of_snd (by assumption) (by simp +contextual (maxDischargeDepth := 40) [hk] : Keeps s0 _); simp +contextual (maxDischargeDepth := 40) [hw, hk]; done) | (have hw := keeps_of_fst (by assumption) (by simp +contextual (maxDischargeDepth := 40) [hk] : Keeps s0 _); simp +contextual (maxDischargeDepth := 40) [hw, hk]; done) | split

@[simp ↓] theorem keeps_endlBody {s0 s : State} (n : Nat) (w pc : Nat) (hk : Keeps s0 s) : Keeps s0 (endlBody n s w pc) := by
  dsimp only [endlBody]
  repeat' first | (simp +contextual (maxDischargeDepth := 40) [hk]; done) | (have hw := keeps_of_snd (by assumption) (by simp +contextual (maxDischargeDepth := 40) [hk] : Keeps s0 _); simp +contextual (maxDischargeDepth := 40) [hw, hk]; done) | (have hw := keeps_of_fst (by assumption) (by simp +contextual (maxDischargeDepth := 40) [hk] : Keeps s0 _); simp +contextual (maxDischargeDepth := 40) [hw, hk]; done) | split

@[simp ↓] theorem keeps_chWaitBody {s0 s : State} (n : Nat) (w pc : Nat) (hk : Keeps s0 s) : Keeps s0 (chWaitBody n s w pc) := by
  dsimp only [chWaitBody]
  repeat' first | (simp +contextual (maxDischargeDepth := 40) [hk]; done) | split

@[simp ↓] theorem keeps_chSignalBody {s0 s : State} (n : Nat) (w pc : Nat) (hk : Keeps s0 s) : Keeps s0 (chSignalBody n s w pc) := by
  dsimp only [chSignalBody]
  repeat' first | (simp +contextual (maxDischargeDepth := 40) [hk]; done) | split

@[simp ↓] theorem keeps_setvBody {s0 s : State} (n : Nat) (w pc : Nat) (hk : Keeps s0 s) : Keeps s0 (setvBody n s w pc) := by
  dsimp only [setvBody]
  repeat' first | (simp +contextual (maxDischargeDepth := 40) [hk]; done) | split

@[simp ↓] theorem keeps_haltBody {s0 s : State} (n : Nat) (w pc : Nat) (hk : Keeps s0 s) : Keeps s0 (haltBody n s w pc) := by
  dsimp only [haltBody]
  repeat' first | (simp +contextual (maxDischargeDepth := 40) [hk]; done) | split

@[simp ↓] theorem keeps_moveBody {s0 s : State} (n : Nat) (w pc : Nat) (hk : Keeps s0 s) : Keeps s0 (moveBody n s w pc) := by
  dsimp only [moveBody]
  repeat' first | (simp +contextual (maxDischargeDepth := 40) [hk]; done) | (have hw := keeps_of_snd (by assumption) (by simp +contextual (maxDischargeDepth := 40) [hk] : Keeps s0 _); simp +contextual (maxDischargeDepth := 40) [hw, hk]; done) | (have hw := keeps_of_fst (by assumption) (by simp +contextual (maxDischargeDepth := 40) [hk] : Keeps s0 _); simp +contextual (maxDischargeDepth := 40) [hw, hk]; done) | split

@[simp ↓] theorem keeps_movxBody {s0 s : State} (n : Nat) (w pc : Nat) (hk : Keeps s0 s) : Keeps s0 (movxBody n s w pc) := by
  dsimp only [movxBody]
  repeat' first | (simp +contextual (maxDischargeDepth := 40) [hk]; done) | split

@[simp ↓] theorem keeps_chEntry {s0 s : State} (n k : Nat) (hk : Keeps s0 s) : Keeps s0 (s.chEntry n k).1 := by
  induction k generalizing s with
  | zero => exact hk
  | succ k ih =>
    dsimp only [State.chEntry]
    repeat' first | (simp +contextual (maxDischargeDepth := 40) [hk, ih]; done) | split

@[simp ↓] theorem keeps_chRetire {s0 s : State} (n : Nat) (hk : Keeps s0 s) : Keeps s0 (s.chRetire n) := by
  dsimp only [State.chRetire]
  repeat' first | (simp +contextual (maxDischargeDepth := 40) [hk, ‹Keeps s0 _›]; done) | (have hw := keeps_of_snd (by assumption) (by simp +contextual (maxDischargeDepth := 40) [hk] : Keeps s0 _); simp +contextual (maxDischargeDepth := 40) [hw, hk]; done) | (have hw := keeps_of_fst (by assumption) (by simp +contextual (maxDischargeDepth := 40) [hk] : Keeps s0 _); simp +contextual (maxDischargeDepth := 40) [hw, hk]; done) | refine keeps_foldl _ ?_ fun _ _ _ => ?_ | split

@[simp ↓] theorem keeps_chHaltCheck {s0 s : State} (n : Nat) (hk : Keeps s0 s) : Keeps s0 (s.chHaltCheck n) := by
  dsimp only [State.chHaltCheck]
  repeat' first | (simp +contextual (maxDischargeDepth := 40) [hk]; done) | split

@[simp ↓] theorem keeps_chBeatFailed {s0 s : State} (n : Nat) (b : Beat) (isWrite : Bool) (hk : Keeps s0 s) : Keeps s0 (s.chBeatFailed n b isWrite) := by
  dsimp only [State.chBeatFailed]
  repeat' first | (simp +contextual (maxDischargeDepth := 40) [hk]; done) | split

@[simp ↓] theorem keeps_chIssueRead {s0 s : State} (n : Nat) (b : Beat) (hk : Keeps s0 s) : Keeps s0 (s.chIssueRead n b) := by
  dsimp only [State.chIssueRead]
  repeat' first | (simp +contextual (maxDischargeDepth := 40) [hk]; done) | (have hw := keeps_of_snd (by assumption) (by simp +contextual (maxDischargeDepth := 40) [hk] : Keeps s0 _); simp +contextual (maxDischargeDepth := 40) [hw, hk]; done) | (have hw := keeps_of_fst (by assumption) (by simp +contextual (maxDischargeDepth := 40) [hk] : Keeps s0 _); simp +contextual (maxDischargeDepth := 40) [hw, hk]; done) | split

@[simp ↓] theorem keeps_chReadBeat {s0 s : State} (n : Nat) (hk : Keeps s0 s) : Keeps s0 (s.chReadBeat n) := by
  dsimp only [State.chReadBeat]
  repeat' first | (simp +contextual (maxDischargeDepth := 40) [hk]; done) | split

@[simp ↓] theorem keeps_chWriteBeat {s0 s : State} (n : Nat) (hk : Keeps s0 s) : Keeps s0 (s.chWriteBeat n) := by
  dsimp only [State.chWriteBeat]
  repeat' first | (simp +contextual (maxDischargeDepth := 40) [hk]; done) | (have hw := keeps_of_snd (by assumption) (by simp +contextual (maxDischargeDepth := 40) [hk] : Keeps s0 _); simp +contextual (maxDischargeDepth := 40) [hw, hk]; done) | (have hw := keeps_of_fst (by assumption) (by simp +contextual (maxDischargeDepth := 40) [hk] : Keeps s0 _); simp +contextual (maxDischargeDepth := 40) [hw, hk]; done) | split

@[simp ↓] theorem keeps_beatIssue {s0 s : State} (m : Nat) (isWrite : Bool) (hk : Keeps s0 s) : Keeps s0 (s.beatIssue m isWrite) := by
  dsimp only [State.beatIssue]
  repeat' first | (simp +contextual (maxDischargeDepth := 40) [hk, ‹Keeps s0 _›]; done) | refine keeps_foldl _ ?_ fun _ _ _ => ?_ | split

@[simp ↓] theorem keeps_chReadReturn {s0 s : State} (n : Nat) (hk : Keeps s0 s) : Keeps s0 (s.chReadReturn n) := by
  dsimp only [State.chReadReturn]
  repeat' first | (simp +contextual (maxDischargeDepth := 40) [hk]; done) | split

@[simp ↓] theorem keeps_chWriteAck {s0 s : State} (n : Nat) (hk : Keeps s0 s) : Keeps s0 (s.chWriteAck n) := by
  dsimp only [State.chWriteAck]
  repeat' first | (simp +contextual (maxDischargeDepth := 40) [hk]; done) | split

@[simp ↓] theorem keeps_chBus {s0 s : State} (n : Nat) (isWrite : Bool) (P : Beat → Bool) (hk : Keeps s0 s) : Keeps s0 (s.chBus n isWrite P) := by
  dsimp only [State.chBus]
  repeat' first | (simp +contextual (maxDischargeDepth := 40) [hk]; done) | split

@[simp ↓] theorem keeps_sporeDrop {s0 s : State} (n code : Nat) (hk : Keeps s0 s) : Keeps s0 (s.sporeDrop n code) := by
  dsimp only [State.sporeDrop]
  repeat' first | (simp +contextual (maxDischargeDepth := 40) [hk]; done) | split

@[simp ↓] theorem keeps_channelBusError {s0 s : State} (n : Nat) (isWrite : Bool) (pa : Nat) (hk : Keeps s0 s) : Keeps s0 (s.channelBusError n isWrite pa) := by
  dsimp only [State.channelBusError]
  repeat' first | (simp +contextual (maxDischargeDepth := 40) [hk]; done) | split

@[simp ↓] theorem keeps_chRemoteRefused {s0 s : State} (n code pa : Nat) (hk : Keeps s0 s) : Keeps s0 (s.chRemoteRefused n code pa) := by
  dsimp only [State.chRemoteRefused]
  repeat' first | (simp +contextual (maxDischargeDepth := 40) [hk]; done) | split

@[simp ↓] theorem keeps_chWriteRecord {s0 s : State} (n : Nat) (r : ChRun) (code : Nat) (hk : Keeps s0 s) : Keeps s0 (s.chWriteRecord n r code) := by
  dsimp only [State.chWriteRecord]
  repeat' first | (simp +contextual (maxDischargeDepth := 40) [hk]; done) | (have hw := keeps_of_snd (by assumption) (by simp +contextual (maxDischargeDepth := 40) [hk] : Keeps s0 _); simp +contextual (maxDischargeDepth := 40) [hw, hk]; done) | (have hw := keeps_of_fst (by assumption) (by simp +contextual (maxDischargeDepth := 40) [hk] : Keeps s0 _); simp +contextual (maxDischargeDepth := 40) [hw, hk]; done) | split

@[simp ↓] theorem keeps_chRunComplete {s0 s : State} (n : Nat) (hk : Keeps s0 s) : Keeps s0 (s.chRunComplete n) := by
  dsimp only [State.chRunComplete]
  repeat' first | (simp +contextual (maxDischargeDepth := 40) [hk]; done) | split

@[simp ↓] theorem keeps_chAbort {s0 s : State} (n code : Nat) (hk : Keeps s0 s) : Keeps s0 (s.chAbort n code) := by
  dsimp only [State.chAbort]
  repeat' first | (simp +contextual (maxDischargeDepth := 40) [hk]; done) | split

@[simp ↓] theorem keeps_resetChannel {s0 s : State} (n : Nat) (hk : Keeps s0 s) : Keeps s0 (s.resetChannel n) := by
  dsimp only [State.resetChannel]
  repeat' first | (simp +contextual (maxDischargeDepth := 40) [hk]; done) | split

@[simp ↓] theorem keeps_chWaitOver {s0 s : State} (n code : Nat) (hk : Keeps s0 s) : Keeps s0 (s.chWaitOver n code) := by
  dsimp only [State.chWaitOver]
  repeat' first | (simp +contextual (maxDischargeDepth := 40) [hk]; done) | split

@[simp ↓] theorem keeps_sporeSubmit {s0 s : State} (n ctl : Nat) (hk : Keeps s0 s) : Keeps s0 (s.sporeSubmit n ctl) := by
  dsimp only [State.sporeSubmit]
  repeat' first | (simp +contextual (maxDischargeDepth := 40) [hk]; done) | (have hw := keeps_of_snd (by assumption) (by simp +contextual (maxDischargeDepth := 40) [hk] : Keeps s0 _); simp +contextual (maxDischargeDepth := 40) [hw, hk]; done) | (have hw := keeps_of_fst (by assumption) (by simp +contextual (maxDischargeDepth := 40) [hk] : Keeps s0 _); simp +contextual (maxDischargeDepth := 40) [hw, hk]; done) | split

@[simp ↓] theorem keeps_sporeStore {s0 s : State} (n a : Nat) (i : Bool) (pa k : Nat) (bs : List Byte) (hk : Keeps s0 s) :
    Keeps s0 (s.sporeStore n a i pa k bs) := by
  induction k generalizing s a pa bs with
  | zero => exact hk
  | succ k ih =>
    dsimp only [State.sporeStore]
    repeat' first | (simp +contextual (maxDischargeDepth := 40) [hk, ih]; done) | split

@[simp ↓] theorem keeps_sporeFail {s0 s : State} (n code : Nat) (f : Option (XFault × Nat)) (hk : Keeps s0 s) : Keeps s0 (s.sporeFail n code f) := by
  dsimp only [State.sporeFail]
  repeat' first | (simp +contextual (maxDischargeDepth := 40) [hk]; done) | (have hw := keeps_of_snd (by assumption) (by simp +contextual (maxDischargeDepth := 40) [hk] : Keeps s0 _); simp +contextual (maxDischargeDepth := 40) [hw, hk]; done) | (have hw := keeps_of_fst (by assumption) (by simp +contextual (maxDischargeDepth := 40) [hk] : Keeps s0 _); simp +contextual (maxDischargeDepth := 40) [hw, hk]; done) | split

@[simp ↓] theorem keeps_sporeFinish {s0 s : State} (n : Nat) (x : Spore) (hk : Keeps s0 s) : Keeps s0 (s.sporeFinish n x) := by
  dsimp only [State.sporeFinish]
  repeat' first | (simp +contextual (maxDischargeDepth := 40) [hk]; done) | split

@[simp ↓] theorem keeps_sporeMove {s0 s : State} (n : Nat) (x : Spore) (xs : List Spore) (dpa spa : Nat) (bs : List Byte) (hk : Keeps s0 s) : Keeps s0 (s.sporeMove n x xs dpa spa bs) := by
  dsimp only [State.sporeMove]
  repeat' first | (simp +contextual (maxDischargeDepth := 40) [hk]; done) | (have hw := keeps_of_snd (by assumption) (by simp +contextual (maxDischargeDepth := 40) [hk] : Keeps s0 _); simp +contextual (maxDischargeDepth := 40) [hw, hk]; done) | (have hw := keeps_of_fst (by assumption) (by simp +contextual (maxDischargeDepth := 40) [hk] : Keeps s0 _); simp +contextual (maxDischargeDepth := 40) [hw, hk]; done) | split

@[simp ↓] theorem keeps_sporeStep {s0 s : State} (n : Nat) (hk : Keeps s0 s) : Keeps s0 (s.sporeStep n) := by
  dsimp only [State.sporeStep]
  repeat' first | (simp +contextual (maxDischargeDepth := 40) [hk]; done) | (have hw := keeps_of_snd (by assumption) (by simp +contextual (maxDischargeDepth := 40) [hk] : Keeps s0 _); simp +contextual (maxDischargeDepth := 40) [hw, hk]; done) | (have hw := keeps_of_fst (by assumption) (by simp +contextual (maxDischargeDepth := 40) [hk] : Keeps s0 _); simp +contextual (maxDischargeDepth := 40) [hw, hk]; done) | split

end Sys2Proof.Machine
end

