-- ==== Sys2Proof/Laws/KeepsCrozierCore.lean ====
section
/-! SUPPORT. Sys2Proof/Laws/KeepsCrozierCore.lean: what the operations of Machine/CrozierCore.lean keep. -/

namespace Sys2Proof.Machine

set_option linter.unusedSimpArgs false
set_option linter.unusedTactic false
set_option linter.unreachableTactic false

@[simp ↓] theorem keeps_setCg {s0 s : State} (g : Nat) (x : CGraph) (hk : Keeps s0 s) : Keeps s0 (s.setCg g x) := by
  dsimp only [State.setCg]
  repeat' first | (simp +contextual (maxDischargeDepth := 40) [hk]; done) | split

@[simp ↓] theorem keeps_setInst {s0 s : State} (g seq : Nat) (f : CInst → CInst) (hk : Keeps s0 s) : Keeps s0 (s.setInst g seq f) := by
  dsimp only [State.setInst]
  repeat' first | (simp +contextual (maxDischargeDepth := 40) [hk]; done) | split

@[simp ↓] theorem keeps_setNode {s0 s : State} (r : NodeRef) (f : NodeRun → NodeRun) (hk : Keeps s0 s) : Keeps s0 (s.setNode r f) := by
  dsimp only [State.setNode]
  repeat' first | (simp +contextual (maxDischargeDepth := 40) [hk]; done) | split

@[simp ↓] theorem keeps_crzErr {s0 s : State} (g code : Nat) (info : Nat) (hk : Keeps s0 s) : Keeps s0 (s.crzErr g code info) := by
  dsimp only [State.crzErr]
  repeat' first | (simp +contextual (maxDischargeDepth := 40) [hk]; done) | split

@[simp ↓] theorem keeps_crzRelease {s0 s : State}  (hk : Keeps s0 s) : Keeps s0 s.crzRelease := by
  dsimp only [State.crzRelease]
  repeat' first | (simp +contextual (maxDischargeDepth := 40) [hk, ‹Keeps s0 _›]; done) | refine keeps_foldl _ ?_ fun _ _ _ => ?_ | split

set_option maxHeartbeats 1000000 in
@[simp ↓] theorem keeps_crzAdvance {s0 s : State} (r : NodeRef) (rows : Nat) (final : Bool) (sel : Option Nat) (exact_ : Bool) (hk : Keeps s0 s) : Keeps s0 (s.crzAdvance r rows final sel exact_) := by
  dsimp only [State.crzAdvance]
  repeat' first | (simp +contextual (maxDischargeDepth := 40) [hk, ‹Keeps s0 _›]; done) | refine keeps_foldl _ ?_ fun _ _ _ => ?_ | split

@[simp ↓] theorem keeps_setIctx {s0 s : State} (u : Nat) (c : IspCtx) (hk : Keeps s0 s) : Keeps s0 (s.setIctx u c) := by
  dsimp only [State.setIctx]
  repeat' first | (simp +contextual (maxDischargeDepth := 40) [hk]; done) | split

@[simp ↓] theorem keeps_setSt {s0 s : State} (m : Nat) (x : Stream) (hk : Keeps s0 s) : Keeps s0 (s.setSt m x) := by
  dsimp only [State.setSt]
  repeat' first | (simp +contextual (maxDischargeDepth := 40) [hk]; done) | split

@[simp ↓] theorem keeps_setEng {s0 s : State} (e : Nat) (x : Engine) (hk : Keeps s0 s) : Keeps s0 (s.setEng e x) := by
  dsimp only [State.setEng]
  repeat' first | (simp +contextual (maxDischargeDepth := 40) [hk]; done) | split

@[simp ↓] theorem keeps_ispPost {s0 s : State} (u dva : Nat) (hk : Keeps s0 s) : Keeps s0 (s.ispPost u dva) := by
  dsimp only [State.ispPost]
  repeat' first | (simp +contextual (maxDischargeDepth := 40) [hk]; done) | split

@[simp ↓] theorem keeps_unitForget {s0 s : State} (r : NodeRef) (n : CNode) (hk : Keeps s0 s) : Keeps s0 (s.unitForget r n) := by
  dsimp only [State.unitForget]
  repeat' first | (simp +contextual (maxDischargeDepth := 40) [hk]; done) | split

@[simp ↓] theorem keeps_crzDone {s0 s : State} (r : NodeRef) (code : Nat) (hk : Keeps s0 s) : Keeps s0 (s.crzDone r code) := by
  dsimp only [State.crzDone]
  repeat' first | (simp +contextual (maxDischargeDepth := 40) [hk]; done) | split

@[simp ↓] theorem keeps_brkEnd {s0 s : State} (e k : Nat) (code : Nat) (hk : Keeps s0 s) : Keeps s0 (s.brkEnd e k code) := by
  dsimp only [State.brkEnd]
  repeat' first | (simp +contextual (maxDischargeDepth := 40) [hk]; done) | split

@[simp ↓] theorem keeps_brkErr {s0 s : State} (e p code : Nat) (info : Nat) (hk : Keeps s0 s) : Keeps s0 (s.brkErr e p code info) := by
  dsimp only [State.brkErr]
  repeat' first | (simp +contextual (maxDischargeDepth := 40) [hk]; done) | split

@[simp ↓] theorem keeps_unitAbort {s0 s : State} (r : NodeRef) (n : CNode) (hk : Keeps s0 s) : Keeps s0 (s.unitAbort r n) := by
  dsimp only [State.unitAbort]
  repeat' first | (simp +contextual (maxDischargeDepth := 40) [hk]; done) | (have hw := keeps_of_snd (by assumption) (by simp +contextual (maxDischargeDepth := 40) [hk] : Keeps s0 _); simp +contextual (maxDischargeDepth := 40) [hw, hk]; done) | (have hw := keeps_of_fst (by assumption) (by simp +contextual (maxDischargeDepth := 40) [hk] : Keeps s0 _); simp +contextual (maxDischargeDepth := 40) [hw, hk]; done) | split

@[simp ↓] theorem keeps_dropAwaits {s0 s : State} (r : NodeRef) (hk : Keeps s0 s) : Keeps s0 (s.dropAwaits r) := by
  dsimp only [State.dropAwaits]
  repeat' first | (simp +contextual (maxDischargeDepth := 40) [hk, ‹Keeps s0 _›]; done) | refine keeps_foldl _ ?_ fun _ _ _ => ?_ | split

@[simp ↓] theorem keeps_stopNode {s0 s : State} (r : NodeRef) (code : Nat) (hk : Keeps s0 s) : Keeps s0 (s.stopNode r code) := by
  dsimp only [State.stopNode]
  repeat' first | (simp +contextual (maxDischargeDepth := 40) [hk]; done) | split

@[simp ↓] theorem keeps_instAbort {s0 s : State} (g seq code : Nat) (hk : Keeps s0 s) : Keeps s0 (s.instAbort g seq code) := by
  dsimp only [State.instAbort]
  repeat' first | (simp +contextual (maxDischargeDepth := 40) [hk, ‹Keeps s0 _›]; done) | refine keeps_foldl _ ?_ fun _ _ _ => ?_ | split

@[simp ↓] theorem keeps_nodeFail {s0 s : State} (r : NodeRef) (code : Nat) (hk : Keeps s0 s) : Keeps s0 (s.nodeFail r code) := by
  dsimp only [State.nodeFail]
  repeat' first | (simp +contextual (maxDischargeDepth := 40) [hk, ‹Keeps s0 _›]; done) | refine keeps_foldl _ ?_ fun _ _ _ => ?_ | split

@[simp ↓] theorem keeps_launchBad {s0 s : State} (r : NodeRef) (n : CNode) (code : Nat) (hk : Keeps s0 s) : Keeps s0 (s.launchBad r n code) := by
  dsimp only [State.launchBad]
  repeat' first | (simp +contextual (maxDischargeDepth := 40) [hk]; done) | split

@[simp ↓] theorem keeps_acceptNode {s0 s : State} (r : NodeRef) (n : CNode) (run : NodeRun) (hk : Keeps s0 s) : Keeps s0 (s.acceptNode r n run) := by
  dsimp only [State.acceptNode]
  repeat' first | (simp +contextual (maxDischargeDepth := 40) [hk]; done) | split

@[simp ↓] theorem keeps_armOne {s0 s : State} (g slot : Nat) (x : CGraph) (hk : Keeps s0 s) : Keeps s0 (s.armOne g slot x) := by
  dsimp only [State.armOne]
  refine keeps_foldl _ (keeps_mk (keeps_foldl _ (keeps_setCg _ _ hk) fun _ _ h => ?_)) fun _ _ h => keeps_foldl _ h fun _ _ h => ?_
  · split
    · exact keeps_wr _ _ h
    · exact h
  · simp +contextual (maxDischargeDepth := 40) [h]

@[simp ↓] theorem keeps_crzFire {s0 s : State} (g : Nat) (hk : Keeps s0 s) : Keeps s0 (s.crzFire g) := by
  dsimp only [State.crzFire]
  repeat' first | (simp +contextual (maxDischargeDepth := 40) [hk]; done) | split

@[simp ↓] theorem keeps_instEnd {s0 s : State} (g : Nat) (x : CGraph) (i : CInst) (hk : Keeps s0 s) : Keeps s0 (s.instEnd g x i) := by
  dsimp only [State.instEnd]
  repeat' first | (simp +contextual (maxDischargeDepth := 40) [hk, ‹Keeps s0 _›]; done) | (have hw := keeps_writeDva (by assumption) (by simp +contextual (maxDischargeDepth := 40) [hk] : Keeps s0 _); simp +contextual (maxDischargeDepth := 40) [hw]; done) | refine keeps_foldl _ ?_ fun _ _ _ => ?_ | split

@[simp ↓] theorem keeps_nodeEnd {s0 s : State} (r : NodeRef) (code : Nat) (hk : Keeps s0 s) : Keeps s0 (s.nodeEnd r code) := by
  dsimp only [State.nodeEnd]
  repeat' first | (simp +contextual (maxDischargeDepth := 40) [hk, ‹Keeps s0 _›]; done) | refine keeps_foldl _ ?_ fun _ _ _ => ?_ | split

@[simp ↓] theorem keeps_crzRun {s0 s : State} (k : Nat) (hk : Keeps s0 s) : Keeps s0 (s.crzRun k) := by
  induction k generalizing s with
  | zero => exact hk
  | succ k ih =>
    dsimp only [State.crzRun]
    repeat' first | (simp +contextual (maxDischargeDepth := 40) [hk, ih]; done) | split

@[simp ↓] theorem keeps_crzDrain {s0 s : State}  (hk : Keeps s0 s) : Keeps s0 s.crzDrain := by
  dsimp only [State.crzDrain]
  repeat' first | (simp +contextual (maxDischargeDepth := 40) [hk]; done) | split

@[simp ↓] theorem keeps_pushRewrite {s0 s : State} (p h addr : Nat) (hk : Keeps s0 s) : Keeps s0 (s.pushRewrite p h addr) := by
  dsimp only [State.pushRewrite]
  repeat' first | (simp +contextual (maxDischargeDepth := 40) [hk]; done) | split

@[simp ↓] theorem keeps_brkTakeRec {s0 s : State} (e k : Nat) (hk : Keeps s0 s) : Keeps s0 (s.brkTakeRec e k) := by
  dsimp only [State.brkTakeRec]
  repeat' first | (simp +contextual (maxDischargeDepth := 40) [hk, ‹Keeps s0 _›]; done) | refine keeps_foldl _ ?_ fun _ _ _ => ?_ | split

@[simp ↓] theorem keeps_startNode {s0 s : State} (r : NodeRef) (x : CGraph) (i : CInst) (n : CNode) (run : NodeRun) (hk : Keeps s0 s) : Keeps s0 (s.startNode r x i n run) := by
  dsimp only [State.startNode]
  repeat' first | (simp +contextual (maxDischargeDepth := 40) [hk]; done) | (have hw := keeps_of_snd (by assumption) (by simp +contextual (maxDischargeDepth := 40) [hk] : Keeps s0 _); simp +contextual (maxDischargeDepth := 40) [hw, hk]; done) | (have hw := keeps_of_fst (by assumption) (by simp +contextual (maxDischargeDepth := 40) [hk] : Keeps s0 _); simp +contextual (maxDischargeDepth := 40) [hw, hk]; done) | split

@[simp ↓] theorem keeps_crzStart {s0 s : State} (r : NodeRef) (hk : Keeps s0 s) : Keeps s0 (s.crzStart r) := by
  dsimp only [State.crzStart]
  repeat' first | (simp +contextual (maxDischargeDepth := 40) [hk, ‹Keeps s0 _›]; done) | (have hw := keeps_of_snd (by assumption) (by simp +contextual (maxDischargeDepth := 40) [hk] : Keeps s0 _); simp +contextual (maxDischargeDepth := 40) [hw, hk]; done) | (have hw := keeps_of_fst (by assumption) (by simp +contextual (maxDischargeDepth := 40) [hk] : Keeps s0 _); simp +contextual (maxDischargeDepth := 40) [hw, hk]; done) | refine keeps_foldl _ ?_ fun _ _ _ => ?_ | split

end Sys2Proof.Machine
end

