-- ==== Sys2Proof/Laws/KeepsFrond.lean ====
section
/-! SUPPORT. Sys2Proof/Laws/KeepsFrond.lean: what the operations of Machine/Frond.lean keep. -/

namespace Sys2Proof.Machine

set_option linter.unusedSimpArgs false
set_option linter.unusedTactic false
set_option linter.unreachableTactic false

@[simp ↓] theorem keeps_tcErr {s0 s : State} (n p code info : Nat) (raised : Bool) (hk : Keeps s0 s) : Keeps s0 (s.tcErr n p code info raised) := by
  dsimp only [State.tcErr]
  repeat' first | (simp +contextual (maxDischargeDepth := 40) [hk]; done) | split

@[simp ↓] theorem keeps_setArith {s0 s : State} (n st : Nat) (hk : Keeps s0 s) : Keeps s0 (s.setArith n st) := by
  dsimp only [State.setArith]
  repeat' first | (simp +contextual (maxDischargeDepth := 40) [hk]; done) | split

@[simp ↓] theorem keeps_fenceDue {s0 s : State} (n : Nat) (hk : Keeps s0 s) : Keeps s0 (s.fenceDue n) := by
  dsimp only [State.fenceDue]
  repeat' first | (simp +contextual (maxDischargeDepth := 40) [hk]; done) | split

@[simp ↓] theorem keeps_holdSlot {s0 s : State} (n : Nat) (hk : Keeps s0 s) : Keeps s0 (s.holdSlot n) := by
  dsimp only [State.holdSlot]
  repeat' first | (simp +contextual (maxDischargeDepth := 40) [hk]; done) | split

@[simp ↓] theorem keeps_frondStop {s0 s : State} (n code : Nat) (raised : Bool) (hk : Keeps s0 s) : Keeps s0 (s.frondStop n code raised) := by
  dsimp only [State.frondStop]
  repeat' first | (simp +contextual (maxDischargeDepth := 40) [hk]; done) | split

@[simp ↓] theorem keeps_countCe {s0 s : State} (n k : Nat) (hk : Keeps s0 s) : Keeps s0 (s.countCe n k) := by
  dsimp only [State.countCe]
  repeat' first | (simp +contextual (maxDischargeDepth := 40) [hk]; done) | split

@[simp ↓] theorem keeps_afterCheck {s0 s : State} (n : Nat) (c : FrondCheck) (hk : Keeps s0 s) : Keeps s0 (s.afterCheck n c) := by
  dsimp only [State.afterCheck]
  repeat' first | (simp +contextual (maxDischargeDepth := 40) [hk]; done) | split

@[simp ↓] theorem keeps_fetchLine {s0 s : State} (n a : Nat) (hk : Keeps s0 s) : Keeps s0 (s.fetchLine n a).1 := by
  dsimp only [State.fetchLine]
  repeat' first | (simp +contextual (maxDischargeDepth := 40) [hk]; done) | split

@[simp ↓] theorem keeps_issueFail {s0 s s' : State} (n code : Nat) (raised : Bool) (hk : Keeps s0 s) (hk' : Keeps s0 s') :
    Keeps s0 (s.issueFail s' n code raised) := by
  dsimp only [State.issueFail]
  repeat' first | (simp +contextual (maxDischargeDepth := 40) [hk, hk']; done) | split

@[simp ↓] theorem keeps_atWord {s0 s : State} (n : Nat) (hk : Keeps s0 s) : Keeps s0 (s.atWord n).1 := by
  dsimp only [State.atWord]
  repeat' first | (simp +contextual (maxDischargeDepth := 40) [hk]; done) | split

/-- `Keeps` of what an instruction's body answers. -/
def KeepsI (s0 : State) : Issue → Prop
  | .ok s _ => Keeps s0 s
  | .stall => True
  | .fail s _ _ => Keeps s0 s

@[simp ↓] theorem keepsI_ok {s0 s : State} (k : Nat) (h : Keeps s0 s) : KeepsI s0 (.ok s k) := h
@[simp ↓] theorem keepsI_stall {s0 : State} : KeepsI s0 .stall := trivial
@[simp ↓] theorem keepsI_fail {s0 s : State} (k : Nat) (r : Bool) (h : Keeps s0 s) : KeepsI s0 (.fail s k r) := h

@[simp ↓] theorem keepsI_ite {s0 : State} {c : Prop} [Decidable c] {a b : Issue} (ha : c → KeepsI s0 a) (hb : ¬c → KeepsI s0 b) :
    KeepsI s0 (if c then a else b) := by
  split
  · exact ha ‹_›
  · exact hb ‹_›

@[simp ↓] theorem keeps_issue {s0 s : State} (n cls op : Nat) (chk : FrondCheck) (body : State → Nat → Nat → Issue) (hk : Keeps s0 s)
    (hb : ∀ t w pc, Keeps s0 t → KeepsI s0 (body t w pc)) : Keeps s0 (s.issue n cls op chk body) := by
  have main : ∀ s1 : State, Keeps s0 s1 → Keeps s0 (match (s1.tc n).word with
      | none => s
      | some w =>
        let c := wfld w 0 28 4
        let o := wfld w 0 20 8
        if !knownOp c o then s1.issueFail s1 n 0x0601 false
        else if c ≠ cls ∨ o ≠ op then s
        else
          match body s1 w (s.tc n).pc with
          | .stall => s
          | .fail s2 code raised => s1.issueFail s2 n code raised
          | .ok s2 next =>
            let s3 := (s2.setTc n { s2.tc n with pc := next % 2 ^ 64 }).wr (Reg.TC_EXEC_PC n) (s.tc n).pc
            s3.afterCheck n chk) := by
    intro s1 h1
    split
    · exact hk
    · next w _ =>
      have hw := hb s1 w (s.tc n).pc h1
      dsimp only
      split
      · exact keeps_issueFail _ _ _ h1 h1
      · split
        · exact hk
        · split
          · exact hk
          · next e => rw [e] at hw; exact keeps_issueFail _ _ _ h1 hw
          · next e =>
            rw [e] at hw
            exact keeps_afterCheck _ _ (keeps_wr _ _ (keeps_setTc _ _ hw))
  have h1 := keeps_atWord n hk
  dsimp only [State.issue]
  split
  · exact hk
  · split
    · exact keeps_issueFail _ _ _ hk h1
    · exact main _ h1

@[simp ↓] theorem keeps_simpleBody {s0 s : State} (n mask : Nat) (eff : Frond → Nat → Except Nat Frond) (cnt : State → Nat → State)
    (w pc : Nat) (hk : Keeps s0 s) (hc : ∀ t w, Keeps s0 t → Keeps s0 (cnt t w)) :
    KeepsI s0 (simpleBody n mask eff cnt s w pc) := by
  dsimp only [simpleBody]
  repeat' first | (simp +contextual (maxDischargeDepth := 40) [hk, hc]; done) | split

@[simp ↓] theorem keeps_pushReleases {s0 s : State} (n k : Nat) (hk : Keeps s0 s) : Keeps s0 (s.pushReleases n k) := by
  induction k generalizing s with
  | zero => exact hk
  | succ k ih =>
    dsimp only [State.pushReleases]
    repeat' first | (simp +contextual (maxDischargeDepth := 40) [hk, ih]; done) | split

@[simp ↓] theorem keeps_accessDone {s0 s : State} (n id : Nat) (hk : Keeps s0 s) : Keeps s0 (s.accessDone n id) := by
  dsimp only [State.accessDone]
  repeat' first | (simp +contextual (maxDischargeDepth := 40) [hk]; done) | split

@[simp ↓] theorem keeps_execFrondOpStart {s0 s : State} (n : Fin 32) (hk : Keeps s0 s) : KeepsR s0 (execFrondOpStart n s) := by
  dsimp only [execFrondOpStart]
  repeat' first | (simp +contextual (maxDischargeDepth := 40) [hk]; done) | split

@[simp ↓] theorem keeps_execFrondOpEnd {s0 s : State} (n : Fin 32) (hk : Keeps s0 s) : KeepsR s0 (execFrondOpEnd n s) := by
  dsimp only [execFrondOpEnd]
  repeat' first | (simp +contextual (maxDischargeDepth := 40) [hk]; done) | split

@[simp ↓] theorem keeps_abortedCopy {s0 s : State} (n : Nat) (c : CopyId) (signalled : Bool) (why : AbortWhy) (hk : Keeps s0 s) : Keeps s0 (s.abortedCopy n c signalled why) := by
  dsimp only [State.abortedCopy]
  repeat' first | (simp +contextual (maxDischargeDepth := 40) [hk]; done) | split

@[simp ↓] theorem keeps_abortComplete {s0 s : State} (n : Nat) (hk : Keeps s0 s) : Keeps s0 (s.abortComplete n) := by
  dsimp only [State.abortComplete]
  repeat' first | (simp +contextual (maxDischargeDepth := 40) [hk]; done) | split

@[simp ↓] theorem keeps_fenceDone {s0 s : State} (n reason : Nat) (owner : Option Nat) (hk : Keeps s0 s) : Keeps s0 (s.fenceDone n reason owner) := by
  dsimp only [State.fenceDone]
  repeat' first | (simp +contextual (maxDischargeDepth := 40) [hk]; done) | split

end Sys2Proof.Machine
end

