-- ==== Sys2Proof/Laws/KeepsGraphSched.lean ====
section
/-! SUPPORT. Sys2Proof/Laws/KeepsGraphSched.lean: what the operations of Machine/GraphSched.lean keep. -/

namespace Sys2Proof.Machine

set_option linter.unusedSimpArgs false
set_option linter.unusedTactic false
set_option linter.unreachableTactic false

@[simp ↓] theorem keeps_pmrExtend {s0 s : State} (p i : Nat) (data : List Byte) (hk : Keeps s0 s) : Keeps s0 (s.pmrExtend p i data) := by
  dsimp only [State.pmrExtend]
  repeat' first | (simp +contextual (maxDischargeDepth := 40) [hk]; done) | split

@[simp ↓] theorem keeps_graphImages {s0 s : State} (p a : Nat) (hk : Keeps s0 s) : Keeps s0 (s.graphImages p a).1 := by
  dsimp only [State.graphImages]
  repeat' first | (simp +contextual (maxDischargeDepth := 40) [hk]; done) | split

@[simp ↓] theorem keeps_pickRecords {s0 s : State} (n : Nat) (l : List Nat) (hk : Keeps s0 s) : Keeps s0 (s.pickRecords n l).1 := by
  induction n generalizing s l with
  | zero => exact hk
  | succ n ih =>
    dsimp only [State.pickRecords]
    simp (maxDischargeDepth := 40) [hk, ih]

@[simp ↓] theorem keeps_gsResult {s0 s : State} (p code arg : Nat) (hk : Keeps s0 s) : Keeps s0 (s.gsResult p code arg) := by
  dsimp only [State.gsResult]
  repeat' first | (simp +contextual (maxDischargeDepth := 40) [hk]; done) | split

@[simp ↓] theorem keeps_execGsLoad {s0 s : State} (p : Fin 16) (hk : Keeps s0 s) : KeepsR s0 (execGsLoad p s) := by
  dsimp only [execGsLoad]
  repeat' first | (simp +contextual (maxDischargeDepth := 40) [hk]; done) | split

@[simp ↓] theorem keeps_execGsLoadComplete {s0 s : State} (p : Fin 16) (hk : Keeps s0 s) : KeepsR s0 (execGsLoadComplete p s) := by
  dsimp only [execGsLoadComplete]
  repeat' first | (simp +contextual (maxDischargeDepth := 40) [hk]; done) | (have hw := keeps_of_snd (by assumption) (by simp +contextual (maxDischargeDepth := 40) [hk] : Keeps s0 _); simp +contextual (maxDischargeDepth := 40) [hw, hk]; done) | (have hw := keeps_of_fst (by assumption) (by simp +contextual (maxDischargeDepth := 40) [hk] : Keeps s0 _); simp +contextual (maxDischargeDepth := 40) [hw, hk]; done) | split

@[simp ↓] theorem keeps_dropGraph {s0 s : State} (g : Graph) (hk : Keeps s0 s) : Keeps s0 (s.dropGraph g) := by
  dsimp only [State.dropGraph]
  repeat' first | (simp +contextual (maxDischargeDepth := 40) [hk, ‹Keeps s0 _›]; done) | refine keeps_foldl _ ?_ fun _ _ _ => ?_ | split

@[simp ↓] theorem keeps_execGsUnload {s0 s : State} (p : Fin 16) (hk : Keeps s0 s) : KeepsR s0 (execGsUnload p s) := by
  dsimp only [execGsUnload]
  repeat' first | (simp +contextual (maxDischargeDepth := 40) [hk]; done) | split

@[simp ↓] theorem keeps_dropQueue {s0 s : State} (g : Graph) (hk : Keeps s0 s) : Keeps s0 (s.dropQueue g) := by
  dsimp only [State.dropQueue]
  repeat' first | (simp +contextual (maxDischargeDepth := 40) [hk, ‹Keeps s0 _›]; done) | refine keeps_foldl _ ?_ fun _ _ _ => ?_ | split

@[simp ↓] theorem keeps_abortGraph {s0 s : State} (g : Graph) (code : Nat) (hk : Keeps s0 s) : Keeps s0 (s.abortGraph g code) := by
  dsimp only [State.abortGraph]
  repeat' first | (simp +contextual (maxDischargeDepth := 40) [hk]; done) | split

@[simp ↓] theorem keeps_execGsAbort {s0 s : State} (p : Fin 16) (hk : Keeps s0 s) : KeepsR s0 (execGsAbort p s) := by
  dsimp only [execGsAbort]
  repeat' first | (simp +contextual (maxDischargeDepth := 40) [hk]; done) | split

@[simp ↓] theorem keeps_execSetprio {s0 s : State} (p : Fin 16) (hk : Keeps s0 s) : KeepsR s0 (execSetprio p s) := by
  dsimp only [execSetprio]
  repeat' first | (simp +contextual (maxDischargeDepth := 40) [hk, ‹Keeps s0 _›]; done) | refine keeps_foldl _ ?_ fun _ _ _ => ?_ | split

@[simp ↓] theorem keeps_execGsLaunch {s0 s : State} (p : Fin 16) (handle : BitVec 32) (hk : Keeps s0 s) : KeepsR s0 (execGsLaunch p handle s) := by
  dsimp only [execGsLaunch]
  repeat' first | (simp +contextual (maxDischargeDepth := 40) [hk]; done) | split

@[simp ↓] theorem keeps_place {s0 s : State} (p n k : Nat) (c : CopyId) (hk : Keeps s0 s) : Keeps s0 (s.place p n k c) := by
  dsimp only [State.place]
  repeat' first | (simp +contextual (maxDischargeDepth := 40) [hk]; done) | split

@[simp ↓] theorem keeps_execGsDispatch {s0 s : State} (p : Fin 16) (hk : Keeps s0 s) : KeepsR s0 (execGsDispatch p s) := by
  dsimp only [execGsDispatch]
  repeat' first | (simp +contextual (maxDischargeDepth := 40) [hk]; done) | (have hw := keeps_of_snd (by assumption) (by simp +contextual (maxDischargeDepth := 40) [hk] : Keeps s0 _); simp +contextual (maxDischargeDepth := 40) [hw, hk]; done) | (have hw := keeps_of_fst (by assumption) (by simp +contextual (maxDischargeDepth := 40) [hk] : Keeps s0 _); simp +contextual (maxDischargeDepth := 40) [hw, hk]; done) | split

@[simp ↓] theorem keeps_execPrefetchComplete {s0 s : State} (n : Fin 32) (k : Fin 3) (hk : Keeps s0 s) : KeepsR s0 (execPrefetchComplete n k s) := by
  dsimp only [execPrefetchComplete]
  repeat' first | (simp +contextual (maxDischargeDepth := 40) [hk]; done) | split

@[simp ↓] theorem keeps_execGsOpRelease {s0 s : State} (p : Fin 16) (hk : Keeps s0 s) : KeepsR s0 (execGsOpRelease p s) := by
  dsimp only [execGsOpRelease]
  repeat' first | (simp +contextual (maxDischargeDepth := 40) [hk]; done) | split

@[simp ↓] theorem keeps_execGsDelayTick {s0 s : State} (p : Fin 16) (hk : Keeps s0 s) : KeepsR s0 (execGsDelayTick p s) := by
  dsimp only [execGsDelayTick]
  repeat' first | (simp +contextual (maxDischargeDepth := 40) [hk, ‹Keeps s0 _›]; done) | refine keeps_foldl _ ?_ fun _ _ _ => ?_ | split

@[simp ↓] theorem keeps_execGsBudgetExpiry {s0 s : State} (p : Fin 16) (handle : BitVec 32) (hk : Keeps s0 s) : KeepsR s0 (execGsBudgetExpiry p handle s) := by
  dsimp only [execGsBudgetExpiry]
  repeat' first | (simp +contextual (maxDischargeDepth := 40) [hk]; done) | split

@[simp ↓] theorem keeps_execCopy2Request {s0 s : State} (p : Fin 16) (handle : BitVec 32) (run : BitVec 48) (op : BitVec 16) (hk : Keeps s0 s) : KeepsR s0 (execCopy2Request p handle run op s) := by
  dsimp only [execCopy2Request]
  repeat' first | (simp +contextual (maxDischargeDepth := 40) [hk]; done) | split

@[simp ↓] theorem keeps_waitEdge {s0 s : State} (p : Nat) (u : UnitId) (w : Nat × Nat) (b : Nat) (hk : Keeps s0 s) : Keeps s0 (s.waitEdge p u w b) := by
  dsimp only [State.waitEdge]
  repeat' first | (simp +contextual (maxDischargeDepth := 40) [hk]; done) | split

@[simp ↓] theorem keeps_waitEdges {s0 s : State} (p : Nat) (fronds chans : List Nat) (hk : Keeps s0 s) : Keeps s0 (s.waitEdges p fronds chans) := by
  dsimp only [State.waitEdges]
  repeat' first | (simp +contextual (maxDischargeDepth := 40) [hk, ‹Keeps s0 _›]; done) | refine keeps_foldl _ ?_ fun _ _ _ => ?_ | split

@[simp ↓] theorem keeps_execDeadlockDeclare {s0 s : State} (p : Fin 16) (hk : Keeps s0 s) : KeepsR s0 (execDeadlockDeclare p s) := by
  dsimp only [execDeadlockDeclare]
  repeat' first | (simp +contextual (maxDischargeDepth := 40) [hk]; done) | split

@[simp ↓] theorem keeps_execFrondAbortComplete {s0 s : State} (n : Fin 32) (hk : Keeps s0 s) : KeepsR s0 (execFrondAbortComplete n s) := by
  dsimp only [execFrondAbortComplete]
  repeat' first | (simp +contextual (maxDischargeDepth := 40) [hk]; done) | split

@[simp ↓] theorem keeps_execFrondZeroingComplete {s0 s : State} (n : Fin 32) (hk : Keeps s0 s) : KeepsR s0 (execFrondZeroingComplete n s) := by
  dsimp only [execFrondZeroingComplete]
  repeat' first | (simp +contextual (maxDischargeDepth := 40) [hk]; done) | split

end Sys2Proof.Machine
end

