-- ==== Sys2Proof/Laws/KeepsCrozier.lean ====
section
/-! SUPPORT. Sys2Proof/Laws/KeepsCrozier.lean: what the operations of Machine/Crozier.lean keep. -/

namespace Sys2Proof.Machine

set_option linter.unusedSimpArgs false
set_option linter.unusedTactic false
set_option linter.unreachableTactic false

@[simp ↓] theorem keeps_readProgram {s0 s : State} (p : Nat) (o : Bool) (k a : Nat) (hk : Keeps s0 s) :
    Keeps s0 (s.readProgram p o k a).1 := by
  induction k generalizing o a with
  | zero => exact hk
  | succ k ih =>
    rw [State.readProgram]
    split
    · simp (maxDischargeDepth := 40) [hk]
    · simp (maxDischargeDepth := 40) [hk]
    · dsimp only
      split
      · exact hk
      · split
        · exact hk
        · split
          · exact hk
          · split
            · exact hk
            · split
              · next e => exact keeps_of_fst e (ih _ _)
              · next e => exact keeps_of_fst e (ih _ _)

@[simp ↓] theorem keeps_crzRefuse {s0 s : State} (g code : Nat) (hk : Keeps s0 s) : Keeps s0 (s.crzRefuse g code) := by
  dsimp only [State.crzRefuse]
  repeat' first | (simp +contextual (maxDischargeDepth := 40) [hk]; done) | split

@[simp ↓] theorem keeps_execCrzLoad {s0 s : State} (g : Fin 64) (hk : Keeps s0 s) : KeepsR s0 (execCrzLoad g s) := by
  dsimp only [execCrzLoad]
  repeat' first | (simp +contextual (maxDischargeDepth := 40) [hk]; done) | split

@[simp ↓] theorem keeps_crzLoadFail {s0 s : State} (g code : Nat) (hk : Keeps s0 s) : Keeps s0 (s.crzLoadFail g code) := by
  dsimp only [State.crzLoadFail]
  repeat' first | (simp +contextual (maxDischargeDepth := 40) [hk]; done) | split

@[simp ↓] theorem keeps_crzLoaded {s0 : State} (g p prog : Nat) (r : State × Except Nat (List Nat × List Byte)) (hk : Keeps s0 r.1) :
    Keeps s0 (State.crzLoaded g p prog r) := by
  obtain ⟨s1, r⟩ := r
  cases r with
  | error c => exact keeps_crzLoadFail _ _ hk
  | ok r =>
    rw [State.crzLoaded]
    split
    · exact keeps_crzLoadFail _ _ hk
    · exact keeps_pmrExtend _ _ _ (keeps_setCg _ _ hk)

@[simp ↓] theorem keeps_execCrzLoadComplete {s0 s : State} (g : Fin 64) (hk : Keeps s0 s) : KeepsR s0 (execCrzLoadComplete g s) := by
  dsimp only [execCrzLoadComplete]
  repeat' first | (simp +contextual (maxDischargeDepth := 40) [hk]; done) | split

@[simp ↓] theorem keeps_execCrzUnload {s0 s : State} (g : Fin 64) (hk : Keeps s0 s) : KeepsR s0 (execCrzUnload g s) := by
  dsimp only [execCrzUnload]
  repeat' first | (simp +contextual (maxDischargeDepth := 40) [hk]; done) | split

@[simp ↓] theorem keeps_instDiscard {s0 s : State} (g seq : Nat) (hk : Keeps s0 s) : Keeps s0 (s.instDiscard g seq) := by
  dsimp only [State.instDiscard]
  repeat' first | (simp +contextual (maxDischargeDepth := 40) [hk, ‹Keeps s0 _›]; done) | refine keeps_foldl _ ?_ fun _ _ _ => ?_ | split

@[simp ↓] theorem keeps_discardArmed {s0 s : State} (g : Nat) (hk : Keeps s0 s) : Keeps s0 (s.discardArmed g) := by
  dsimp only [State.discardArmed]
  repeat' first | (simp +contextual (maxDischargeDepth := 40) [hk, ‹Keeps s0 _›]; done) | refine keeps_foldl _ ?_ fun _ _ _ => ?_ | split

@[simp ↓] theorem keeps_crzAbortAll {s0 s : State} (g code : Nat) (hk : Keeps s0 s) : Keeps s0 (s.crzAbortAll g code) := by
  dsimp only [State.crzAbortAll]
  repeat' first | (simp +contextual (maxDischargeDepth := 40) [hk, ‹Keeps s0 _›]; done) | refine keeps_foldl _ ?_ fun _ _ _ => ?_ | split

@[simp ↓] theorem keeps_execCrzAbort {s0 s : State} (g : Fin 64) (hk : Keeps s0 s) : KeepsR s0 (execCrzAbort g s) := by
  dsimp only [execCrzAbort]
  repeat' first | (simp +contextual (maxDischargeDepth := 40) [hk]; done) | split

@[simp ↓] theorem keeps_execCrzTrigger {s0 s : State} (g : Fin 64) (hk : Keeps s0 s) : KeepsR s0 (execCrzTrigger g s) := by
  dsimp only [execCrzTrigger]
  repeat' first | (simp +contextual (maxDischargeDepth := 40) [hk]; done) | split

@[simp ↓] theorem keeps_execCrzTimerTrigger {s0 s : State} (g : Fin 64) (hk : Keeps s0 s) : KeepsR s0 (execCrzTimerTrigger g s) := by
  dsimp only [execCrzTimerTrigger]
  repeat' first | (simp +contextual (maxDischargeDepth := 40) [hk]; done) | split

@[simp ↓] theorem keeps_execCrzCfgWrite {s0 s : State} (g : Fin 64) (value : BitVec 32) (hk : Keeps s0 s) : KeepsR s0 (execCrzCfgWrite g value s) := by
  dsimp only [execCrzCfgWrite]
  repeat' first | (simp +contextual (maxDischargeDepth := 40) [hk]; done) | split

@[simp ↓] theorem keeps_execCrzNodeStart {s0 s : State} (g : Fin 64) (inst : Nat) (node : Fin 1024) (ns : Nat) (hk : Keeps s0 s) : KeepsR s0 (execCrzNodeStart g inst node ns s) := by
  dsimp only [execCrzNodeStart]
  repeat' first | (simp +contextual (maxDischargeDepth := 40) [hk]; done) | (have hw := keeps_of_snd (by assumption) (by simp +contextual (maxDischargeDepth := 40) [hk] : Keeps s0 _); simp +contextual (maxDischargeDepth := 40) [hw, hk]; done) | (have hw := keeps_of_fst (by assumption) (by simp +contextual (maxDischargeDepth := 40) [hk] : Keeps s0 _); simp +contextual (maxDischargeDepth := 40) [hw, hk]; done) | split

@[simp ↓] theorem keeps_execCrzBudgetExpiry {s0 s : State} (g : Fin 64) (slot : Fin 4) (hk : Keeps s0 s) : KeepsR s0 (execCrzBudgetExpiry g slot s) := by
  dsimp only [execCrzBudgetExpiry]
  repeat' first | (simp +contextual (maxDischargeDepth := 40) [hk]; done) | split

end Sys2Proof.Machine
end

