-- ==== Sys2Proof/Laws/KeepsStop.lean ====
section
/-! SUPPORT. Sys2Proof/Laws/KeepsStop.lean: what the operations of Machine/Stop.lean keep. -/

namespace Sys2Proof.Machine

set_option linter.unusedSimpArgs false
set_option linter.unusedTactic false
set_option linter.unreachableTactic false

@[simp ↓] theorem keeps_stopJob {s0 s : State} (agent : UnitId) (code addr : Nat) (hk : Keeps s0 s) : Keeps s0 (s.stopJob agent code addr) := by
  dsimp only [State.stopJob]
  repeat' first | (simp +contextual (maxDischargeDepth := 40) [hk]; done) | split

end Sys2Proof.Machine
end

