-- ==== Sys2Proof/Laws/KeepsLink.lean ====
section
/-! SUPPORT. Sys2Proof/Laws/KeepsLink.lean: what the operations of Machine/Link.lean keep. -/

namespace Sys2Proof.Machine

set_option linter.unusedSimpArgs false
set_option linter.unusedTactic false
set_option linter.unreachableTactic false

@[simp ↓] theorem keeps_setPort {s0 s : State} (n : Nat) (p : LinkPort) (hk : Keeps s0 s) : Keeps s0 (s.setPort n p) := by
  dsimp only [State.setPort]
  repeat' first | (simp +contextual (maxDischargeDepth := 40) [hk]; done) | split

@[simp ↓] theorem keeps_linkErr {s0 s : State} (u : UnitId) (code : Nat) (info : Nat) (hk : Keeps s0 s) : Keeps s0 (s.linkErr u code info) := by
  dsimp only [State.linkErr]
  repeat' first | (simp +contextual (maxDischargeDepth := 40) [hk]; done) | split

@[simp ↓] theorem keeps_setRole {s0 s : State} (r : Role) (hk : Keeps s0 s) : Keeps s0 (s.setRole r) := by
  dsimp only [State.setRole]
  repeat' first | (simp +contextual (maxDischargeDepth := 40) [hk]; done) | split

@[simp ↓] theorem keeps_stepTime {s0 s : State} (ns : Nat) (hk : Keeps s0 s) : Keeps s0 (s.stepTime ns) := by
  dsimp only [State.stepTime]
  repeat' first | (simp +contextual (maxDischargeDepth := 40) [hk]; done) | split

set_option maxHeartbeats 1000000 in
@[simp ↓] theorem keeps_execLnkCtrlWrite {s0 s : State} (n : Fin 8) (value : BitVec 32) (hk : Keeps s0 s) : KeepsR s0 (execLnkCtrlWrite n value s) := by
  dsimp only [execLnkCtrlWrite]
  repeat' first | (simp +contextual (maxDischargeDepth := 40) [hk]; done) | split

@[simp ↓] theorem keeps_admitTime {s0 s : State} (joining : Bool) (peerNow : Nat) (hk : Keeps s0 s) : Keeps s0 (s.admitTime joining peerNow) := by
  dsimp only [State.admitTime]
  repeat' first | (simp +contextual (maxDischargeDepth := 40) [hk]; done) | split

@[simp ↓] theorem keeps_rejoin {s0 s : State} (d : Nat) (hk : Keeps s0 s) : Keeps s0 (s.rejoin d) := by
  dsimp only [State.rejoin]
  repeat' first | (simp +contextual (maxDischargeDepth := 40) [hk]; done) | split

@[simp ↓] theorem keeps_execTrainingComplete {s0 s : State} (n : Fin 8) (neighbour : Fin 128) (nrole : Role) (authOk joining : Bool) (peerNow : Nat) (hk : Keeps s0 s) : KeepsR s0 (execTrainingComplete n neighbour nrole authOk joining peerNow s) := by
  dsimp only [execTrainingComplete]
  repeat' first | (simp +contextual (maxDischargeDepth := 40) [hk]; done) | split

@[simp ↓] theorem keeps_execTrainingFailure {s0 s : State} (n : Fin 8) (hk : Keeps s0 s) : KeepsR s0 (execTrainingFailure n s) := by
  dsimp only [execTrainingFailure]
  repeat' first | (simp +contextual (maxDischargeDepth := 40) [hk]; done) | split

@[simp ↓] theorem keeps_execTrainingRetry {s0 s : State} (n : Fin 8) (hk : Keeps s0 s) : KeepsR s0 (execTrainingRetry n s) := by
  dsimp only [execTrainingRetry]
  repeat' first | (simp +contextual (maxDischargeDepth := 40) [hk]; done) | split

@[simp ↓] theorem keeps_seqNote {s0 s : State} (pk : Packet) (hk : Keeps s0 s) : Keeps s0 (s.seqNote pk) := by
  dsimp only [State.seqNote]
  repeat' first | (simp +contextual (maxDischargeDepth := 40) [hk]; done) | split

@[simp ↓] theorem keeps_takePacket {s0 s : State} (n : Nat) (pk : Packet) (hk : Keeps s0 s) : Keeps s0 (s.takePacket n pk) := by
  dsimp only [State.takePacket]
  repeat' first | (simp +contextual (maxDischargeDepth := 40) [hk]; done) | split

@[simp ↓] theorem keeps_execFlitReceive {s0 s : State} (n : Fin 8) (check : FlitCheck) (kind : FlitKind) (seq : Fin 256) (creditVc : Fin 4) (credits : Fin 4096) (packets : List Packet) (hk : Keeps s0 s) : KeepsR s0 (execFlitReceive n check kind seq creditVc credits packets s) := by
  dsimp only [execFlitReceive]
  repeat' first | (simp +contextual (maxDischargeDepth := 40) [hk, ‹Keeps s0 _›]; done) | refine keeps_foldl _ ?_ fun _ _ _ => ?_ | split

@[simp ↓] theorem keeps_execNakReceive {s0 s : State} (n : Fin 8) (lastGood : Fin 256) (hk : Keeps s0 s) : KeepsR s0 (execNakReceive n lastGood s) := by
  dsimp only [execNakReceive]
  repeat' first | (simp +contextual (maxDischargeDepth := 40) [hk]; done) | split

@[simp ↓] theorem keeps_execNakLimit {s0 s : State} (n : Fin 8) (hk : Keeps s0 s) : KeepsR s0 (execNakLimit n s) := by
  dsimp only [execNakLimit]
  repeat' first | (simp +contextual (maxDischargeDepth := 40) [hk]; done) | split

@[simp ↓] theorem keeps_execFlitTimeout {s0 s : State} (n : Fin 8) (hk : Keeps s0 s) : KeepsR s0 (execFlitTimeout n s) := by
  dsimp only [execFlitTimeout]
  repeat' first | (simp +contextual (maxDischargeDepth := 40) [hk]; done) | split

@[simp ↓] theorem keeps_consume {s0 s : State} (pk : Packet) (hk : Keeps s0 s) : Keeps s0 (s.consume pk) := by
  dsimp only [State.consume]
  repeat' first | (simp +contextual (maxDischargeDepth := 40) [hk]; done) | split

@[simp ↓] theorem keeps_writeGranules {s0 s : State} (p dva poison n : Nat) (bs : List Byte) (i : Nat) (hk : Keeps s0 s) :
    Keeps s0 (s.writeGranules p dva poison n bs i) := by
  induction n generalizing s bs i with
  | zero => exact hk
  | succ n ih =>
    rw [State.writeGranules]
    split
    · next e => exact ih _ _ (keeps_writeDva e hk)
    · exact hk

@[simp ↓] theorem keeps_refuseRequest {s0 s : State} (pk : Packet) (kind : Nat) (hk : Keeps s0 s) : Keeps s0 (s.refuseRequest pk kind) := by
  dsimp only [State.refuseRequest]
  repeat' first | (simp +contextual (maxDischargeDepth := 40) [hk]; done) | split

@[simp ↓] theorem keeps_execLinkWrite {s0 s : State} (pk : Packet) (hk : Keeps s0 s) : KeepsR s0 (execLinkWrite pk s) := by
  dsimp only [execLinkWrite]
  repeat' first | (simp +contextual (maxDischargeDepth := 40) [hk]; done) | (have hw := keeps_of_snd (by assumption) (by simp +contextual (maxDischargeDepth := 40) [hk] : Keeps s0 _); simp +contextual (maxDischargeDepth := 40) [hw, hk]; done) | (have hw := keeps_of_fst (by assumption) (by simp +contextual (maxDischargeDepth := 40) [hk] : Keeps s0 _); simp +contextual (maxDischargeDepth := 40) [hw, hk]; done) | split

@[simp ↓] theorem keeps_execLinkRead {s0 s : State} (pk : Packet) (hk : Keeps s0 s) : KeepsR s0 (execLinkRead pk s) := by
  dsimp only [execLinkRead]
  repeat' first | (simp +contextual (maxDischargeDepth := 40) [hk]; done) | (have hw := keeps_of_snd (by assumption) (by simp +contextual (maxDischargeDepth := 40) [hk] : Keeps s0 _); simp +contextual (maxDischargeDepth := 40) [hw, hk]; done) | (have hw := keeps_of_fst (by assumption) (by simp +contextual (maxDischargeDepth := 40) [hk] : Keeps s0 _); simp +contextual (maxDischargeDepth := 40) [hw, hk]; done) | split

@[simp ↓] theorem keeps_forget {s0 s : State} (r : Remote) (hk : Keeps s0 s) : Keeps s0 (s.forget r) := by
  dsimp only [State.forget]
  repeat' first | (simp +contextual (maxDischargeDepth := 40) [hk]; done) | split

@[simp ↓] theorem keeps_remoteRefused {s0 s : State} (r : Remote) (status : Nat) (hk : Keeps s0 s) : Keeps s0 (s.remoteRefused r status) := by
  dsimp only [State.remoteRefused]
  repeat' first | (simp +contextual (maxDischargeDepth := 40) [hk]; done) | split

@[simp ↓] theorem keeps_execReadResp {s0 s : State} (tag status : Fin 65536) (poison : Fin 16) (data : List Byte) (hk : Keeps s0 s) : KeepsR s0 (execReadResp tag status poison data s) := by
  dsimp only [execReadResp]
  repeat' first | (simp +contextual (maxDischargeDepth := 40) [hk, ‹Keeps s0 _›]; done) | refine keeps_foldl _ ?_ fun _ _ _ => ?_ | split

@[simp ↓] theorem keeps_execWriteAck {s0 s : State} (tag status : Fin 65536) (hk : Keeps s0 s) : KeepsR s0 (execWriteAck tag status s) := by
  dsimp only [execWriteAck]
  repeat' first | (simp +contextual (maxDischargeDepth := 40) [hk]; done) | split

@[simp ↓] theorem keeps_execLinkSignal {s0 s : State} (pk : Packet) (hk : Keeps s0 s) : KeepsR s0 (execLinkSignal pk s) := by
  dsimp only [execLinkSignal]
  repeat' first | (simp +contextual (maxDischargeDepth := 40) [hk]; done) | (have hw := keeps_of_snd (by assumption) (by simp +contextual (maxDischargeDepth := 40) [hk] : Keeps s0 _); simp +contextual (maxDischargeDepth := 40) [hw, hk]; done) | (have hw := keeps_of_fst (by assumption) (by simp +contextual (maxDischargeDepth := 40) [hk] : Keeps s0 _); simp +contextual (maxDischargeDepth := 40) [hw, hk]; done) | split

@[simp ↓] theorem keeps_execSignalAck {s0 s : State} (tag status : Fin 65536) (hk : Keeps s0 s) : KeepsR s0 (execSignalAck tag status s) := by
  dsimp only [execSignalAck]
  repeat' first | (simp +contextual (maxDischargeDepth := 40) [hk]; done) | split

@[simp ↓] theorem keeps_failRemote {s0 s : State} (r : Remote) (hk : Keeps s0 s) : Keeps s0 (s.failRemote r) := by
  dsimp only [State.failRemote]
  repeat' first | (simp +contextual (maxDischargeDepth := 40) [hk]; done) | split

@[simp ↓] theorem keeps_execRespTimeout {s0 s : State} (tag : Fin 65536) (hk : Keeps s0 s) : KeepsR s0 (execRespTimeout tag s) := by
  dsimp only [execRespTimeout]
  repeat' first | (simp +contextual (maxDischargeDepth := 40) [hk]; done) | split

@[simp ↓] theorem keeps_failAllTo {s0 s : State} (d : Nat) (hk : Keeps s0 s) : Keeps s0 (s.failAllTo d) := by
  dsimp only [State.failAllTo]
  repeat' first | (simp +contextual (maxDischargeDepth := 40) [hk, ‹Keeps s0 _›]; done) | refine keeps_foldl _ ?_ fun _ _ _ => ?_ | split

@[simp ↓] theorem keeps_markLost {s0 s : State} (d : Nat) (hk : Keeps s0 s) : Keeps s0 (s.markLost d) := by
  dsimp only [State.markLost]
  repeat' first | (simp +contextual (maxDischargeDepth := 40) [hk, ‹Keeps s0 _›]; done) | refine keeps_foldl _ ?_ fun _ _ _ => ?_ | split

@[simp ↓] theorem keeps_declareLost {s0 s : State} (d : Nat) (hk : Keeps s0 s) : Keeps s0 (s.declareLost d) := by
  dsimp only [State.declareLost]
  repeat' first | (simp +contextual (maxDischargeDepth := 40) [hk]; done) | split

@[simp ↓] theorem keeps_execHeartbeatBroadcast {s0 s : State}  (hk : Keeps s0 s) : KeepsR s0 (execHeartbeatBroadcast s) := by
  dsimp only [execHeartbeatBroadcast]
  repeat' first | (simp +contextual (maxDischargeDepth := 40) [hk]; done) | split

@[simp ↓] theorem keeps_acceptMaster {s0 s : State} (src mepoch : Nat) (hk : Keeps s0 s) : Keeps s0 (s.acceptMaster src mepoch) := by
  dsimp only [State.acceptMaster]
  repeat' first | (simp +contextual (maxDischargeDepth := 40) [hk]; done) | split

@[simp ↓] theorem keeps_execHeartbeat {s0 s : State} (src : Fin 128) (mepoch sysGen : BitVec 32) (hk : Keeps s0 s) : KeepsR s0 (execHeartbeat src mepoch sysGen s) := by
  dsimp only [execHeartbeat]
  repeat' first | (simp +contextual (maxDischargeDepth := 40) [hk]; done) | split

@[simp ↓] theorem keeps_execHeartbeatAnswer {s0 s : State} (src : Fin 128) (hk : Keeps s0 s) : KeepsR s0 (execHeartbeatAnswer src s) := by
  dsimp only [execHeartbeatAnswer]
  repeat' first | (simp +contextual (maxDischargeDepth := 40) [hk]; done) | split

@[simp ↓] theorem keeps_execLossTimeout {s0 s : State} (dev : Fin 128) (hk : Keeps s0 s) : KeepsR s0 (execLossTimeout dev s) := by
  dsimp only [execLossTimeout]
  repeat' first | (simp +contextual (maxDischargeDepth := 40) [hk]; done) | split

@[simp ↓] theorem keeps_execLossNotice {s0 s : State} (dev : Fin 128) (sysGen : BitVec 32) (hk : Keeps s0 s) : KeepsR s0 (execLossNotice dev sysGen s) := by
  dsimp only [execLossNotice]
  repeat' first | (simp +contextual (maxDischargeDepth := 40) [hk]; done) | split

@[simp ↓] theorem keeps_discardEpoch {s0 s : State}  (hk : Keeps s0 s) : Keeps s0 s.discardEpoch := by
  dsimp only [State.discardEpoch]
  repeat' first | (simp +contextual (maxDischargeDepth := 40) [hk]; done) | split

@[simp ↓] theorem keeps_execMasterTimeout {s0 s : State}  (hk : Keeps s0 s) : KeepsR s0 (execMasterTimeout s) := by
  dsimp only [execMasterTimeout]
  repeat' first | (simp +contextual (maxDischargeDepth := 40) [hk]; done) | split

@[simp ↓] theorem keeps_execMasterNotice {s0 s : State} (src : Fin 128) (mepoch : BitVec 32) (hk : Keeps s0 s) : KeepsR s0 (execMasterNotice src mepoch s) := by
  dsimp only [execMasterNotice]
  repeat' first | (simp +contextual (maxDischargeDepth := 40) [hk]; done) | split

@[simp ↓] theorem keeps_takeStandby {s0 s : State} (v : Nat) (hk : Keeps s0 s) : Keeps s0 (s.takeStandby v) := by
  dsimp only [State.takeStandby]
  repeat' first | (simp +contextual (maxDischargeDepth := 40) [hk]; done) | split

@[simp ↓] theorem keeps_execStandbyWrite {s0 s : State} (value : BitVec 32) (hk : Keeps s0 s) : KeepsR s0 (execStandbyWrite value s) := by
  dsimp only [execStandbyWrite]
  repeat' first | (simp +contextual (maxDischargeDepth := 40) [hk]; done) | split

@[simp ↓] theorem keeps_execStandbyNotice {s0 s : State} (value : BitVec 32) (hk : Keeps s0 s) : KeepsR s0 (execStandbyNotice value s) := by
  dsimp only [execStandbyNotice]
  repeat' first | (simp +contextual (maxDischargeDepth := 40) [hk]; done) | split

@[simp ↓] theorem keeps_execTimeExchange {s0 s : State} (errNs : Int) (hk : Keeps s0 s) : KeepsR s0 (execTimeExchange errNs s) := by
  dsimp only [execTimeExchange]
  repeat' first | (simp +contextual (maxDischargeDepth := 40) [hk]; done) | split

@[simp ↓] theorem keeps_execTimeStepNotice {s0 s : State} (ns : Nat) (hk : Keeps s0 s) : KeepsR s0 (execTimeStepNotice ns s) := by
  dsimp only [execTimeStepNotice]
  repeat' first | (simp +contextual (maxDischargeDepth := 40) [hk]; done) | split

@[simp ↓] theorem keeps_execErrorReport {s0 s : State} (src : Fin 128) (code : BitVec 16) (subjClass subjInst : Fin 256) (info time : BitVec 64) (hk : Keeps s0 s) : KeepsR s0 (execErrorReport src code subjClass subjInst info time s) := by
  dsimp only [execErrorReport]
  repeat' first | (simp +contextual (maxDischargeDepth := 40) [hk]; done) | split

@[simp ↓] theorem keeps_execFreezePacket {s0 s : State} (n : Fin 8) (originator : Fin 128) (seq : Fin 65536) (hk : Keeps s0 s) : KeepsR s0 (execFreezePacket n originator seq s) := by
  dsimp only [execFreezePacket]
  repeat' first | (simp +contextual (maxDischargeDepth := 40) [hk, ‹Keeps s0 _›]; done) | refine keeps_foldl _ ?_ fun _ _ _ => ?_ | split

@[simp ↓] theorem keeps_bindRefuse {s0 s : State}  (hk : Keeps s0 s) : Keeps s0 s.bindRefuse := by
  dsimp only [State.bindRefuse]
  repeat' first | (simp +contextual (maxDischargeDepth := 40) [hk]; done) | split

@[simp ↓] theorem keeps_execBindWrite {s0 s : State}  (hk : Keeps s0 s) : KeepsR s0 (execBindWrite s) := by
  dsimp only [execBindWrite]
  repeat' first | (simp +contextual (maxDischargeDepth := 40) [hk]; done) | split

@[simp ↓] theorem keeps_execBindRead {s0 s : State}  (hk : Keeps s0 s) : KeepsR s0 (execBindRead s) := by
  dsimp only [execBindRead]
  repeat' first | (simp +contextual (maxDischargeDepth := 40) [hk]; done) | split

@[simp ↓] theorem keeps_execBindClear {s0 s : State}  (hk : Keeps s0 s) : KeepsR s0 (execBindClear s) := by
  dsimp only [execBindClear]
  repeat' first | (simp +contextual (maxDischargeDepth := 40) [hk]; done) | split

@[simp ↓] theorem keeps_execBindCmdComplete {s0 s : State}  (hk : Keeps s0 s) : KeepsR s0 (execBindCmdComplete s) := by
  dsimp only [execBindCmdComplete]
  repeat' first | (simp +contextual (maxDischargeDepth := 40) [hk]; done) | split

@[simp ↓] theorem keeps_execAliasWrite {s0 s : State} (d : Fin 128) (value : BitVec 32) (hk : Keeps s0 s) : KeepsR s0 (execAliasWrite d value s) := by
  dsimp only [execAliasWrite]
  repeat' first | (simp +contextual (maxDischargeDepth := 40) [hk]; done) | split

@[simp ↓] theorem keeps_execCkptEnable {s0 s : State} (value : BitVec 32) (hk : Keeps s0 s) : KeepsR s0 (execCkptEnable value s) := by
  dsimp only [execCkptEnable]
  repeat' first | (simp +contextual (maxDischargeDepth := 40) [hk]; done) | split

@[simp ↓] theorem keeps_ckptSignal {s0 s : State} (flag : Nat) (hk : Keeps s0 s) : Keeps s0 (s.ckptSignal flag) := by
  dsimp only [State.ckptSignal]
  repeat' first | (simp +contextual (maxDischargeDepth := 40) [hk]; done) | split

@[simp ↓] theorem keeps_execCkptRequest {s0 s : State}  (hk : Keeps s0 s) : KeepsR s0 (execCkptRequest s) := by
  dsimp only [execCkptRequest]
  repeat' first | (simp +contextual (maxDischargeDepth := 40) [hk]; done) | split

@[simp ↓] theorem keeps_ckptDone {s0 s : State} (code : Nat) (hk : Keeps s0 s) : Keeps s0 (s.ckptDone code) := by
  dsimp only [State.ckptDone]
  repeat' first | (simp +contextual (maxDischargeDepth := 40) [hk]; done) | split

@[simp ↓] theorem keeps_execCkptSnapshot {s0 s : State}  (hk : Keeps s0 s) : KeepsR s0 (execCkptSnapshot s) := by
  dsimp only [execCkptSnapshot]
  repeat' first | (simp +contextual (maxDischargeDepth := 40) [hk]; done) | split

@[simp ↓] theorem keeps_ckptDrop {s0 s : State} (e code : Nat) (hk : Keeps s0 s) : Keeps s0 (s.ckptDrop e code) := by
  dsimp only [State.ckptDrop]
  repeat' first | (simp +contextual (maxDischargeDepth := 40) [hk]; done) | split

@[simp ↓] theorem keeps_execCkptBegin {s0 s : State} (epoch total : BitVec 64) (hk : Keeps s0 s) : KeepsR s0 (execCkptBegin epoch total s) := by
  dsimp only [execCkptBegin]
  repeat' first | (simp +contextual (maxDischargeDepth := 40) [hk]; done) | split

@[simp ↓] theorem keeps_execCkptData {s0 s : State} (epoch : BitVec 64) (data : List Byte) (hk : Keeps s0 s) : KeepsR s0 (execCkptData epoch data s) := by
  dsimp only [execCkptData]
  repeat' first | (simp +contextual (maxDischargeDepth := 40) [hk]; done) | (have hw := keeps_writeDva (by assumption) (by simp +contextual (maxDischargeDepth := 40) [hk] : Keeps s0 _); simp +contextual (maxDischargeDepth := 40) [hw]; done) | split

@[simp ↓] theorem keeps_execCkptCommit {s0 s : State} (epoch crc snap : BitVec 64) (hk : Keeps s0 s) : KeepsR s0 (execCkptCommit epoch crc snap s) := by
  dsimp only [execCkptCommit]
  repeat' first | (simp +contextual (maxDischargeDepth := 40) [hk]; done) | split

@[simp ↓] theorem keeps_execCkptAck {s0 s : State} (epoch : BitVec 64) (code : BitVec 16) (hk : Keeps s0 s) : KeepsR s0 (execCkptAck epoch code s) := by
  dsimp only [execCkptAck]
  repeat' first | (simp +contextual (maxDischargeDepth := 40) [hk]; done) | split

end Sys2Proof.Machine
end

