-- ==== Sys2Proof/Laws/KeepsDescCmd.lean ====
section
/-! SUPPORT. Sys2Proof/Laws/KeepsDescCmd.lean: what the operations of Machine/DescCmd.lean keep. -/

namespace Sys2Proof.Machine

set_option linter.unusedSimpArgs false
set_option linter.unusedTactic false
set_option linter.unreachableTactic false

@[simp ↓] theorem keeps_setEntry {s0 s : State} (p h : Nat) (kind : Option Nat) (hk : Keeps s0 s) : Keeps s0 (s.setEntry p h kind) := by
  dsimp only [State.setEntry]
  repeat' first | (simp +contextual (maxDischargeDepth := 40) [hk]; done) | split

@[simp ↓] theorem keeps_dropStale {s0 s : State} (p h : Nat) (hk : Keeps s0 s) : Keeps s0 (s.dropStale p h) := by
  dsimp only [State.dropStale]
  repeat' first | (simp +contextual (maxDischargeDepth := 40) [hk]; done) | split

@[simp ↓] theorem keeps_keepStale {s0 s : State} (p h : Nat) (old : List Byte) (hk : Keeps s0 s) : Keeps s0 (s.keepStale p h old) := by
  dsimp only [State.keepStale]
  repeat' first | (simp +contextual (maxDischargeDepth := 40) [hk]; done) | split

@[simp ↓] theorem keeps_dscStart {s0 s : State} (p h op code : Nat) (item : Option Nat) (hk : Keeps s0 s) : Keeps s0 (s.dscStart p h op code item) := by
  dsimp only [State.dscStart]
  repeat' first | (simp +contextual (maxDischargeDepth := 40) [hk]; done) | split

theorem keeps_entryWrite {s0 s t : State} {p i : Nat} {img : List Byte} (e : s.entryWrite p i img = some t) (hk : Keeps s0 s) :
    Keeps s0 t := by
  unfold State.entryWrite at e
  split at e
  · cases e; exact keeps_writePA _ _ _ _ _ hk
  · cases e

@[simp ↓] theorem keeps_dscStore {s0 s : State} (p i op : Nat) (img : List Byte) (hk : Keeps s0 s) : Keeps s0 (s.dscStore p i op img).1 := by
  dsimp only [State.dscStore]
  repeat' first
    | (simp +contextual (maxDischargeDepth := 40) [hk]; done)
    | (have hw := keeps_entryWrite (by assumption) hk; simp +contextual (maxDischargeDepth := 40) [hw]; done)
    | split

@[simp ↓] theorem keeps_dscRun {s0 s : State} (p h op : Nat) (img : Except Nat (List Byte)) (hk : Keeps s0 s) : Keeps s0 (s.dscRun p h op img).1 := by
  dsimp only [State.dscRun]
  repeat' first | (simp +contextual (maxDischargeDepth := 40) [hk]; done) | split

@[simp ↓] theorem keeps_dscCommand {s0 s : State} (p h op : Nat) (hk : Keeps s0 s) : Keeps s0 (s.dscCommand p h op) := by
  dsimp only [State.dscCommand]
  repeat' first | (simp +contextual (maxDischargeDepth := 40) [hk]; done) | split

@[simp ↓] theorem keeps_execDscCreate {s0 s : State} (p : Fin 16) (handle : BitVec 16) (hk : Keeps s0 s) : KeepsR s0 (execDscCreate p handle s) := by
  dsimp only [execDscCreate]
  repeat' first | (simp +contextual (maxDischargeDepth := 40) [hk]; done) | split

@[simp ↓] theorem keeps_execDscReplace {s0 s : State} (p : Fin 16) (handle : BitVec 16) (hk : Keeps s0 s) : KeepsR s0 (execDscReplace p handle s) := by
  dsimp only [execDscReplace]
  repeat' first | (simp +contextual (maxDischargeDepth := 40) [hk]; done) | split

@[simp ↓] theorem keeps_execDscReplaceInv {s0 s : State} (p : Fin 16) (handle : BitVec 16) (hk : Keeps s0 s) : KeepsR s0 (execDscReplaceInv p handle s) := by
  dsimp only [execDscReplaceInv]
  repeat' first | (simp +contextual (maxDischargeDepth := 40) [hk]; done) | split

@[simp ↓] theorem keeps_execDscDestroy {s0 s : State} (p : Fin 16) (handle : BitVec 16) (hk : Keeps s0 s) : KeepsR s0 (execDscDestroy p handle s) := by
  dsimp only [execDscDestroy]
  repeat' first | (simp +contextual (maxDischargeDepth := 40) [hk]; done) | split

@[simp ↓] theorem keeps_execDscInval {s0 s : State} (p : Fin 16) (handle : BitVec 16) (hk : Keeps s0 s) : KeepsR s0 (execDscInval p handle s) := by
  dsimp only [execDscInval]
  repeat' first | (simp +contextual (maxDischargeDepth := 40) [hk]; done) | split

@[simp ↓] theorem keeps_execDscInvalAll {s0 s : State} (p : Fin 16) (hk : Keeps s0 s) : KeepsR s0 (execDscInvalAll p s) := by
  dsimp only [execDscInvalAll]
  repeat' first | (simp +contextual (maxDischargeDepth := 40) [hk]; done) | split

@[simp ↓] theorem keeps_execDscCmdComplete {s0 s : State} (p : Fin 16) (hk : Keeps s0 s) : KeepsR s0 (execDscCmdComplete p s) := by
  dsimp only [execDscCmdComplete]
  repeat' first | (simp +contextual (maxDischargeDepth := 40) [hk]; done) | split

@[simp ↓] theorem keeps_rewriteOne {s0 s : State} (w : Rewrite) (hk : Keeps s0 s) : Keeps s0 (s.rewriteOne w) := by
  dsimp only [State.rewriteOne]
  repeat' first
    | (simp +contextual (maxDischargeDepth := 40) [hk]; done)
    | (have hw := keeps_entryWrite (by assumption) hk; simp +contextual (maxDischargeDepth := 40) [hw]; done)
    | split

@[simp ↓] theorem keeps_rgnRefuse {s0 s : State}  (hk : Keeps s0 s) : Keeps s0 s.rgnRefuse := by
  dsimp only [State.rgnRefuse]
  repeat' first | (simp +contextual (maxDischargeDepth := 40) [hk]; done) | split

@[simp ↓] theorem keeps_execRgnWrite {s0 s : State}  (hk : Keeps s0 s) : KeepsR s0 (execRgnWrite s) := by
  dsimp only [execRgnWrite]
  repeat' first | (simp +contextual (maxDischargeDepth := 40) [hk]; done) | split

@[simp ↓] theorem keeps_execRgnRead {s0 s : State}  (hk : Keeps s0 s) : KeepsR s0 (execRgnRead s) := by
  dsimp only [execRgnRead]
  repeat' first | (simp +contextual (maxDischargeDepth := 40) [hk]; done) | split

@[simp ↓] theorem keeps_execRgnClear {s0 s : State}  (hk : Keeps s0 s) : KeepsR s0 (execRgnClear s) := by
  dsimp only [execRgnClear]
  repeat' first | (simp +contextual (maxDischargeDepth := 40) [hk]; done) | split

@[simp ↓] theorem keeps_execRgnCmdComplete {s0 s : State}  (hk : Keeps s0 s) : KeepsR s0 (execRgnCmdComplete s) := by
  dsimp only [execRgnCmdComplete]
  repeat' first | (simp +contextual (maxDischargeDepth := 40) [hk]; done) | (have hw := keeps_of_snd (by assumption) (by simp +contextual (maxDischargeDepth := 40) [hk] : Keeps s0 _); simp +contextual (maxDischargeDepth := 40) [hw, hk]; done) | (have hw := keeps_of_fst (by assumption) (by simp +contextual (maxDischargeDepth := 40) [hk] : Keeps s0 _); simp +contextual (maxDischargeDepth := 40) [hw, hk]; done) | split

end Sys2Proof.Machine
end

