-- ==== Sys2Proof/Laws/KeepsQueue.lean ====
section
/-! SUPPORT. Sys2Proof/Laws/KeepsQueue.lean: what the operations of Machine/Queue.lean keep. -/

namespace Sys2Proof.Machine

set_option linter.unusedSimpArgs false
set_option linter.unusedTactic false
set_option linter.unreachableTactic false

@[simp ↓] theorem keeps_qmErr {s0 s : State} (p code : Nat) (info : Nat) (hk : Keeps s0 s) : Keeps s0 (s.qmErr p code info) := by
  dsimp only [State.qmErr]
  repeat' first | (simp +contextual (maxDischargeDepth := 40) [hk]; done) | split

@[simp ↓] theorem keeps_clearRing {s0 s : State} (u : UnitId) (hk : Keeps s0 s) : Keeps s0 (s.clearRing u) := by
  dsimp only [State.clearRing]
  repeat' first | (simp +contextual (maxDischargeDepth := 40) [hk]; done) | split

@[simp ↓] theorem keeps_zeroUnit {s0 s : State} (c i : Nat) (hk : Keeps s0 s) : Keeps s0 (s.zeroUnit c i) := by
  dsimp only [State.zeroUnit]
  have h1 : Keeps s0 ((s.clearRegs (unitRegs c i)).clearRing ⟨c, i⟩) := keeps_clearRing _ (keeps_clearRegs _ hk)
  generalize (s.clearRegs (unitRegs c i)).clearRing ⟨c, i⟩ = s1 at h1 ⊢
  split
  · exact keeps_startZeroing _ h1
  · exact keeps_resetChannel _ h1
  · exact keeps_mk h1
  · rw [Tab.del_eq_filter]; exact keeps_filterFlags _ _ h1
  · exact h1

@[simp ↓] theorem keeps_setOwners {s0 s : State} (c first n : Nat) (p : Option Nat) (hk : Keeps s0 s) : Keeps s0 (s.setOwners c first n p) := by
  dsimp only [State.setOwners]
  repeat' first | (simp +contextual (maxDischargeDepth := 40) [hk, ‹Keeps s0 _›]; done) | refine keeps_foldl _ ?_ fun _ _ _ => ?_ | split

@[simp ↓] theorem keeps_assignApply {s0 s : State} (assign : Bool) (c first n p : Nat) (hk : Keeps s0 s) : Keeps s0 (s.assignApply assign c first n p) := by
  dsimp only [State.assignApply]
  repeat' first | (simp +contextual (maxDischargeDepth := 40) [hk, ‹Keeps s0 _›]; done) | (have hw := keeps_of_snd (by assumption) (by simp +contextual (maxDischargeDepth := 40) [hk] : Keeps s0 _); simp +contextual (maxDischargeDepth := 40) [hw, hk]; done) | (have hw := keeps_of_fst (by assumption) (by simp +contextual (maxDischargeDepth := 40) [hk] : Keeps s0 _); simp +contextual (maxDischargeDepth := 40) [hw, hk]; done) | refine keeps_foldl _ ?_ fun _ _ _ => ?_ | split

@[simp ↓] theorem keeps_assignCmd {s0 s : State} (assign : Bool) (p : Nat) (hk : Keeps s0 s) : Keeps s0 (s.assignCmd assign p) := by
  dsimp only [State.assignCmd]
  repeat' first | (simp +contextual (maxDischargeDepth := 40) [hk]; done) | split

@[simp ↓] theorem keeps_execAssign {s0 s : State} (p : Fin 16) (hk : Keeps s0 s) : KeepsR s0 (execAssign p s) := by
  dsimp only [execAssign]
  repeat' first | (simp +contextual (maxDischargeDepth := 40) [hk]; done) | split

@[simp ↓] theorem keeps_execUnitRelease {s0 s : State} (p : Fin 16) (hk : Keeps s0 s) : KeepsR s0 (execUnitRelease p s) := by
  dsimp only [execUnitRelease]
  repeat' first | (simp +contextual (maxDischargeDepth := 40) [hk]; done) | split

@[simp ↓] theorem keeps_execAssignComplete {s0 s : State}  (hk : Keeps s0 s) : KeepsR s0 (execAssignComplete s) := by
  dsimp only [execAssignComplete]
  repeat' first | (simp +contextual (maxDischargeDepth := 40) [hk]; done) | (have hw := keeps_of_snd (by assumption) (by simp +contextual (maxDischargeDepth := 40) [hk] : Keeps s0 _); simp +contextual (maxDischargeDepth := 40) [hw, hk]; done) | (have hw := keeps_of_fst (by assumption) (by simp +contextual (maxDischargeDepth := 40) [hk] : Keeps s0 _); simp +contextual (maxDischargeDepth := 40) [hw, hk]; done) | split

@[simp ↓] theorem keeps_zeroChunk {s0 s : State} (c : Nat) (hk : Keeps s0 s) : Keeps s0 (s.zeroChunk c) :=
  hk.trans ⟨rfl, fun h => ⟨⟨h.1.1, Tab.canon_filter _ h.1.2.1, h.1.2.2⟩, h.2⟩, Nat.le_refl _, List.prefix_refl _⟩

@[simp ↓] theorem keeps_countChunks {s0 s : State} (p : Nat) (hk : Keeps s0 s) : Keeps s0 (s.countChunks p) := by
  dsimp only [State.countChunks]
  repeat' first | (simp +contextual (maxDischargeDepth := 40) [hk]; done) | split

@[simp ↓] theorem keeps_grantRefuse {s0 s : State} (code : Nat) (hk : Keeps s0 s) : Keeps s0 (s.grantRefuse code) := by
  dsimp only [State.grantRefuse]
  repeat' first | (simp +contextual (maxDischargeDepth := 40) [hk]; done) | split

@[simp ↓] theorem keeps_execGrant {s0 s : State} (p : Fin 16) (hk : Keeps s0 s) : KeepsR s0 (execGrant p s) := by
  dsimp only [execGrant]
  repeat' first | (simp +contextual (maxDischargeDepth := 40) [hk]; done) | split

@[simp ↓] theorem keeps_execChunkFillComplete {s0 s : State}  (hk : Keeps s0 s) : KeepsR s0 (execChunkFillComplete s) := by
  dsimp only [execChunkFillComplete]
  repeat' first | (simp +contextual (maxDischargeDepth := 40) [hk]; done) | (have hw := keeps_of_snd (by assumption) (by simp +contextual (maxDischargeDepth := 40) [hk] : Keeps s0 _); simp +contextual (maxDischargeDepth := 40) [hw, hk]; done) | (have hw := keeps_of_fst (by assumption) (by simp +contextual (maxDischargeDepth := 40) [hk] : Keeps s0 _); simp +contextual (maxDischargeDepth := 40) [hw, hk]; done) | split

@[simp ↓] theorem keeps_freeChunks {s0 s : State} (first n p : Nat) (hk : Keeps s0 s) : Keeps s0 (s.freeChunks first n p) := by
  dsimp only [State.freeChunks]
  repeat' first | (simp +contextual (maxDischargeDepth := 40) [hk]; done) | split

@[simp ↓] theorem keeps_execChunkRelease {s0 s : State} (p : Fin 16) (hk : Keeps s0 s) : KeepsR s0 (execChunkRelease p s) := by
  dsimp only [execChunkRelease]
  repeat' first | (simp +contextual (maxDischargeDepth := 40) [hk]; done) | split

@[simp ↓] theorem keeps_execChunkReleaseComplete {s0 s : State}  (hk : Keeps s0 s) : KeepsR s0 (execChunkReleaseComplete s) := by
  dsimp only [execChunkReleaseComplete]
  repeat' first | (simp +contextual (maxDischargeDepth := 40) [hk]; done) | (have hw := keeps_of_snd (by assumption) (by simp +contextual (maxDischargeDepth := 40) [hk] : Keeps s0 _); simp +contextual (maxDischargeDepth := 40) [hw, hk]; done) | (have hw := keeps_of_fst (by assumption) (by simp +contextual (maxDischargeDepth := 40) [hk] : Keeps s0 _); simp +contextual (maxDischargeDepth := 40) [hw, hk]; done) | split

@[simp ↓] theorem keeps_execModeWrite {s0 s : State} (fn p : Fin 16) (value : BitVec 32) (hk : Keeps s0 s) : KeepsR s0 (execModeWrite fn p value s) := by
  dsimp only [execModeWrite]
  repeat' first | (simp +contextual (maxDischargeDepth := 40) [hk]; done) | split

@[simp ↓] theorem keeps_execDoorbellTail {s0 s : State} (p : Fin 16) (malformed : Bool) (ring : Fin 8192) (epoch : BitVec 16) (value : BitVec 32) (hk : Keeps s0 s) : KeepsR s0 (execDoorbellTail p malformed ring epoch value s) := by
  dsimp only [execDoorbellTail]
  repeat' first | (simp +contextual (maxDischargeDepth := 40) [hk]; done) | split

@[simp ↓] theorem keeps_execDoorbellHead {s0 s : State} (p : Fin 16) (malformed : Bool) (ring : Fin 8192) (epoch : BitVec 16) (value : BitVec 32) (hk : Keeps s0 s) : KeepsR s0 (execDoorbellHead p malformed ring epoch value s) := by
  dsimp only [execDoorbellHead]
  repeat' first | (simp +contextual (maxDischargeDepth := 40) [hk]; done) | split

@[simp ↓] theorem keeps_refuseInvalid {s0 s : State} (p r n : Nat) (hk : Keeps s0 s) : Keeps s0 (s.refuseInvalid p r n) := by
  induction n generalizing s with
  | zero => exact hk
  | succ n ih =>
    rw [State.refuseInvalid]
    split
    · exact hk
    · split
      · exact hk
      · exact ih (keeps_itemFinish _ _ (keeps_qmErr _ _ _ (keeps_ringHead _ _ _ (keeps_mk hk))))

@[simp ↓] theorem keeps_ringFault {s0 s : State} (r : Nat) (hk : Keeps s0 s) : Keeps s0 (s.ringFault r) := by
  dsimp only [State.ringFault]
  repeat' first | (simp +contextual (maxDischargeDepth := 40) [hk]; done) | split

@[simp ↓] theorem keeps_execRingEntriesArrive {s0 s : State} (ring : Fin 8192) (hostData : List Byte) (hostBad : Bool)
    (hk : Keeps s0 s) : KeepsR s0 (execRingEntriesArrive ring hostData hostBad s) := by
  unfold execRingEntriesArrive
  have hf := keeps_ringFault ring hk
  split
  · exact keepsR_next hk
  · refine keepsR_ite (fun _ => keepsR_next hk) fun _ => ?_
    split
    · exact keepsR_next (keeps_qmErr _ _ _ (keeps_oob _ _ _ _ _ hf))
    · exact keepsR_next (keeps_qmErr _ _ _ (keeps_qmErr _ _ _ hf))
    · exact keepsR_ite (fun _ => keepsR_next (keeps_qmErr _ _ _ hf))
        fun _ => keepsR_next (keeps_refuseInvalid _ _ _ (keeps_mk (keeps_bump _ _ (keeps_wr _ _ hk))))

theorem keeps_takeItem {s0 s t : State} {r opc p : Nat} {i : Item} (e : s.takeItem r opc = some (t, p, i)) (hk : Keeps s0 s) :
    Keeps s0 t := by
  unfold State.takeItem at e
  split at e
  · split at e
    · cases e; exact keeps_ringHead _ _ _ (keeps_mk hk)
    · cases e
  · cases e

@[simp ↓] theorem keeps_itemEnd {s0 s : State} (p : Nat) (i : Item) (code : Nat) (hk : Keeps s0 s) : Keeps s0 (s.itemEnd p i code) := by
  dsimp only [State.itemEnd]
  repeat' first | (simp +contextual (maxDischargeDepth := 40) [hk]; done) | split

@[simp ↓] theorem keeps_execItemLaunch {s0 s : State} (ring : Fin 8192) (hk : Keeps s0 s) : KeepsR s0 (execItemLaunch ring s) := by
  dsimp only [execItemLaunch]
  repeat' first | (simp +contextual (maxDischargeDepth := 40) [hk]; done) | (have hw := keeps_takeItem (by assumption) (by simp +contextual (maxDischargeDepth := 40) [hk] : Keeps s0 _); simp +contextual (maxDischargeDepth := 40) [hw]; done) | (have hw := keeps_of_snd (by assumption) (by simp +contextual (maxDischargeDepth := 40) [hk] : Keeps s0 _); simp +contextual (maxDischargeDepth := 40) [hw, hk]; done) | (have hw := keeps_of_fst (by assumption) (by simp +contextual (maxDischargeDepth := 40) [hk] : Keeps s0 _); simp +contextual (maxDischargeDepth := 40) [hw, hk]; done) | split

@[simp ↓] theorem keeps_execItemSignal {s0 s : State} (ring : Fin 8192) (hk : Keeps s0 s) : KeepsR s0 (execItemSignal ring s) := by
  dsimp only [execItemSignal]
  repeat' first | (simp +contextual (maxDischargeDepth := 40) [hk]; done) | (have hw := keeps_takeItem (by assumption) (by simp +contextual (maxDischargeDepth := 40) [hk] : Keeps s0 _); simp +contextual (maxDischargeDepth := 40) [hw]; done) | (have hw := keeps_of_snd (by assumption) (by simp +contextual (maxDischargeDepth := 40) [hk] : Keeps s0 _); simp +contextual (maxDischargeDepth := 40) [hw, hk]; done) | (have hw := keeps_of_fst (by assumption) (by simp +contextual (maxDischargeDepth := 40) [hk] : Keeps s0 _); simp +contextual (maxDischargeDepth := 40) [hw, hk]; done) | split

@[simp ↓] theorem keeps_execItemSet {s0 s : State} (ring : Fin 8192) (hk : Keeps s0 s) : KeepsR s0 (execItemSet ring s) := by
  dsimp only [execItemSet]
  repeat' first | (simp +contextual (maxDischargeDepth := 40) [hk]; done) | (have hw := keeps_takeItem (by assumption) (by simp +contextual (maxDischargeDepth := 40) [hk] : Keeps s0 _); simp +contextual (maxDischargeDepth := 40) [hw]; done) | (have hw := keeps_of_snd (by assumption) (by simp +contextual (maxDischargeDepth := 40) [hk] : Keeps s0 _); simp +contextual (maxDischargeDepth := 40) [hw, hk]; done) | (have hw := keeps_of_fst (by assumption) (by simp +contextual (maxDischargeDepth := 40) [hk] : Keeps s0 _); simp +contextual (maxDischargeDepth := 40) [hw, hk]; done) | split

@[simp ↓] theorem keeps_execItemTrigger {s0 s : State} (ring : Fin 8192) (hk : Keeps s0 s) : KeepsR s0 (execItemTrigger ring s) := by
  dsimp only [execItemTrigger]
  repeat' first | (simp +contextual (maxDischargeDepth := 40) [hk]; done) | (have hw := keeps_takeItem (by assumption) (by simp +contextual (maxDischargeDepth := 40) [hk] : Keeps s0 _); simp +contextual (maxDischargeDepth := 40) [hw]; done) | (have hw := keeps_of_snd (by assumption) (by simp +contextual (maxDischargeDepth := 40) [hk] : Keeps s0 _); simp +contextual (maxDischargeDepth := 40) [hw, hk]; done) | (have hw := keeps_of_fst (by assumption) (by simp +contextual (maxDischargeDepth := 40) [hk] : Keeps s0 _); simp +contextual (maxDischargeDepth := 40) [hw, hk]; done) | split

@[simp ↓] theorem keeps_execItemMstart {s0 s : State} (ring : Fin 8192) (hk : Keeps s0 s) : KeepsR s0 (execItemMstart ring s) := by
  dsimp only [execItemMstart]
  repeat' first | (simp +contextual (maxDischargeDepth := 40) [hk]; done) | (have hw := keeps_takeItem (by assumption) (by simp +contextual (maxDischargeDepth := 40) [hk] : Keeps s0 _); simp +contextual (maxDischargeDepth := 40) [hw]; done) | (have hw := keeps_of_snd (by assumption) (by simp +contextual (maxDischargeDepth := 40) [hk] : Keeps s0 _); simp +contextual (maxDischargeDepth := 40) [hw, hk]; done) | (have hw := keeps_of_fst (by assumption) (by simp +contextual (maxDischargeDepth := 40) [hk] : Keeps s0 _); simp +contextual (maxDischargeDepth := 40) [hw, hk]; done) | split

@[simp ↓] theorem keeps_execItemDsc {s0 s : State} (ring : Fin 8192) (hk : Keeps s0 s) : KeepsR s0 (execItemDsc ring s) := by
  dsimp only [execItemDsc]
  repeat' first | (simp +contextual (maxDischargeDepth := 40) [hk]; done) | (have hw := keeps_takeItem (by assumption) (by simp +contextual (maxDischargeDepth := 40) [hk] : Keeps s0 _); simp +contextual (maxDischargeDepth := 40) [hw]; done) | (have hw := keeps_of_snd (by assumption) (by simp +contextual (maxDischargeDepth := 40) [hk] : Keeps s0 _); simp +contextual (maxDischargeDepth := 40) [hw, hk]; done) | (have hw := keeps_of_fst (by assumption) (by simp +contextual (maxDischargeDepth := 40) [hk] : Keeps s0 _); simp +contextual (maxDischargeDepth := 40) [hw, hk]; done) | split

@[simp ↓] theorem keeps_execItemNop {s0 s : State} (ring : Fin 8192) (hk : Keeps s0 s) : KeepsR s0 (execItemNop ring s) := by
  dsimp only [execItemNop]
  repeat' first | (simp +contextual (maxDischargeDepth := 40) [hk]; done) | (have hw := keeps_takeItem (by assumption) (by simp +contextual (maxDischargeDepth := 40) [hk] : Keeps s0 _); simp +contextual (maxDischargeDepth := 40) [hw]; done) | (have hw := keeps_of_snd (by assumption) (by simp +contextual (maxDischargeDepth := 40) [hk] : Keeps s0 _); simp +contextual (maxDischargeDepth := 40) [hw, hk]; done) | (have hw := keeps_of_fst (by assumption) (by simp +contextual (maxDischargeDepth := 40) [hk] : Keeps s0 _); simp +contextual (maxDischargeDepth := 40) [hw, hk]; done) | split

theorem keeps_writeEntries {s0 s t : State} {p r n k : Nat} {bs : List Byte} (e : s.writeEntries p r n k bs = .done t)
    (hk : Keeps s0 s) : Keeps s0 t := by
  induction n generalizing s k bs with
  | zero => cases e; exact hk
  | succ n ih =>
    rw [State.writeEntries] at e
    split at e
    · next e' => exact ih e (keeps_writeDva e' hk)
    · exact absurd e (by intro h; simp_all)

@[simp ↓] theorem keeps_execCompletionPost {s0 s : State} (ring : Fin 8192) (hk : Keeps s0 s) : KeepsR s0 (execCompletionPost ring s) := by
  dsimp only [execCompletionPost]
  repeat' first | (simp +contextual (maxDischargeDepth := 40) [hk]; done) | (have hw := keeps_writeEntries (by assumption) (by simp +contextual (maxDischargeDepth := 40) [hk] : Keeps s0 _); simp +contextual (maxDischargeDepth := 40) [hw]; done) | split

@[simp ↓] theorem keeps_execHoldoffExpiry {s0 s : State} (ring : Fin 8192) (hk : Keeps s0 s) : KeepsR s0 (execHoldoffExpiry ring s) := by
  dsimp only [execHoldoffExpiry]
  repeat' first | (simp +contextual (maxDischargeDepth := 40) [hk]; done) | split

@[simp ↓] theorem keeps_epochUp {s0 s : State} (r : Nat) (hk : Keeps s0 s) : Keeps s0 (s.epochUp r) := by
  dsimp only [State.epochUp]
  repeat' first | (simp +contextual (maxDischargeDepth := 40) [hk]; done) | split

@[simp ↓] theorem keeps_execQmRingFlush {s0 s : State} (ring : Fin 8192) (hk : Keeps s0 s) : KeepsR s0 (execQmRingFlush ring s) := by
  dsimp only [execQmRingFlush]
  repeat' first | (simp +contextual (maxDischargeDepth := 40) [hk]; done) | split

@[simp ↓] theorem keeps_ringFlushAll {s0 s : State} (ring : Nat) (hk : Keeps s0 s) : Keeps s0 (s.ringFlushAll ring) := by
  dsimp only [State.ringFlushAll]
  repeat' first | (simp +contextual (maxDischargeDepth := 40) [hk]; done) | split

@[simp ↓] theorem keeps_execQmRingFlushAll {s0 s : State} (ring : Fin 8192) (hk : Keeps s0 s) : KeepsR s0 (execQmRingFlushAll ring s) := by
  dsimp only [execQmRingFlushAll]
  repeat' first | (simp +contextual (maxDischargeDepth := 40) [hk]; done) | split

@[simp ↓] theorem keeps_execQmRingReset {s0 s : State} (ring : Fin 8192) (hk : Keeps s0 s) : KeepsR s0 (execQmRingReset ring s) := by
  dsimp only [execQmRingReset]
  repeat' first | (simp +contextual (maxDischargeDepth := 40) [hk]; done) | split

@[simp ↓] theorem keeps_execRingCfgWrite {s0 s : State} (ring : Fin 8192) (value : BitVec 32) (hk : Keeps s0 s) : KeepsR s0 (execRingCfgWrite ring value s) := by
  dsimp only [execRingCfgWrite]
  repeat' first | (simp +contextual (maxDischargeDepth := 40) [hk]; done) | split

@[simp ↓] theorem keeps_execVmapWrite {s0 s : State} (fn p : Fin 16) (i : Fin 256) (value : BitVec 32) (hk : Keeps s0 s) :
    KeepsR s0 (execVmapWrite fn p i value s) := by
  unfold execVmapWrite
  exact keepsR_ite (fun _ => keepsR_next hk) fun _ => keepsR_ite (fun _ => keepsR_next (keeps_qmErr _ _ _ hk))
    fun _ => keepsR_next (keeps_wr _ _ hk)

@[simp ↓] theorem keeps_execQosMemWrite {s0 s : State} (fn p : Fin 16) (value : BitVec 32) (hk : Keeps s0 s) : KeepsR s0 (execQosMemWrite fn p value s) := by
  dsimp only [execQosMemWrite]
  repeat' first | (simp +contextual (maxDischargeDepth := 40) [hk]; done) | split

@[simp ↓] theorem keeps_execQosLinkWrite {s0 s : State} (fn p : Fin 16) (value : BitVec 32) (hk : Keeps s0 s) : KeepsR s0 (execQosLinkWrite fn p value s) := by
  dsimp only [execQosLinkWrite]
  repeat' first | (simp +contextual (maxDischargeDepth := 40) [hk]; done) | split

@[simp ↓] theorem keeps_execQosInterval {s0 s : State}  (hk : Keeps s0 s) : KeepsR s0 (execQosInterval s) := by
  dsimp only [execQosInterval]
  repeat' first | (simp +contextual (maxDischargeDepth := 40) [hk, ‹Keeps s0 _›]; done) | refine keeps_foldl _ ?_ fun _ _ _ => ?_ | split

@[simp ↓] theorem keeps_execPtDrainRead {s0 s : State} (p : Fin 16) (hk : Keeps s0 s) : KeepsR s0 (execPtDrainRead p s) := by
  dsimp only [execPtDrainRead]
  repeat' first | (simp +contextual (maxDischargeDepth := 40) [hk]; done) | split

@[simp ↓] theorem keeps_execPtDrainReturn {s0 s : State} (p : Fin 16) (hk : Keeps s0 s) : KeepsR s0 (execPtDrainReturn p s) := by
  dsimp only [execPtDrainReturn]
  repeat' first | (simp +contextual (maxDischargeDepth := 40) [hk]; done) | split

@[simp ↓] theorem keeps_execUnexpectedCompletion {s0 s : State} (_p : Fin 16) (hk : Keeps s0 s) : KeepsR s0 (execUnexpectedCompletion _p s) := by
  dsimp only [execUnexpectedCompletion]
  repeat' first | (simp +contextual (maxDischargeDepth := 40) [hk]; done) | split

@[simp ↓] theorem keeps_deliverPending {s0 s : State} (fn i : Nat) (hk : Keeps s0 s) : Keeps s0 (s.deliverPending fn i) := by
  dsimp only [State.deliverPending]
  repeat' first | (simp +contextual (maxDischargeDepth := 40) [hk]; done) | split

@[simp ↓] theorem keeps_execMsixEnableSet {s0 s : State} (fn : Fin 16) (hk : Keeps s0 s) : KeepsR s0 (execMsixEnableSet fn s) := by
  dsimp only [execMsixEnableSet]
  repeat' first | (simp +contextual (maxDischargeDepth := 40) [hk, ‹Keeps s0 _›]; done) | refine keeps_foldl _ ?_ fun _ _ _ => ?_ | split

end Sys2Proof.Machine
end

