-- ==== Sys2Proof/Laws/KeepsIspCore.lean ====
section
/-! SUPPORT. Sys2Proof/Laws/KeepsIspCore.lean: what the operations of Machine/IspCore.lean keep. -/

namespace Sys2Proof.Machine

set_option linter.unusedSimpArgs false
set_option linter.unusedTactic false
set_option linter.unreachableTactic false

@[simp ↓] theorem keeps_ispErr {s0 s : State} (u code : Nat) (info : Nat) (hk : Keeps s0 s) : Keeps s0 (s.ispErr u code info) := by
  dsimp only [State.ispErr]
  repeat' first | (simp +contextual (maxDischargeDepth := 40) [hk]; done) | split

@[simp ↓] theorem keeps_ispOut {s0 s : State} (p k : Nat) (ok : Desc → Bool) (hk : Keeps s0 s) : Keeps s0 (s.ispOut p k ok).2 := by
  have hc := keeps_capture p k 0xD35C hk
  dsimp only [State.ispOut]
  split
  · exact hk
  · split
    · next e => rw [e] at hc; exact hc
    · next e => rw [e] at hc; exact hc

@[simp ↓] theorem keeps_ispOuts {s0 s : State} (p pattern w k : Nat) (set launch : List Byte) (hk : Keeps s0 s) :
    Keeps s0 (s.ispOuts p pattern w k set launch).2 := by
  dsimp only [State.ispOuts]
  split <;> simp (maxDischargeDepth := 40) [hk]

@[simp ↓] theorem keeps_ispStop {s0 s : State} (u code : Nat) (hk : Keeps s0 s) : Keeps s0 (s.ispStop u code) := by
  dsimp only [State.ispStop]
  repeat' first | (simp +contextual (maxDischargeDepth := 40) [hk]; done) | split

@[simp ↓] theorem keeps_ispFault {s0 s : State} (u code row : Nat) (missing : Bool) (hk : Keeps s0 s) : Keeps s0 (s.ispFault u code row missing) := by
  dsimp only [State.ispFault]
  repeat' first | (simp +contextual (maxDischargeDepth := 40) [hk]; done) | split

@[simp ↓] theorem keeps_ispAdvance {s0 s : State} (u : Nat) (hk : Keeps s0 s) : Keeps s0 (s.ispAdvance u) := by
  dsimp only [State.ispAdvance]
  repeat' first | (simp +contextual (maxDischargeDepth := 40) [hk, ‹Keeps s0 _›]; done) | refine keeps_foldl _ ?_ fun _ _ _ => ?_ | split

@[simp ↓] theorem keeps_ispTake {s0 s : State} (u : Nat) (hk : Keeps s0 s) : Keeps s0 (s.ispTake u) := by
  dsimp only [State.ispTake]
  repeat' first | (simp +contextual (maxDischargeDepth := 40) [hk]; done) | split

@[simp ↓] theorem keeps_ispSkip {s0 s : State} (u code : Nat) (r : NodeRef) (hk : Keeps s0 s) : Keeps s0 (s.ispSkip u code r) := by
  dsimp only [State.ispSkip]
  repeat' first | (simp +contextual (maxDischargeDepth := 40) [hk]; done) | split

@[simp ↓] theorem keeps_ispDefects {s0 s : State} (u : Nat) (f : IspFrame) (hk : Keeps s0 s) : Keeps s0 (s.ispDefects u f) := by
  dsimp only [State.ispDefects]
  repeat' first | (simp +contextual (maxDischargeDepth := 40) [hk]; done) | split

@[simp ↓] theorem keeps_ispStart {s0 s : State} (u : Nat) (r : NodeRef) (launch : List Byte) (recA seq dt w : Nat) (hk : Keeps s0 s) : Keeps s0 (s.ispStart u r launch recA seq dt w) := by
  dsimp only [State.ispStart]
  repeat' first | (simp +contextual (maxDischargeDepth := 40) [hk, ‹Keeps s0 _›]; done) | (have hw := keeps_of_snd (by assumption) (by simp +contextual (maxDischargeDepth := 40) [hk] : Keeps s0 _); simp +contextual (maxDischargeDepth := 40) [hw, hk]; done) | (have hw := keeps_of_fst (by assumption) (by simp +contextual (maxDischargeDepth := 40) [hk] : Keeps s0 _); simp +contextual (maxDischargeDepth := 40) [hw, hk]; done) | refine keeps_foldl _ ?_ fun _ _ _ => ?_ | split

set_option maxHeartbeats 1000000 in
@[simp ↓] theorem keeps_ispLine {s0 s : State} (u e y : Nat) (r : NodeRef) (line : List Byte) (bad : Bool) (hk : Keeps s0 s) : Keeps s0 (s.ispLine u e y r line bad) := by
  dsimp only [State.ispLine]
  repeat' first | (simp +contextual (maxDischargeDepth := 40) [hk, ‹Keeps s0 _›]; done) | refine keeps_foldl _ ?_ fun _ _ _ => ?_ | split

@[simp ↓] theorem keeps_ispInputEnd {s0 s : State} (u e : Nat) (r : NodeRef) (hk : Keeps s0 s) : Keeps s0 (s.ispInputEnd u e r) := by
  dsimp only [State.ispInputEnd]
  repeat' first | (simp +contextual (maxDischargeDepth := 40) [hk]; done) | split

end Sys2Proof.Machine
end

