-- ==== Sys2Proof/Laws/KeepsIsp.lean ====
section
/-! SUPPORT. Sys2Proof/Laws/KeepsIsp.lean: what the operations of Machine/Isp.lean keep. -/

namespace Sys2Proof.Machine

set_option linter.unusedSimpArgs false
set_option linter.unusedTactic false
set_option linter.unreachableTactic false

@[simp ↓] theorem keeps_execIspCtxCfgWrite {s0 s : State} (u : Fin 48) (src : Bool) (value : BitVec 32) (hk : Keeps s0 s) : KeepsR s0 (execIspCtxCfgWrite u src value s) := by
  dsimp only [execIspCtxCfgWrite]
  repeat' first | (simp +contextual (maxDischargeDepth := 40) [hk]; done) | split

@[simp ↓] theorem keeps_execPbPost {s0 s : State} (u : Fin 48) (dva : BitVec 64) (hk : Keeps s0 s) : KeepsR s0 (execPbPost u dva s) := by
  dsimp only [execPbPost]
  repeat' first | (simp +contextual (maxDischargeDepth := 40) [hk]; done) | split

@[simp ↓] theorem keeps_setReject {s0 s : State} (u : Nat) (hk : Keeps s0 s) : Keeps s0 (s.setReject u) := by
  dsimp only [State.setReject]
  repeat' first | (simp +contextual (maxDischargeDepth := 40) [hk]; done) | split

@[simp ↓] theorem keeps_execPbFetchComplete {s0 s : State} (u : Fin 48) (hk : Keeps s0 s) : KeepsR s0 (execPbFetchComplete u s) := by
  dsimp only [execPbFetchComplete]
  repeat' first | (simp +contextual (maxDischargeDepth := 40) [hk]; done) | split

theorem keeps_ispWrite {s0 s t : State} {u p : Nat} {bad : Bool} {l : List (Nat × List Byte)} (e : s.ispWrite u p bad l = some t)
    (hk : Keeps s0 s) : Keeps s0 t := by
  induction l generalizing s with
  | nil => cases e; exact hk
  | cons x l ih =>
    rw [State.ispWrite] at e
    split at e
    · next e' => exact ih e (keeps_writeDva e' hk)
    · cases e

@[simp ↓] theorem keeps_execIspRowOutput {s0 s : State} (u : Fin 48) (hk : Keeps s0 s) : KeepsR s0 (execIspRowOutput u s) := by
  dsimp only [execIspRowOutput]
  split
  · simp [hk]
  · split
    · simp [hk]
    · split
      · simp (maxDischargeDepth := 40) [hk]
      · next e =>
        have hw := keeps_ispWrite e hk
        simp (maxDischargeDepth := 40) [hw]

@[simp ↓] theorem keeps_statsSlot {s0 s : State} (f : IspFrame) (i : IspIn) (hk : Keeps s0 s) : Keeps s0 (s.statsSlot f i).2 := by
  dsimp only [State.statsSlot]
  repeat' first | (simp +contextual (maxDischargeDepth := 40) [hk]; done) | split

@[simp ↓] theorem keeps_ispStats {s0 s : State} (u : Nat) (f : IspFrame) (hk : Keeps s0 s) : Keeps s0 (s.ispStats u f) := by
  dsimp only [State.ispStats]
  repeat' first | (simp +contextual (maxDischargeDepth := 40) [hk]; done) | (have hw := keeps_writeDva (by assumption) (by simp +contextual (maxDischargeDepth := 40) [hk] : Keeps s0 _); simp +contextual (maxDischargeDepth := 40) [hw]; done) | split

@[simp ↓] theorem keeps_execIspStatsWrite {s0 s : State} (u : Fin 48) (hk : Keeps s0 s) : KeepsR s0 (execIspStatsWrite u s) := by
  dsimp only [execIspStatsWrite]
  repeat' first | (simp +contextual (maxDischargeDepth := 40) [hk]; done) | split

end Sys2Proof.Machine
end

