-- ==== Sys2Proof/Laws/KeepsBracken.lean ====
section
/-! SUPPORT. Sys2Proof/Laws/KeepsBracken.lean: what the operations of Machine/Bracken.lean keep. -/

namespace Sys2Proof.Machine

set_option linter.unusedSimpArgs false
set_option linter.unusedTactic false
set_option linter.unreachableTactic false

@[simp ↓] theorem keeps_capturePlanes {s0 s : State} (p kind : Nat) (l : List PlaneUse) (t : Tab (List Byte)) (hk : Keeps s0 s) :
    Keeps s0 (s.capturePlanes p kind l t).2 := by
  induction l generalizing s t with
  | nil => exact hk
  | cons u us ih =>
    rw [State.capturePlanes]
    split
    · next e => exact keeps_of_snd e (keeps_capture _ _ _ hk)
    · next e =>
      have h1 := keeps_of_snd e (keeps_capture _ _ _ hk)
      split
      · exact ih _ h1
      · exact h1

@[simp ↓] theorem keeps_brkRefuse {s0 s : State} (e p code : Nat) (r : NodeRef) (hk : Keeps s0 s) : Keeps s0 (s.brkRefuse e p code r) := by
  dsimp only [State.brkRefuse]
  repeat' first | (simp +contextual (maxDischargeDepth := 40) [hk]; done) | split

@[simp ↓] theorem keeps_readJob {s0 s : State} (e p dva : Nat) (hk : Keeps s0 s) : Keeps s0 (s.readJob e p dva).1 := by
  dsimp only [State.readJob]
  repeat' first | (simp +contextual (maxDischargeDepth := 40) [hk]; done) | split

@[simp ↓] theorem keeps_execBrackenJobAccept {s0 s : State} (e : Fin 11) (hk : Keeps s0 s) : KeepsR s0 (execBrackenJobAccept e s) := by
  dsimp only [execBrackenJobAccept]
  split
  · generalize hx : s.needP0.setEng e _ = x
    have h0 : Keeps s0 x := by rw [← hx]; exact keeps_setEng _ _ (keeps_needP0 hk)
    split
    · next e => simp (maxDischargeDepth := 40) [keeps_of_fst e (keeps_readJob _ _ _ h0)]
    · next e =>
      have h1 := keeps_of_fst e (keeps_readJob _ _ _ h0)
      split
      · simp (maxDischargeDepth := 40) [h1]
      · split
        · next e' => simp (maxDischargeDepth := 40) [keeps_of_snd e' (keeps_capturePlanes _ _ _ _ h1)]
        · next e' =>
          have h2 := keeps_of_snd e' (keeps_capturePlanes _ _ _ _ h1)
          split
          · simp (maxDischargeDepth := 40) [h2]
          · simp (maxDischargeDepth := 40) [h2]
  · simp [hk]

@[simp ↓] theorem keeps_execBrackenRowStart {s0 s : State} (e : Fin 11) (hk : Keeps s0 s) : KeepsR s0 (execBrackenRowStart e s) := by
  dsimp only [execBrackenRowStart]
  repeat' first | (simp +contextual (maxDischargeDepth := 40) [hk]; done) | (have hw := keeps_of_snd (by assumption) (by simp +contextual (maxDischargeDepth := 40) [hk] : Keeps s0 _); simp +contextual (maxDischargeDepth := 40) [hw, hk]; done) | (have hw := keeps_of_fst (by assumption) (by simp +contextual (maxDischargeDepth := 40) [hk] : Keeps s0 _); simp +contextual (maxDischargeDepth := 40) [hw, hk]; done) | split

theorem keeps_brkWrite {s0 s t : State} {p e dva es k : Nat} {l : List (Nat × Bool)} (h : s.brkWrite p e dva es k l = some t)
    (hk : Keeps s0 s) : Keeps s0 t := by
  induction k generalizing s dva l with
  | zero => cases l <;> (cases h; exact hk)
  | succ k ih =>
    cases l with
    | nil => cases h; exact hk
    | cons x l =>
      rw [State.brkWrite] at h
      · split at h
        · next e' => exact ih h (keeps_writeDva e' hk)
        · cases h
      · simp

theorem keeps_brkWriteAll {s0 s t : State} {p e : Nat} {l : List (Nat × Nat × List (Nat × Bool))} (h : s.brkWriteAll p e l = some t)
    (hk : Keeps s0 s) : Keeps s0 t := by
  induction l generalizing s with
  | nil => cases h; exact hk
  | cons x l ih =>
    rw [State.brkWriteAll] at h
    split at h
    · cases h
    · next e' => exact ih h (keeps_brkWrite e' hk)

@[simp ↓] theorem keeps_brkAdvance {s0 s : State} (e k : Nat) (hk : Keeps s0 s) : Keeps s0 (s.brkAdvance e k) := by
  dsimp only [State.brkAdvance]
  repeat' first | (simp +contextual (maxDischargeDepth := 40) [hk]; done) | split

@[simp ↓] theorem keeps_brkAbort {s0 s : State} (e k code : Nat) (hk : Keeps s0 s) : Keeps s0 (s.brkAbort e k code) := by
  dsimp only [State.brkAbort]
  repeat' first | (simp +contextual (maxDischargeDepth := 40) [hk]; done) | split

@[simp ↓] theorem keeps_execBrackenRowDone {s0 s : State} (e : Fin 11) (hk : Keeps s0 s) : KeepsR s0 (execBrackenRowDone e s) := by
  dsimp only [execBrackenRowDone]
  repeat' first
    | (simp +contextual (maxDischargeDepth := 40) [hk]; done)
    | (have hw := keeps_brkWriteAll (by assumption) hk; simp +contextual (maxDischargeDepth := 40) [hw]; done)
    | split

@[simp ↓] theorem keeps_execBrackenWaitTimeout {s0 s : State} (e : Fin 11) (k : Fin 4) (hk : Keeps s0 s) : KeepsR s0 (execBrackenWaitTimeout e k s) := by
  dsimp only [execBrackenWaitTimeout]
  repeat' first | (simp +contextual (maxDischargeDepth := 40) [hk]; done) | split

@[simp ↓] theorem keeps_execBrackenJobComplete {s0 s : State} (e : Fin 11) (k : Fin 4) (hk : Keeps s0 s) : KeepsR s0 (execBrackenJobComplete e k s) := by
  dsimp only [execBrackenJobComplete]
  repeat' first | (simp +contextual (maxDischargeDepth := 40) [hk]; done) | split

end Sys2Proof.Machine
end

