-- ==== Sys2Proof/Laws/KeepsSafeCore.lean ====
section
/-! SUPPORT. Sys2Proof/Laws/KeepsSafeCore.lean: what the operations of Machine/SafeCore.lean keep. -/

namespace Sys2Proof.Machine

set_option linter.unusedSimpArgs false
set_option linter.unusedTactic false
set_option linter.unreachableTactic false

@[simp ↓] theorem keeps_dropSpores {s0 s : State} (n : Nat) (hk : Keeps s0 s) : Keeps s0 (s.dropSpores n) := by
  dsimp only [State.dropSpores]
  repeat' first | (simp +contextual (maxDischargeDepth := 40) [hk]; done) | split

@[simp ↓] theorem keeps_abortWork {s0 s : State} (p : Nat) (hk : Keeps s0 s) : Keeps s0 (s.abortWork p) := by
  dsimp only [State.abortWork]
  repeat' first | (simp +contextual (maxDischargeDepth := 40) [hk, ‹Keeps s0 _›]; done) | refine keeps_foldl _ ?_ fun _ _ _ => ?_ | split

@[simp ↓] theorem keeps_abandonAccesses {s0 s : State} (p : Nat) (hk : Keeps s0 s) : Keeps s0 (s.abandonAccesses p) := by
  dsimp only [State.abandonAccesses]
  repeat' first | (simp +contextual (maxDischargeDepth := 40) [hk, ‹Keeps s0 _›]; done) | refine keeps_foldl _ ?_ fun _ _ _ => ?_ | split

@[simp ↓] theorem keeps_clearFlags {s0 s : State} (p : Nat) (hk : Keeps s0 s) : Keeps s0 (s.clearFlags p) := by
  dsimp only [State.clearFlags]
  exact keeps_filterFlags _ _ (keeps_foldl _ hk fun _ _ h => keeps_foldl _ h fun _ _ h => keeps_trace _ _ _ _ _ _ _ _ _ h)

@[simp ↓] theorem keeps_zeroFronds {s0 s : State} (p : Nat) (hk : Keeps s0 s) : Keeps s0 (s.zeroFronds p) := by
  dsimp only [State.zeroFronds]
  repeat' first | (simp +contextual (maxDischargeDepth := 40) [hk, ‹Keeps s0 _›]; done) | refine keeps_foldl _ ?_ fun _ _ _ => ?_ | split

@[simp ↓] theorem keeps_clearCounters {s0 s : State} (p : Nat) (hk : Keeps s0 s) : Keeps s0 (s.clearCounters p) := by
  dsimp only [State.clearCounters]
  repeat' first | (simp +contextual (maxDischargeDepth := 40) [hk, ‹Keeps s0 _›]; done) | refine keeps_foldl _ ?_ fun _ _ _ => ?_ | split

@[simp ↓] theorem keeps_dropCaches {s0 s : State} (p : Nat) (hk : Keeps s0 s) : Keeps s0 (s.dropCaches p) := by
  dsimp only [State.dropCaches]
  repeat' first | (simp +contextual (maxDischargeDepth := 40) [hk]; done) | split

@[simp ↓] theorem keeps_safeSync {s0 s : State} (cause task : Nat) (hk : Keeps s0 s) : Keeps s0 (s.safeSync cause task) := by
  dsimp only [State.safeSync]
  repeat' first | (simp +contextual (maxDischargeDepth := 40) [hk, ‹Keeps s0 _›]; done) | refine keeps_foldl _ ?_ fun _ _ _ => ?_ | split

@[simp ↓] theorem keeps_enterHold {s0 s : State} (t code : Nat) (hk : Keeps s0 s) : Keeps s0 (s.enterHold t code) := by
  dsimp only [State.enterHold]
  repeat' first | (simp +contextual (maxDischargeDepth := 40) [hk]; done) | split

@[simp ↓] theorem keeps_holdAll {s0 s : State} (code : Nat) (hk : Keeps s0 s) : Keeps s0 (s.holdAll code) := by
  dsimp only [State.holdAll]
  repeat' first | (simp +contextual (maxDischargeDepth := 40) [hk, ‹Keeps s0 _›]; done) | refine keeps_foldl _ ?_ fun _ _ _ => ?_ | split

@[simp ↓] theorem keeps_postRelease {s0 s : State} (t : Nat) (e : List Byte) (ty code fl run digest fs : Nat) (result : List Byte) (hk : Keeps s0 s) : Keeps s0 (s.postRelease t e ty code fl run digest fs result) := by
  dsimp only [State.postRelease]
  repeat' first | (simp +contextual (maxDischargeDepth := 40) [hk]; done) | split

@[simp ↓] theorem keeps_postReject {s0 s : State} (t : Nat) (e : List Byte) (code run digest fs : Nat) (resolved wasHold : Bool) (hk : Keeps s0 s) : Keeps s0 (s.postReject t e code run digest fs resolved wasHold) := by
  dsimp only [State.postReject]
  repeat' first | (simp +contextual (maxDischargeDepth := 40) [hk]; done) | split

@[simp ↓] theorem keeps_safetyRestart {s0 s : State} (p code t : Nat) (hk : Keeps s0 s) : Keeps s0 (s.safetyRestart p code t) := by
  dsimp only [State.safetyRestart]
  repeat' first | (simp +contextual (maxDischargeDepth := 40) [hk]; done) | split

@[simp ↓] theorem keeps_taskErr {s0 s : State} (p t code run : Nat) (event : Bool) (subj : UnitId) (hk : Keeps s0 s) : Keeps s0 (s.taskErr p t code run event subj) := by
  dsimp only [State.taskErr]
  repeat' first | (simp +contextual (maxDischargeDepth := 40) [hk]; done) | split

@[simp ↓] theorem keeps_failTask {s0 s : State} (t : Nat) (e : List Byte) (code run digest fs : Nat) (resolved timer : Bool) (reason : Nat) (hk : Keeps s0 s) : Keeps s0 (s.failTask t e code run digest fs resolved timer reason) := by
  have k1 := keeps_safeSync code t (keeps_enterHold t code hk)
  have k2 := keeps_postReject t e code run digest fs resolved (s.safe.hold.contains t) k1
  have k3 := keeps_taskErr (taskPt e) (if reason = 0 then t else reason) code run false ⟨0, 0⟩
    (keeps_bump (Reg.SAFE_TASK_REJECTS t) 1 (keeps_bump Reg.SAFE_REJECTED 1 k2))
  exact keeps_ite (fun _ => keeps_mk k3) fun _ => keeps_safetyRestart _ _ _ (keeps_mk k3)

@[simp ↓] theorem keeps_activateTable {s0 s : State} (l : List (List Byte)) (hk : Keeps s0 s) : Keeps s0 (s.activateTable l) := by
  dsimp only [State.activateTable]
  repeat' first | (simp +contextual (maxDischargeDepth := 40) [hk, ‹Keeps s0 _›]; done) | refine keeps_foldl _ ?_ fun _ _ _ => ?_ | split

@[simp ↓] theorem keeps_deviceFatal {s0 s : State} (code : Nat) (subj : UnitId) (hk : Keeps s0 s) : Keeps s0 (s.deviceFatal code subj) := by
  unfold State.deviceFatal
  refine keeps_ite (fun _ => hk) fun _ => ?_
  have k1 := keeps_wr Reg.REL_FATAL_INFO (code + subj.cls * 2 ^ 16 + subj.inst * 2 ^ 24) (keeps_wrF Reg.REL_STATUS 0 1 1 hk)
  generalize (s.wrF Reg.REL_STATUS 0 1 1).wr Reg.REL_FATAL_INFO (code + subj.cls * 2 ^ 16 + subj.inst * 2 ^ 24) = s1 at k1 ⊢
  have k1' : Keeps s0 { s1 with boot := { s1.boot with fatalAt := some s.now } } := keeps_mk k1
  have k2 := keeps_report 0 { code := code, subj := subj, rep := ⟨0, 0⟩, fatal := true } k1'
  have k3 := keeps_errAll (List.range 16) { code := 0x0D0B, subj := subj, fatal := true } k2
  have k4 := keeps_mgtEvent 3 (leBytes 8 (s1.rdN Reg.REL_FATAL_INFO) ++ leBytes 8 s.now) (keeps_safeSync 0x0D0B 0 k3)
  have k5 := keeps_foldl (List.range 16) k4 (f := fun s p => s.abortWork p) fun t p h => keeps_abortWork p h
  dsimp only
  generalize List.foldl _ _ _ = s5 at k5 ⊢
  have k6 : Keeps s0 (if s5.lnk.role = .master then s5
      else { s5 with out := s5.out ++ [.link (s5.rdF Reg.LNK_STATUS 16 7) 0x78 [0x0D0B, subj.cls, subj.inst, s.now] []] }) :=
    keeps_ite (fun _ => k5) fun _ => keeps_mk_out k5
  exact keeps_ite (fun _ => keeps_freezeLocal _ k6) fun _ => k6

end Sys2Proof.Machine
end

