-- ==== Sys2Proof/Laws/KeepsSecCore.lean ====
section
/-! SUPPORT. Sys2Proof/Laws/KeepsSecCore.lean: what the operations of Machine/SecCore.lean keep. -/

namespace Sys2Proof.Machine

set_option linter.unusedSimpArgs false
set_option linter.unusedTactic false
set_option linter.unreachableTactic false

@[simp ↓] theorem keeps_secErr {s0 s : State} (p code : Nat) (hk : Keeps s0 s) : Keeps s0 (s.secErr p code) := by
  dsimp only [State.secErr]
  repeat' first | (simp +contextual (maxDischargeDepth := 40) [hk]; done) | split

@[simp ↓] theorem keeps_freshBytes {s0 s : State} (n : Nat) (hk : Keeps s0 s) : Keeps s0 (s.freshBytes n).2 := by
  dsimp only [State.freshBytes]
  repeat' first | (simp +contextual (maxDischargeDepth := 40) [hk]; done) | split

@[simp ↓] theorem keeps_freshPriv {s0 s : State}  (hk : Keeps s0 s) : Keeps s0 s.freshPriv.2 := by
  dsimp only [State.freshPriv]
  repeat' first | (simp +contextual (maxDischargeDepth := 40) [hk]; done) | split

@[simp ↓] theorem keeps_deriveL1 {s0 s : State}  (hk : Keeps s0 s) : Keeps s0 s.deriveL1 := by
  dsimp only [State.deriveL1]
  repeat' first | (simp +contextual (maxDischargeDepth := 40) [hk]; done) | split

@[simp ↓] theorem keeps_deriveL2 {s0 s : State}  (hk : Keeps s0 s) : Keeps s0 s.deriveL2 := by
  dsimp only [State.deriveL2]
  repeat' first | (simp +contextual (maxDischargeDepth := 40) [hk]; done) | split

@[simp ↓] theorem keeps_remeasure {s0 s : State}  (hk : Keeps s0 s) : Keeps s0 s.remeasure := by
  dsimp only [State.remeasure]
  repeat' first | (simp +contextual (maxDischargeDepth := 40) [hk]; done) | split

@[simp ↓] theorem keeps_writeFlash {s0 s : State} (a : Nat) (b : List Byte) (hk : Keeps s0 s) : Keeps s0 (s.writeFlash a b) := by
  dsimp only [State.writeFlash]
  repeat' first | (simp +contextual (maxDischargeDepth := 40) [hk, ‹Keeps s0 _›]; done) | refine keeps_foldl _ ?_ fun _ _ _ => ?_ | split

@[simp ↓] theorem keeps_preferSlot {s0 s : State} (t : Nat) (b : Bool) (hk : Keeps s0 s) : Keeps s0 (s.preferSlot t b) := by
  dsimp only [State.preferSlot]
  repeat' first | (simp +contextual (maxDischargeDepth := 40) [hk]; done) | (have hw := keeps_of_snd (by assumption) (by simp +contextual (maxDischargeDepth := 40) [hk] : Keeps s0 _); simp +contextual (maxDischargeDepth := 40) [hw, hk]; done) | (have hw := keeps_of_fst (by assumption) (by simp +contextual (maxDischargeDepth := 40) [hk] : Keeps s0 _); simp +contextual (maxDischargeDepth := 40) [hw, hk]; done) | split

@[simp ↓] theorem keeps_updAbandon {s0 s : State}  (hk : Keeps s0 s) : Keeps s0 s.updAbandon := by
  dsimp only [State.updAbandon]
  repeat' first | (simp +contextual (maxDischargeDepth := 40) [hk]; done) | split

@[simp ↓] theorem keeps_updRun {s0 s : State} (u : Update) (hk : Keeps s0 s) : Keeps s0 (s.updRun u) := by
  dsimp only [State.updRun]
  repeat' first | (simp +contextual (maxDischargeDepth := 40) [hk]; done) | split

@[simp ↓] theorem keeps_updDone {s0 s : State} (u : Update) (hk : Keeps s0 s) : Keeps s0 (s.updDone u) := by
  dsimp only [State.updDone]
  repeat' first | (simp +contextual (maxDischargeDepth := 40) [hk]; done) | split

@[simp ↓] theorem keeps_updLoad {s0 s : State} (k : Nat) (hk : Keeps s0 s) : Keeps s0 (s.updLoad k) := by
  dsimp only [State.updLoad]
  repeat' first | (simp +contextual (maxDischargeDepth := 40) [hk]; done) | split

@[simp ↓] theorem keeps_updTakes {s0 s : State} (k : Nat) (hk : Keeps s0 s) : Keeps s0 (s.updTakes k) := by
  dsimp only [State.updTakes]
  repeat' first | (simp +contextual (maxDischargeDepth := 40) [hk]; done) | split

end Sys2Proof.Machine
end

