-- ==== Sys2Proof/Laws/KeepsChecker.lean ====
section
/-! SUPPORT. Sys2Proof/Laws/KeepsChecker.lean: what the operations of Machine/Checker.lean keep. -/

namespace Sys2Proof.Machine

set_option linter.unusedSimpArgs false
set_option linter.unusedTactic false
set_option linter.unreachableTactic false

@[simp ↓] theorem keeps_setSafeRun {s0 s : State} (r : SafeRun) (hk : Keeps s0 s) : Keeps s0 (s.setSafeRun r) := by
  dsimp only [State.setSafeRun]
  repeat' first | (simp +contextual (maxDischargeDepth := 40) [hk]; done) | split

@[simp ↓] theorem keeps_takeNotice {s0 s : State} (p : Nat) (b : List Byte) (hk : Keeps s0 s) : Keeps s0 (s.takeNotice p b) := by
  dsimp only [State.takeNotice]
  repeat' first | (simp +contextual (maxDischargeDepth := 40) [hk]; done) | split

@[simp ↓] theorem keeps_takeAnswer {s0 s : State} (b : List Byte) (hk : Keeps s0 s) : Keeps s0 (s.takeAnswer b) := by
  dsimp only [State.takeAnswer]
  repeat' first | (simp +contextual (maxDischargeDepth := 40) [hk]; done) | split

@[simp ↓] theorem keeps_takeItemEnd {s0 s : State} (p : Nat) (b : List Byte) (hk : Keeps s0 s) : Keeps s0 (s.takeItemEnd p b) := by
  dsimp only [State.takeItemEnd]
  repeat' first | (simp +contextual (maxDischargeDepth := 40) [hk]; done) | split

@[simp ↓] theorem keeps_execCheckerItem {s0 s : State} (bad : Bool) (hk : Keeps s0 s) : KeepsR s0 (execCheckerItem bad s) := by
  dsimp only [execCheckerItem]
  repeat' first | (simp +contextual (maxDischargeDepth := 40) [hk]; done) | (have hw := keeps_of_snd (by assumption) (by simp +contextual (maxDischargeDepth := 40) [hk] : Keeps s0 _); simp +contextual (maxDischargeDepth := 40) [hw, hk]; done) | (have hw := keeps_of_fst (by assumption) (by simp +contextual (maxDischargeDepth := 40) [hk] : Keeps s0 _); simp +contextual (maxDischargeDepth := 40) [hw, hk]; done) | split

@[simp ↓] theorem keeps_runOver {s0 s : State} (r : SafeRun) (hk : Keeps s0 s) : Keeps s0 (s.runOver r) := by
  dsimp only [State.runOver]
  repeat' first | (simp +contextual (maxDischargeDepth := 40) [hk]; done) | split

@[simp ↓] theorem keeps_failRun {s0 s : State} (e : List Byte) (r : SafeRun) (code : Nat) (reason : Nat) (hk : Keeps s0 s) : Keeps s0 (s.failRun e r code reason) := by
  dsimp only [State.failRun]
  repeat' first | (simp +contextual (maxDischargeDepth := 40) [hk]; done) | split

@[simp ↓] theorem keeps_passRun {s0 s : State} (e : List Byte) (r : SafeRun) (result kept : List Byte) (hk : Keeps s0 s) : Keeps s0 (s.passRun e r result kept) := by
  dsimp only [State.passRun]
  repeat' first | (simp +contextual (maxDischargeDepth := 40) [hk]; done) | split

@[simp ↓] theorem keeps_resolveRun {s0 s : State} (e : List Byte) (r : SafeRun) (hk : Keeps s0 s) : Keeps s0 (s.resolveRun e r).1 := by
  dsimp only [State.resolveRun]
  repeat' first | (simp +contextual (maxDischargeDepth := 40) [hk]; done) | split

@[simp ↓] theorem keeps_judgeStep {s0 s : State} (e : List Byte) (r : SafeRun) (ended : Option ProgEnd) (hk : Keeps s0 s) : Keeps s0 (s.judgeStep e r ended) := by
  dsimp only [State.judgeStep]
  repeat' first | (simp +contextual (maxDischargeDepth := 40) [hk]; done) | split

@[simp ↓] theorem keeps_keepRecs {s0 s : State} (e : List Byte) (r : SafeRun) (hk : Keeps s0 s) : Keeps s0 (s.keepRecs e r).1 := by
  dsimp only [State.keepRecs]
  repeat' first | (simp +contextual (maxDischargeDepth := 40) [hk]; done) | split

@[simp ↓] theorem keeps_execRunJudgement {s0 s : State} (task : Fin 256) (key : Nat) (ended : Option ProgEnd) (hk : Keeps s0 s) : KeepsR s0 (execRunJudgement task key ended s) := by
  dsimp only [execRunJudgement]
  repeat' first | (simp +contextual (maxDischargeDepth := 40) [hk]; done) | (have hw := keeps_of_snd (by assumption) (by simp +contextual (maxDischargeDepth := 40) [hk] : Keeps s0 _); simp +contextual (maxDischargeDepth := 40) [hw, hk]; done) | (have hw := keeps_of_fst (by assumption) (by simp +contextual (maxDischargeDepth := 40) [hk] : Keeps s0 _); simp +contextual (maxDischargeDepth := 40) [hw, hk]; done) | split

@[simp ↓] theorem keeps_execRecordReread {s0 s : State} (task : Fin 256) (key : Nat) (hk : Keeps s0 s) : KeepsR s0 (execRecordReread task key s) := by
  dsimp only [execRecordReread]
  repeat' first | (simp +contextual (maxDischargeDepth := 40) [hk]; done) | (have hw := keeps_of_snd (by assumption) (by simp +contextual (maxDischargeDepth := 40) [hk] : Keeps s0 _); simp +contextual (maxDischargeDepth := 40) [hw, hk]; done) | (have hw := keeps_of_fst (by assumption) (by simp +contextual (maxDischargeDepth := 40) [hk] : Keeps s0 _); simp +contextual (maxDischargeDepth := 40) [hw, hk]; done) | split

@[simp ↓] theorem keeps_execProgramRead {s0 s : State} (task : Fin 256) (key : Nat) (dva : BitVec 64) (length : BitVec 32) (hk : Keeps s0 s) : KeepsR s0 (execProgramRead task key dva length s) := by
  dsimp only [execProgramRead]
  repeat' first | (simp +contextual (maxDischargeDepth := 40) [hk]; done) | (have hw := keeps_of_snd (by assumption) (by simp +contextual (maxDischargeDepth := 40) [hk] : Keeps s0 _); simp +contextual (maxDischargeDepth := 40) [hw, hk]; done) | (have hw := keeps_of_fst (by assumption) (by simp +contextual (maxDischargeDepth := 40) [hk] : Keeps s0 _); simp +contextual (maxDischargeDepth := 40) [hw, hk]; done) | split

@[simp ↓] theorem keeps_execProgramTimeout {s0 s : State} (task : Fin 256) (key : Nat) (hk : Keeps s0 s) : KeepsR s0 (execProgramTimeout task key s) := by
  dsimp only [execProgramTimeout]
  repeat' first | (simp +contextual (maxDischargeDepth := 40) [hk]; done) | (have hw := keeps_of_snd (by assumption) (by simp +contextual (maxDischargeDepth := 40) [hk] : Keeps s0 _); simp +contextual (maxDischargeDepth := 40) [hw, hk]; done) | (have hw := keeps_of_fst (by assumption) (by simp +contextual (maxDischargeDepth := 40) [hk] : Keeps s0 _); simp +contextual (maxDischargeDepth := 40) [hw, hk]; done) | split

@[simp ↓] theorem keeps_execCopyTimeout {s0 s : State} (task : Fin 256) (key : Nat) (hk : Keeps s0 s) : KeepsR s0 (execCopyTimeout task key s) := by
  dsimp only [execCopyTimeout]
  repeat' first | (simp +contextual (maxDischargeDepth := 40) [hk]; done) | (have hw := keeps_of_snd (by assumption) (by simp +contextual (maxDischargeDepth := 40) [hk] : Keeps s0 _); simp +contextual (maxDischargeDepth := 40) [hw, hk]; done) | (have hw := keeps_of_fst (by assumption) (by simp +contextual (maxDischargeDepth := 40) [hk] : Keeps s0 _); simp +contextual (maxDischargeDepth := 40) [hw, hk]; done) | split

@[simp ↓] theorem keeps_execLatencyTimeout {s0 s : State} (task : Fin 256) (key : Nat) (hk : Keeps s0 s) : KeepsR s0 (execLatencyTimeout task key s) := by
  dsimp only [execLatencyTimeout]
  repeat' first | (simp +contextual (maxDischargeDepth := 40) [hk]; done) | (have hw := keeps_of_snd (by assumption) (by simp +contextual (maxDischargeDepth := 40) [hk] : Keeps s0 _); simp +contextual (maxDischargeDepth := 40) [hw, hk]; done) | (have hw := keeps_of_fst (by assumption) (by simp +contextual (maxDischargeDepth := 40) [hk] : Keeps s0 _); simp +contextual (maxDischargeDepth := 40) [hw, hk]; done) | split

@[simp ↓] theorem keeps_execArrivalTimeout {s0 s : State} (task : Fin 256) (hk : Keeps s0 s) : KeepsR s0 (execArrivalTimeout task s) := by
  dsimp only [execArrivalTimeout]
  repeat' first | (simp +contextual (maxDischargeDepth := 40) [hk]; done) | split

@[simp ↓] theorem keeps_dropRuns {s0 s : State} (p : Nat) (hk : Keeps s0 s) : Keeps s0 (s.dropRuns p) := by
  dsimp only [State.dropRuns]
  repeat' first | (simp +contextual (maxDischargeDepth := 40) [hk]; done) | split

@[simp ↓] theorem keeps_flushRings {s0 s : State} (p : Nat) (hk : Keeps s0 s) : Keeps s0 (s.flushRings p) := by
  dsimp only [State.flushRings]
  repeat' first | (simp +contextual (maxDischargeDepth := 40) [hk, ‹Keeps s0 _›]; done) | refine keeps_foldl _ ?_ fun _ _ _ => ?_ | split

@[simp ↓] theorem keeps_execRestartAccessesDone {s0 s : State} (p : Fin 16) (hk : Keeps s0 s) : KeepsR s0 (execRestartAccessesDone p s) := by
  dsimp only [execRestartAccessesDone]
  repeat' first | (simp +contextual (maxDischargeDepth := 40) [hk]; done) | split

@[simp ↓] theorem keeps_reloadGraph {s0 s : State} (g : Graph) (hk : Keeps s0 s) : Keeps s0 (s.reloadGraph g) := by
  dsimp only [State.reloadGraph]
  repeat' first | (simp +contextual (maxDischargeDepth := 40) [hk]; done) | (have hw := keeps_of_snd (by assumption) (by simp +contextual (maxDischargeDepth := 40) [hk] : Keeps s0 _); simp +contextual (maxDischargeDepth := 40) [hw, hk]; done) | (have hw := keeps_of_fst (by assumption) (by simp +contextual (maxDischargeDepth := 40) [hk] : Keeps s0 _); simp +contextual (maxDischargeDepth := 40) [hw, hk]; done) | split

@[simp ↓] theorem keeps_reloadProgram {s0 s : State} (k : Nat) (x : CGraph) (hk : Keeps s0 s) : Keeps s0 (s.reloadProgram k x) := by
  dsimp only [State.reloadProgram]
  repeat' first | (simp +contextual (maxDischargeDepth := 40) [hk]; done) | (have hw := keeps_of_snd (by assumption) (by simp +contextual (maxDischargeDepth := 40) [hk] : Keeps s0 _); simp +contextual (maxDischargeDepth := 40) [hw, hk]; done) | (have hw := keeps_of_fst (by assumption) (by simp +contextual (maxDischargeDepth := 40) [hk] : Keeps s0 _); simp +contextual (maxDischargeDepth := 40) [hw, hk]; done) | split

@[simp ↓] theorem keeps_execRestartReloadComplete {s0 s : State} (p : Fin 16) (hk : Keeps s0 s) : KeepsR s0 (execRestartReloadComplete p s) := by
  dsimp only [execRestartReloadComplete]
  repeat' first | (simp +contextual (maxDischargeDepth := 40) [hk, ‹Keeps s0 _›]; done) | refine keeps_foldl _ ?_ fun _ _ _ => ?_ | split

@[simp ↓] theorem keeps_execDutySwap {s0 s : State} (deferred : BitVec 32) (hk : Keeps s0 s) : KeepsR s0 (execDutySwap deferred s) := by
  dsimp only [execDutySwap]
  repeat' first | (simp +contextual (maxDischargeDepth := 40) [hk]; done) | split

@[simp ↓] theorem keeps_updRestore {s0 s : State} (u : Update) (hk : Keeps s0 s) : Keeps s0 (s.updRestore u) := by
  dsimp only [State.updRestore]
  repeat' first | (simp +contextual (maxDischargeDepth := 40) [hk]; done) | (have hw := keeps_of_snd (by assumption) (by simp +contextual (maxDischargeDepth := 40) [hk] : Keeps s0 _); simp +contextual (maxDischargeDepth := 40) [hw, hk]; done) | (have hw := keeps_of_fst (by assumption) (by simp +contextual (maxDischargeDepth := 40) [hk] : Keeps s0 _); simp +contextual (maxDischargeDepth := 40) [hw, hk]; done) | split

@[simp ↓] theorem keeps_updSurvive {s0 s : State} (k : Nat) (hk : Keeps s0 s) : Keeps s0 (s.updSurvive k) := by
  dsimp only [State.updSurvive]
  repeat' first | (simp +contextual (maxDischargeDepth := 40) [hk]; done) | split

@[simp ↓] theorem keeps_beatStops {s0 s : State} (hk : Keeps s0 s) : Keeps s0 s.beatStops := by
  dsimp only [State.beatStops]
  simp [hk]

@[simp ↓] theorem keeps_retirePair {s0 s : State} (k code : Nat) (hk : Keeps s0 s) : Keeps s0 (s.retirePair k code) := by
  dsimp only [State.retirePair]
  repeat' first | (simp +contextual (maxDischargeDepth := 40) [hk]; done) | split

@[simp ↓] theorem keeps_execSelftestComplete {s0 s : State} (pass : Bool) (hk : Keeps s0 s) : KeepsR s0 (execSelftestComplete pass s) := by
  dsimp only [execSelftestComplete]
  repeat' first | (simp +contextual (maxDischargeDepth := 40) [hk]; done) | split

@[simp ↓] theorem keeps_execLockstepMismatch {s0 s : State} (pairB : Bool) (hk : Keeps s0 s) : KeepsR s0 (execLockstepMismatch pairB s) := by
  dsimp only [execLockstepMismatch]
  repeat' first | (simp +contextual (maxDischargeDepth := 40) [hk]; done) | split

@[simp ↓] theorem keeps_execWatchdogExpiry {s0 s : State}  (hk : Keeps s0 s) : KeepsR s0 (execWatchdogExpiry s) := by
  dsimp only [execWatchdogExpiry]
  repeat' first | (simp +contextual (maxDischargeDepth := 40) [hk]; done) | split

@[simp ↓] theorem keeps_armAll {s0 s : State}  (hk : Keeps s0 s) : Keeps s0 s.armAll := by
  dsimp only [State.armAll]
  repeat' first | (simp +contextual (maxDischargeDepth := 40) [hk]; done) | split

@[simp ↓] theorem keeps_execCheckerRestartComplete {s0 s : State}  (hk : Keeps s0 s) : KeepsR s0 (execCheckerRestartComplete s) := by
  dsimp only [execCheckerRestartComplete]
  repeat' first | (simp +contextual (maxDischargeDepth := 40) [hk]; done) | split

@[simp ↓] theorem keeps_execDegradedLimit {s0 s : State}  (hk : Keeps s0 s) : KeepsR s0 (execDegradedLimit s) := by
  dsimp only [execDegradedLimit]
  repeat' first | (simp +contextual (maxDischargeDepth := 40) [hk]; done) | split

@[simp ↓] theorem keeps_execHeartbeatToggle {s0 s : State}  (hk : Keeps s0 s) : KeepsR s0 (execHeartbeatToggle s) := by
  dsimp only [execHeartbeatToggle]
  repeat' first | (simp +contextual (maxDischargeDepth := 40) [hk]; done) | split

@[simp ↓] theorem keeps_startHoldTest {s0 s : State}  (hk : Keeps s0 s) : Keeps s0 s.startHoldTest := by
  dsimp only [State.startHoldTest]
  repeat' first | (simp +contextual (maxDischargeDepth := 40) [hk]; done) | split

@[simp ↓] theorem keeps_execHoldTest {s0 s : State}  (hk : Keeps s0 s) : KeepsR s0 (execHoldTest s) := by
  dsimp only [execHoldTest]
  repeat' first | (simp +contextual (maxDischargeDepth := 40) [hk]; done) | split

@[simp ↓] theorem keeps_execHoldTestEnd {s0 s : State}  (hk : Keeps s0 s) : KeepsR s0 (execHoldTestEnd s) := by
  dsimp only [execHoldTestEnd]
  repeat' first | (simp +contextual (maxDischargeDepth := 40) [hk]; done) | split

@[simp ↓] theorem keeps_execVddSafeFault {s0 s : State}  (hk : Keeps s0 s) : KeepsR s0 (execVddSafeFault s) := by
  dsimp only [execVddSafeFault]
  repeat' first | (simp +contextual (maxDischargeDepth := 40) [hk]; done) | split

@[simp ↓] theorem keeps_execVddSafeReturn {s0 s : State}  (hk : Keeps s0 s) : KeepsR s0 (execVddSafeReturn s) := by
  dsimp only [execVddSafeReturn]
  repeat' first | (simp +contextual (maxDischargeDepth := 40) [hk]; done) | split

@[simp ↓] theorem keeps_execSafeClockFault {s0 s : State}  (hk : Keeps s0 s) : KeepsR s0 (execSafeClockFault s) := by
  dsimp only [execSafeClockFault]
  repeat' first | (simp +contextual (maxDischargeDepth := 40) [hk]; done) | split

@[simp ↓] theorem keeps_execSafeClockRecovery {s0 s : State}  (hk : Keeps s0 s) : KeepsR s0 (execSafeClockRecovery s) := by
  dsimp only [execSafeClockRecovery]
  repeat' first | (simp +contextual (maxDischargeDepth := 40) [hk]; done) | split

end Sys2Proof.Machine
end

