-- ==== Sys2Proof/Laws/KeepsPartReset.lean ====
section
/-! SUPPORT. Sys2Proof/Laws/KeepsPartReset.lean: what the operations of Machine/PartReset.lean keep. -/

namespace Sys2Proof.Machine

set_option linter.unusedSimpArgs false
set_option linter.unusedTactic false
set_option linter.unreachableTactic false

@[simp ↓] theorem keeps_setPtState {s0 s : State} (p k : Nat) (hk : Keeps s0 s) : Keeps s0 (s.setPtState p k) := by
  dsimp only [State.setPtState]
  repeat' first | (simp +contextual (maxDischargeDepth := 40) [hk]; done) | split

@[simp ↓] theorem keeps_finishRuns {s0 s : State} (p : Nat) (hk : Keeps s0 s) : Keeps s0 (s.finishRuns p) := by
  dsimp only [State.finishRuns]
  repeat' first | (simp +contextual (maxDischargeDepth := 40) [hk, ‹Keeps s0 _›]; done) | (have hw := keeps_of_snd (by assumption) (by simp +contextual (maxDischargeDepth := 40) [hk] : Keeps s0 _); simp +contextual (maxDischargeDepth := 40) [hw, hk]; done) | (have hw := keeps_of_fst (by assumption) (by simp +contextual (maxDischargeDepth := 40) [hk] : Keeps s0 _); simp +contextual (maxDischargeDepth := 40) [hw, hk]; done) | refine keeps_foldl _ ?_ fun _ _ _ => ?_ | split

@[simp ↓] theorem keeps_dropRestart {s0 s : State} (p : Nat) (hk : Keeps s0 s) : Keeps s0 (s.dropRestart p) := by
  dsimp only [State.dropRestart]
  repeat' first | (simp +contextual (maxDischargeDepth := 40) [hk]; done) | split

@[simp ↓] theorem keeps_resetPartition {s0 s : State} (p : Nat) (hk : Keeps s0 s) : Keeps s0 (s.resetPartition p) := by
  dsimp only [State.resetPartition]
  repeat' first | (simp +contextual (maxDischargeDepth := 40) [hk, ‹Keeps s0 _›]; done) | refine keeps_foldl _ ?_ fun _ _ _ => ?_ | split

@[simp ↓] theorem keeps_execPartitionReset {s0 s : State} (p : Fin 16) (hk : Keeps s0 s) : KeepsR s0 (execPartitionReset p s) := by
  dsimp only [execPartitionReset]
  repeat' first | (simp +contextual (maxDischargeDepth := 40) [hk]; done) | split

@[simp ↓] theorem keeps_vfClear {s0 s : State}  (hk : Keeps s0 s) : Keeps s0 s.vfClear := by
  dsimp only [State.vfClear]
  repeat' first | (simp +contextual (maxDischargeDepth := 40) [hk, ‹Keeps s0 _›]; done) | refine keeps_foldl _ ?_ fun _ _ _ => ?_ | split

@[simp ↓] theorem keeps_execFunctionReset {s0 s : State} (fn : Fin 16) (hk : Keeps s0 s) : KeepsR s0 (execFunctionReset fn s) := by
  dsimp only [execFunctionReset]
  repeat' first | (simp +contextual (maxDischargeDepth := 40) [hk]; done) | split

@[simp ↓] theorem keeps_execVfEnableClear {s0 s : State}  (hk : Keeps s0 s) : KeepsR s0 (execVfEnableClear s) := by
  dsimp only [execVfEnableClear]
  repeat' first | (simp +contextual (maxDischargeDepth := 40) [hk]; done) | split

@[simp ↓] theorem keeps_execPtResetAccessesDone {s0 s : State} (p : Fin 16) (hk : Keeps s0 s) : KeepsR s0 (execPtResetAccessesDone p s) := by
  dsimp only [execPtResetAccessesDone]
  repeat' first | (simp +contextual (maxDischargeDepth := 40) [hk]; done) | split

@[simp ↓] theorem keeps_scrubUnits {s0 s : State} (p : Nat) (hk : Keeps s0 s) : Keeps s0 (s.scrubUnits p) := by
  dsimp only [State.scrubUnits]
  repeat' first | (simp +contextual (maxDischargeDepth := 40) [hk, ‹Keeps s0 _›]; done) | refine keeps_foldl _ ?_ fun _ _ _ => ?_ | split

@[simp ↓] theorem keeps_scrubQueues {s0 s : State} (p : Nat) (hk : Keeps s0 s) : Keeps s0 (s.scrubQueues p) := by
  dsimp only [State.scrubQueues]
  repeat' first | (simp +contextual (maxDischargeDepth := 40) [hk]; done) | split

@[simp ↓] theorem keeps_dropMeasures {s0 s : State} (p : Nat) (hk : Keeps s0 s) : Keeps s0 (s.dropMeasures p) := by
  dsimp only [State.dropMeasures]
  repeat' first | (simp +contextual (maxDischargeDepth := 40) [hk]; done) | split

@[simp ↓] theorem keeps_execPtScrubComplete {s0 s : State} (p : Fin 16) (hk : Keeps s0 s) : KeepsR s0 (execPtScrubComplete p s) := by
  dsimp only [execPtScrubComplete]
  repeat' first | (simp +contextual (maxDischargeDepth := 40) [hk, ‹Keeps s0 _›]; done) | refine keeps_foldl _ ?_ fun _ _ _ => ?_ | split

@[simp ↓] theorem keeps_stripPartition {s0 s : State} (p : Nat) (hk : Keeps s0 s) : Keeps s0 (s.stripPartition p) := by
  dsimp only [State.stripPartition]
  repeat' first | (simp +contextual (maxDischargeDepth := 40) [hk, ‹Keeps s0 _›]; done) | refine keeps_foldl _ ?_ fun _ _ _ => ?_ | split

@[simp ↓] theorem keeps_confRelease {s0 s : State} (p : Nat) (hk : Keeps s0 s) : Keeps s0 (s.confRelease p) := by
  dsimp only [State.confRelease]
  repeat' first | (simp +contextual (maxDischargeDepth := 40) [hk]; done) | split

@[simp ↓] theorem keeps_debugEnter {s0 s : State}  (hk : Keeps s0 s) : Keeps s0 s.debugEnter := by
  dsimp only [State.debugEnter]
  repeat' first | (simp +contextual (maxDischargeDepth := 40) [hk, ‹Keeps s0 _›]; done) | refine keeps_foldl _ ?_ fun _ _ _ => ?_ | split

@[simp ↓] theorem keeps_execPtZeroingComplete {s0 s : State} (p : Fin 16) (hk : Keeps s0 s) : KeepsR s0 (execPtZeroingComplete p s) := by
  dsimp only [execPtZeroingComplete]
  repeat' first | (simp +contextual (maxDischargeDepth := 40) [hk, ‹Keeps s0 _›]; done) | refine keeps_foldl _ ?_ fun _ _ _ => ?_ | split

end Sys2Proof.Machine
end

