-- ==== Sys2Proof/Laws/KeepsPower.lean ====
section
/-! SUPPORT. Sys2Proof/Laws/KeepsPower.lean: what the operations of Machine/Power.lean keep. -/

namespace Sys2Proof.Machine

set_option linter.unusedSimpArgs false
set_option linter.unusedTactic false
set_option linter.unreachableTactic false

@[simp ↓] theorem keeps_pwrErr {s0 s : State} (code : Nat) (info : Nat) (hk : Keeps s0 s) : Keeps s0 (s.pwrErr code info) := by
  dsimp only [State.pwrErr]
  repeat' first | (simp +contextual (maxDischargeDepth := 40) [hk]; done) | split

@[simp ↓] theorem keeps_execP1Entry {s0 s : State}  (hk : Keeps s0 s) : KeepsR s0 (execP1Entry s) := by
  dsimp only [execP1Entry]
  repeat' first | (simp +contextual (maxDischargeDepth := 40) [hk]; done) | split

@[simp ↓] theorem keeps_checkerSleep {s0 s : State}  (hk : Keeps s0 s) : Keeps s0 s.checkerSleep := by
  dsimp only [State.checkerSleep]
  repeat' first | (simp +contextual (maxDischargeDepth := 40) [hk, ‹Keeps s0 _›]; done) | refine keeps_foldl _ ?_ fun _ _ _ => ?_ | split

@[simp ↓] theorem keeps_rungRequest {s0 s : State} (k : Nat) (hk : Keeps s0 s) : Keeps s0 (s.rungRequest k).1 := by
  dsimp only [State.rungRequest]
  repeat' first | (simp +contextual (maxDischargeDepth := 40) [hk]; done) | split

@[simp ↓] theorem keeps_askRung {s0 s : State} (k : Nat) (hk : Keeps s0 s) : Keeps s0 (s.askRung k) := by
  dsimp only [State.askRung]
  repeat' first | (simp +contextual (maxDischargeDepth := 40) [hk]; done) | split

@[simp ↓] theorem keeps_execPwrCmdP2 {s0 s : State}  (hk : Keeps s0 s) : KeepsR s0 (execPwrCmdP2 s) := by
  dsimp only [execPwrCmdP2]
  repeat' first | (simp +contextual (maxDischargeDepth := 40) [hk]; done) | split

@[simp ↓] theorem keeps_execPwrCmdP3 {s0 s : State}  (hk : Keeps s0 s) : KeepsR s0 (execPwrCmdP3 s) := by
  dsimp only [execPwrCmdP3]
  repeat' first | (simp +contextual (maxDischargeDepth := 40) [hk]; done) | split

@[simp ↓] theorem keeps_execPwrCmdP4 {s0 s : State}  (hk : Keeps s0 s) : KeepsR s0 (execPwrCmdP4 s) := by
  dsimp only [execPwrCmdP4]
  repeat' first | (simp +contextual (maxDischargeDepth := 40) [hk]; done) | split

@[simp ↓] theorem keeps_execAutoP2Request {s0 s : State}  (hk : Keeps s0 s) : KeepsR s0 (execAutoP2Request s) := by
  dsimp only [execAutoP2Request]
  repeat' first | (simp +contextual (maxDischargeDepth := 40) [hk]; done) | split

@[simp ↓] theorem keeps_execRungEntryComplete {s0 s : State}  (hk : Keeps s0 s) : KeepsR s0 (execRungEntryComplete s) := by
  dsimp only [execRungEntryComplete]
  repeat' first | (simp +contextual (maxDischargeDepth := 40) [hk]; done) | (have hw := keeps_of_snd (by assumption) (by simp +contextual (maxDischargeDepth := 40) [hk] : Keeps s0 _); simp +contextual (maxDischargeDepth := 40) [hw, hk]; done) | (have hw := keeps_of_fst (by assumption) (by simp +contextual (maxDischargeDepth := 40) [hk] : Keeps s0 _); simp +contextual (maxDischargeDepth := 40) [hw, hk]; done) | split

@[simp ↓] theorem keeps_wakeFronds {s0 s : State}  (hk : Keeps s0 s) : Keeps s0 s.wakeFronds := by
  dsimp only [State.wakeFronds]
  repeat' first | (simp +contextual (maxDischargeDepth := 40) [hk, ‹Keeps s0 _›]; done) | refine keeps_foldl _ ?_ fun _ _ _ => ?_ | split

@[simp ↓] theorem keeps_losePasr {s0 s : State}  (hk : Keeps s0 s) : Keeps s0 s.losePasr := by
  dsimp only [State.losePasr]
  repeat' first | (simp +contextual (maxDischargeDepth := 40) [hk]; done) | split

@[simp ↓] theorem keeps_kwDeliver {s0 s : State} (b : List Byte) (hk : Keeps s0 s) : Keeps s0 (s.kwDeliver b) := by
  dsimp only [State.kwDeliver]
  repeat' first | (simp +contextual (maxDischargeDepth := 40) [hk]; done) | split

@[simp ↓] theorem keeps_checkerWake {s0 s : State} (hk : Keeps s0 s) : Keeps s0 s.checkerWake := by
  have h1 : Keeps s0 (s.safe.heldBack.foldl (fun s t => match s.task t with
      | some e => s.postReject t e 0x0E12 0 0 0 false false
      | none => s) s) := by
    refine keeps_foldl _ hk fun t _ h => ?_
    split
    · exact keeps_postReject _ _ _ _ _ _ _ _ h
    · exact h
  dsimp only [State.checkerWake]
  split
  · exact keeps_armAll (keeps_mk h1)
  · exact keeps_mk h1

@[simp ↓] theorem keeps_servePorts {s0 s : State}  (hk : Keeps s0 s) : Keeps s0 s.servePorts := by
  dsimp only [State.servePorts]
  repeat' first | (simp +contextual (maxDischargeDepth := 40) [hk, ‹Keeps s0 _›]; done) | refine keeps_foldl _ ?_ fun _ _ _ => ?_ | split

@[simp ↓] theorem keeps_execRungExitComplete {s0 s : State}  (hk : Keeps s0 s) : KeepsR s0 (execRungExitComplete s) := by
  dsimp only [execRungExitComplete]
  repeat' first | (simp +contextual (maxDischargeDepth := 40) [hk, ‹Keeps s0 _›]; done) | refine keeps_foldl _ ?_ fun _ _ _ => ?_ | split

@[simp ↓] theorem keeps_kSync {s0 s : State}  (hk : Keeps s0 s) : Keeps s0 s.kSync := by
  dsimp only [State.kSync]
  repeat' first | (simp +contextual (maxDischargeDepth := 40) [hk]; done) | split

@[simp ↓] theorem keeps_thermalEvent {s0 s : State} (code tj : Nat) (hk : Keeps s0 s) : Keeps s0 (s.thermalEvent code tj) := by
  dsimp only [State.thermalEvent]
  repeat' first | (simp +contextual (maxDischargeDepth := 40) [hk]; done) | split

@[simp ↓] theorem keeps_execThermalSample {s0 s : State} (tj : Fin 256) (sensor : Fin 24) (hk : Keeps s0 s) : KeepsR s0 (execThermalSample tj sensor s) := by
  dsimp only [execThermalSample]
  repeat' first | (simp +contextual (maxDischargeDepth := 40) [hk]; done) | split

@[simp ↓] theorem keeps_execThrottleStep {s0 s : State} (power : Bool) (hk : Keeps s0 s) : KeepsR s0 (execThrottleStep power s) := by
  dsimp only [execThrottleStep]
  repeat' first | (simp +contextual (maxDischargeDepth := 40) [hk]; done) | split

@[simp ↓] theorem keeps_execPowerSample {s0 s : State} (mw : BitVec 32) (hk : Keeps s0 s) : KeepsR s0 (execPowerSample mw s) := by
  dsimp only [execPowerSample]
  repeat' first | (simp +contextual (maxDischargeDepth := 40) [hk]; done) | split

@[simp ↓] theorem keeps_ppsSlew {s0 s : State}  (hk : Keeps s0 s) : Keeps s0 s.ppsSlew := by
  dsimp only [State.ppsSlew]
  repeat' first | (simp +contextual (maxDischargeDepth := 40) [hk]; done) | split

@[simp ↓] theorem keeps_ppsLock {s0 s : State} (e : Int) (hk : Keeps s0 s) : Keeps s0 (s.ppsLock e) := by
  dsimp only [State.ppsLock]
  repeat' first | (simp +contextual (maxDischargeDepth := 40) [hk]; done) | split

@[simp ↓] theorem keeps_execPpsEdge {s0 s : State} (jitter : Fin 9) (hk : Keeps s0 s) : KeepsR s0 (execPpsEdge jitter s) := by
  dsimp only [execPpsEdge]
  repeat' first | (simp +contextual (maxDischargeDepth := 40) [hk]; done) | split

@[simp ↓] theorem keeps_execPpsTimeout {s0 s : State}  (hk : Keeps s0 s) : KeepsR s0 (execPpsTimeout s) := by
  dsimp only [execPpsTimeout]
  repeat' first | (simp +contextual (maxDischargeDepth := 40) [hk]; done) | split

@[simp ↓] theorem keeps_execAudioSample {s0 s : State} (samples : List (BitVec 16)) (hk : Keeps s0 s) : KeepsR s0 (execAudioSample samples s) := by
  dsimp only [execAudioSample]
  repeat' first | (simp +contextual (maxDischargeDepth := 40) [hk]; done) | split

@[simp ↓] theorem keeps_execAudCopy {s0 s : State}  (hk : Keeps s0 s) : KeepsR s0 (execAudCopy s) := by
  dsimp only [execAudCopy]
  repeat' first | (simp +contextual (maxDischargeDepth := 40) [hk]; done) | split

@[simp ↓] theorem keeps_execAudCopyComplete {s0 s : State}  (hk : Keeps s0 s) : KeepsR s0 (execAudCopyComplete s) := by
  dsimp only [execAudCopyComplete]
  repeat' first | (simp +contextual (maxDischargeDepth := 40) [hk]; done) | (have hw := keeps_writeDva (by assumption) (by simp +contextual (maxDischargeDepth := 40) [hk] : Keeps s0 _); simp +contextual (maxDischargeDepth := 40) [hw]; done) | (have hw := keeps_of_snd (by assumption) (by simp +contextual (maxDischargeDepth := 40) [hk] : Keeps s0 _); simp +contextual (maxDischargeDepth := 40) [hw, hk]; done) | (have hw := keeps_of_fst (by assumption) (by simp +contextual (maxDischargeDepth := 40) [hk] : Keeps s0 _); simp +contextual (maxDischargeDepth := 40) [hw, hk]; done) | split

@[simp ↓] theorem keeps_execKwsFrameEnd {s0 s : State}  (hk : Keeps s0 s) : KeepsR s0 (execKwsFrameEnd s) := by
  dsimp only [execKwsFrameEnd]
  repeat' first | (simp +contextual (maxDischargeDepth := 40) [hk]; done) | split

@[simp ↓] theorem keeps_kwDetect {s0 s : State} (k f rung : Nat) (score : Int) (hk : Keeps s0 s) : Keeps s0 (s.kwDetect k f rung score) := by
  dsimp only [State.kwDetect]
  repeat' first | (simp +contextual (maxDischargeDepth := 40) [hk]; done) | split

@[simp ↓] theorem keeps_execKwsEvaluationComplete {s0 s : State} (hk : Keeps s0 s) : KeepsR s0 (execKwsEvaluationComplete s) := by
  unfold execKwsEvaluationComplete
  split
  · exact keepsR_next hk
  · refine keepsR_next (keeps_foldl _ (keeps_mk hk) fun t k h => ?_)
    dsimp only
    split
    · exact keeps_ite (fun _ => keeps_kwDetect _ _ _ _ h) fun _ => h
    · exact h

@[simp ↓] theorem keeps_execKwsPop {s0 s : State}  (hk : Keeps s0 s) : KeepsR s0 (execKwsPop s) := by
  dsimp only [execKwsPop]
  repeat' first | (simp +contextual (maxDischargeDepth := 40) [hk]; done) | split

@[simp ↓] theorem keeps_execKwsModelData {s0 s : State} (value : BitVec 32) (hk : Keeps s0 s) : KeepsR s0 (execKwsModelData value s) := by
  dsimp only [execKwsModelData]
  repeat' first | (simp +contextual (maxDischargeDepth := 40) [hk, ‹Keeps s0 _›]; done) | refine keeps_foldl _ ?_ fun _ _ _ => ?_ | split

end Sys2Proof.Machine
end

