-- ==== Sys2Proof/Laws/KeepsRestart.lean ====
section
/-! SUPPORT. Sys2Proof/Laws/KeepsRestart.lean: what the operations of Machine/Restart.lean keep. -/

namespace Sys2Proof.Machine

set_option linter.unusedSimpArgs false
set_option linter.unusedTactic false
set_option linter.unreachableTactic false

@[simp ↓] theorem keeps_fuseLoss {s0 s : State}  (hk : Keeps s0 s) : Keeps s0 s.fuseLoss := by
  dsimp only [State.fuseLoss]
  repeat' first | (simp +contextual (maxDischargeDepth := 40) [hk]; done) | split

@[simp ↓] theorem keeps_coldState {s0 s : State} (porst : Bool) (hk : Keeps s0 s) : Keeps s0 (s.coldState porst) :=
  (keeps_fuseLoss hk).trans ⟨rfl, fun h => ⟨⟨rfl, Tab.canon_filter _ h.1.2.1, rfl⟩, fun _ he => by cases he⟩, Nat.le_refl _, List.prefix_refl _⟩

@[simp ↓] theorem keeps_clearMain {s0 s : State} (hk : Keeps s0 s) : Keeps s0 s.clearMain := by
  refine hk.trans ⟨rfl, fun h => ⟨⟨?_, Tab.canon_filter _ h.1.2.1, rfl⟩, fun _ he => by cases he⟩, Nat.le_refl _, List.prefix_refl _⟩
  dsimp only [State.clearMain]
  refine Tab.canon_filter _ ?_
  split
  · exact ((keeps_wr Reg.AUD_STATUS _ (Keeps.refl s)).inv h).1.1
  · exact h.1.1

@[simp ↓] theorem keeps_halt {s0 s : State} (code : Nat) (hk : Keeps s0 s) : Keeps s0 (s.halt code) := by
  dsimp only [State.halt]
  repeat' first | (simp +contextual (maxDischargeDepth := 40) [hk]; done) | split

@[simp ↓] theorem keeps_startBoot {s0 s : State} (straps : Nat) (hk : Keeps s0 s) : Keeps s0 (s.startBoot straps) := by
  dsimp only [State.startBoot]
  repeat' first | (simp +contextual (maxDischargeDepth := 40) [hk]; done) | (have hw := keeps_of_snd (by assumption) (by simp +contextual (maxDischargeDepth := 40) [hk] : Keeps s0 _); simp +contextual (maxDischargeDepth := 40) [hw, hk]; done) | (have hw := keeps_of_fst (by assumption) (by simp +contextual (maxDischargeDepth := 40) [hk] : Keeps s0 _); simp +contextual (maxDischargeDepth := 40) [hw, hk]; done) | split

@[simp ↓] theorem keeps_restart {s0 s : State} (source straps : Nat) (hk : Keeps s0 s) : Keeps s0 (s.restart source straps) := by
  dsimp only [State.restart]
  repeat' first | (simp +contextual (maxDischargeDepth := 40) [hk]; done) | split

end Sys2Proof.Machine
end

