-- ==== Sys2Proof/Laws/KeepsSecurity.lean ====
section
/-! SUPPORT. Sys2Proof/Laws/KeepsSecurity.lean: what the operations of Machine/Security.lean keep. -/

namespace Sys2Proof.Machine

set_option linter.unusedSimpArgs false
set_option linter.unusedTactic false
set_option linter.unreachableTactic false

@[simp ↓] theorem keeps_secBegin {s0 s : State} (op p : Nat) (rng : Bool) (f : State → SecRes) (hk : Keeps s0 s)
    (hf : ∀ t, Keeps s0 t → Keeps s0 (f t).1) : Keeps s0 (s.secBegin op p rng f) := by
  have h1 : Keeps s0 (if rng && s.sec.rngBad then (s, 0x0C0B, 0) else f s).1 := by
    split
    · exact hk
    · exact hf _ hk
  dsimp only [State.secBegin]
  generalize (if rng && s.sec.rngBad then (s, 0x0C0B, 0) else f s) = x at h1 ⊢
  repeat' first | (simp (maxDischargeDepth := 40) [hk, h1]; done) | split

theorem keeps_secRead {s0 s t : State} {p dva n : Nat} (e : s.secRead p dva n = .error t) (hk : Keeps s0 s) : Keeps s0 t := by
  unfold State.secRead at e
  split at e
  · cases e
  · cases e; exact hk
  · cases e; exact keeps_oob _ _ _ _ _ hk
  · cases e; exact keeps_err _ _ _ _ hk

theorem keeps_secWriteErr {s0 s t : State} {p dva : Nat} {b : List Byte} (e : s.secWrite p dva b = .error t) (hk : Keeps s0 s) :
    Keeps s0 t := by
  unfold State.secWrite at e
  split at e
  · cases e
  · cases e; exact keeps_oob _ _ _ _ _ hk
  · cases e; exact keeps_err _ _ _ _ hk

theorem keeps_secWriteOk {s0 s t : State} {p dva : Nat} {b : List Byte} (e : s.secWrite p dva b = .ok t) (hk : Keeps s0 s) :
    Keeps s0 t := by
  unfold State.secWrite at e
  split at e
  · next e' => cases e; exact keeps_writeDva e' hk
  · cases e
  · cases e

@[simp ↓] theorem keeps_execSecAttest {s0 s : State} (p : Fin 16) (hk : Keeps s0 s) : KeepsR s0 (execSecAttest p s) := by
  unfold execSecAttest
  refine keepsR_next (keeps_secBegin _ _ _ _ hk fun t ht => ?_)
  dsimp only
  split
  · exact ht
  · split
    · next e => exact keeps_secRead e ht
    · generalize ecdsaSign _ _ _ = g
      have h1 := keeps_freshPriv ht
      generalize t.freshPriv = x at h1 ⊢
      generalize x.2.attestBody _ _ = y
      split
      · next e => exact keeps_secWriteErr e h1
      · next e => exact keeps_secWriteOk e h1

@[simp ↓] theorem keeps_execSecChain {s0 s : State} (p : Fin 16) (hk : Keeps s0 s) : KeepsR s0 (execSecChain p s) := by
  unfold execSecChain
  refine keepsR_next (keeps_secBegin _ _ _ _ hk fun t ht => ?_)
  dsimp only
  repeat' first
    | (simp (maxDischargeDepth := 40) [ht]; done)
    | (have hw := keeps_secRead (by assumption) ht; exact hw)
    | (have hw := keeps_secWriteErr (by assumption) (by simp (maxDischargeDepth := 40) [ht] : Keeps s0 _); exact hw)
    | (have hw := keeps_secWriteOk (by assumption) (by simp (maxDischargeDepth := 40) [ht] : Keeps s0 _); simp (maxDischargeDepth := 40) [hw]; done)
    | split

@[simp ↓] theorem keeps_execSecSession {s0 s : State} (p : Fin 16) (hk : Keeps s0 s) : KeepsR s0 (execSecSession p s) := by
  unfold execSecSession
  refine keepsR_next (keeps_secBegin _ _ _ _ hk fun t ht => ?_)
  dsimp only
  repeat' first
    | (simp (maxDischargeDepth := 40) [ht]; done)
    | (have hw := keeps_secRead (by assumption) ht; exact hw)
    | (have hw := keeps_secWriteErr (by assumption) (by simp (maxDischargeDepth := 40) [ht] : Keeps s0 _); exact hw)
    | (have hw := keeps_secWriteOk (by assumption) (by simp (maxDischargeDepth := 40) [ht] : Keeps s0 _); simp (maxDischargeDepth := 40) [hw]; done)
    | split

theorem keeps_tableFor {s0 s t : State} {p ia k : Nat} (e : s.tableFor p ia = some (t, k)) (hk : Keeps s0 s) : Keeps s0 t := by
  dsimp only [State.tableFor] at e
  split at e
  · cases e; exact hk
  · split at e
    · cases e
    · cases e; exact keeps_storePA _ _ _ hk

theorem keeps_mapPages {s0 s t : State} {p perm n ia pa : Nat} (e : s.mapPages p perm n ia pa = some t) (hk : Keeps s0 s) :
    Keeps s0 t := by
  induction n generalizing s ia pa with
  | zero => cases e; exact hk
  | succ n ih =>
    rw [State.mapPages] at e
    split at e
    · cases e
    · next e' => exact ih e (keeps_storePA _ _ _ (keeps_tableFor e' hk))

theorem keeps_mapEntry {s0 s t : State} {p : Nat} {b : List Byte} (e : s.mapEntry p b = some t) (hk : Keeps s0 s) : Keeps s0 t := by
  dsimp only [State.mapEntry] at e
  repeat' first
    | (cases e; done)
    | (cases e; exact keeps_mk hk)
    | exact keeps_mapPages e hk
    | split at e

theorem keeps_mapAll {s0 s t : State} {p n : Nat} {b : List Byte} (e : s.mapAll p n b = some t) (hk : Keeps s0 s) : Keeps s0 t := by
  induction n generalizing s b with
  | zero => cases e; exact hk
  | succ n ih =>
    rw [State.mapAll] at e
    split at e
    · cases e
    · next e' => exact ih e (keeps_mapEntry e' hk)

@[simp ↓] theorem keeps_bundleTaken {s0 s : State} (p : Nat) (x : Session) (h : List Byte) (hk : Keeps s0 s) : Keeps s0 (s.bundleTaken p x h) := by
  dsimp only [State.bundleTaken]
  repeat' first | (simp +contextual (maxDischargeDepth := 40) [hk]; done) | split

@[simp ↓] theorem keeps_importApply {s0 s : State} (p : Nat) (x : Session) (k pt : List Byte) (good : Bool) (hk : Keeps s0 s) :
    Keeps s0 (s.importApply p x k pt good).1 := by
  dsimp only [State.importApply]
  repeat' first
    | (simp (maxDischargeDepth := 40) [hk]; done)
    | (have hw := keeps_secWriteErr (by assumption) hk; exact hw)
    | (have hw := keeps_secWriteOk (by assumption) hk; simp (maxDischargeDepth := 40) [hw]; done)
    | (have hw := keeps_mapAll (by assumption) hk; simp (maxDischargeDepth := 40) [hw]; done)
    | split

@[simp ↓] theorem keeps_execSecImport {s0 s : State} (p : Fin 16) (hk : Keeps s0 s) : KeepsR s0 (execSecImport p s) := by
  unfold execSecImport
  refine keepsR_next (keeps_secBegin _ _ _ _ hk fun t ht => ?_)
  dsimp only
  split
  · next e => exact keeps_secRead e ht
  · split
    · exact ht
    · split
      · exact ht
      · split
        · exact ht
        · generalize hr : t.secRead _ _ (_ + 16) = r
          cases r with
          | error t' => exact keeps_secRead hr ht
          | ok b => exact keeps_importApply _ _ _ _ _ ht

@[simp ↓] theorem keeps_execSecExport {s0 s : State} (p : Fin 16) (hk : Keeps s0 s) : KeepsR s0 (execSecExport p s) := by
  unfold execSecExport
  refine keepsR_next (keeps_secBegin _ _ _ _ hk fun t ht => ?_)
  dsimp only
  repeat' first
    | (simp (maxDischargeDepth := 40) [ht]; done)
    | (have hw := keeps_secRead (by assumption) ht; exact hw)
    | (have hw := keeps_secWriteErr (by assumption) (by simp (maxDischargeDepth := 40) [ht] : Keeps s0 _); exact hw)
    | (have hw := keeps_secWriteOk (by assumption) (by simp (maxDischargeDepth := 40) [ht] : Keeps s0 _); simp (maxDischargeDepth := 40) [hw]; done)
    | split

@[simp ↓] theorem keeps_execConfEnable {s0 s : State} (p : Fin 16) (hk : Keeps s0 s) : KeepsR s0 (execConfEnable p s) := by
  unfold execConfEnable
  refine keepsR_next (keeps_secBegin _ _ _ _ hk fun t ht => ?_)
  dsimp only
  repeat' first
    | (simp (maxDischargeDepth := 40) [ht]; done)
    | (have hw := keeps_secRead (by assumption) ht; exact hw)
    | (have hw := keeps_secWriteErr (by assumption) (by simp (maxDischargeDepth := 40) [ht] : Keeps s0 _); exact hw)
    | (have hw := keeps_secWriteOk (by assumption) (by simp (maxDischargeDepth := 40) [ht] : Keeps s0 _); simp (maxDischargeDepth := 40) [hw]; done)
    | split

@[simp ↓] theorem keeps_execConfDisable {s0 s : State} (p : Fin 16) (hk : Keeps s0 s) : KeepsR s0 (execConfDisable p s) := by
  unfold execConfDisable
  refine keepsR_next (keeps_secBegin _ _ _ _ hk fun t ht => ?_)
  repeat' first
    | (simp (maxDischargeDepth := 40) [ht]; done)
    | (have hw := keeps_secRead (by assumption) ht; exact hw)
    | (have hw := keeps_secWriteErr (by assumption) (by simp (maxDischargeDepth := 40) [ht] : Keeps s0 _); exact hw)
    | (have hw := keeps_secWriteOk (by assumption) (by simp (maxDischargeDepth := 40) [ht] : Keeps s0 _); simp (maxDischargeDepth := 40) [hw]; done)
    | split

@[simp ↓] theorem keeps_execConfGrant {s0 s : State} (p : Fin 16) (hk : Keeps s0 s) : KeepsR s0 (execConfGrant p s) := by
  unfold execConfGrant
  refine keepsR_next (keeps_secBegin _ _ _ _ hk fun t ht => ?_)
  dsimp only
  split
  · exact ht
  · exact keeps_countChunks _ (keeps_foldl _ ht fun _ _ h => keeps_mk (keeps_zeroChunk _ h))

@[simp ↓] theorem keeps_execConfRelease {s0 s : State} (p : Fin 16) (hk : Keeps s0 s) : KeepsR s0 (execConfRelease p s) := by
  unfold execConfRelease
  refine keepsR_next (keeps_secBegin _ _ _ _ hk fun t ht => ?_)
  dsimp only
  repeat' first
    | (simp (maxDischargeDepth := 40) [ht]; done)
    | (have hw := keeps_secRead (by assumption) ht; exact hw)
    | (have hw := keeps_secWriteErr (by assumption) (by simp (maxDischargeDepth := 40) [ht] : Keeps s0 _); exact hw)
    | (have hw := keeps_secWriteOk (by assumption) (by simp (maxDischargeDepth := 40) [ht] : Keeps s0 _); simp (maxDischargeDepth := 40) [hw]; done)
    | split

@[simp ↓] theorem keeps_execConfMode {s0 s : State} (p : Fin 16) (hk : Keeps s0 s) : KeepsR s0 (execConfMode p s) := by
  unfold execConfMode
  refine keepsR_next (keeps_secBegin _ _ _ _ hk fun t ht => ?_)
  repeat' first
    | (simp (maxDischargeDepth := 40) [ht]; done)
    | (have hw := keeps_secRead (by assumption) ht; exact hw)
    | (have hw := keeps_secWriteErr (by assumption) (by simp (maxDischargeDepth := 40) [ht] : Keeps s0 _); exact hw)
    | (have hw := keeps_secWriteOk (by assumption) (by simp (maxDischargeDepth := 40) [ht] : Keeps s0 _); simp (maxDischargeDepth := 40) [hw]; done)
    | split

@[simp ↓] theorem keeps_updActivate {s0 s : State} (t : Nat) (b : List Byte) (slotB : Bool) (hk : Keeps s0 s) : Keeps s0 (s.updActivate t b slotB) := by
  dsimp only [State.updActivate]
  repeat' first | (simp +contextual (maxDischargeDepth := 40) [hk]; done) | split

@[simp ↓] theorem keeps_execSecUpdate {s0 s : State} (p : Fin 16) (hk : Keeps s0 s) : KeepsR s0 (execSecUpdate p s) := by
  unfold execSecUpdate
  refine keepsR_next (keeps_ite (fun _ => by simp [hk]) fun _ => keeps_secBegin _ _ _ _ hk fun t ht => ?_)
  dsimp only
  split
  · next e => exact keeps_secRead e ht
  · split
    · exact ht
    · split
      · next e => exact keeps_secRead e ht
      · split
        · exact ht
        · split
          · exact ht
          · split
            · exact ht
            · split
              · exact ht
              · split
                · exact ht
                · exact keeps_updActivate _ _ _ (keeps_writeFlash _ _ ht)

@[simp ↓] theorem keeps_execSvnCommit {s0 s : State} (p : Fin 16) (hk : Keeps s0 s) : KeepsR s0 (execSvnCommit p s) := by
  unfold execSvnCommit
  refine keepsR_next (keeps_secBegin _ _ _ _ hk fun t ht => ?_)
  dsimp only
  repeat' first
    | (simp (maxDischargeDepth := 40) [ht]; done)
    | (have hw := keeps_secRead (by assumption) ht; exact hw)
    | (have hw := keeps_secWriteErr (by assumption) (by simp (maxDischargeDepth := 40) [ht] : Keeps s0 _); exact hw)
    | (have hw := keeps_secWriteOk (by assumption) (by simp (maxDischargeDepth := 40) [ht] : Keeps s0 _); simp (maxDischargeDepth := 40) [hw]; done)
    | split

@[simp ↓] theorem keeps_execSecCmdComplete {s0 s : State}  (hk : Keeps s0 s) : KeepsR s0 (execSecCmdComplete s) := by
  dsimp only [execSecCmdComplete]
  repeat' first | (simp +contextual (maxDischargeDepth := 40) [hk]; done) | split

@[simp ↓] theorem keeps_execDebugChallenge {s0 s : State}  (hk : Keeps s0 s) : KeepsR s0 (execDebugChallenge s) := by
  dsimp only [execDebugChallenge]
  repeat' first | (simp +contextual (maxDischargeDepth := 40) [hk]; done) | split

@[simp ↓] theorem keeps_execDebugResponse {s0 s : State} (answer : List Byte) (hk : Keeps s0 s) : KeepsR s0 (execDebugResponse answer s) := by
  dsimp only [execDebugResponse]
  repeat' first | (simp +contextual (maxDischargeDepth := 40) [hk, ‹Keeps s0 _›]; done) | refine keeps_foldl _ ?_ fun _ _ _ => ?_ | split

@[simp ↓] theorem keeps_execDebugLevelLower {s0 s : State} (level : Fin 3) (hk : Keeps s0 s) : KeepsR s0 (execDebugLevelLower level s) := by
  dsimp only [execDebugLevelLower]
  repeat' first | (simp +contextual (maxDischargeDepth := 40) [hk]; done) | split

@[simp ↓] theorem keeps_execRngHealthFail {s0 s : State}  (hk : Keeps s0 s) : KeepsR s0 (execRngHealthFail s) := by
  dsimp only [execRngHealthFail]
  repeat' first | (simp +contextual (maxDischargeDepth := 40) [hk]; done) | split

@[simp ↓] theorem keeps_execRngRetry {s0 s : State} (pass : Bool) (hk : Keeps s0 s) : KeepsR s0 (execRngRetry pass s) := by
  dsimp only [execRngRetry]
  repeat' first | (simp +contextual (maxDischargeDepth := 40) [hk]; done) | split

end Sys2Proof.Machine
end

