-- ==== Sys2Proof/Laws/KeepsBoot.lean ====
section
/-! SUPPORT. Sys2Proof/Laws/KeepsBoot.lean: what the operations of Machine/Boot.lean keep. -/

namespace Sys2Proof.Machine

set_option linter.unusedSimpArgs false
set_option linter.unusedTactic false
set_option linter.unreachableTactic false

@[simp ↓] theorem keeps_execColdReset {s0 s : State}  (hk : Keeps s0 s) : KeepsR s0 (execColdReset s) := by
  dsimp only [execColdReset]
  repeat' first | (simp +contextual (maxDischargeDepth := 40) [hk]; done) | split

@[simp ↓] theorem keeps_execPorstRelease {s0 s : State} (straps : BitVec 12) (testMode : Bool) (hk : Keeps s0 s) : KeepsR s0 (execPorstRelease straps testMode s) := by
  dsimp only [execPorstRelease]
  repeat' first | (simp +contextual (maxDischargeDepth := 40) [hk]; done) | split

@[simp ↓] theorem keeps_execTestModeFall {s0 s : State} (straps : BitVec 12) (hk : Keeps s0 s) : KeepsR s0 (execTestModeFall straps s) := by
  dsimp only [execTestModeFall]
  repeat' first | (simp +contextual (maxDischargeDepth := 40) [hk]; done) | split

@[simp ↓] theorem keeps_imageServed {s0 s : State} (t : Nat) (b : List Byte) (slotB : Bool) (hk : Keeps s0 s) : Keeps s0 (s.imageServed t b slotB) := by
  dsimp only [State.imageServed]
  repeat' first | (simp +contextual (maxDischargeDepth := 40) [hk]; done) | split

@[simp ↓] theorem keeps_imageMissing {s0 s : State} (t : Nat) (hk : Keeps s0 s) : Keeps s0 (s.imageMissing t) := by
  dsimp only [State.imageMissing]
  repeat' first | (simp +contextual (maxDischargeDepth := 40) [hk]; done) | split

@[simp ↓] theorem keeps_execBootImageLoaded {s0 s : State}  (hk : Keeps s0 s) : KeepsR s0 (execBootImageLoaded s) := by
  dsimp only [execBootImageLoaded]
  repeat' first | (simp +contextual (maxDischargeDepth := 40) [hk]; done) | (have hw := keeps_of_snd (by assumption) (by simp +contextual (maxDischargeDepth := 40) [hk] : Keeps s0 _); simp +contextual (maxDischargeDepth := 40) [hw, hk]; done) | (have hw := keeps_of_fst (by assumption) (by simp +contextual (maxDischargeDepth := 40) [hk] : Keeps s0 _); simp +contextual (maxDischargeDepth := 40) [hw, hk]; done) | split

@[simp ↓] theorem keeps_execMemoryTrainingComplete {s0 s : State}  (hk : Keeps s0 s) : KeepsR s0 (execMemoryTrainingComplete s) := by
  dsimp only [execMemoryTrainingComplete]
  repeat' first | (simp +contextual (maxDischargeDepth := 40) [hk]; done) | split

@[simp ↓] theorem keeps_bootFence {s0 s : State} (n : Nat) (hk : Keeps s0 s) : Keeps s0 (s.bootFence n) := by
  dsimp only [State.bootFence]
  repeat' first | (simp +contextual (maxDischargeDepth := 40) [hk]; done) | split

@[simp ↓] theorem keeps_bootConfig {s0 s : State}  (hk : Keeps s0 s) : Keeps s0 s.bootConfig := by
  dsimp only [State.bootConfig]
  repeat' first | (simp +contextual (maxDischargeDepth := 40) [hk]; done) | (have hw := keeps_of_snd (by assumption) (by simp +contextual (maxDischargeDepth := 40) [hk] : Keeps s0 _); simp +contextual (maxDischargeDepth := 40) [hw, hk]; done) | (have hw := keeps_of_fst (by assumption) (by simp +contextual (maxDischargeDepth := 40) [hk] : Keeps s0 _); simp +contextual (maxDischargeDepth := 40) [hw, hk]; done) | split

@[simp ↓] theorem keeps_execBootReady {s0 s : State} (failed : BitVec 32) (hk : Keeps s0 s) : KeepsR s0 (execBootReady failed s) := by
  dsimp only [execBootReady]
  repeat' first | (simp +contextual (maxDischargeDepth := 40) [hk, ‹Keeps s0 _›]; done) | refine keeps_foldl _ ?_ fun _ _ _ => ?_ | split

@[simp ↓] theorem keeps_execWholeDeviceRestart {s0 s : State} (value : BitVec 32) (straps : BitVec 12) (hk : Keeps s0 s) : KeepsR s0 (execWholeDeviceRestart value straps s) := by
  dsimp only [execWholeDeviceRestart]
  repeat' first | (simp +contextual (maxDischargeDepth := 40) [hk]; done) | split

@[simp ↓] theorem keeps_execFatalRestartTimer {s0 s : State} (straps : BitVec 12) (hk : Keeps s0 s) : KeepsR s0 (execFatalRestartTimer straps s) := by
  dsimp only [execFatalRestartTimer]
  repeat' first | (simp +contextual (maxDischargeDepth := 40) [hk]; done) | split

@[simp ↓] theorem keeps_execHostReset {s0 s : State} (how : HostResetBy) (straps : BitVec 12) (hk : Keeps s0 s) : KeepsR s0 (execHostReset how straps s) := by
  dsimp only [execHostReset]
  repeat' first | (simp +contextual (maxDischargeDepth := 40) [hk]; done) | split

@[simp ↓] theorem keeps_execMainRailFault {s0 s : State} (hk : Keeps s0 s) : KeepsR s0 (execMainRailFault s) := by
  unfold execMainRailFault
  refine keepsR_ite (fun _ => keepsR_next hk) fun _ => keepsR_next ?_
  have h1 := keeps_clearMain hk
  refine hk.trans ⟨?_, fun h => ⟨⟨Tab.canon_filter _ h.1.1, ?_⟩, ?_⟩, ?_, ?_⟩
  · exact (keeps_clearMain (Keeps.refl s)).pending
  · exact ((keeps_clearMain (Keeps.refl s)).inv h).1.2
  · exact ((keeps_clearMain (Keeps.refl s)).inv h).2
  · exact (keeps_clearMain (Keeps.refl s)).freeCtr
  · exact (keeps_clearMain (Keeps.refl s)).out

@[simp ↓] theorem keeps_execVddAonFault {s0 s : State}  (hk : Keeps s0 s) : KeepsR s0 (execVddAonFault s) := by
  dsimp only [execVddAonFault]
  repeat' first | (simp +contextual (maxDischargeDepth := 40) [hk]; done) | split

@[simp ↓] theorem keeps_execPerstRelease {s0 s : State}  (hk : Keeps s0 s) : KeepsR s0 (execPerstRelease s) := by
  dsimp only [execPerstRelease]
  repeat' first | (simp +contextual (maxDischargeDepth := 40) [hk]; done) | split

@[simp ↓] theorem keeps_execPcieLinkUp {s0 s : State}  (hk : Keeps s0 s) : KeepsR s0 (execPcieLinkUp s) := by
  dsimp only [execPcieLinkUp]
  repeat' first | (simp +contextual (maxDischargeDepth := 40) [hk]; done) | split

@[simp ↓] theorem keeps_execPcieL1Exit {s0 s : State}  (hk : Keeps s0 s) : KeepsR s0 (execPcieL1Exit s) := by
  dsimp only [execPcieL1Exit]
  repeat' first | (simp +contextual (maxDischargeDepth := 40) [hk]; done) | split

@[simp ↓] theorem keeps_execCfwSwitchComplete {s0 s : State}  (hk : Keeps s0 s) : KeepsR s0 (execCfwSwitchComplete s) := by
  dsimp only [execCfwSwitchComplete]
  repeat' first | (simp +contextual (maxDischargeDepth := 40) [hk, ‹Keeps s0 _›]; done) | refine keeps_foldl _ ?_ fun _ _ _ => ?_ | split

@[simp ↓] theorem keeps_execTapExtest {s0 s : State}  (hk : Keeps s0 s) : KeepsR s0 (execTapExtest s) := by
  dsimp only [execTapExtest]
  repeat' first | (simp +contextual (maxDischargeDepth := 40) [hk]; done) | split

@[simp ↓] theorem keeps_execAon32kStable {s0 s : State}  (hk : Keeps s0 s) : KeepsR s0 (execAon32kStable s) := by
  dsimp only [execAon32kStable]
  repeat' first | (simp +contextual (maxDischargeDepth := 40) [hk]; done) | split

end Sys2Proof.Machine
end

