-- ==== Sys2Proof/Laws/KeepsDebug.lean ====
section
/-! SUPPORT. Sys2Proof/Laws/KeepsDebug.lean: what the operations of Machine/Debug.lean keep. -/

namespace Sys2Proof.Machine

set_option linter.unusedSimpArgs false
set_option linter.unusedTactic false
set_option linter.unreachableTactic false

@[simp ↓] theorem keeps_execDbgClear {s0 s : State} (mask : BitVec 16) (hk : Keeps s0 s) : KeepsR s0 (execDbgClear mask s) := by
  dsimp only [execDbgClear]
  repeat' first | (simp +contextual (maxDischargeDepth := 40) [hk]; done) | split

@[simp ↓] theorem keeps_execPtCounterClear {s0 s : State} (p : Fin 16) (hk : Keeps s0 s) : KeepsR s0 (execPtCounterClear p s) := by
  dsimp only [execPtCounterClear]
  repeat' first | (simp +contextual (maxDischargeDepth := 40) [hk]; done) | split

@[simp ↓] theorem keeps_execDbgFreeze {s0 s : State}  (hk : Keeps s0 s) : KeepsR s0 (execDbgFreeze s) := by
  dsimp only [execDbgFreeze]
  repeat' first | (simp +contextual (maxDischargeDepth := 40) [hk]; done) | split

@[simp ↓] theorem keeps_execDbgThaw {s0 s : State}  (hk : Keeps s0 s) : KeepsR s0 (execDbgThaw s) := by
  dsimp only [execDbgThaw]
  repeat' first | (simp +contextual (maxDischargeDepth := 40) [hk]; done) | split

@[simp ↓] theorem keeps_execDbgDump {s0 s : State} (pf : Bool) (p : Fin 16) (hk : Keeps s0 s) : KeepsR s0 (execDbgDump pf p s) := by
  dsimp only [execDbgDump]
  repeat' first | (simp +contextual (maxDischargeDepth := 40) [hk]; done) | split

@[simp ↓] theorem keeps_dumpRecs {s0 s : State} (q dst : Nat) (l : List EvRec) (hk : Keeps s0 s) : Keeps s0 (s.dumpRecs q dst l).1 := by
  induction l generalizing s dst with
  | nil => exact hk
  | cons r rs ih =>
    rw [State.dumpRecs]
    split
    · next e => exact ih _ (keeps_writeDva e hk)
    · simp (maxDischargeDepth := 40) [hk]
    · simp (maxDischargeDepth := 40) [hk]

@[simp ↓] theorem keeps_execDumpComplete {s0 s : State} (pf : Bool) (p : Fin 16) (hk : Keeps s0 s) : KeepsR s0 (execDumpComplete pf p s) := by
  dsimp only [execDumpComplete]
  repeat' first | (simp +contextual (maxDischargeDepth := 40) [hk]; done) | (have hw := keeps_of_snd (by assumption) (by simp +contextual (maxDischargeDepth := 40) [hk] : Keeps s0 _); simp +contextual (maxDischargeDepth := 40) [hw, hk]; done) | (have hw := keeps_of_fst (by assumption) (by simp +contextual (maxDischargeDepth := 40) [hk] : Keeps s0 _); simp +contextual (maxDischargeDepth := 40) [hw, hk]; done) | split

end Sys2Proof.Machine
end

