-- ==== Sys2Proof/Laws/KeepsFlag.lean ====
section
/-! SUPPORT. Sys2Proof/Laws/KeepsFlag.lean: what the operations of Machine/Flag.lean keep. -/

namespace Sys2Proof.Machine

set_option linter.unusedSimpArgs false
set_option linter.unusedTactic false
set_option linter.unreachableTactic false

@[simp ↓] theorem keeps_stopFlagAgent {s0 s : State} (op : FlagOp) (code : Nat) (hk : Keeps s0 s) : Keeps s0 (s.stopFlagAgent op code) := by
  dsimp only [State.stopFlagAgent]
  repeat' first | (simp +contextual (maxDischargeDepth := 40) [hk]; done) | split

@[simp ↓] theorem keeps_poisonFlag {s0 s : State} (i : Nat) (hk : Keeps s0 s) : Keeps s0 (s.poisonFlag i) := by
  dsimp only [State.poisonFlag]
  repeat' first | (simp +contextual (maxDischargeDepth := 40) [hk, ‹Keeps s0 _›]; done) | refine keeps_foldl _ ?_ fun _ _ _ => ?_ | split

@[simp ↓] theorem keeps_flagWord {s0 s : State} (i : Nat) (ue : Bool) (hk : Keeps s0 s) : Keeps s0 (s.flagWord i ue) := by
  dsimp only [State.flagWord]
  repeat' first | (simp +contextual (maxDischargeDepth := 40) [hk]; done) | split

@[simp ↓] theorem keeps_takeFlagOp {s0 s : State} (o : FlagOp) (hk : Keeps s0 s) : Keeps s0 (s.takeFlagOp o) := by
  dsimp only [State.takeFlagOp]
  repeat' first | (simp +contextual (maxDischargeDepth := 40) [hk]; done) | split

@[simp ↓] theorem keeps_execFlagSignalApply {s0 s : State} (i : Fin 32768) (ue : Bool) (hk : Keeps s0 s) : KeepsR s0 (execFlagSignalApply i ue s) := by
  dsimp only [execFlagSignalApply]
  repeat' first | (simp +contextual (maxDischargeDepth := 40) [hk]; done) | split

@[simp ↓] theorem keeps_execFlagSetApply {s0 s : State} (i : Fin 32768) (ue : Bool) (hk : Keeps s0 s) : KeepsR s0 (execFlagSetApply i ue s) := by
  dsimp only [execFlagSetApply]
  repeat' first | (simp +contextual (maxDischargeDepth := 40) [hk]; done) | split

@[simp ↓] theorem keeps_waitOver {s0 s : State} (i : Nat) (w : Wait) (code : Nat) (hk : Keeps s0 s) : Keeps s0 (s.waitOver i w code) := by
  dsimp only [State.waitOver]
  repeat' first | (simp +contextual (maxDischargeDepth := 40) [hk]; done) | split

@[simp ↓] theorem keeps_execFlagWaitSatisfied {s0 s : State} (i : Fin 32768) (hk : Keeps s0 s) : KeepsR s0 (execFlagWaitSatisfied i s) := by
  dsimp only [execFlagWaitSatisfied]
  repeat' first | (simp +contextual (maxDischargeDepth := 40) [hk]; done) | split

@[simp ↓] theorem keeps_execWaitTimeout {s0 s : State} (channel : Bool) (n : Fin 64) (hk : Keeps s0 s) : KeepsR s0 (execWaitTimeout channel n s) := by
  dsimp only [execWaitTimeout]
  repeat' first | (simp +contextual (maxDischargeDepth := 40) [hk]; done) | (have hw := keeps_of_snd (by assumption) (by simp +contextual (maxDischargeDepth := 40) [hk] : Keeps s0 _); simp +contextual (maxDischargeDepth := 40) [hw, hk]; done) | (have hw := keeps_of_fst (by assumption) (by simp +contextual (maxDischargeDepth := 40) [hk] : Keeps s0 _); simp +contextual (maxDischargeDepth := 40) [hw, hk]; done) | split

@[simp ↓] theorem keeps_hostWrote {s0 s : State} (q : Nat) (hk : Keeps s0 s) : Keeps s0 (s.hostWrote q) := by
  dsimp only [State.hostWrote]
  repeat' first | (simp +contextual (maxDischargeDepth := 40) [hk]; done) | split

@[simp ↓] theorem keeps_hostFlagRefused {s0 s : State} (fn i : Nat) (hk : Keeps s0 s) : Keeps s0 (s.hostFlagRefused fn i) := by
  dsimp only [State.hostFlagRefused]
  repeat' first | (simp +contextual (maxDischargeDepth := 40) [hk]; done) | split

@[simp ↓] theorem keeps_execFlagValueWrite {s0 s : State} (fn : Fin 16) (i : Fin 32768) (value : BitVec 32) (ue : Bool) (hk : Keeps s0 s) : KeepsR s0 (execFlagValueWrite fn i value ue s) := by
  dsimp only [execFlagValueWrite]
  repeat' first | (simp +contextual (maxDischargeDepth := 40) [hk]; done) | split

@[simp ↓] theorem keeps_execFlagAddWrite {s0 s : State} (fn : Fin 16) (i : Fin 32768) (value : BitVec 32) (ue : Bool) (hk : Keeps s0 s) : KeepsR s0 (execFlagAddWrite fn i value ue s) := by
  dsimp only [execFlagAddWrite]
  repeat' first | (simp +contextual (maxDischargeDepth := 40) [hk]; done) | split

end Sys2Proof.Machine
end

