-- ==== Sys2Proof/Laws/KeepsTensor.lean ====
section
/-! SUPPORT. Sys2Proof/Laws/KeepsTensor.lean: what the operations of Machine/Tensor.lean keep. -/

namespace Sys2Proof.Machine

set_option linter.unusedSimpArgs false
set_option linter.unusedTactic false
set_option linter.unreachableTactic false

@[simp ↓] theorem keeps_loadTile {s0 s : State} (n p : Nat) (t : Tile) (hk : Keeps s0 s) : Keeps s0 (s.loadTile n p t).1 := by
  dsimp only [State.loadTile]
  repeat' first | (simp +contextual (maxDischargeDepth := 40) [hk]; done) | split

@[simp ↓] theorem keeps_tileFault {s0 s : State} (n p handle : Nat) (x : TileFault) (hk : Keeps s0 s) : Keeps s0 (s.tileFault n p handle x).1 := by
  dsimp only [State.tileFault]
  repeat' first | (simp +contextual (maxDischargeDepth := 40) [hk]; done) | split

theorem keeps_tileOperands {s0 s : State} (n w perm : Nat) (hk : Keeps s0 s) :
    (∀ x, s.tileOperands n w perm = .error x → Keeps s0 x.1) ∧ (∀ x, s.tileOperands n w perm = .ok x → Keeps s0 x.1) := by
  have hc := keeps_capture (s.tcPt n) ((s.tc n).tileHandle w) 0xD35C hk
  constructor
  all_goals
    intro x hx
    dsimp only [State.tileOperands] at hx
    repeat' first
      | (cases hx; simp (maxDischargeDepth := 40) [hk]; done)
      | (cases hx; done)
      | (cases hx; have hw := keeps_of_snd (by assumption) hc; simp (maxDischargeDepth := 40) [hw]; done)
      | split at hx

@[simp ↓] theorem keeps_loadBody {s0 s : State} (n w pc : Nat) (hk : Keeps s0 s) : KeepsI s0 (loadBody n s w pc) := by
  have ho := keeps_tileOperands n w 0 hk
  dsimp only [loadBody]
  split
  · next e => exact ho.1 _ e
  · next s1 t e =>
    have h1 : Keeps s0 s1 := ho.2 _ e
    repeat' first | (simp +contextual (maxDischargeDepth := 40) [h1]; done) | split

@[simp ↓] theorem keeps_execTload {s0 s : State} (n : Fin 32) (chk : FrondCheck) (hk : Keeps s0 s) : KeepsR s0 (execTload n chk s) := by
  dsimp only [execTload]
  repeat' first | (simp +contextual (maxDischargeDepth := 40) [hk]; done) | split

@[simp ↓] theorem keeps_execTloadComplete {s0 s : State} (n : Fin 32) (hk : Keeps s0 s) : KeepsR s0 (execTloadComplete n s) := by
  dsimp only [execTloadComplete]
  repeat' first | (simp +contextual (maxDischargeDepth := 40) [hk]; done) | split

theorem keeps_tileWrite {s0 s t : State} {n p a : Nat} {bs : List Byte} {bad : Bool} (e : s.tileWrite n p a bs bad = .ok t)
    (hk : Keeps s0 s) : Keeps s0 t := by
  unfold State.tileWrite at e
  split at e
  · cases e
  · cases e
  · next e' => cases e; exact keeps_bump _ _ (keeps_writeDva e' hk)

theorem keeps_tileWrites {s0 s t : State} {n p : Nat} {l : List (Nat × List Byte × Bool)} (e : s.tileWrites n p l = .ok t)
    (hk : Keeps s0 s) : Keeps s0 t := by
  induction l generalizing s with
  | nil => cases e; exact hk
  | cons x l ih =>
    rw [State.tileWrites] at e
    split at e
    · cases e
    · next e' => exact ih e (keeps_tileWrite e' hk)

theorem keeps_storeGroup {s0 s t : State} {n p r k : Nat} {x : Tile} (e : s.storeGroup n p x r k = .ok t) (hk : Keeps s0 s) :
    Keeps s0 t := by
  dsimp only [State.storeGroup] at e
  split at e
  · cases e
  · cases e; exact hk
  · split at e
    · cases e
    · next e' =>
      have h1 := keeps_tileWrites e' hk
      split at e
      · cases e; simp (maxDischargeDepth := 40) [h1]
      · cases e; simp (maxDischargeDepth := 40) [h1]

@[simp ↓] theorem keeps_storeGroups {s0 s : State} (n p : Nat) (x : Tile) (l : List (Nat × Nat)) (hk : Keeps s0 s) :
    Keeps s0 (s.storeGroups n p x l).1 := by
  induction l generalizing s with
  | nil => exact hk
  | cons y l ih =>
    rw [State.storeGroups]
    split
    · exact hk
    · next e => exact ih (keeps_storeGroup e hk)

set_option maxHeartbeats 1000000 in
@[simp ↓] theorem keeps_storeBody {s0 s : State} (n w pc : Nat) (hk : Keeps s0 s) : KeepsI s0 (storeBody n s w pc) := by
  have ho := keeps_tileOperands n w 1 hk
  dsimp only [storeBody]
  split
  · next e => exact ho.1 _ e
  · next s1 t e =>
    have h1 : Keeps s0 s1 := ho.2 _ e
    repeat' first | (simp +contextual (maxDischargeDepth := 40) [h1]; done) | split

@[simp ↓] theorem keeps_execTstore {s0 s : State} (n : Fin 32) (chk : FrondCheck) (hk : Keeps s0 s) : KeepsR s0 (execTstore n chk s) := by
  dsimp only [execTstore]
  repeat' first | (simp +contextual (maxDischargeDepth := 40) [hk]; done) | split

@[simp ↓] theorem keeps_execTstoreComplete {s0 s : State} (n : Fin 32) (hk : Keeps s0 s) : KeepsR s0 (execTstoreComplete n s) := by
  dsimp only [execTstoreComplete]
  repeat' first | (simp +contextual (maxDischargeDepth := 40) [hk]; done) | split

@[simp ↓] theorem keeps_macAdd {s0 s : State} (a : Nat) (pt : Option Nat) (macs : Nat) (hk : Keeps s0 s) : Keeps s0 (s.macAdd a pt macs) := by
  dsimp only [State.macAdd]
  repeat' first | (simp +contextual (maxDischargeDepth := 40) [hk]; done) | split

@[simp ↓] theorem keeps_mmaCount {s0 s : State} (n p : Nat) (i : MmaWord) (hk : Keeps s0 s) : Keeps s0 (s.mmaCount n p i) := by
  dsimp only [State.mmaCount]
  repeat' first | (simp +contextual (maxDischargeDepth := 40) [hk]; done) | split

@[simp ↓] theorem keeps_mmaBody {s0 s : State} (n : Nat) (w pc : Nat) (hk : Keeps s0 s) : KeepsI s0 (mmaBody n s w pc) := by
  dsimp only [mmaBody]
  repeat' first | (simp +contextual (maxDischargeDepth := 40) [hk]; done) | (have hw := keeps_of_snd (by assumption) (by simp +contextual (maxDischargeDepth := 40) [hk] : Keeps s0 _); simp +contextual (maxDischargeDepth := 40) [hw, hk]; done) | (have hw := keeps_of_fst (by assumption) (by simp +contextual (maxDischargeDepth := 40) [hk] : Keeps s0 _); simp +contextual (maxDischargeDepth := 40) [hw, hk]; done) | split

@[simp ↓] theorem keeps_execMma {s0 s : State} (n : Fin 32) (chk : FrondCheck) (hk : Keeps s0 s) : KeepsR s0 (execMma n chk s) := by
  dsimp only [execMma]
  repeat' first | (simp +contextual (maxDischargeDepth := 40) [hk]; done) | split

@[simp ↓] theorem keeps_execMmaComplete {s0 s : State} (n : Fin 32) (hk : Keeps s0 s) : KeepsR s0 (execMmaComplete n s) := by
  dsimp only [execMmaComplete]
  repeat' first | (simp +contextual (maxDischargeDepth := 40) [hk]; done) | split

@[simp ↓] theorem keeps_tclrBody {s0 s : State} (n : Nat) (w pc : Nat) (hk : Keeps s0 s) : KeepsI s0 (tclrBody n s w pc) := by
  dsimp only [tclrBody]
  repeat' first | (simp +contextual (maxDischargeDepth := 40) [hk, ‹Keeps s0 _›]; done) | refine keeps_foldl _ ?_ fun _ _ _ => ?_ | split

@[simp ↓] theorem keeps_execTclr {s0 s : State} (n : Fin 32) (chk : FrondCheck) (hk : Keeps s0 s) : KeepsR s0 (execTclr n chk s) := by
  dsimp only [execTclr]
  repeat' first | (simp +contextual (maxDischargeDepth := 40) [hk]; done) | split

end Sys2Proof.Machine
end

