-- ==== Sys2Proof/Laws/KeepsFrondSync.lean ====
section
/-! SUPPORT. Sys2Proof/Laws/KeepsFrondSync.lean: what the operations of Machine/FrondSync.lean keep. -/

namespace Sys2Proof.Machine

set_option linter.unusedSimpArgs false
set_option linter.unusedTactic false
set_option linter.unreachableTactic false

@[simp ↓] theorem keeps_countSync {s0 s : State} (n : Nat) (hk : Keeps s0 s) : Keeps s0 (s.countSync n) := by
  dsimp only [State.countSync]
  repeat' first | (simp +contextual (maxDischargeDepth := 40) [hk]; done) | split

@[simp ↓] theorem keeps_pushRelease {s0 s : State} (n : Nat) (op : FlagOp) (dev : Option Nat) (hk : Keeps s0 s) : Keeps s0 (s.pushRelease n op dev) := by
  dsimp only [State.pushRelease]
  repeat' first | (simp +contextual (maxDischargeDepth := 40) [hk]; done) | split

@[simp ↓] theorem keeps_signalBody {s0 s : State} (n : Nat) (w pc : Nat) (hk : Keeps s0 s) : KeepsI s0 (signalBody n s w pc) := by
  dsimp only [signalBody]
  repeat' first | (simp +contextual (maxDischargeDepth := 40) [hk]; done) | split

@[simp ↓] theorem keeps_execFrondSignal {s0 s : State} (n : Fin 32) (chk : FrondCheck) (hk : Keeps s0 s) : KeepsR s0 (execFrondSignal n chk s) := by
  dsimp only [execFrondSignal]
  repeat' first | (simp +contextual (maxDischargeDepth := 40) [hk]; done) | split

@[simp ↓] theorem keeps_waitBody {s0 s : State} (n : Nat) (w pc : Nat) (hk : Keeps s0 s) : KeepsI s0 (waitBody n s w pc) := by
  dsimp only [waitBody]
  repeat' first | (simp +contextual (maxDischargeDepth := 40) [hk]; done) | split

@[simp ↓] theorem keeps_execFrondWait {s0 s : State} (n : Fin 32) (chk : FrondCheck) (hk : Keeps s0 s) : KeepsR s0 (execFrondWait n chk s) := by
  dsimp only [execFrondWait]
  repeat' first | (simp +contextual (maxDischargeDepth := 40) [hk]; done) | split

@[simp ↓] theorem keeps_fsetBody {s0 s : State} (n : Nat) (w pc : Nat) (hk : Keeps s0 s) : KeepsI s0 (fsetBody n s w pc) := by
  dsimp only [fsetBody]
  repeat' first | (simp +contextual (maxDischargeDepth := 40) [hk]; done) | split

@[simp ↓] theorem keeps_execFset {s0 s : State} (n : Fin 32) (chk : FrondCheck) (hk : Keeps s0 s) : KeepsR s0 (execFset n chk s) := by
  dsimp only [execFset]
  repeat' first | (simp +contextual (maxDischargeDepth := 40) [hk]; done) | split

@[simp ↓] theorem keeps_freadBody {s0 s : State} (n : Nat) (w pc : Nat) (hk : Keeps s0 s) : KeepsI s0 (freadBody n s w pc) := by
  dsimp only [freadBody]
  repeat' first | (simp +contextual (maxDischargeDepth := 40) [hk]; done) | split

@[simp ↓] theorem keeps_execFread {s0 s : State} (n : Fin 32) (chk : FrondCheck) (hk : Keeps s0 s) : KeepsR s0 (execFread n chk s) := by
  dsimp only [execFread]
  repeat' first | (simp +contextual (maxDischargeDepth := 40) [hk]; done) | split

@[simp ↓] theorem keeps_fenceBody {s0 s : State} (n : Nat) (w pc : Nat) (hk : Keeps s0 s) : KeepsI s0 (fenceBody n s w pc) := by
  dsimp only [fenceBody]
  repeat' first | (simp +contextual (maxDischargeDepth := 40) [hk]; done) | split

@[simp ↓] theorem keeps_execFrondFence {s0 s : State} (n : Fin 32) (chk : FrondCheck) (hk : Keeps s0 s) : KeepsR s0 (execFrondFence n chk s) := by
  dsimp only [execFrondFence]
  repeat' first | (simp +contextual (maxDischargeDepth := 40) [hk]; done) | split

end Sys2Proof.Machine
end

