-- ==== Sys2Proof/Laws/KeepsIngress.lean ====
section
/-! SUPPORT. Sys2Proof/Laws/KeepsIngress.lean: what the operations of Machine/Ingress.lean keep. -/

namespace Sys2Proof.Machine

set_option linter.unusedSimpArgs false
set_option linter.unusedTactic false
set_option linter.unreachableTactic false

@[simp ↓] theorem keeps_csiPortErr {s0 s : State} (n code : Nat) (hk : Keeps s0 s) : Keeps s0 (s.csiPortErr n code) := by
  dsimp only [State.csiPortErr]
  repeat' first | (simp +contextual (maxDischargeDepth := 40) [hk]; done) | split

@[simp ↓] theorem keeps_csiCount {s0 s : State} (n code : Nat) (hk : Keeps s0 s) : Keeps s0 (s.csiCount n code) := by
  dsimp only [State.csiCount]
  repeat' first | (simp +contextual (maxDischargeDepth := 40) [hk]; done) | split

@[simp ↓] theorem keeps_stErr {s0 s : State} (m p code : Nat) (info : Nat) (hk : Keeps s0 s) : Keeps s0 (s.stErr m p code info) := by
  dsimp only [State.stErr]
  repeat' first | (simp +contextual (maxDischargeDepth := 40) [hk]; done) | split

@[simp ↓] theorem keeps_stApply {s0 s : State} (m : Nat) (hk : Keeps s0 s) : Keeps s0 (s.stApply m) := by
  dsimp only [State.stApply]
  repeat' first | (simp +contextual (maxDischargeDepth := 40) [hk]; done) | split

@[simp ↓] theorem keeps_stDisable {s0 s : State} (m : Nat) (hk : Keeps s0 s) : Keeps s0 (s.stDisable m) := by
  dsimp only [State.stDisable]
  repeat' first | (simp +contextual (maxDischargeDepth := 40) [hk]; done) | split

@[simp ↓] theorem keeps_execStreamRegWrite {s0 s : State} (m : Fin 48) (reg : ShadowReg) (value : BitVec 32) (hk : Keeps s0 s) : KeepsR s0 (execStreamRegWrite m reg value s) := by
  dsimp only [execStreamRegWrite]
  repeat' first | (simp +contextual (maxDischargeDepth := 40) [hk]; done) | split

@[simp ↓] theorem keeps_frameEndTrigger {s0 s : State} (m : Nat) (hk : Keeps s0 s) : Keeps s0 (s.frameEndTrigger m) := by
  dsimp only [State.frameEndTrigger]
  repeat' first | (simp +contextual (maxDischargeDepth := 40) [hk, ‹Keeps s0 _›]; done) | refine keeps_foldl _ ?_ fun _ _ _ => ?_ | split

@[simp ↓] theorem keeps_frameClose {s0 s : State} (m : Nat) (f : OpenFrame) (r : SealResult) (code : Nat) (hk : Keeps s0 s) : Keeps s0 (s.frameClose m f r code) := by
  dsimp only [State.frameClose]
  repeat' first | (simp +contextual (maxDischargeDepth := 40) [hk]; done) | (have hw := keeps_writeDva (by assumption) (by simp +contextual (maxDischargeDepth := 40) [hk] : Keeps s0 _); simp +contextual (maxDischargeDepth := 40) [hw]; done) | split

@[simp ↓] theorem keeps_ispIngressAbort {s0 s : State} (m : Nat) (f : OpenFrame) (code : Nat) (hk : Keeps s0 s) : Keeps s0 (s.ispIngressAbort m f code) := by
  dsimp only [State.ispIngressAbort]
  repeat' first | (simp +contextual (maxDischargeDepth := 40) [hk]; done) | (have hw := keeps_of_snd (by assumption) (by simp +contextual (maxDischargeDepth := 40) [hk] : Keeps s0 _); simp +contextual (maxDischargeDepth := 40) [hw, hk]; done) | (have hw := keeps_of_fst (by assumption) (by simp +contextual (maxDischargeDepth := 40) [hk] : Keeps s0 _); simp +contextual (maxDischargeDepth := 40) [hw, hk]; done) | split

@[simp ↓] theorem keeps_frameFault {s0 s : State} (m : Nat) (codes : List Nat) (rest : Bool) (hk : Keeps s0 s) : Keeps s0 (s.frameFault m codes rest) := by
  dsimp only [State.frameFault]
  repeat' first | (simp +contextual (maxDischargeDepth := 40) [hk, ‹Keeps s0 _›]; done) | refine keeps_foldl _ ?_ fun _ _ _ => ?_ | split

@[simp ↓] theorem keeps_portFault {s0 s : State} (n code : Nat) (hk : Keeps s0 s) : Keeps s0 (s.portFault n code) := by
  dsimp only [State.portFault]
  repeat' first | (simp +contextual (maxDischargeDepth := 40) [hk, ‹Keeps s0 _›]; done) | refine keeps_foldl _ ?_ fun _ _ _ => ?_ | split

@[simp ↓] theorem keeps_execCsiCtrlWrite {s0 s : State} (n : Fin 12) (value : BitVec 32) (hk : Keeps s0 s) : KeepsR s0 (execCsiCtrlWrite n value s) := by
  dsimp only [execCsiCtrlWrite]
  repeat' first | (simp +contextual (maxDischargeDepth := 40) [hk]; done) | split

@[simp ↓] theorem keeps_execCsiCalibrationComplete {s0 s : State} (n : Fin 12) (hk : Keeps s0 s) : KeepsR s0 (execCsiCalibrationComplete n s) := by
  dsimp only [execCsiCalibrationComplete]
  repeat' first | (simp +contextual (maxDischargeDepth := 40) [hk]; done) | split

@[simp ↓] theorem keeps_execLaneLockFailure {s0 s : State} (n : Fin 12) (hk : Keeps s0 s) : KeepsR s0 (execLaneLockFailure n s) := by
  dsimp only [execLaneLockFailure]
  repeat' first | (simp +contextual (maxDischargeDepth := 40) [hk]; done) | split

@[simp ↓] theorem keeps_execUlpsTransition {s0 s : State} (n : Fin 12) (lane : Fin 4) (enter : Bool) (hk : Keeps s0 s) : KeepsR s0 (execUlpsTransition n lane enter s) := by
  dsimp only [execUlpsTransition]
  repeat' first | (simp +contextual (maxDischargeDepth := 40) [hk]; done) | split

@[simp ↓] theorem keeps_memLine {s0 s : State} (m : Nat) (f : OpenFrame) (row : Nat) (line : List Byte) (bad : Bool) (hk : Keeps s0 s) : Keeps s0 (s.memLine m f row line bad) := by
  dsimp only [State.memLine]
  repeat' first | (simp +contextual (maxDischargeDepth := 40) [hk]; done) | (have hw := keeps_writeDva (by assumption) (by simp +contextual (maxDischargeDepth := 40) [hk] : Keeps s0 _); simp +contextual (maxDischargeDepth := 40) [hw]; done) | split

@[simp ↓] theorem keeps_forward {s0 s : State} (m : Nat) (f : OpenFrame) (row : Nat) (line : List Byte) (bad : Bool) (hk : Keeps s0 s) : Keeps s0 (s.forward m f row line bad) := by
  dsimp only [State.forward]
  repeat' first | (simp +contextual (maxDischargeDepth := 40) [hk]; done) | (have hw := keeps_of_snd (by assumption) (by simp +contextual (maxDischargeDepth := 40) [hk] : Keeps s0 _); simp +contextual (maxDischargeDepth := 40) [hw, hk]; done) | (have hw := keeps_of_fst (by assumption) (by simp +contextual (maxDischargeDepth := 40) [hk] : Keeps s0 _); simp +contextual (maxDischargeDepth := 40) [hw, hk]; done) | split

@[simp ↓] theorem keeps_longPacket {s0 s : State} (m : Nat) (f : OpenFrame) (image : Bool) (payload : List Byte) (chk : PktCheck) (hk : Keeps s0 s) : Keeps s0 (s.longPacket m f image payload chk) := by
  dsimp only [State.longPacket]
  repeat' first | (simp +contextual (maxDischargeDepth := 40) [hk, ‹Keeps s0 _›]; done) | refine keeps_foldl _ ?_ fun _ _ _ => ?_ | split

@[simp ↓] theorem keeps_execLongPacket {s0 s : State} (n : Fin 12) (vc : Fin 32) (dt : BitVec 6) (payload : List Byte) (chk : PktCheck) (hk : Keeps s0 s) : KeepsR s0 (execLongPacket n vc dt payload chk s) := by
  dsimp only [execLongPacket]
  repeat' first | (simp +contextual (maxDischargeDepth := 40) [hk]; done) | split

@[simp ↓] theorem keeps_noArmed {s0 s : State} (m : Nat) (hk : Keeps s0 s) : Keeps s0 (s.noArmed m) := by
  dsimp only [State.noArmed]
  repeat' first | (simp +contextual (maxDischargeDepth := 40) [hk, ‹Keeps s0 _›]; done) | refine keeps_foldl _ ?_ fun _ _ _ => ?_ | split

@[simp ↓] theorem keeps_frameStartTrigger {s0 s : State} (m : Nat) (bound : Option Nat) (hk : Keeps s0 s) : Keeps s0 (s.frameStartTrigger m bound) := by
  dsimp only [State.frameStartTrigger]
  repeat' first | (simp +contextual (maxDischargeDepth := 40) [hk, ‹Keeps s0 _›]; done) | refine keeps_foldl _ ?_ fun _ _ _ => ?_ | split

@[simp ↓] theorem keeps_ingressOut {s0 s : State} (p : Nat) (launch : List Byte) (hk : Keeps s0 s) : Keeps s0 (s.ingressOut p launch).2 := by
  dsimp only [State.ingressOut]
  repeat' first | (simp +contextual (maxDischargeDepth := 40) [hk]; done) | (have hw := keeps_of_snd (by assumption) (by simp +contextual (maxDischargeDepth := 40) [hk] : Keeps s0 _); simp +contextual (maxDischargeDepth := 40) [hw, hk]; done) | (have hw := keeps_of_fst (by assumption) (by simp +contextual (maxDischargeDepth := 40) [hk] : Keeps s0 _); simp +contextual (maxDischargeDepth := 40) [hw, hk]; done) | split

@[simp ↓] theorem keeps_frameDrop {s0 s : State} (m p code : Nat) (hk : Keeps s0 s) : Keeps s0 (s.frameDrop m p code) := by
  dsimp only [State.frameDrop]
  repeat' first | (simp +contextual (maxDischargeDepth := 40) [hk]; done) | split

@[simp ↓] theorem keeps_frameGap {s0 s : State} (m p : Nat) (num : Option (Nat × Nat)) (hk : Keeps s0 s) : Keeps s0 (s.frameGap m p num) := by
  dsimp only [State.frameGap]
  repeat' first | (simp +contextual (maxDischargeDepth := 40) [hk]; done) | (have hw := keeps_of_snd (by assumption) (by simp +contextual (maxDischargeDepth := 40) [hk] : Keeps s0 _); simp +contextual (maxDischargeDepth := 40) [hw, hk]; done) | (have hw := keeps_of_fst (by assumption) (by simp +contextual (maxDischargeDepth := 40) [hk] : Keeps s0 _); simp +contextual (maxDischargeDepth := 40) [hw, hk]; done) | split

@[simp ↓] theorem keeps_frameAccept {s0 s : State} (m fnum : Nat) (r : NodeRef) (told : Option (Nat × Nat)) (num : Option (Nat × Nat)) (hk : Keeps s0 s) : Keeps s0 (s.frameAccept m fnum r told num) := by
  dsimp only [State.frameAccept]
  repeat' first | (simp +contextual (maxDischargeDepth := 40) [hk]; done) | (have hw := keeps_of_snd (by assumption) (by simp +contextual (maxDischargeDepth := 40) [hk] : Keeps s0 _); simp +contextual (maxDischargeDepth := 40) [hw, hk]; done) | (have hw := keeps_of_fst (by assumption) (by simp +contextual (maxDischargeDepth := 40) [hk] : Keeps s0 _); simp +contextual (maxDischargeDepth := 40) [hw, hk]; done) | split

@[simp ↓] theorem keeps_frameCut {s0 s : State} (m : Nat) (hk : Keeps s0 s) : Keeps s0 (s.frameCut m) := by
  dsimp only [State.frameCut]
  repeat' first | (simp +contextual (maxDischargeDepth := 40) [hk]; done) | split

@[simp ↓] theorem keeps_frameShut {s0 s : State} (m : Nat) (hk : Keeps s0 s) : Keeps s0 (s.frameShut m) := by
  dsimp only [State.frameShut]
  repeat' first | (simp +contextual (maxDischargeDepth := 40) [hk]; done) | split

@[simp ↓] theorem keeps_frameStart {s0 s : State} (m fnum : Nat) (hk : Keeps s0 s) : Keeps s0 (s.frameStart m fnum) := by
  dsimp only [State.frameStart]
  repeat' first | (simp +contextual (maxDischargeDepth := 40) [hk]; done) | (have hw := keeps_of_snd (by assumption) (by simp +contextual (maxDischargeDepth := 40) [hk] : Keeps s0 _); simp +contextual (maxDischargeDepth := 40) [hw, hk]; done) | (have hw := keeps_of_fst (by assumption) (by simp +contextual (maxDischargeDepth := 40) [hk] : Keeps s0 _); simp +contextual (maxDischargeDepth := 40) [hw, hk]; done) | split

@[simp ↓] theorem keeps_execFrameStart {s0 s : State} (n : Fin 12) (vc : Fin 32) (fnum : BitVec 16) (hk : Keeps s0 s) : KeepsR s0 (execFrameStart n vc fnum s) := by
  dsimp only [execFrameStart]
  repeat' first | (simp +contextual (maxDischargeDepth := 40) [hk, ‹Keeps s0 _›]; done) | refine keeps_foldl _ ?_ fun _ _ _ => ?_ | split

@[simp ↓] theorem keeps_frameEnd {s0 s : State} (m : Nat) (hk : Keeps s0 s) : Keeps s0 (s.frameEnd m) := by
  dsimp only [State.frameEnd]
  repeat' first | (simp +contextual (maxDischargeDepth := 40) [hk, ‹Keeps s0 _›]; done) | refine keeps_foldl _ ?_ fun _ _ _ => ?_ | split

@[simp ↓] theorem keeps_execFrameEnd {s0 s : State} (n : Fin 12) (vc : Fin 32) (hk : Keeps s0 s) : KeepsR s0 (execFrameEnd n vc s) := by
  dsimp only [execFrameEnd]
  repeat' first | (simp +contextual (maxDischargeDepth := 40) [hk, ‹Keeps s0 _›]; done) | refine keeps_foldl _ ?_ fun _ _ _ => ?_ | split

@[simp ↓] theorem keeps_execFrameTimeout {s0 s : State} (m : Fin 48) (hk : Keeps s0 s) : KeepsR s0 (execFrameTimeout m s) := by
  dsimp only [execFrameTimeout]
  repeat' first | (simp +contextual (maxDischargeDepth := 40) [hk]; done) | split

@[simp ↓] theorem keeps_execRecRelease {s0 s : State} (m : Fin 48) (value : BitVec 32) (hk : Keeps s0 s) : KeepsR s0 (execRecRelease m value s) := by
  dsimp only [execRecRelease]
  repeat' first | (simp +contextual (maxDischargeDepth := 40) [hk]; done) | split

end Sys2Proof.Machine
end

