-- ==== Sys2Proof/Laws/KeepsMemory.lean ====
section
/-! SUPPORT. Sys2Proof/Laws/KeepsMemory.lean: what the operations of Machine/Memory.lean keep. -/

namespace Sys2Proof.Machine

set_option linter.unusedSimpArgs false
set_option linter.unusedTactic false
set_option linter.unreachableTactic false

@[simp ↓] theorem keeps_cacheStart {s0 s : State} (p op result : Nat) (hk : Keeps s0 s) : Keeps s0 (s.cacheStart p op result) := by
  dsimp only [State.cacheStart]
  repeat' first | (simp +contextual (maxDischargeDepth := 40) [hk]; done) | split

@[simp ↓] theorem keeps_execCleanRange {s0 s : State} (p : Fin 16) (hk : Keeps s0 s) : KeepsR s0 (execCleanRange p s) := by
  dsimp only [execCleanRange]
  repeat' first | (simp +contextual (maxDischargeDepth := 40) [hk]; done) | split

@[simp ↓] theorem keeps_execFlushRange {s0 s : State} (p : Fin 16) (hk : Keeps s0 s) : KeepsR s0 (execFlushRange p s) := by
  dsimp only [execFlushRange]
  repeat' first | (simp +contextual (maxDischargeDepth := 40) [hk]; done) | split

@[simp ↓] theorem keeps_execFlushAll {s0 s : State} (p : Fin 16) (hk : Keeps s0 s) : KeepsR s0 (execFlushAll p s) := by
  dsimp only [execFlushAll]
  repeat' first | (simp +contextual (maxDischargeDepth := 40) [hk]; done) | split

@[simp ↓] theorem keeps_execReleaseRetained {s0 s : State} (p : Fin 16) (hk : Keeps s0 s) : KeepsR s0 (execReleaseRetained p s) := by
  dsimp only [execReleaseRetained]
  repeat' first | (simp +contextual (maxDischargeDepth := 40) [hk]; done) | split

@[simp ↓] theorem keeps_execCacheCmdComplete {s0 s : State} (p : Fin 16) (hk : Keeps s0 s) : KeepsR s0 (execCacheCmdComplete p s) := by
  dsimp only [execCacheCmdComplete]
  repeat' first | (simp +contextual (maxDischargeDepth := 40) [hk]; done) | (have hw := keeps_of_snd (by assumption) (by simp +contextual (maxDischargeDepth := 40) [hk] : Keeps s0 _); simp +contextual (maxDischargeDepth := 40) [hw, hk]; done) | (have hw := keeps_of_fst (by assumption) (by simp +contextual (maxDischargeDepth := 40) [hk] : Keeps s0 _); simp +contextual (maxDischargeDepth := 40) [hw, hk]; done) | split

@[simp ↓] theorem keeps_xlatStart {s0 s : State} (p op : Nat) (hk : Keeps s0 s) : Keeps s0 (s.xlatStart p op) := by
  dsimp only [State.xlatStart]
  repeat' first | (simp +contextual (maxDischargeDepth := 40) [hk]; done) | split

@[simp ↓] theorem keeps_xlatStart2 {s0 s : State} (fn p op : Nat) (hk : Keeps s0 s) : Keeps s0 (s.xlatStart2 fn p op) := by
  dsimp only [State.xlatStart2]
  repeat' first | (simp +contextual (maxDischargeDepth := 40) [hk]; done) | split

@[simp ↓] theorem keeps_execS1All {s0 s : State} (p : Fin 16) (hk : Keeps s0 s) : KeepsR s0 (execS1All p s) := by
  dsimp only [execS1All]
  repeat' first | (simp +contextual (maxDischargeDepth := 40) [hk]; done) | split

@[simp ↓] theorem keeps_execS1Range {s0 s : State} (p : Fin 16) (hk : Keeps s0 s) : KeepsR s0 (execS1Range p s) := by
  dsimp only [execS1Range]
  repeat' first | (simp +contextual (maxDischargeDepth := 40) [hk]; done) | split

@[simp ↓] theorem keeps_execS2All {s0 s : State} (fn p : Fin 16) (hk : Keeps s0 s) : KeepsR s0 (execS2All fn p s) := by
  dsimp only [execS2All]
  repeat' first | (simp +contextual (maxDischargeDepth := 40) [hk]; done) | split

@[simp ↓] theorem keeps_execS2Range {s0 s : State} (fn p : Fin 16) (hk : Keeps s0 s) : KeepsR s0 (execS2Range fn p s) := by
  dsimp only [execS2Range]
  repeat' first | (simp +contextual (maxDischargeDepth := 40) [hk]; done) | split

@[simp ↓] theorem keeps_execXlatCmdComplete {s0 s : State} (p : Fin 16) (hk : Keeps s0 s) : KeepsR s0 (execXlatCmdComplete p s) := by
  dsimp only [execXlatCmdComplete]
  repeat' first | (simp +contextual (maxDischargeDepth := 40) [hk]; done) | split

@[simp ↓] theorem keeps_execWaysWrite {s0 s : State} (fn p : Fin 16) (value : BitVec 32) (hk : Keeps s0 s) : KeepsR s0 (execWaysWrite fn p value s) := by
  dsimp only [execWaysWrite]
  repeat' first | (simp +contextual (maxDischargeDepth := 40) [hk]; done) | split

@[simp ↓] theorem keeps_execPasrWrite {s0 s : State} (value : BitVec 32) (hk : Keeps s0 s) : KeepsR s0 (execPasrWrite value s) := by
  dsimp only [execPasrWrite]
  repeat' first | (simp +contextual (maxDischargeDepth := 40) [hk]; done) | split

@[simp ↓] theorem keeps_latchPoison {s0 s : State} (pa code p ch : Nat) (hk : Keeps s0 s) : Keeps s0 (s.latchPoison pa code p ch) := by
  dsimp only [State.latchPoison]
  repeat' first | (simp +contextual (maxDischargeDepth := 40) [hk]; done) | split

@[simp ↓] theorem keeps_fillError {s0 s : State} (pa code cnt p ch : Nat) (rep : UnitId) (hk : Keeps s0 s) : Keeps s0 (s.fillError pa code cnt p ch rep) := by
  dsimp only [State.fillError]
  repeat' first | (simp +contextual (maxDischargeDepth := 40) [hk]; done) | split

@[simp ↓] theorem keeps_poisonGran {s0 s : State} (g : Nat) (hk : Keeps s0 s) : Keeps s0 (s.poisonGran g) := by
  dsimp only [State.poisonGran]
  repeat' first | (simp +contextual (maxDischargeDepth := 40) [hk]; done) | split

@[simp ↓] theorem keeps_execCacheFill {s0 s : State} (p : Fin 16) (reader : AgentClass) (inst : Fin 256) (pa : BitVec 48) (check : FillCheck) (hk : Keeps s0 s) : KeepsR s0 (execCacheFill p reader inst pa check s) := by
  dsimp only [execCacheFill]
  repeat' first | (simp +contextual (maxDischargeDepth := 40) [hk]; done) | split

@[simp ↓] theorem keeps_execImbalanceWindow {s0 s : State} (total : Nat) (busiest : Fin 32) (busyCount : Nat) (pt : Fin 16) (hk : Keeps s0 s) : KeepsR s0 (execImbalanceWindow total busiest busyCount pt s) := by
  dsimp only [execImbalanceWindow]
  repeat' first | (simp +contextual (maxDischargeDepth := 40) [hk]; done) | split

@[simp ↓] theorem keeps_execMr4Poll {s0 s : State} (tempC : Fin 256) (channel : Fin 32) (hk : Keeps s0 s) : KeepsR s0 (execMr4Poll tempC channel s) := by
  dsimp only [execMr4Poll]
  repeat' first | (simp +contextual (maxDischargeDepth := 40) [hk]; done) | split

end Sys2Proof.Machine
end

