-- ==== Sys2Proof/Laws/KeepsMgmt.lean ====
section
/-! SUPPORT. Sys2Proof/Laws/KeepsMgmt.lean: what the operations of Machine/Mgmt.lean keep. -/

namespace Sys2Proof.Machine

set_option linter.unusedSimpArgs false
set_option linter.unusedTactic false
set_option linter.unreachableTactic false

@[simp ↓] theorem keeps_frameTag {s0 s : State} (b : List Byte) (hk : Keeps s0 s) : Keeps s0 (s.frameTag b).2 := by
  dsimp only [State.frameTag]
  repeat' first | (simp +contextual (maxDischargeDepth := 40) [hk]; done) | split

@[simp ↓] theorem keeps_answer {s0 s : State} (r : List Byte) (code : Nat) (payload : List Byte) (hk : Keeps s0 s) : Keeps s0 (s.answer r code payload) := by
  dsimp only [State.answer]
  repeat' first | (simp +contextual (maxDischargeDepth := 40) [hk]; done) | split

@[simp ↓] theorem keeps_execFrameWrite {s0 s : State} (frame : List Byte) (hk : Keeps s0 s) : KeepsR s0 (execFrameWrite frame s) := by
  dsimp only [execFrameWrite]
  repeat' first | (simp +contextual (maxDischargeDepth := 40) [hk]; done) | split

@[simp ↓] theorem keeps_execStatusRead {s0 s : State}  (hk : Keeps s0 s) : KeepsR s0 (execStatusRead s) := by
  dsimp only [execStatusRead]
  repeat' first | (simp +contextual (maxDischargeDepth := 40) [hk]; done) | split

@[simp ↓] theorem keeps_execResponseRead {s0 s : State} (whole : Bool) (hk : Keeps s0 s) : KeepsR s0 (execResponseRead whole s) := by
  dsimp only [execResponseRead]
  repeat' first | (simp +contextual (maxDischargeDepth := 40) [hk]; done) | split

@[simp ↓] theorem keeps_sessionEnd {s0 s : State}  (hk : Keeps s0 s) : Keeps s0 s.sessionEnd := by
  dsimp only [State.sessionEnd]
  repeat' first | (simp +contextual (maxDischargeDepth := 40) [hk]; done) | split

@[simp ↓] theorem keeps_authRefuse {s0 s : State} (r : List Byte) (code : Nat) (hk : Keeps s0 s) : Keeps s0 (s.authRefuse r code) := by
  dsimp only [State.authRefuse]
  repeat' first | (simp +contextual (maxDischargeDepth := 40) [hk]; done) | split

@[simp ↓] theorem keeps_mgtRun {s0 s : State} (cmd : Nat) (sel : List Byte → Bool) (dead : Bool) (f : State → List Byte → MgtRes)
    (hk : Keeps s0 s) (hf : ∀ t b, Keeps s0 t → Keeps s0 (f t b).1) : Keeps s0 (s.mgtRun cmd sel dead f) := by
  dsimp only [State.mgtRun]
  split
  · exact hk
  · next r _ =>
    refine keeps_ite (fun _ => hk) fun _ => keeps_ite (fun _ => keeps_authRefuse _ _ hk) fun _ => keeps_ite (fun _ => hk) fun _ =>
      keeps_ite (fun _ => keeps_answer _ _ _ hk) fun _ => ?_
    simp +contextual (maxDischargeDepth := 40) [hk, hf]

@[simp ↓] theorem keeps_targetRefused {s0 s : State} (code : Nat) (hk : Keeps s0 s) : Keeps s0 (targetRefused s code).1 := by
  dsimp only [targetRefused]
  repeat' first | (simp +contextual (maxDischargeDepth := 40) [hk]; done) | split

@[simp ↓] theorem keeps_execGetInfo {s0 s : State}  (hk : Keeps s0 s) : KeepsR s0 (execGetInfo s) := by
  dsimp only [execGetInfo]
  repeat' first | (simp +contextual (maxDischargeDepth := 40) [hk]; done) | split

@[simp ↓] theorem keeps_execGetStatus {s0 s : State}  (hk : Keeps s0 s) : KeepsR s0 (execGetStatus s) := by
  dsimp only [execGetStatus]
  repeat' first | (simp +contextual (maxDischargeDepth := 40) [hk]; done) | split

@[simp ↓] theorem keeps_execGetEvent {s0 s : State} (hk : Keeps s0 s) : KeepsR s0 (execGetEvent s) := by
  refine keepsR_next (keeps_mgtRun _ _ _ _ hk fun t _ ht => ?_)
  dsimp only
  split
  · exact ht
  · split
    · exact keeps_mk ht
    · exact keeps_mgtPush _ _ (keeps_mk ht)

@[simp ↓] theorem keeps_execGetTime {s0 s : State}  (hk : Keeps s0 s) : KeepsR s0 (execGetTime s) := by
  dsimp only [execGetTime]
  repeat' first | (simp +contextual (maxDischargeDepth := 40) [hk]; done) | split

@[simp ↓] theorem keeps_execGetErrors {s0 s : State}  (hk : Keeps s0 s) : KeepsR s0 (execGetErrors s) := by
  dsimp only [execGetErrors]
  repeat' first | (simp +contextual (maxDischargeDepth := 40) [hk]; done) | split

@[simp ↓] theorem keeps_execGetAttest {s0 s : State}  (hk : Keeps s0 s) : KeepsR s0 (execGetAttest s) := by
  dsimp only [execGetAttest]
  repeat' first | (simp +contextual (maxDischargeDepth := 40) [hk]; done) | split

@[simp ↓] theorem keeps_execAuthOpen {s0 s : State}  (hk : Keeps s0 s) : KeepsR s0 (execAuthOpen s) := by
  dsimp only [execAuthOpen]
  repeat' first | (simp +contextual (maxDischargeDepth := 40) [hk]; done) | split

@[simp ↓] theorem keeps_execAuthFinish {s0 s : State} (hk : Keeps s0 s) : KeepsR s0 (execAuthFinish s) := by
  refine keepsR_next (keeps_mgtRun _ _ _ _ hk fun t b ht => ?_)
  dsimp only
  split
  · exact ht
  · generalize ecdh _ _ = z
    split
    · exact keeps_mk ht
    · split
      · exact keeps_mk ht
      · exact keeps_mk ht

@[simp ↓] theorem keeps_execAuthClose {s0 s : State}  (hk : Keeps s0 s) : KeepsR s0 (execAuthClose s) := by
  dsimp only [execAuthClose]
  repeat' first | (simp +contextual (maxDischargeDepth := 40) [hk]; done) | split

@[simp ↓] theorem keeps_execAuthLockoutEnd {s0 s : State}  (hk : Keeps s0 s) : KeepsR s0 (execAuthLockoutEnd s) := by
  dsimp only [execAuthLockoutEnd]
  repeat' first | (simp +contextual (maxDischargeDepth := 40) [hk]; done) | split

@[simp ↓] theorem keeps_execSetRung {s0 s : State}  (hk : Keeps s0 s) : KeepsR s0 (execSetRung s) := by
  dsimp only [execSetRung]
  repeat' first | (simp +contextual (maxDischargeDepth := 40) [hk]; done) | split

@[simp ↓] theorem keeps_execSetPowerLimit {s0 s : State}  (hk : Keeps s0 s) : KeepsR s0 (execSetPowerLimit s) := by
  dsimp only [execSetPowerLimit]
  repeat' first | (simp +contextual (maxDischargeDepth := 40) [hk]; done) | split

@[simp ↓] theorem keeps_execSetAlertMask {s0 s : State}  (hk : Keeps s0 s) : KeepsR s0 (execSetAlertMask s) := by
  dsimp only [execSetAlertMask]
  repeat' first | (simp +contextual (maxDischargeDepth := 40) [hk]; done) | split

@[simp ↓] theorem keeps_execMgmtResetPartition {s0 s : State}  (hk : Keeps s0 s) : KeepsR s0 (execMgmtResetPartition s) := by
  dsimp only [execMgmtResetPartition]
  repeat' first | (simp +contextual (maxDischargeDepth := 40) [hk]; done) | split

@[simp ↓] theorem keeps_execMgmtResetDevice {s0 s : State} (straps : BitVec 12) (hk : Keeps s0 s) : KeepsR s0 (execMgmtResetDevice straps s) := by
  dsimp only [execMgmtResetDevice]
  repeat' first | (simp +contextual (maxDischargeDepth := 40) [hk]; done) | split

@[simp ↓] theorem keeps_execMgmtHoldTest {s0 s : State}  (hk : Keeps s0 s) : KeepsR s0 (execMgmtHoldTest s) := by
  dsimp only [execMgmtHoldTest]
  repeat' first | (simp +contextual (maxDischargeDepth := 40) [hk]; done) | split

end Sys2Proof.Machine
end

