-- ==== Sys2Proof/Laws/KeepsMover.lean ====
section
/-! SUPPORT. Sys2Proof/Laws/KeepsMover.lean: what the operations of Machine/Mover.lean keep. -/

namespace Sys2Proof.Machine

set_option linter.unusedSimpArgs false
set_option linter.unusedTactic false
set_option linter.unreachableTactic false

@[simp ↓] theorem keeps_execMovStart {s0 s : State} (ch : Fin 64) (hk : Keeps s0 s) : KeepsR s0 (execMovStart ch s) := by
  dsimp only [execMovStart]
  repeat' first | (simp +contextual (maxDischargeDepth := 40) [hk]; done) | split

@[simp ↓] theorem keeps_execMovAbort {s0 s : State} (ch : Fin 64) (hk : Keeps s0 s) : KeepsR s0 (execMovAbort ch s) := by
  dsimp only [execMovAbort]
  repeat' first | (simp +contextual (maxDischargeDepth := 40) [hk]; done) | split

@[simp ↓] theorem keeps_execMovResume {s0 s : State} (ch : Fin 64) (hk : Keeps s0 s) : KeepsR s0 (execMovResume ch s) := by
  dsimp only [execMovResume]
  repeat' first | (simp +contextual (maxDischargeDepth := 40) [hk]; done) | split

@[simp ↓] theorem keeps_execMovRingReset {s0 s : State} (ch : Fin 64) (hk : Keeps s0 s) : KeepsR s0 (execMovRingReset ch s) := by
  dsimp only [execMovRingReset]
  repeat' first | (simp +contextual (maxDischargeDepth := 40) [hk]; done) | split

@[simp ↓] theorem keeps_execMovMove {s0 s : State} (ch : Fin 64) (hk : Keeps s0 s) : KeepsR s0 (execMovMove ch s) := by
  dsimp only [execMovMove]
  repeat' first | (simp +contextual (maxDischargeDepth := 40) [hk]; done) | split

@[simp ↓] theorem keeps_execMovMovx {s0 s : State} (ch : Fin 64) (hk : Keeps s0 s) : KeepsR s0 (execMovMovx ch s) := by
  dsimp only [execMovMovx]
  repeat' first | (simp +contextual (maxDischargeDepth := 40) [hk]; done) | split

@[simp ↓] theorem keeps_execChLoop {s0 s : State} (ch : Fin 64) (hk : Keeps s0 s) : KeepsR s0 (execChLoop ch s) := by
  dsimp only [execChLoop]
  repeat' first | (simp +contextual (maxDischargeDepth := 40) [hk]; done) | split

@[simp ↓] theorem keeps_execChEndl {s0 s : State} (ch : Fin 64) (hk : Keeps s0 s) : KeepsR s0 (execChEndl ch s) := by
  dsimp only [execChEndl]
  repeat' first | (simp +contextual (maxDischargeDepth := 40) [hk]; done) | split

@[simp ↓] theorem keeps_execChWait {s0 s : State} (ch : Fin 64) (hk : Keeps s0 s) : KeepsR s0 (execChWait ch s) := by
  dsimp only [execChWait]
  repeat' first | (simp +contextual (maxDischargeDepth := 40) [hk]; done) | split

@[simp ↓] theorem keeps_execChSignal {s0 s : State} (ch : Fin 64) (hk : Keeps s0 s) : KeepsR s0 (execChSignal ch s) := by
  dsimp only [execChSignal]
  repeat' first | (simp +contextual (maxDischargeDepth := 40) [hk]; done) | split

@[simp ↓] theorem keeps_execChSetv {s0 s : State} (ch : Fin 64) (hk : Keeps s0 s) : KeepsR s0 (execChSetv ch s) := by
  dsimp only [execChSetv]
  repeat' first | (simp +contextual (maxDischargeDepth := 40) [hk]; done) | split

@[simp ↓] theorem keeps_execChHalt {s0 s : State} (ch : Fin 64) (hk : Keeps s0 s) : KeepsR s0 (execChHalt ch s) := by
  dsimp only [execChHalt]
  repeat' first | (simp +contextual (maxDischargeDepth := 40) [hk]; done) | split

@[simp ↓] theorem keeps_execMoverBeatIssue {s0 s : State} (m : Fin 4) (write : Bool) (hk : Keeps s0 s) : KeepsR s0 (execMoverBeatIssue m write s) := by
  dsimp only [execMoverBeatIssue]
  repeat' first | (simp +contextual (maxDischargeDepth := 40) [hk]; done) | split

@[simp ↓] theorem keeps_execMoverReadReturn {s0 s : State} (ch : Fin 64) (hk : Keeps s0 s) : KeepsR s0 (execMoverReadReturn ch s) := by
  dsimp only [execMoverReadReturn]
  repeat' first | (simp +contextual (maxDischargeDepth := 40) [hk]; done) | split

@[simp ↓] theorem keeps_execMoverWriteAck {s0 s : State} (ch : Fin 64) (hk : Keeps s0 s) : KeepsR s0 (execMoverWriteAck ch s) := by
  dsimp only [execMoverWriteAck]
  repeat' first | (simp +contextual (maxDischargeDepth := 40) [hk]; done) | split

@[simp ↓] theorem keeps_execMoverBusError {s0 s : State} (ch : Fin 64) (write : Bool) (hk : Keeps s0 s) : KeepsR s0 (execMoverBusError ch write s) := by
  dsimp only [execMoverBusError]
  repeat' first | (simp +contextual (maxDischargeDepth := 40) [hk]; done) | split

@[simp ↓] theorem keeps_execMoverRunComplete {s0 s : State} (ch : Fin 64) (hk : Keeps s0 s) : KeepsR s0 (execMoverRunComplete ch s) := by
  dsimp only [execMoverRunComplete]
  repeat' first | (simp +contextual (maxDischargeDepth := 40) [hk]; done) | split

@[simp ↓] theorem keeps_execChDoneSignal {s0 s : State} (ch : Fin 64) (hk : Keeps s0 s) : KeepsR s0 (execChDoneSignal ch s) := by
  dsimp only [execChDoneSignal]
  repeat' first | (simp +contextual (maxDischargeDepth := 40) [hk]; done) | split

@[simp ↓] theorem keeps_execChDrainRead {s0 s : State} (ch : Fin 64) (hk : Keeps s0 s) : KeepsR s0 (execChDrainRead ch s) := by
  dsimp only [execChDrainRead]
  repeat' first | (simp +contextual (maxDischargeDepth := 40) [hk]; done) | split

@[simp ↓] theorem keeps_execChDrainReturn {s0 s : State} (ch : Fin 64) (hk : Keeps s0 s) : KeepsR s0 (execChDrainReturn ch s) := by
  dsimp only [execChDrainReturn]
  repeat' first | (simp +contextual (maxDischargeDepth := 40) [hk]; done) | split

@[simp ↓] theorem keeps_execDrainTimeout {s0 s : State} (channel : Bool) (i : Fin 64) (hk : Keeps s0 s) : KeepsR s0 (execDrainTimeout channel i s) := by
  dsimp only [execDrainTimeout]
  repeat' first | (simp +contextual (maxDischargeDepth := 40) [hk]; done) | split

@[simp ↓] theorem keeps_execSporeSubmit {s0 s : State} (ch : Fin 64) (value : BitVec 32) (hk : Keeps s0 s) : KeepsR s0 (execSporeSubmit ch value s) := by
  dsimp only [execSporeSubmit]
  repeat' first | (simp +contextual (maxDischargeDepth := 40) [hk]; done) | split

@[simp ↓] theorem keeps_execSporeComplete {s0 s : State} (ch : Fin 64) (hk : Keeps s0 s) : KeepsR s0 (execSporeComplete ch s) := by
  dsimp only [execSporeComplete]
  repeat' first | (simp +contextual (maxDischargeDepth := 40) [hk]; done) | split

end Sys2Proof.Machine
end

