-- ==== Sys2Proof/Laws/KeepsReliab.lean ====
section
/-! SUPPORT. Sys2Proof/Laws/KeepsReliab.lean: what the operations of Machine/Reliab.lean keep. -/

namespace Sys2Proof.Machine

set_option linter.unusedSimpArgs false
set_option linter.unusedTactic false
set_option linter.unreachableTactic false

@[simp ↓] theorem keeps_execKakSliceDue {s0 s : State} (n : Fin 32) (hk : Keeps s0 s) : KeepsR s0 (execKakSliceDue n s) := by
  dsimp only [execKakSliceDue]
  repeat' first | (simp +contextual (maxDischargeDepth := 40) [hk]; done) | split

@[simp ↓] theorem keeps_execKakSliceStart {s0 s : State} (n : Fin 32) (hk : Keeps s0 s) : KeepsR s0 (execKakSliceStart n s) := by
  dsimp only [execKakSliceStart]
  repeat' first | (simp +contextual (maxDischargeDepth := 40) [hk]; done) | split

@[simp ↓] theorem keeps_execKakSliceEnd {s0 s : State} (n : Fin 32) (hk : Keeps s0 s) : KeepsR s0 (execKakSliceEnd n s) := by
  dsimp only [execKakSliceEnd]
  repeat' first | (simp +contextual (maxDischargeDepth := 40) [hk, ‹Keeps s0 _›]; done) | refine keeps_foldl _ ?_ fun _ _ _ => ?_ | split

@[simp ↓] theorem keeps_execKakVerdict {s0 s : State} (n : Fin 32) (pass : Bool) (hk : Keeps s0 s) : KeepsR s0 (execKakVerdict n pass s) := by
  dsimp only [execKakVerdict]
  repeat' first | (simp +contextual (maxDischargeDepth := 40) [hk]; done) | split

@[simp ↓] theorem keeps_fenceRefuse {s0 s : State} (n : Nat) (hk : Keeps s0 s) : Keeps s0 (s.fenceRefuse n) := by
  dsimp only [State.fenceRefuse]
  repeat' first | (simp +contextual (maxDischargeDepth := 40) [hk]; done) | split

@[simp ↓] theorem keeps_execFenceCmd {s0 s : State} (n : Fin 32) (hk : Keeps s0 s) : KeepsR s0 (execFenceCmd n s) := by
  dsimp only [execFenceCmd]
  repeat' first | (simp +contextual (maxDischargeDepth := 40) [hk]; done) | split

@[simp ↓] theorem keeps_execReadmitFrond {s0 s : State} (n : Fin 32) (hk : Keeps s0 s) : KeepsR s0 (execReadmitFrond n s) := by
  dsimp only [execReadmitFrond]
  repeat' first | (simp +contextual (maxDischargeDepth := 40) [hk]; done) | split

@[simp ↓] theorem keeps_execReadmitComplete {s0 s : State} (pass : Bool) (hk : Keeps s0 s) : KeepsR s0 (execReadmitComplete pass s) := by
  dsimp only [execReadmitComplete]
  repeat' first | (simp +contextual (maxDischargeDepth := 40) [hk]; done) | split

@[simp ↓] theorem keeps_execCeWindowBoundary {s0 s : State}  (hk : Keeps s0 s) : KeepsR s0 (execCeWindowBoundary s) := by
  dsimp only [execCeWindowBoundary]
  repeat' first | (simp +contextual (maxDischargeDepth := 40) [hk]; done) | split

@[simp ↓] theorem keeps_execClockMonitorFault {s0 s : State} (row : Fin 10) (hk : Keeps s0 s) : KeepsR s0 (execClockMonitorFault row s) := by
  dsimp only [execClockMonitorFault]
  repeat' first | (simp +contextual (maxDischargeDepth := 40) [hk]; done) | split

@[simp ↓] theorem keeps_execErrIrqTimer {s0 s : State} (p b : Fin 16) (hk : Keeps s0 s) : KeepsR s0 (execErrIrqTimer p b s) := by
  dsimp only [execErrIrqTimer]
  repeat' first | (simp +contextual (maxDischargeDepth := 40) [hk]; done) | split

@[simp ↓] theorem keeps_execLatchClear {s0 s : State} (p b : Fin 16) (hk : Keeps s0 s) : KeepsR s0 (execLatchClear p b s) := by
  dsimp only [execLatchClear]
  repeat' first | (simp +contextual (maxDischargeDepth := 40) [hk]; done) | split

end Sys2Proof.Machine
end

