-- ==== Sys2Proof/Laws/KeepsView.lean ====
section
/-! SUPPORT. Sys2Proof/Laws/KeepsView.lean: what the operations of Machine/View.lean keep. -/

namespace Sys2Proof.Machine

set_option linter.unusedSimpArgs false
set_option linter.unusedTactic false
set_option linter.unreachableTactic false

@[simp ↓] theorem keeps_lowRead {s0 s : State} (fn v : Nat) (P : Nat → Bool) (hk : Keeps s0 s) : Keeps s0 (s.lowRead fn v P) := by
  dsimp only [State.lowRead]
  repeat' first | (simp +contextual (maxDischargeDepth := 40) [hk]; done) | (have hw := keeps_of_snd (by assumption) (by simp +contextual (maxDischargeDepth := 40) [hk] : Keeps s0 _); simp +contextual (maxDischargeDepth := 40) [hw, hk]; done) | (have hw := keeps_of_fst (by assumption) (by simp +contextual (maxDischargeDepth := 40) [hk] : Keeps s0 _); simp +contextual (maxDischargeDepth := 40) [hw, hk]; done) | split

@[simp ↓] theorem keeps_execCounterLowRead {s0 s : State} (fn : Fin 16) (offset : BitVec 32) (hk : Keeps s0 s) : KeepsR s0 (execCounterLowRead fn offset s) := by
  dsimp only [execCounterLowRead]
  repeat' first | (simp +contextual (maxDischargeDepth := 40) [hk]; done) | split

@[simp ↓] theorem keeps_execDtNowLowRead {s0 s : State} (hi : Bool) (hk : Keeps s0 s) : KeepsR s0 (execDtNowLowRead hi s) := by
  dsimp only [execDtNowLowRead]
  repeat' first | (simp +contextual (maxDischargeDepth := 40) [hk]; done) | split

@[simp ↓] theorem keeps_execRcRead {s0 s : State} (fn : Fin 16) (offset : BitVec 32) (hk : Keeps s0 s) : KeepsR s0 (execRcRead fn offset s) := by
  dsimp only [execRcRead]
  repeat' first | (simp +contextual (maxDischargeDepth := 40) [hk]; done) | (have hw := keeps_of_snd (by assumption) (by simp +contextual (maxDischargeDepth := 40) [hk] : Keeps s0 _); simp +contextual (maxDischargeDepth := 40) [hw, hk]; done) | (have hw := keeps_of_fst (by assumption) (by simp +contextual (maxDischargeDepth := 40) [hk] : Keeps s0 _); simp +contextual (maxDischargeDepth := 40) [hw, hk]; done) | split

end Sys2Proof.Machine
end

