-- ==== Sys2Proof/Laws/KeepsRegWrite.lean ====
section
/-! SUPPORT. Sys2Proof/Laws/KeepsRegWrite.lean: what the operations of Machine/RegWrite.lean keep. -/

namespace Sys2Proof.Machine

set_option linter.unusedSimpArgs false
set_option linter.unusedTactic false
set_option linter.unreachableTactic false

@[simp ↓] theorem keeps_reservedCmd {s0 s : State} (fn : Nat) (row : RegRow) (a v : Nat) (hk : Keeps s0 s) : Keeps s0 (s.reservedCmd fn row a v) := by
  dsimp only [State.reservedCmd]
  repeat' first | (simp +contextual (maxDischargeDepth := 40) [hk]; done) | split

theorem keeps_writeRefused {s0 s t : State} {row : RegRow} {a v : Nat} (e : s.writeRefused row a v = some t) (hk : Keeps s0 s) :
    Keeps s0 t := by
  revert e
  have ite : ∀ {c : Prop} [Decidable c] {x y : Option State}, (x = some t → Keeps s0 t) → (y = some t → Keeps s0 t) →
      (if c then x else y) = some t → Keeps s0 t := by
    intro c _ x y hx hy h
    split at h
    · exact hx h
    · exact hy h
  have one : ∀ {f : State}, Keeps s0 f → some f = some t → Keeps s0 t := fun hf h => by cases h; exact hf
  have non : (none : Option State) = some t → Keeps s0 t := fun h => by cases h
  unfold State.writeRefused
  dsimp only
  repeat' first
    | exact non
    | (refine one ?_; simp only [keeps_err, keeps_report, keeps_gsErr, keeps_chErr, keeps_pwrErr, keeps_linkErr, keeps_ispErr, keeps_secErr, hk]; done)
    | refine ite ?_ ?_

@[simp ↓] theorem keeps_kwsFresh {s0 s : State}  (hk : Keeps s0 s) : Keeps s0 s.kwsFresh := by
  dsimp only [State.kwsFresh]
  repeat' first | (simp +contextual (maxDischargeDepth := 40) [hk]; done) | split

@[simp ↓] theorem keeps_afterWrite {s0 s : State} (row : RegRow) (a old : Nat) (hk : Keeps s0 s) : Keeps s0 (s.afterWrite row a old) := by
  dsimp only [State.afterWrite]
  repeat' first | (simp +contextual (maxDischargeDepth := 40) [hk]; done) | split

@[simp ↓] theorem keeps_writeReg {s0 s : State} (row : RegRow) (a m v : Nat) (hk : Keeps s0 s) : Keeps s0 (s.writeReg row a m v) := by
  unfold State.writeReg
  dsimp only
  split
  · exact keeps_wr _ _ hk
  all_goals first
    | (split
       · next e => exact keeps_writeRefused e hk
       · exact keeps_afterWrite _ _ _ (keeps_wr _ _ hk))
    | exact keeps_ite (fun _ => keeps_secErr _ _ hk) fun _ => hk

@[simp ↓] theorem keeps_msixEntry {s0 s : State} (fn i j v : Nat) (hk : Keeps s0 s) : Keeps s0 (s.msixEntry fn i j v) := by
  unfold State.msixEntry
  split
  · exact hk
  · generalize s.qm.vecs.put _ _ = w
    exact keeps_ite (fun _ => keeps_deliverPending _ _ (keeps_mk hk)) fun _ => keeps_mk hk

@[simp ↓] theorem keeps_msixWrite {s0 s : State} (fn a v : Nat) (hk : Keeps s0 s) : Keeps s0 (s.msixWrite fn a v) :=
  keeps_ite (fun _ => hk) fun _ => keeps_msixEntry _ _ _ _ hk

@[simp ↓] theorem keeps_writeOne {s0 s : State} (fn a n v : Nat) (hk : Keeps s0 s) : Keeps s0 (s.writeOne fn a n v) := by
  dsimp only [State.writeOne]
  repeat' first | (simp +contextual (maxDischargeDepth := 40) [hk]; done) | (have hw := keeps_of_snd (by assumption) (by simp +contextual (maxDischargeDepth := 40) [hk] : Keeps s0 _); simp +contextual (maxDischargeDepth := 40) [hw, hk]; done) | (have hw := keeps_of_fst (by assumption) (by simp +contextual (maxDischargeDepth := 40) [hk] : Keeps s0 _); simp +contextual (maxDischargeDepth := 40) [hw, hk]; done) | split

@[simp ↓] theorem keeps_execRegisterWrite {s0 s : State} (fn : Fin 16) (offset : BitVec 32) (wide : Bool) (value : BitVec 64) (hk : Keeps s0 s) : KeepsR s0 (execRegisterWrite fn offset wide value s) := by
  dsimp only [execRegisterWrite]
  repeat' first | (simp +contextual (maxDischargeDepth := 40) [hk]; done) | (have hw := keeps_of_snd (by assumption) (by simp +contextual (maxDischargeDepth := 40) [hk] : Keeps s0 _); simp +contextual (maxDischargeDepth := 40) [hw, hk]; done) | (have hw := keeps_of_fst (by assumption) (by simp +contextual (maxDischargeDepth := 40) [hk] : Keeps s0 _); simp +contextual (maxDischargeDepth := 40) [hw, hk]; done) | split

end Sys2Proof.Machine
end

