-- ==== Sys2Proof/Laws/KeepsRewrite.lean ====
section
/-! SUPPORT. Sys2Proof/Laws/KeepsRewrite.lean: what the operations of Machine/Rewrite.lean keep. -/

namespace Sys2Proof.Machine

set_option linter.unusedSimpArgs false
set_option linter.unusedTactic false
set_option linter.unreachableTactic false

@[simp ↓] theorem keeps_afterRewrite {s0 s : State}  (hk : Keeps s0 s) : Keeps s0 s.afterRewrite := by
  dsimp only [State.afterRewrite]
  repeat' first | (simp +contextual (maxDischargeDepth := 40) [hk, ‹Keeps s0 _›]; done) | refine keeps_foldl _ ?_ fun _ _ _ => ?_ | split

@[simp ↓] theorem keeps_execDescRewriteComplete {s0 s : State}  (hk : Keeps s0 s) : KeepsR s0 (execDescRewriteComplete s) := by
  dsimp only [execDescRewriteComplete]
  repeat' first | (simp +contextual (maxDischargeDepth := 40) [hk]; done) | split

end Sys2Proof.Machine
end

