-- ==== Sys2Proof/Laws/KeepsVector.lean ====
section
/-! SUPPORT. Sys2Proof/Laws/KeepsVector.lean: what the operations of Machine/Vector.lean keep. -/

namespace Sys2Proof.Machine

set_option linter.unusedSimpArgs false
set_option linter.unusedTactic false
set_option linter.unreachableTactic false

@[simp ↓] theorem keeps_laneBody {s0 s : State} (mask : Nat) (ok : Nat → Bool) (usesB usesC : Bool) (op : Nat → Nat → Nat → Nat → Nat × Nat) (counter : Nat → Option Nat) (n : Nat) (w pc : Nat) (hk : Keeps s0 s) : KeepsI s0 (laneBody mask ok usesB usesC op counter n s w pc) := by
  dsimp only [laneBody]
  repeat' first | (simp +contextual (maxDischargeDepth := 40) [hk, ‹Keeps s0 _›]; done) | (have hw := keeps_of_snd (by assumption) (by simp +contextual (maxDischargeDepth := 40) [hk] : Keeps s0 _); simp +contextual (maxDischargeDepth := 40) [hw, hk]; done) | (have hw := keeps_of_fst (by assumption) (by simp +contextual (maxDischargeDepth := 40) [hk] : Keeps s0 _); simp +contextual (maxDischargeDepth := 40) [hw, hk]; done) | refine keeps_foldl _ ?_ fun _ _ _ => ?_ | split

@[simp ↓] theorem keeps_execVadd {s0 s : State} (n : Fin 32) (chk : FrondCheck) (hk : Keeps s0 s) : KeepsR s0 (execVadd n chk s) := by
  dsimp only [execVadd]
  repeat' first | (simp +contextual (maxDischargeDepth := 40) [hk]; done) | split

@[simp ↓] theorem keeps_execVsub {s0 s : State} (n : Fin 32) (chk : FrondCheck) (hk : Keeps s0 s) : KeepsR s0 (execVsub n chk s) := by
  dsimp only [execVsub]
  repeat' first | (simp +contextual (maxDischargeDepth := 40) [hk]; done) | split

@[simp ↓] theorem keeps_execVmul {s0 s : State} (n : Fin 32) (chk : FrondCheck) (hk : Keeps s0 s) : KeepsR s0 (execVmul n chk s) := by
  dsimp only [execVmul]
  repeat' first | (simp +contextual (maxDischargeDepth := 40) [hk]; done) | split

@[simp ↓] theorem keeps_execVfma {s0 s : State} (n : Fin 32) (chk : FrondCheck) (hk : Keeps s0 s) : KeepsR s0 (execVfma n chk s) := by
  dsimp only [execVfma]
  repeat' first | (simp +contextual (maxDischargeDepth := 40) [hk]; done) | split

@[simp ↓] theorem keeps_execVmin {s0 s : State} (n : Fin 32) (chk : FrondCheck) (hk : Keeps s0 s) : KeepsR s0 (execVmin n chk s) := by
  dsimp only [execVmin]
  repeat' first | (simp +contextual (maxDischargeDepth := 40) [hk]; done) | split

@[simp ↓] theorem keeps_execVmax {s0 s : State} (n : Fin 32) (chk : FrondCheck) (hk : Keeps s0 s) : KeepsR s0 (execVmax n chk s) := by
  dsimp only [execVmax]
  repeat' first | (simp +contextual (maxDischargeDepth := 40) [hk]; done) | split

@[simp ↓] theorem keeps_execVdiv {s0 s : State} (n : Fin 32) (chk : FrondCheck) (hk : Keeps s0 s) : KeepsR s0 (execVdiv n chk s) := by
  dsimp only [execVdiv]
  repeat' first | (simp +contextual (maxDischargeDepth := 40) [hk]; done) | split

@[simp ↓] theorem keeps_execVsqrt {s0 s : State} (n : Fin 32) (chk : FrondCheck) (hk : Keeps s0 s) : KeepsR s0 (execVsqrt n chk s) := by
  dsimp only [execVsqrt]
  repeat' first | (simp +contextual (maxDischargeDepth := 40) [hk]; done) | split

@[simp ↓] theorem keeps_execVcmp {s0 s : State} (n : Fin 32) (chk : FrondCheck) (hk : Keeps s0 s) : KeepsR s0 (execVcmp n chk s) := by
  dsimp only [execVcmp]
  repeat' first | (simp +contextual (maxDischargeDepth := 40) [hk]; done) | split

@[simp ↓] theorem keeps_execVsel {s0 s : State} (n : Fin 32) (chk : FrondCheck) (hk : Keeps s0 s) : KeepsR s0 (execVsel n chk s) := by
  dsimp only [execVsel]
  repeat' first | (simp +contextual (maxDischargeDepth := 40) [hk]; done) | split

@[simp ↓] theorem keeps_execVlogic {s0 s : State} (n : Fin 32) (chk : FrondCheck) (hk : Keeps s0 s) : KeepsR s0 (execVlogic n chk s) := by
  dsimp only [execVlogic]
  repeat' first | (simp +contextual (maxDischargeDepth := 40) [hk]; done) | split

@[simp ↓] theorem keeps_execVshift {s0 s : State} (n : Fin 32) (chk : FrondCheck) (hk : Keeps s0 s) : KeepsR s0 (execVshift n chk s) := by
  dsimp only [execVshift]
  repeat' first | (simp +contextual (maxDischargeDepth := 40) [hk]; done) | split

@[simp ↓] theorem keeps_execVsfu {s0 s : State} (n : Fin 32) (chk : FrondCheck) (hk : Keeps s0 s) : KeepsR s0 (execVsfu n chk s) := by
  dsimp only [execVsfu]
  repeat' first | (simp +contextual (maxDischargeDepth := 40) [hk]; done) | split

@[simp ↓] theorem keeps_cvtBody {s0 s : State} (n : Nat) (w pc : Nat) (hk : Keeps s0 s) : KeepsI s0 (cvtBody n s w pc) := by
  dsimp only [cvtBody]
  repeat' first | (simp +contextual (maxDischargeDepth := 40) [hk, ‹Keeps s0 _›]; done) | (have hw := keeps_of_snd (by assumption) (by simp +contextual (maxDischargeDepth := 40) [hk] : Keeps s0 _); simp +contextual (maxDischargeDepth := 40) [hw, hk]; done) | (have hw := keeps_of_fst (by assumption) (by simp +contextual (maxDischargeDepth := 40) [hk] : Keeps s0 _); simp +contextual (maxDischargeDepth := 40) [hw, hk]; done) | refine keeps_foldl _ ?_ fun _ _ _ => ?_ | split

@[simp ↓] theorem keeps_execVcvt {s0 s : State} (n : Fin 32) (chk : FrondCheck) (hk : Keeps s0 s) : KeepsR s0 (execVcvt n chk s) := by
  dsimp only [execVcvt]
  repeat' first | (simp +contextual (maxDischargeDepth := 40) [hk]; done) | split

@[simp ↓] theorem keeps_qntBody {s0 s : State} (n : Nat) (w pc : Nat) (hk : Keeps s0 s) : KeepsI s0 (qntBody n s w pc) := by
  dsimp only [qntBody]
  repeat' first | (simp +contextual (maxDischargeDepth := 40) [hk]; done) | (have hw := keeps_of_snd (by assumption) (by simp +contextual (maxDischargeDepth := 40) [hk] : Keeps s0 _); simp +contextual (maxDischargeDepth := 40) [hw, hk]; done) | (have hw := keeps_of_fst (by assumption) (by simp +contextual (maxDischargeDepth := 40) [hk] : Keeps s0 _); simp +contextual (maxDischargeDepth := 40) [hw, hk]; done) | split

@[simp ↓] theorem keeps_execVqnt {s0 s : State} (n : Fin 32) (chk : FrondCheck) (hk : Keeps s0 s) : KeepsR s0 (execVqnt n chk s) := by
  dsimp only [execVqnt]
  repeat' first | (simp +contextual (maxDischargeDepth := 40) [hk]; done) | split

@[simp ↓] theorem keeps_redBody {s0 s : State} (n : Nat) (w pc : Nat) (hk : Keeps s0 s) : KeepsI s0 (redBody n s w pc) := by
  dsimp only [redBody]
  repeat' first | (simp +contextual (maxDischargeDepth := 40) [hk, ‹Keeps s0 _›]; done) | (have hw := keeps_of_snd (by assumption) (by simp +contextual (maxDischargeDepth := 40) [hk] : Keeps s0 _); simp +contextual (maxDischargeDepth := 40) [hw, hk]; done) | (have hw := keeps_of_fst (by assumption) (by simp +contextual (maxDischargeDepth := 40) [hk] : Keeps s0 _); simp +contextual (maxDischargeDepth := 40) [hw, hk]; done) | refine keeps_foldl _ ?_ fun _ _ _ => ?_ | split

@[simp ↓] theorem keeps_execVred {s0 s : State} (n : Fin 32) (chk : FrondCheck) (hk : Keeps s0 s) : KeepsR s0 (execVred n chk s) := by
  dsimp only [execVred]
  repeat' first | (simp +contextual (maxDischargeDepth := 40) [hk]; done) | split

@[simp ↓] theorem keeps_vldBody {s0 s : State} (n : Nat) (w pc : Nat) (hk : Keeps s0 s) : KeepsI s0 (vldBody n s w pc) := by
  dsimp only [vldBody]
  repeat' first | (simp +contextual (maxDischargeDepth := 40) [hk]; done) | split

@[simp ↓] theorem keeps_execVld {s0 s : State} (n : Fin 32) (chk : FrondCheck) (hk : Keeps s0 s) : KeepsR s0 (execVld n chk s) := by
  dsimp only [execVld]
  repeat' first | (simp +contextual (maxDischargeDepth := 40) [hk]; done) | split

@[simp ↓] theorem keeps_vstBody {s0 s : State} (n : Nat) (w pc : Nat) (hk : Keeps s0 s) : KeepsI s0 (vstBody n s w pc) := by
  dsimp only [vstBody]
  repeat' first | (simp +contextual (maxDischargeDepth := 40) [hk, ‹Keeps s0 _›]; done) | refine keeps_foldl _ ?_ fun _ _ _ => ?_ | split

@[simp ↓] theorem keeps_execVst {s0 s : State} (n : Fin 32) (chk : FrondCheck) (hk : Keeps s0 s) : KeepsR s0 (execVst n chk s) := by
  dsimp only [execVst]
  repeat' first | (simp +contextual (maxDischargeDepth := 40) [hk]; done) | split

@[simp ↓] theorem keeps_rdaccBody {s0 s : State} (n : Nat) (w pc : Nat) (hk : Keeps s0 s) : KeepsI s0 (rdaccBody n s w pc) := by
  dsimp only [rdaccBody]
  repeat' first | (simp +contextual (maxDischargeDepth := 40) [hk]; done) | split

@[simp ↓] theorem keeps_execVrdacc {s0 s : State} (n : Fin 32) (chk : FrondCheck) (hk : Keeps s0 s) : KeepsR s0 (execVrdacc n chk s) := by
  dsimp only [execVrdacc]
  repeat' first | (simp +contextual (maxDischargeDepth := 40) [hk]; done) | split

@[simp ↓] theorem keeps_wraccBody {s0 s : State} (n : Nat) (w pc : Nat) (hk : Keeps s0 s) : KeepsI s0 (wraccBody n s w pc) := by
  dsimp only [wraccBody]
  repeat' first | (simp +contextual (maxDischargeDepth := 40) [hk, ‹Keeps s0 _›]; done) | refine keeps_foldl _ ?_ fun _ _ _ => ?_ | split

@[simp ↓] theorem keeps_execVwracc {s0 s : State} (n : Fin 32) (chk : FrondCheck) (hk : Keeps s0 s) : KeepsR s0 (execVwracc n chk s) := by
  dsimp only [execVwracc]
  repeat' first | (simp +contextual (maxDischargeDepth := 40) [hk]; done) | split

@[simp ↓] theorem keeps_bcstBody {s0 s : State} (n : Nat) (w pc : Nat) (hk : Keeps s0 s) : KeepsI s0 (bcstBody n s w pc) := by
  dsimp only [bcstBody]
  repeat' first | (simp +contextual (maxDischargeDepth := 40) [hk]; done) | (have hw := keeps_of_snd (by assumption) (by simp +contextual (maxDischargeDepth := 40) [hk] : Keeps s0 _); simp +contextual (maxDischargeDepth := 40) [hw, hk]; done) | (have hw := keeps_of_fst (by assumption) (by simp +contextual (maxDischargeDepth := 40) [hk] : Keeps s0 _); simp +contextual (maxDischargeDepth := 40) [hw, hk]; done) | split

@[simp ↓] theorem keeps_execVbcst {s0 s : State} (n : Fin 32) (chk : FrondCheck) (hk : Keeps s0 s) : KeepsR s0 (execVbcst n chk s) := by
  dsimp only [execVbcst]
  repeat' first | (simp +contextual (maxDischargeDepth := 40) [hk]; done) | split

@[simp ↓] theorem keeps_execViota {s0 s : State} (n : Fin 32) (chk : FrondCheck) (hk : Keeps s0 s) : KeepsR s0 (execViota n chk s) := by
  dsimp only [execViota]
  repeat' first | (simp +contextual (maxDischargeDepth := 40) [hk]; done) | split

@[simp ↓] theorem keeps_execVlane {s0 s : State} (n : Fin 32) (chk : FrondCheck) (hk : Keeps s0 s) : KeepsR s0 (execVlane n chk s) := by
  dsimp only [execVlane]
  repeat' first | (simp +contextual (maxDischargeDepth := 40) [hk]; done) | split

@[simp ↓] theorem keeps_execVstat {s0 s : State} (n : Fin 32) (chk : FrondCheck) (hk : Keeps s0 s) : KeepsR s0 (execVstat n chk s) := by
  dsimp only [execVstat]
  repeat' first | (simp +contextual (maxDischargeDepth := 40) [hk]; done) | split

@[simp ↓] theorem keeps_dqryBody {s0 s : State} (n : Nat) (w pc : Nat) (hk : Keeps s0 s) : KeepsI s0 (dqryBody n s w pc) := by
  dsimp only [dqryBody]
  repeat' first | (simp +contextual (maxDischargeDepth := 40) [hk]; done) | (have hw := keeps_of_snd (by assumption) (by simp +contextual (maxDischargeDepth := 40) [hk] : Keeps s0 _); simp +contextual (maxDischargeDepth := 40) [hw, hk]; done) | (have hw := keeps_of_fst (by assumption) (by simp +contextual (maxDischargeDepth := 40) [hk] : Keeps s0 _); simp +contextual (maxDischargeDepth := 40) [hw, hk]; done) | split

@[simp ↓] theorem keeps_execDqry {s0 s : State} (n : Fin 32) (chk : FrondCheck) (hk : Keeps s0 s) : KeepsR s0 (execDqry n chk s) := by
  dsimp only [execDqry]
  repeat' first | (simp +contextual (maxDischargeDepth := 40) [hk]; done) | split

@[simp ↓] theorem keeps_countScalar {s0 s : State} (n : Nat) (hk : Keeps s0 s) : Keeps s0 (s.countScalar n) := by
  dsimp only [State.countScalar]
  repeat' first | (simp +contextual (maxDischargeDepth := 40) [hk]; done) | split

@[simp ↓] theorem keeps_saluBody {s0 s : State} (n : Nat) (w pc : Nat) (hk : Keeps s0 s) : KeepsI s0 (saluBody n s w pc) := by
  dsimp only [saluBody]
  repeat' first | (simp +contextual (maxDischargeDepth := 40) [hk]; done) | split

@[simp ↓] theorem keeps_execFrondSalu {s0 s : State} (n : Fin 32) (chk : FrondCheck) (hk : Keeps s0 s) : KeepsR s0 (execFrondSalu n chk s) := by
  dsimp only [execFrondSalu]
  repeat' first | (simp +contextual (maxDischargeDepth := 40) [hk]; done) | split

@[simp ↓] theorem keeps_execFrondSli {s0 s : State} (n : Fin 32) (chk : FrondCheck) (hk : Keeps s0 s) : KeepsR s0 (execFrondSli n chk s) := by
  dsimp only [execFrondSli]
  repeat' first | (simp +contextual (maxDischargeDepth := 40) [hk]; done) | split

@[simp ↓] theorem keeps_brBody {s0 s : State} (n : Nat) (w pc : Nat) (hk : Keeps s0 s) : KeepsI s0 (brBody n s w pc) := by
  dsimp only [brBody]
  repeat' first | (simp +contextual (maxDischargeDepth := 40) [hk]; done) | (have hw := keeps_of_snd (by assumption) (by simp +contextual (maxDischargeDepth := 40) [hk] : Keeps s0 _); simp +contextual (maxDischargeDepth := 40) [hw, hk]; done) | (have hw := keeps_of_fst (by assumption) (by simp +contextual (maxDischargeDepth := 40) [hk] : Keeps s0 _); simp +contextual (maxDischargeDepth := 40) [hw, hk]; done) | split

@[simp ↓] theorem keeps_execFrondBr {s0 s : State} (n : Fin 32) (chk : FrondCheck) (hk : Keeps s0 s) : KeepsR s0 (execFrondBr n chk s) := by
  dsimp only [execFrondBr]
  repeat' first | (simp +contextual (maxDischargeDepth := 40) [hk]; done) | split

@[simp ↓] theorem keeps_execEndOp {s0 s : State} (n : Fin 32) (chk : FrondCheck) (hk : Keeps s0 s) : KeepsR s0 (execEndOp n chk s) := by
  dsimp only [execEndOp]
  repeat' first | (simp +contextual (maxDischargeDepth := 40) [hk]; done) | split

end Sys2Proof.Machine
end

