-- ==== Sys2Proof/Laws/Mgmt.lean ====
section
/-! SUPPORT. Sys2Proof/Laws/Mgmt.lean: what the housekeeping controller does with a request that it accepts. -/

namespace Sys2Proof.Machine

/-- An accepted request runs, is answered, and may end the session (R557 to R562). -/
theorem mgtRun_accepts {s : State} {cmd : Nat} {dead : Bool} {r : List Byte} {sel : List Byte → Bool} {f : State → List Byte → MgtRes}
    (h : s.mgtAccepts cmd dead r = true) (hs : sel (frPayload r) = true) :
    s.mgtRun cmd sel dead f =
      (if (f (s.mgtStarts cmd r) (frPayload r)).2.1 = 0x0F25 then
        (f (s.mgtStarts cmd r) (frPayload r)).1.authRefuse r (f (s.mgtStarts cmd r) (frPayload r)).2.1
       else (f (s.mgtStarts cmd r) (frPayload r)).1.answer r (f (s.mgtStarts cmd r) (frPayload r)).2.1
        (f (s.mgtStarts cmd r) (frPayload r)).2.2).mgtEnds cmd r := by
  simp only [State.mgtAccepts, Bool.and_eq_true, beq_iff_eq, Bool.not_eq_true', Bool.or_eq_true, Bool.and_eq_false_iff] at h
  obtain ⟨⟨⟨⟨⟨h1, h2⟩, h3⟩, h4⟩, h5⟩, h6⟩ := h
  have e4 : (cmdAuth cmd && !s.tagOk r) = false := by rcases h4 with h | h <;> simp [h]
  have e5 : (cmdMain cmd && s.mainWaits) = false := by
    rcases h5 with h | h
    · simp [h]
    · simp [State.mainWaits, h.1]
  have e6 : ((cmdMain cmd && (!s.mainUp || s.pwr.stopped)) || (dead && s.rdB Reg.REL_STATUS 0)) = false := by
    rcases h5 with h | h <;> rcases h6 with g | g <;> simp [h, g]
  unfold State.mgtRun
  rw [h1]
  dsimp only
  rw [if_neg (by simp [h2, hs, h3]), if_neg (by simp [e4]), if_neg (by simp [e5]), if_neg (by rw [e6]; decide)]
  rfl

end Sys2Proof.Machine
end

