-- ==== Sys2Proof/Laws/Mover.lean ====
section
/-! SUPPORT. Sys2Proof/Laws/Mover.lean: what a mover channel's step does once its next word is known. -/

namespace Sys2Proof.Machine

/-- A channel that executes next a word of opcode `op` runs that instruction's body (R322). -/
theorem chStep_issue {s : State} {n w op : Nat} (body : State → Nat → Nat → State) (h : s.chIssues n w = true) (ho : fld w 58 6 = op)
    (hk : knownChOp op = true) :
    s.chStep n op body = body (if 2 < op then s.wr (Reg.MOV_CH_RESIDUE n) 0 else s) w (s.rdN (Reg.MOV_CH_PC n)) := by
  unfold State.chIssues at h
  subst ho
  cases hl : (s.ch n).line with
  | none => simp [hl] at h
  | some e =>
    obtain ⟨a, bs⟩ := e
    simp [hl, Bool.and_eq_true] at h
    obtain ⟨⟨⟨⟨⟨h1, h2⟩, h3⟩, h4⟩, h5⟩, h6, h7⟩ := h
    unfold State.chStep
    simp [h1, h2, h3, h4, hl, h6, h7, h5, hk]

end Sys2Proof.Machine
end

