-- ==== Sys2Proof/Laws/Sec.lean ====
section
/-! SUPPORT. Sys2Proof/Laws/Sec.lean: what a security command does that is not refused at once. -/

namespace Sys2Proof.Machine

/-- With no command running, and a random source where it needs one, a command runs its own part (R466, R443). -/
theorem secBegin_runs {s : State} {op p : Nat} {rng : Bool} {f : State → SecRes} (h : s.sec.cmd = none) (hr : (rng && s.sec.rngBad) = false) :
    s.secBegin op p rng f = s.secEnds op p (f s) := by
  unfold State.secBegin State.secEnds
  simp only [h, hr]
  simp

end Sys2Proof.Machine
end

