-- ==== Sys2Proof/WellFormed.lean ====
section
/-! DEFINITION. Sys2Proof/WellFormed.lean: which commands can come about: what the spec says of the length and the ranges of operands
that their types leave open. Every other operand has a type without an impossible value. -/

namespace Sys2Proof

/-- A 32-bit aligned offset inside the BAR0 of function `fn` (R26, R379). -/
def addressOk (fn : Fin 16) (offset : Nat) : Bool :=
  offset % 4 == 0 && decide (offset < if fn.val = 0 then 0x4000000 else 0x1000000)

/-- The fields of a packet hold what their widths admit, and the payload has a length that R415 gives. -/
def Packet.wf (pk : Packet) : Bool :=
  decide (pk.type < 16 ∧ pk.poison < 16 ∧ pk.len ≤ 4 ∧ pk.hops < 8 ∧ pk.dst < 128 ∧ pk.src < 128 ∧ pk.pt < 16 ∧ pk.bind < 16) &&
  decide (pk.tag < 2 ^ 16 ∧ pk.addr < 2 ^ 35 ∧ pk.seq < 2 ^ 32) &&
  (pk.payload.length == 8 || (pk.payload.length % 64 == 0 && decide (pk.payload.length ≤ 256))) &&
  (pk.type != 1 || pk.payload.length == 64 * pk.len)

/-- RESULT of a plausibility program is 16 bytes (R505). -/
def ProgEnd.wf (e : ProgEnd) : Bool := e.result.length == 16

/-- The command can come about. -/
def Instr.wf (i : Instr) : Bool :=
  match i with
  | .registerWrite fn offset wide value => addressOk fn offset.toNat && (wide || decide (value.toNat < 2 ^ 32))
  | .rcRead fn offset => addressOk fn offset.toNat
  | .counterLowRead fn offset => addressOk fn offset.toNat
  | .dtNowLowRead _ => true
  | .csiCtrlWrite _ _ => true
  | .csiCalibrationComplete _ => true
  | .laneLockFailure _ => true
  | .ulpsTransition _ _ _ => true
  | .streamRegWrite _ _ _ => true
  | .longPacket _ _ _ payload _ => decide (payload.length < 65536)
  | .frameStart _ _ _ => true
  | .frameEnd _ _ => true
  | .frameTimeout _ => true
  | .recRelease _ _ => true
  | .ispCtxCfgWrite _ _ _ => true
  | .pbPost _ _ => true
  | .pbFetchComplete _ => true
  | .ispRowOutput _ => true
  | .ispStatsWrite _ => true
  | .brackenJobAccept _ => true
  | .brackenRowStart _ => true
  | .brackenRowDone _ => true
  | .brackenWaitTimeout _ _ => true
  | .brackenJobComplete _ _ => true
  | .descRewriteComplete => true
  | .crzLoad _ => true
  | .crzLoadComplete _ => true
  | .crzUnload _ => true
  | .crzAbort _ => true
  | .crzTrigger _ => true
  | .crzCfgWrite _ _ => true
  | .crzTimerTrigger _ => true
  | .crzNodeStart _ _ _ _ => true
  | .crzBudgetExpiry _ _ => true
  | .dscCreate _ _ => true
  | .dscReplace _ _ => true
  | .dscReplaceInv _ _ => true
  | .dscDestroy _ _ => true
  | .dscInval _ _ => true
  | .dscInvalAll _ => true
  | .dscCmdComplete _ => true
  | .rgnWrite => true
  | .rgnRead => true
  | .rgnClear => true
  | .rgnCmdComplete => true
  | .frondOpStart _ => true
  | .frondOpEnd _ => true
  | .frondAbortComplete _ => true
  | .frondZeroingComplete _ => true
  | .mma _ _ => true
  | .mmaComplete _ => true
  | .tload _ _ => true
  | .tloadComplete _ => true
  | .tstore _ _ => true
  | .tstoreComplete _ => true
  | .tclr _ _ => true
  | .vadd _ _ => true
  | .vsub _ _ => true
  | .vmul _ _ => true
  | .vfma _ _ => true
  | .vmin _ _ => true
  | .vmax _ _ => true
  | .vdiv _ _ => true
  | .vsqrt _ _ => true
  | .vcmp _ _ => true
  | .vsel _ _ => true
  | .vlogic _ _ => true
  | .vshift _ _ => true
  | .vsfu _ _ => true
  | .vcvt _ _ => true
  | .vqnt _ _ => true
  | .vred _ _ => true
  | .vld _ _ => true
  | .vst _ _ => true
  | .vrdacc _ _ => true
  | .vwracc _ _ => true
  | .vbcst _ _ => true
  | .viota _ _ => true
  | .vlane _ _ => true
  | .vstat _ _ => true
  | .dqry _ _ => true
  | .frondSalu _ _ => true
  | .frondSli _ _ => true
  | .frondBr _ _ => true
  | .endOp _ _ => true
  | .frondSignal _ _ => true
  | .frondWait _ _ => true
  | .fset _ _ => true
  | .fread _ _ => true
  | .frondFence _ _ => true
  | .flagSignalApply _ _ => true
  | .flagSetApply _ _ => true
  | .flagWaitSatisfied _ => true
  | .waitTimeout _ _ => true
  | .flagValueWrite _ _ _ _ => true
  | .flagAddWrite _ _ _ _ => true
  | .gsLoad _ => true
  | .gsLoadComplete _ => true
  | .gsUnload _ => true
  | .gsAbort _ => true
  | .setprio _ => true
  | .gsLaunch _ _ => true
  | .gsDispatch _ => true
  | .gsOpRelease _ => true
  | .gsDelayTick _ => true
  | .gsBudgetExpiry _ _ => true
  | .copy2Request _ _ _ _ => true
  | .deadlockDeclare _ => true
  | .movStart _ => true
  | .movAbort _ => true
  | .movResume _ => true
  | .movRingReset _ => true
  | .movMove _ => true
  | .movMovx _ => true
  | .chLoop _ => true
  | .chEndl _ => true
  | .chWait _ => true
  | .chSignal _ => true
  | .chSetv _ => true
  | .chHalt _ => true
  | .moverBeatIssue _ _ => true
  | .moverReadReturn _ => true
  | .moverWriteAck _ => true
  | .moverBusError _ _ => true
  | .moverRunComplete _ => true
  | .chDoneSignal _ => true
  | .chDrainRead _ => true
  | .chDrainReturn _ => true
  | .drainTimeout _ _ => true
  | .sporeSubmit _ _ => true
  | .sporeComplete _ => true
  | .cleanRange _ => true
  | .flushRange _ => true
  | .flushAll _ => true
  | .releaseRetained _ => true
  | .cacheCmdComplete _ => true
  | .s1All _ => true
  | .s1Range _ => true
  | .s2All _ _ => true
  | .s2Range _ _ => true
  | .xlatCmdComplete _ => true
  | .waysWrite _ _ _ => true
  | .pasrWrite _ => true
  | .cacheFill _ _ _ _ _ => true
  | .imbalanceWindow total _ busyCount _ => decide (busyCount ≤ total)
  | .mr4Poll _ _ => true
  | .qosInterval => true
  | .unitAssign _ => true
  | .unitRelease _ => true
  | .chunkGrant _ => true
  | .chunkFillComplete => true
  | .chunkRelease _ => true
  | .modeWrite _ _ _ => true
  | .doorbellTail _ _ _ _ _ => true
  | .doorbellHead _ _ _ _ _ => true
  | .ringEntriesArrive _ hostData _ => decide (hostData.length % 64 = 0)
  | .itemLaunch _ => true
  | .itemSignal _ => true
  | .itemSet _ => true
  | .itemTrigger _ => true
  | .itemMstart _ => true
  | .itemDsc _ => true
  | .itemNop _ => true
  | .completionPost _ => true
  | .holdoffExpiry _ => true
  | .qmRingFlush _ => true
  | .qmRingFlushAll _ => true
  | .qmRingReset _ => true
  | .ringCfgWrite _ _ => true
  | .vmapWrite _ _ _ _ => true
  | .qosMemWrite _ _ _ => true
  | .qosLinkWrite _ _ _ => true
  | .ptDrainRead _ => true
  | .ptDrainReturn _ => true
  | .partitionReset _ => true
  | .functionReset _ => true
  | .vfEnableClear => true
  | .ptResetAccessesDone _ => true
  | .ptScrubComplete _ => true
  | .ptZeroingComplete _ => true
  | .unexpectedCompletion _ => true
  | .lnkCtrlWrite _ _ => true
  | .trainingComplete _ _ _ _ _ _ => true
  | .trainingFailure _ => true
  | .trainingRetry _ => true
  | .flitReceive _ _ kind _ _ _ packets => packets.all Packet.wf && (kind == .data || packets.isEmpty)
  | .nakReceive _ _ => true
  | .nakLimit _ => true
  | .flitTimeout _ => true
  | .linkWrite pk => pk.wf && pk.type == 1
  | .linkRead pk => pk.wf && pk.type == 2
  | .readResp _ _ _ data => decide (data.length % 64 = 0 ∧ data.length ≤ 256)
  | .writeAck _ _ => true
  | .linkSignal pk => pk.wf && pk.type == 5
  | .signalAck _ _ => true
  | .respTimeout _ => true
  | .heartbeatBroadcast => true
  | .lnkHeartbeat _ _ _ => true
  | .heartbeatAnswer _ => true
  | .lossTimeout _ => true
  | .lossNotice _ _ => true
  | .masterTimeout => true
  | .masterNotice _ _ => true
  | .standbyWrite _ => true
  | .standbyNotice _ => true
  | .timeExchange _ => true
  | .timeStepNotice _ => true
  | .errorReport _ _ _ _ _ _ => true
  | .freezePacket _ _ _ => true
  | .bindWrite => true
  | .bindRead => true
  | .bindClear => true
  | .aliasWrite _ _ => true
  | .ckptEnable _ => true
  | .ckptRequest => true
  | .ckptSnapshot => true
  | .ckptBegin _ _ => true
  | .ckptData _ data => !data.isEmpty
  | .ckptCommit _ _ _ => true
  | .ckptAck _ _ => true
  | .secAttest _ => true
  | .secChain _ => true
  | .secSession _ => true
  | .secImport _ => true
  | .secExport _ => true
  | .confEnable _ => true
  | .confDisable _ => true
  | .confGrant _ => true
  | .confRelease _ => true
  | .confMode _ => true
  | .secUpdate _ => true
  | .svnCommit _ => true
  | .secCmdComplete => true
  | .debugChallenge => true
  | .debugResponse _ => true
  | .debugLevelLower _ => true
  | .rngHealthFail => true
  | .rngRetry _ => true
  | .kakSliceDue _ => true
  | .kakSliceStart _ => true
  | .kakSliceEnd _ => true
  | .kakVerdict _ _ => true
  | .fenceCmd _ => true
  | .readmitFrond _ => true
  | .readmitComplete _ => true
  | .ceWindowBoundary => true
  | .clockMonitorFault _ => true
  | .errIrqTimer _ _ => true
  | .latchClear _ _ => true
  | .checkerItem _ => true
  | .runJudgement _ _ ended => match ended with | some e => e.wf | none => true
  | .recordReread _ _ => true
  | .programRead _ _ _ _ => true
  | .programTimeout _ _ => true
  | .copyTimeout _ _ => true
  | .latencyTimeout _ _ => true
  | .arrivalTimeout _ => true
  | .restartAccessesDone _ => true
  | .restartReloadComplete _ => true
  | .dutySwap _ => true
  | .selftestComplete _ => true
  | .lockstepMismatch _ => true
  | .watchdogExpiry => true
  | .checkerRestartComplete => true
  | .degradedLimit => true
  | .heartbeatToggle => true
  | .holdTest => true
  | .holdTestEnd => true
  | .vddSafeFault => true
  | .safeClockFault => true
  | .p1Entry => true
  | .pwrCmdP2 => true
  | .pwrCmdP3 => true
  | .pwrCmdP4 => true
  | .autoP2Request => true
  | .rungEntryComplete => true
  | .rungExitComplete => true
  | .thermalSample _ _ => true
  | .throttleStep _ => true
  | .powerSample _ => true
  | .ppsEdge _ => true
  | .ppsTimeout => true
  | .audioSample samples => samples.length == 8
  | .kwsFrameEnd => true
  | .kwsEvaluationComplete => true
  | .kwsPop => true
  | .kwsModelData _ => true
  | .audCopy => true
  | .audCopyComplete => true
  | .dbgClear _ => true
  | .ptCounterClear _ => true
  | .dbgFreeze => true
  | .dbgThaw => true
  | .dbgDump _ _ => true
  | .dumpComplete _ _ => true
  | .frameWrite frame => !frame.isEmpty
  | .statusRead => true
  | .responseRead _ => true
  | .getInfo => true
  | .getStatus => true
  | .getEvent => true
  | .getTime => true
  | .getErrors => true
  | .getAttest => true
  | .authOpen => true
  | .authFinish => true
  | .authClose => true
  | .authLockoutEnd => true
  | .setRung => true
  | .setPowerLimit => true
  | .setAlertMask => true
  | .mgmtResetPartition => true
  | .mgmtResetDevice _ => true
  | .mgmtHoldTest => true
  | .coldReset => true
  | .porstRelease _ _ => true
  | .bootImageLoaded => true
  | .memoryTrainingComplete => true
  | .bootReady _ => true
  | .wholeDeviceRestart _ _ => true
  | .fatalRestartTimer _ => true
  | .hostReset _ _ => true
  | .mainRailFault => true
  | .vddAonFault => true
  | .prefetchComplete _ _ => true
  | .assignComplete => true
  | .chunkReleaseComplete => true
  | .bindCmdComplete => true
  | .vddSafeReturn => true
  | .safeClockRecovery => true
  | .perstRelease => true
  | .pcieLinkUp => true
  | .pcieL1Exit => true
  | .msixEnableSet _ => true
  | .cfwSwitchComplete => true
  | .testModeFall _ => true
  | .tapExtest => true
  | .aon32kStable => true

end Sys2Proof
end

