-- ==== Sys2Proof/Tests/Slice0.lean ====
section
/-! SUPPORT. Sys2Proof/Tests/Slice0.lean: small tests of the model, and for every statement with premises a state that meets them. -/

namespace Sys2Proof.Tests

open Sys2Proof.Machine

set_option linter.unusedVariables false
set_option Elab.async false

/-- The device as software runs on it: boot sequence done, from reset otherwise. -/
def ready : State := State.reset.wrF Reg.GLB_BOOT_STATUS 0 4 6

/-- A frame that has just begun. -/
def frame0 : OpenFrame := { fsTime := 0, fnum := 1, node := ⟨0, 1, 0⟩, pt := 0, slot := 0, recA := 0, seq := 1 }

/-- Port 0 enabled and locked, with nothing enabled on it. -/
def locked : State := (ready.wr (Reg.CSI_CTRL 0) 1).wr (Reg.CSI_STATUS 0) 3

/-- Stream 0 with an open frame. -/
def inFrame : State := locked.setSt 0 { cfg := 0x41, dt := 0x1200, frame := some frame0 }

/-- The bytes of a tensor descriptor without scales, view or shards. -/
def descBytes (etype rank flags base : Nat) (dims strides : List Nat) : List Byte :=
  leBytes 2 0xD35C ++ leBytes 1 1 ++ leBytes 1 etype ++ leBytes 1 rank ++ leBytes 1 0 ++ leBytes 2 flags ++ leBytes 8 base ++
    ((List.range 5).flatMap fun d => leBytes 4 (dims.getD d 0)) ++ leBytes 4 0 ++
    ((List.range 5).flatMap fun d => leBytes 6 (strides.getD d 0)) ++ leBytes 58 0

/-- Bytes placed in memory. -/
def place (s : State) (a : Nat) (bs : List Byte) : State := s.storePA a bs false

/-- Partition 0 with its first 2 MiB mapped one to one, a region over them, and 256 descriptor handles at 0x4000. -/
def mapped : State :=
  let s := place (place (place ready 0x1000 (leBytes 8 31)) 0x2000 (leBytes 8 0x3001)) 0x3000 (leBytes 8 31)
  let r := (((s.wr (Reg.MEM_PT_S2_BASE 0) 0x1000).wr (Reg.MEM_PT_S1_BASE 0) 0x2000).wr (Reg.DSC_PT_TABLE 0) 0x4000).wr (Reg.DSC_PT_COUNT 0) 256
  { r with chunks := [(0, 0)], dsc := { r.dsc with regions := [(0, ⟨0, 2 ^ 30, 0, true, true, false⟩)] } }

/-- Handles 1 and 2 of partition 0 are 16 × 16 planes of bytes, which may be read and written. -/
def planes : State :=
  let s := place (place mapped 0x4080 (descBytes 0x08 2 3 0x10000 [16, 16] [1, 64])) 0x4100 (descBytes 0x08 2 3 0x20000 [16, 16] [1, 64])
  { s with dsc := { s.dsc with valid := [(1, 0xD35C), (2, 0xD35C)] } }

/-- A graph of one Bracken node that has been presented, in slot 0. -/
def graph0 : CGraph :=
  { nodes := [⟨3, 2, 0, 0x30000, 0, [], [], (1, 0)⟩], chains := [], ends := [], crc := 0, prog := 0, seq := 1,
    insts := [{ slot := 0, seq := 1, num := 1, start := some 0, nodes := [{ phase := .armed, block := 0x30000 }] }] }

/-- A filter job block: handle 1 to handle 2, one tap each way. -/
def filterJob : List Byte :=
  leBytes 2 0xB4AC ++ leBytes 1 2 ++ leBytes 1 1 ++ leBytes 4 7 ++ leBytes 4 100 ++ leBytes 4 0 ++ leBytes 2 1 ++ leBytes 2 2 ++ leBytes 1 0 ++
    leBytes 1 1 ++ leBytes 1 1 ++ leBytes 137 0

/-- Engine 2 with the filter job presented. -/
def jobWaits : State := (((place planes 0x30000 filterJob).setCg 0 graph0)).setEng 2 { queue := [⟨0, 1, 0⟩] }

/-- The job as the engine holds it. -/
def job0 : BrkJob :=
  { node := ⟨0, 1, 0⟩, pt := 0, dva := 0x30000, block := filterJob,
    planes := [(0, descBytes 0x08 2 3 0x10000 [16, 16] [1, 64]), (1, descBytes 0x08 2 3 0x20000 [16, 16] [1, 64])], order := 1,
    started := true, recA := some 0 }

/-- Engine 2 with the job in context 0, its state given. -/
def jobIn (j : BrkJob) : State := (planes.setCg 0 graph0).setEng 2 { ctx := [(0, j)], accepted := 1 }

/-- Context 5 with a set posted at 0x10000. -/
def posted : State := mapped.setIctx 5 { post := some 0x10000 }

/-- The pages of the set. -/
def setPages : List (Nat × Nat) := [(0x10000, 4096), (0x11000, 4096), (0x12000, 4096), (0x13000, 4096), (0x14000, 256)]

/-- 16,640 bytes at 0x10000 can be read. -/
theorem set_readable : posted.readDva (posted.ictxPt (5 : Fin 48)) 0x10000 16640 =
    .data (setPages.flatMap fun e => posted.readPA e.1 e.2) false := by
  have h : posted.xlateAll (posted.ictxPt (5 : Fin 48)) .read false (pieces 0x10000 16640) = .ok setPages := by rfl
  unfold State.readDva
  rw [h]
  rfl

/-- A frame of one row whose line is there and that has no output. -/
def ispFrame0 : IspFrame := 
  { node := ⟨0, 1, 0⟩, pt := 0, recA := 0, seq := 1, fsTime := 0, dt := 0x2A, width := 16, height := 1, set := [], lines := [(0, [])], out := [(0, [])] }

/-- The same graph with its node accepted. -/
def graph1 : CGraph :=
  { graph0 with insts := [{ slot := 0, seq := 1, num := 1, start := some 0, nodes := [{ phase := .accepted, block := 0x30000 }] }] }

/-- `mapped` with a descriptor region over the table, and the image of a plane at 0x5000 as the source of a command. -/
def descTable : State :=
  let s := (place mapped 0x5000 (descBytes 0x08 2 3 0x10000 [16, 16] [1, 64])).wr (Reg.DSC_PT_SRC 0) 0x5000
  { s with dsc := { s.dsc with regions := [(0, ⟨0x4000, 0x1000, 0, true, false, true⟩), (1, ⟨0x5000, 2 ^ 30 - 0x5000, 0, true, true, false⟩)] } }

/-- The same with handle 1 valid. -/
def descTable1 : State := { descTable with dsc := { descTable.dsc with valid := [(1, 0xD35C)] } }

/-- An operation without predecessors, of priority 2, that may go to every Frond. -/
def gsOp0 : GsOp := ⟨false, 2, 0, [], 0, 0x10000, [1, 2], 0, 0, 0xFFFFFFFF, [], 0, 0⟩

/-- A loaded graph of that operation: header record 3, partition 0, with a budget. -/
def gsGraph0 : Graph :=
  { hdr := 3, recs := [4], gen := 0, pt := 0, dva := 0, crc := 0, reportAll := false, endFlag := 0, endOn := false, endValue := 0, budget := 100,
    graphId := 7, ops := [gsOp0] }

/-- The graph in run 1, its operation in the given phase. -/
def gsRunning (ph : Phase) : Graph :=
  { gsGraph0 with runs := 1, cur := some { num := 1, larg := 0, start := 0, counts := [(0, 0)], copies := [{ op := 0, copy := 0, phase := ph }] } }

/-- A state that holds the one graph `g`. -/
def holding (g : Graph) (s : State) : State := { s with gs := { s.gs with graphs := [g] } }

/-- Frond 5 owned by partition 0, and the scheduler's operation in the run of a graph. -/
def frond5 (ph : Phase) : State := { holding (gsRunning ph) mapped with own := [(ownKey 0x01 5, 0)] }

/-- The operation waits on its ready list. -/
def gsWaits : State := { frond5 .ready with gs := { (frond5 .ready).gs with ready := [(2, [⟨3, 0, 0⟩])] } }

/-- The bytes of a graph header of one operation at 0x10080, but for its CRC. -/
def graphHead : List Byte := leBytes 2 0x9A71 ++ leBytes 1 1 ++ leBytes 1 0 ++ leBytes 2 1 ++ leBytes 2 0 ++ leBytes 8 0x10080 ++ leBytes 108 0

/-- The bytes of an operation image. -/
def opImage : List Byte := leBytes 2 0x9A70 ++ leBytes 1 1 ++ leBytes 1 2 ++ leBytes 4 0 ++ leBytes 8 0x20000 ++ leBytes 96 0 ++ leBytes 4 0xFFFFFFFF ++ leBytes 12 0

/-- The CRC of the images of `gsLoads`. -/
def graphCrc : Nat := 0x1EE7C19E

/-- The header with its CRC. -/
def graphFull : List Byte := graphHead ++ leBytes 4 graphCrc

/-- A running CRC goes on over appended bytes. -/
theorem crc_append (c : BitVec 32) (a b : List Byte) : crc32cRun c (a ++ b) = crc32cRun (crc32cRun c a) b := by simp [crc32cRun]

/-- Bytes `k` to `k + 27` of the images. -/
def graphPart (k : Nat) : List Byte := ((graphHead ++ opImage).drop k).take 28

/-- The images cut into parts. -/
theorem graph_parts : graphHead ++ opImage = graphPart 0 ++ graphPart 28 ++ graphPart 56 ++ graphPart 84 ++ graphPart 112 ++ graphPart 140 ++
    graphPart 168 ++ graphPart 196 ++ graphPart 224 := by decide +kernel
theorem graph_crc_0 : crc32cRun 0xFFFFFFFF#32 (graphPart 0) = 0xD6AF563D#32 := by decide +kernel
theorem graph_crc_1 : crc32cRun 0xD6AF563D#32 (graphPart 28) = 0xB2ABE309#32 := by decide +kernel
theorem graph_crc_2 : crc32cRun 0xB2ABE309#32 (graphPart 56) = 0xE9F11A43#32 := by decide +kernel
theorem graph_crc_3 : crc32cRun 0xE9F11A43#32 (graphPart 84) = 0xB849F43A#32 := by decide +kernel
theorem graph_crc_4 : crc32cRun 0xB849F43A#32 (graphPart 112) = 0x5E09B5CF#32 := by decide +kernel
theorem graph_crc_5 : crc32cRun 0x5E09B5CF#32 (graphPart 140) = 0x6B32C5CA#32 := by decide +kernel
theorem graph_crc_6 : crc32cRun 0x6B32C5CA#32 (graphPart 168) = 0x571FC3B4#32 := by decide +kernel
theorem graph_crc_7 : crc32cRun 0x571FC3B4#32 (graphPart 196) = 0xEBAF70C8#32 := by decide +kernel
theorem graph_crc_8 : crc32cRun 0xEBAF70C8#32 (graphPart 224) = 0xE1183E61#32 := by decide +kernel

/-- The CRC of the images. -/
theorem graph_crc : crc32c (graphHead ++ opImage) = graphCrc := by
  unfold crc32c
  rw [graph_parts]
  simp only [crc_append, graph_crc_0, graph_crc_1, graph_crc_2, graph_crc_3, graph_crc_4, graph_crc_5, graph_crc_6, graph_crc_7, graph_crc_8]
  decide +kernel

/-- The images in memory, records and a Frond owned, and a load that runs, with `room` records. -/
def gsLoads (room : Nat) : State :=
  let s := place mapped 0x10000 (graphFull ++ opImage)
  { s with own := [(ownKey 0x01 5, 0)], pool := [(48, room)], gs := { s.gs with loading := [(0, 0x10000)] } }

/-- As the load ends. -/
def gsLoaded (room : Nat) : State := { (gsLoads room).wr (Reg.GS_PT_STATUS 0) 0 with gs := { (gsLoads room).gs with loading := [] } }

/-- The images are read. -/
theorem gs_images (room : Nat) (h : room = 8 ∨ room = 0) :
    (gsLoaded room).graphImages 0 0x10000 = (gsLoaded room, .ok (graphFull, opImage)) := by
  have r1 : (gsLoaded room).readDva 0 0x10000 128 = .data graphFull false := by rcases h with rfl | rfl <;> decide +kernel
  have r2 : (gsLoaded room).readDva 0 0x10080 128 = .data opImage false := by rcases h with rfl | rfl <;> decide +kernel
  have r3 : graphHeaderOk graphFull = true := by decide +kernel
  have r4 : getLE graphFull 8 8 = 0x10080 := by decide +kernel
  have r5 : getLE graphFull 4 2 = 1 := by decide +kernel
  unfold State.graphImages
  simp only [r1, r3, r4, r5]
  simp [r2]

/-- They pass every check when there is room, and are refused otherwise. -/
theorem gs_code : (gsLoaded 8).graphCode 0 graphFull opImage = 0 ∧ (gsLoaded 0).graphCode 0 graphFull opImage = 0x0702 := by
  have r1 : graphFull.take 0x7C ++ opImage = graphHead ++ opImage := by decide +kernel
  have r2 : getLE graphFull 0x7C 4 = graphCrc := by decide +kernel
  constructor <;> · unfold State.graphCode; rw [r1, graph_crc, r2]; decide +kernel

/-- The operation is delayed, and due. -/
def delayed0 : State := { frond5 .delayed with gs := { (frond5 .delayed).gs with delay := [(0, [(0, ⟨3, 0, 0⟩)])] } }

/-- The one operation waits on a flag, with nothing else to run; the monitor is on. -/
def stuck : State := ((frond5 (.placed 5)).wr (Reg.GS_PT_CFG 0) 0x102).setTc 5 { slot0 := some ⟨⟨3, 0, 0⟩, 3, 0⟩, wait := some (7, 1) }

/-- The operation sits ready in slot 0 of Frond 5. -/
def placed5 : State := (frond5 (.placed 5)).setTc 5 { slot0 := some ⟨⟨3, 0, 0⟩, 2, 1⟩ }

/-- The operation has retired. -/
def ended5 : State := (frond5 (.placed 5)).setTc 5 { slot0 := some ⟨⟨3, 0, 0⟩, 3, 1⟩, retired := true }

/-- Frond 5 about to issue the word `w`. -/
def withWord (w : Nat) : State := ready.setTc 5 { slot0 := some ⟨⟨3, 0, 0⟩, 3, 0⟩, line := some (0, leBytes 64 w) }

/-- The same with partition 0's planes, and the Frond owned by it. -/
def onPlanes (w : Nat) : State :=
  { planes.setTc 5 { slot0 := some ⟨⟨3, 0, 0⟩, 3, 0⟩, line := some (0, leBytes 64 w) } with own := [(ownKey 0x01 5, 0)] }

/-- A branch to itself that is taken. -/
def branching : State := onPlanes 0x22200000

/-- The Frond and flag 0 owned by partition 0. -/
def flagOwner (w : Nat) : State := { withWord w with own := [(ownKey 0x01 5, 0), (ownKey 0x33 0, 0)] }

/-- The conversions of R256 in each lane. -/
def cvtRes (s : State) (n w i : Nat) : Nat × Nat × Bool :=
  let src := if cvtNarrow w then ((s.tc n).lane (fVA w) i, (s.tc n).vMark (fVA w) i) else (s.tc n).readPart (fVA w) (fPART w) (codeBits (fST w)) i
  let x := if fFN w = 1 then (decodeVal (fST w) src.1).mul (val32 ((s.tc n).opB w i).1) else (decodeVal (fST w) src.1, false)
  let c := convert (fDT w) x.1 (fRM w) (fSAT w) (srBits ((s.tc n).sreg (fSD w) % 2 ^ 32) ((s.tc n).sreg (fSX w) + i))
  (c.1, c.2 ||| x.2.toNat, src.2 || (fFN w == 1 && ((s.tc n).opB w i).2) || (fRM w == 2 && ((s.tc n).sMark (fSD w) || (s.tc n).sMark (fSX w))))

/-- The blocks of R257. -/
def qntBlk (s : State) (n w q : Nat) : List Nat × Nat × Nat :=
  qntBlock w ((s.tc n).sreg (fSS w) % 2 ^ 32)
    ((List.range 32).map fun j => if 32 * q + j < activeLanes w then some ((s.tc n).lane (fVA w) (32 * q + j)) else none)
    fun j => srBits ((s.tc n).sreg (fSD w) % 2 ^ 32) ((s.tc n).sreg (fSX w) + 32 * q + j)

/-- Their marks. -/
def qntBad (s : State) (n w q : Nat) : Bool :=
  fRM w == 2 && ((s.tc n).sMark (fSD w) || (s.tc n).sMark (fSX w)) && 32 * q < activeLanes w ||
    (List.range 32).any fun j => 32 * q + j < activeLanes w && (s.tc n).vMark (fVA w) (32 * q + j)

/-- The state before the counts of an MMA. -/
def mmaDone (w : Nat) : State :=
  let f := ((withWord w).tc 5).mma (mmaWord w)
  ((withWord w).setTc 5 { f.1 with mmas := f.1.mmas ++ [(0, [(0, 64), (0, 64)])] }).setArith 5 f.2

/-- TLOAD of a row of 16 elements of handle 1. -/
def tloadWord : Nat := 0x10200001 + 15 * 2 ^ 64

/-- Its tile. -/
def tile1 : Tile :=
  { handle := 1, image := descBytes 0x08 2 3 0x10000 [16, 16] [1, 64], count := 0, idxBase := 0, skip := false, origin := [0, 0], e0 := 16, e1 := 1,
    mask := false, spv := 0, sps := 0 }

/-- The load queued. -/
def tileLoading : State := (onPlanes tloadWord).setTc 5 { (onPlanes tloadWord).tc 5 with loads := [⟨0, 0, tile1⟩] }

/-- TSTORE of an element of handle 2. -/
def tstoreWord : Nat := 0x10300002

/-- Its tile. -/
def tile2 : Tile := { tile1 with handle := 2, image := descBytes 0x08 2 3 0x20000 [16, 16] [1, 64] }

/-- Flag 7 of partition 2 at the value `v`, and an operation on it released. -/
def flag7 (v : Nat) (o : FlagOp) : State :=
  { ready with own := [(ownKey 0x33 7, 2)], flags := { tab := if v = 0 then [] else [(7, { value := v })], queue := [o] } }

/-- Channel 5 of the movers owned by partition 0, idle. -/
def movOwned : State := { mapped with own := [(ownKey 0x21 5, 0), (ownKey 0x33 0, 0)] }

/-- Channel 5 about to execute the word `w`. -/
def movRuns (w : Nat) : State := (movOwned.setCh 5 { line := some (0, leBytes 64 w), run := some { start := 0 } }).wr (Reg.MOV_CH_STATE 5) 1

/-- Channel 5 with a row of 64 bytes to read. -/
def movBeats : State :=
  (movRuns 0).setCh 5 { (movRuns 0).ch 5 with cur := some { movx := false, src := 0x10000, dst := 0x20000, len := 64, rows := 1 } }

/-- Channel 5 at the end of its run. -/
def movEnds : State := (movOwned.setCh 5 { run := some { start := 0, ended := some 0 } }).wr (Reg.MOV_CH_STATE 5) 1

/-- ASSIGN_CLASS, FIRST and COUNT name flags 5 and 6. -/
def assigning : State := ((ready.wr Reg.QM_ASSIGN_CLASS 0x33).wr Reg.QM_ASSIGN_FIRST 5).wr Reg.QM_ASSIGN_COUNT 2

/-- GRANT_FIRST and COUNT name chunks 5 and 6. -/
def granting : State := (ready.wr Reg.QM_GRANT_FIRST 5).wr Reg.QM_GRANT_COUNT 2

/-- Ring 9 of partition 0, a submission ring of 4 entries at 0x10000. -/
def subRing : State := ({ mapped with own := [(ownKey 0x31 9, 0), (ownKey 0x33 0, 0)] }.wr (Reg.RING_BASE 9) 0x10000).wr (Reg.RING_CFG 9) 9

/-- The same as a completion ring. -/
def comRing : State := subRing.wr (Reg.RING_CFG 9) 11

/-- An item NOP. -/
def itemNop : List Byte := leBytes 1 7 ++ leBytes 1 1 ++ leBytes 58 0 ++ leBytes 4 0x238483F5

/-- An item that sets flag 0 to 5. -/
def itemSetB : List Byte := leBytes 1 3 ++ leBytes 1 1 ++ leBytes 10 0 ++ leBytes 4 5 ++ leBytes 44 0 ++ leBytes 4 0x9C0B0D7C

/-- An item that invalidates handle 1. -/
def itemDscB : List Byte := leBytes 1 6 ++ leBytes 1 1 ++ leBytes 6 0 ++ leBytes 2 1 ++ leBytes 1 5 ++ leBytes 49 0 ++ leBytes 4 0x9A6A677A

/-- The item waits at ring 9. -/
def itemWaits (b : List Byte) : State := { subRing with qm := { subRing.qm with items := [⟨9, 0, b⟩] } }

/-- The item is taken. -/
def itemTaken (b : List Byte) : State := subRing.ringHead 0 9 1

/-- An item NOP stands in ring 9 below TAIL_RAW. -/
def arriving : State := (place subRing 0x10000 itemNop).wr (Reg.RING_TAIL_RAW 9) 1

/-- An item for ring 9 waits to be posted. -/
def posting : State := { comRing with qm := { comRing.qm with posts := [⟨9, 0, leBytes 64 1, none⟩] } }

/-- Twenty bytes of an item. -/
def itemPart (b : List Byte) (k : Nat) : List Byte := ((b.take 60).drop k).take 20

/-- The CRC of `itemNop`. -/
theorem itemNop_crc : itemCrcOk itemNop = true := by
  have e : itemNop.take 0x3C ++ itemNop.drop 64 = itemPart itemNop 0 ++ itemPart itemNop 20 ++ itemPart itemNop 40 := by decide +kernel
  have e0 : crc32cRun 0xFFFFFFFF#32 (itemPart itemNop 0) = 0x7ECA2315#32 := by decide +kernel
  have e1 : crc32cRun 0x7ECA2315#32 (itemPart itemNop 20) = 0x9CC6CF6F#32 := by decide +kernel
  have e2 : crc32cRun 0x9CC6CF6F#32 (itemPart itemNop 40) = 0xDC7B7C0A#32 := by decide +kernel
  unfold itemCrcOk crc32c
  rw [e]
  simp only [crc_append, e0, e1, e2]
  decide +kernel

/-- The CRC of `itemSetB`. -/
theorem itemSetB_crc : itemCrcOk itemSetB = true := by
  have e : itemSetB.take 0x3C ++ itemSetB.drop 64 = itemPart itemSetB 0 ++ itemPart itemSetB 20 ++ itemPart itemSetB 40 := by decide +kernel
  have e0 : crc32cRun 0xFFFFFFFF#32 (itemPart itemSetB 0) = 0xCBE402AB#32 := by decide +kernel
  have e1 : crc32cRun 0xCBE402AB#32 (itemPart itemSetB 20) = 0xC4694AD6#32 := by decide +kernel
  have e2 : crc32cRun 0xC4694AD6#32 (itemPart itemSetB 40) = 0x63F4F283#32 := by decide +kernel
  unfold itemCrcOk crc32c
  rw [e]
  simp only [crc_append, e0, e1, e2]
  decide +kernel

/-- The CRC of `itemDscB`. -/
theorem itemDscB_crc : itemCrcOk itemDscB = true := by
  have e : itemDscB.take 0x3C ++ itemDscB.drop 64 = itemPart itemDscB 0 ++ itemPart itemDscB 20 ++ itemPart itemDscB 40 := by decide +kernel
  have e0 : crc32cRun 0xFFFFFFFF#32 (itemPart itemDscB 0) = 0x90C30EBA#32 := by decide +kernel
  have e1 : crc32cRun 0x90C30EBA#32 (itemPart itemDscB 20) = 0x3FF64FA2#32 := by decide +kernel
  have e2 : crc32cRun 0x3FF64FA2#32 (itemPart itemDscB 40) = 0x65959885#32 := by decide +kernel
  unfold itemCrcOk crc32c
  rw [e]
  simp only [crc_append, e0, e1, e2]
  decide +kernel


/-- A valid item of one entry without a FENCE is taken from ring 9. -/
theorem item_taken (b : List Byte) (opc : Nat) (h1 : getLE b 0 1 = opc) (h2 : itemValid b = true) (h3 : b.length = 64)
    (h4 : bitAt (getLE b 2 2) 1 = false) : (itemWaits b).takeItem (9 : Fin 8192) opc = some (itemTaken b, 0, ⟨9, 0, b⟩) := by
  have e1 : (itemWaits b).ownerOf 0x31 (9 : Fin 8192) = some 0 := by rfl
  have e2 : (itemWaits b).ptReady 0 = true := by
    have e : subRing.ptReady 0 = true := by decide +kernel
    have r : (itemWaits b).regs = subRing.regs := rfl
    unfold State.ptReady State.rdF State.rdN State.rd at e ⊢
    rw [r]
    exact e
  have e3 : (itemWaits b).qm.items.find? (fun i => i.ring == ((9 : Fin 8192) : Nat)) = some ⟨9, 0, b⟩ := by rfl
  have e4 : (itemWaits b).qm.items.erase ⟨9, 0, b⟩ = subRing.qm.items := by
    have r : (itemWaits b).qm.items = [⟨9, 0, b⟩] := rfl
    have q : subRing.qm.items = [] := by decide +kernel
    rw [r, List.erase_cons_head, q]
  unfold State.takeItem
  simp only [e1, e3, e2, h1, h2, h3, h4]
  simp [itemTaken, e4]
  rfl

/-- The items are valid. -/
theorem items_valid : itemValid itemNop = true ∧ itemValid itemSetB = true ∧ itemValid itemDscB = true := by
  have a1 : itemZerosOk itemNop = true := by decide +kernel
  have a2 : itemZerosOk itemSetB = true := by decide +kernel
  have a3 : itemZerosOk itemDscB = true := by decide +kernel
  refine ⟨?_, ?_, ?_⟩ <;> unfold itemValid
  · rw [itemNop_crc, a1]; decide +kernel
  · rw [itemSetB_crc, a2]; decide +kernel
  · rw [itemDscB_crc, a3]; decide +kernel

/-- The item is written. -/
def posted1 : State :=
  match posting.writeDva 0 uQm 0x10000 (leBytes 64 1) with
  | .done t => t
  | _ => posting

/-- A live update of the CFW. -/
def cfwUpd : Update := { type := 2, img := ⟨0, 0, [], false⟩, payload := [] }

/-- A frame of GET_TIME. -/
def timeFrame : List Byte := leBytes 1 0xA5 ++ leBytes 1 4 ++ leBytes 6 0 ++ leBytes 4 0x78E87BEC

/-- A request of command `cmd` with SEQ 1, without its CRC; from 0x12 on with AUTH. -/
def plainFrame (cmd : Nat) (payload : List Byte) : List Byte :=
  leBytes 1 0xA5 ++ leBytes 1 cmd ++ leBytes 2 1 ++ leBytes 2 payload.length ++ leBytes 1 (if cmdAuth cmd then 1 else 0) ++ leBytes 1 0 ++ payload

/-- The request waits at the port. -/
def plainReq (r : List Byte) : State := { ready with mgt := { ready.mgt with served := true, request := some r } }

/-- A session key. -/
def sessKey : List Byte := leBytes 32 7

/-- A frame with its tag. -/
def signed (b : List Byte) : List Byte := b ++ (hmac256 sessKey b).take 16

/-- A session in which the signed frame waits. -/
def session (b : List Byte) : State := { ready with mgt := { ready.mgt with served := true, key := some sessKey, request := some (signed b) } }

/-- Fields in the first bytes of an appended list. -/
theorem getLE_append (b t : List Byte) (o n : Nat) (h : o + n ≤ b.length) : getLE (b ++ t) o n = getLE b o n := by
  unfold getLE
  rw [List.drop_append_of_le_length (by omega), List.take_append_of_le_length (by simp; omega)]

/-- The payload of a signed frame. -/
theorem signed_payload (b p : List Byte) (h : b.length = 8 + frLen b ∧ b.drop 8 = p) : frPayload (signed b) = p := by
  have e : frLen (signed b) = frLen b := getLE_append b _ 4 2 (by omega)
  unfold frPayload
  rw [e, signed, List.drop_append_of_le_length (by omega), List.take_append_of_le_length (by simp; omega), h.2]
  rw [← h.2, List.take_of_length_le]
  simp; omega

/-- The controller accepts a signed frame in a session. -/
theorem session_accepts (b : List Byte) (cmd : Nat) (dead : Bool) (h1 : b.length = 8 + frLen b) (h2 : frCmd b = cmd) (h3 : frAuth b = true) :
    (session b).mgtAccepts cmd dead (signed b) = true := by
  have e1 : frLen (signed b) = frLen b := getLE_append b _ 4 2 (by omega)
  have e2 : frAuth (signed b) = true := by rw [← h3]; unfold frAuth; rw [signed, getLE_append b _ 6 1 (by omega)]
  have e3 : frCmd (signed b) = cmd := by rw [← h2]; exact getLE_append b _ 1 1 (by omega)
  have e4 : (session b).tagOk (signed b) = true := by
    have k1 : (session b).mgt.key = some sessKey := rfl
    have k2 : (session b).mgt.lastSeq = none := rfl
    unfold State.tagOk
    simp only [k1, k2, e2, e1, ← h1]
    simp [signed, List.take_take]
  have e5 : (session b).mainUp = true := by
    have : ready.mainUp = true := by decide +kernel
    exact this
  have e6 : (session b).rdB Reg.REL_STATUS 0 = false := by
    have : ready.rdB Reg.REL_STATUS 0 = false := by decide +kernel
    exact this
  have e7 : (session b).pwr.stopped = false := rfl
  have e8 : ((session b).mgt.request == some (signed b)) = true := by simp [session]
  have e9 : (session b).mgt.served = true := rfl
  simp [State.mgtAccepts, e3, e4, e5, e6, e7, e8, e9]

/-- A packet from partition 2 of device 9 through binding 1. -/
def linkPk (type addr : Nat) : Packet :=
  { type := type, poison := 0, len := 1, hops := 0, dst := 0, kphase := false, src := 9, pt := 2, bind := 1, tag := 4, addr := addr, seq := 1,
    authOk := true, payload := leBytes 64 5 }

/-- The binding of device 9: a page of partition 0 at 0x10000, reads, writes and signals; flag 0 is owned. -/
def bound : State :=
  { mapped with own := [(ownKey 0x33 0, 0)], lnk := { mapped.lnk with bindings := [(0, ⟨9, 2, 1, 0, 0x10000, 0x1000, true, true, true⟩)] } }

/-- The master waits for READY, with no region, and device 9 as its standby. -/
def ckptWaits : State :=
  (({ mapped.setRole .master with lnk := { (mapped.setRole .master).lnk with ckpt := { waiting := true } } }.wr Reg.LNK_STANDBY (9 + 2 ^ 31)).wr
    (Reg.LNK_PORT_STATUS 3) (2 + 4 + 9 * 16)).wr (Reg.LNK_RT 9) (8 + 2 ^ 31)

/-- The standby with epoch 1 open and nothing to come. -/
def ckptOpen : State := { ready.setRole .standby with lnk := { (ready.setRole .standby).lnk with ckpt := { openEpoch := some 1 } } }

/-- The header of an empty bundle of KIND 1. -/
def bundleHead : List Byte := leBytes 2 0xB0D1 ++ leBytes 1 1 ++ leBytes 1 1 ++ leBytes 4 1 ++ leBytes 120 0

/-- The bundle at 0x10000, and a session of partition 0. -/
def importing : State :=
  { (place mapped 0x10000 bundleHead).wr (Reg.SEC_ARG 0) 0x10000 with sec := { mapped.sec with sess := [(0, { priv := 1, pub := [] })] } }

/-- The entry of task 1, of partition 0, with MODE and PROG. -/
def chkEntry (mode prog : Nat) : List Byte :=
  leBytes 2 1 ++ leBytes 1 0 ++ leBytes 1 mode ++ leBytes 1 prog ++ leBytes 3 0 ++ leBytes 4 0 ++ leBytes 4 (2 ^ 32 - 1) ++ leBytes 4 0 ++ leBytes 4 10 ++
    leBytes 4 4096 ++ leBytes 36 0

/-- The checker runs, with one task without frames that posts to the management port. -/
def checking : State :=
  { mapped with safe := { mapped.safe with noFw := false, table := [(1, chkEntry 0x28 0xFF)], armAt := [(1, 0)] } }

/-- A run whose copy 0 has arrived. -/
def chkRun : SafeRun := { task := 1, pt := 0, key := 0, items := [(0, leBytes 64 0)], firstAt := 0 }

/-- The run is gathered. -/
def gathered (mode prog : Nat) : State :=
  { checking with safe := { checking.safe with table := [(1, chkEntry mode prog)], runs := [chkRun] } }

/-- Its program runs. -/
def judging : State := { gathered 0x28 0 with safe := { (gathered 0x28 0).safe with runs := [{ chkRun with prog := some (0, 0) }] } }

/-- It waits for a record. -/
def rereading : State := { gathered 0x28 0xFF with safe := { (gathered 0x28 0xFF).safe with runs := [{ chkRun with waitRec := true }] } }

/-- What a read returns, from a check that can be decided. -/
theorem readRes_ok {x : ReadRes} {b : List Byte} (h : (match x with | .data c false => c == b | _ => false) = true) : x = .data b false := by
  split at h <;> simp_all

/-- A copy of one audio sample runs. -/
def audWaits : State :=
  { mapped.wr Reg.AUD_NEXT 1 with pwr := { mapped.pwr with copying := some (0, 1, 0x10000), audio := [(0, 3 :: List.replicate 7 0)] } }

/-- The sample is written. -/
def audCopied : State :=
  match ({ audWaits with pwr := { audWaits.pwr with copying := none } } : State).writeDva 0 ⟨0, 0⟩ 0x10000 (leBytes 16 3) with
  | .done t => t
  | _ => audWaits

/-- What a walk gives, from a check that can be decided. -/
theorem walk_ok {x : Except XFault Nat} {a : Nat} (h : x.toOption = some a) : x = .ok a := by
  cases x <;> simp_all [Except.toOption]


/-! ### Ill-formed commands are refused, one for each check of WellFormed.lean -/

theorem test_wf_write_misaligned : Instr.wf (.registerWrite 0 2 false 0) = false := by decide
theorem test_wf_write_outside_vf_bar : Instr.wf (.registerWrite 1 0x1000000 false 0) = false := by decide
theorem test_wf_write_narrow_value : Instr.wf (.registerWrite 0 0 false 0x100000000) = false := by decide
theorem test_wf_write_good : Instr.wf (.registerWrite 0 0x3FFFFFC false 5) = true := by decide
theorem test_wf_rc_read_outside : Instr.wf (.rcRead 0 0x4000000) = false := by decide
theorem test_wf_counter_read_misaligned : Instr.wf (.counterLowRead 3 1) = false := by decide
theorem test_wf_window_counts : Instr.wf (.imbalanceWindow 3 0 4 0) = false := by decide
theorem test_wf_entries_not_whole : Instr.wf (.ringEntriesArrive 0 (leBytes 63 0) false) = false := by decide
theorem test_wf_flit_idle_with_packet : Instr.wf (.flitReceive 0 .good .idle 0 0 0 [linkPk 1 0]) = false := by decide
theorem test_wf_flit_bad_packet : Instr.wf (.flitReceive 0 .good .data 0 0 0 [{ linkPk 1 0 with pt := 16 }]) = false := by decide
theorem test_wf_link_write_of_a_read : Instr.wf (.linkWrite (linkPk 2 0)) = false := by decide
theorem test_wf_link_write_length : Instr.wf (.linkWrite { linkPk 1 0 with len := 2 }) = false := by decide
theorem test_wf_link_write_good : Instr.wf (.linkWrite (linkPk 1 0)) = true := by decide
theorem test_wf_link_read_of_a_write : Instr.wf (.linkRead (linkPk 1 0)) = false := by decide
theorem test_wf_link_signal_type : Instr.wf (.linkSignal (linkPk 1 0)) = false := by decide
theorem test_wf_response_length : Instr.wf (.readResp 0 0 0 (leBytes 65 0)) = false := by decide
theorem test_wf_ckpt_data_empty : Instr.wf (.ckptData 1 []) = false := by decide
theorem test_wf_audio_microphones : Instr.wf (.audioSample [0, 0, 0]) = false := by decide
theorem test_wf_frame_empty : Instr.wf (.frameWrite []) = false := by decide
theorem test_wf_packet_fields : ({ linkPk 1 0 with addr := 2 ^ 35 } : Packet).wf = false ∧ ({ linkPk 1 0 with type := 16 } : Packet).wf = false := by decide
theorem test_wf_program_result : (ProgEnd.wf ⟨false, 0, leBytes 15 0, []⟩) = false ∧ (ProgEnd.wf ⟨false, 0, leBytes 16 0, []⟩) = true := by decide
theorem test_no_row_gives_bits : decodeTableWord 32 0 = none := by decide

/-! ### Worked examples of the spec -/

/-- The FP16 planes of the example under R189. -/
def fp16Planes : Desc :=
  { Desc.ofBytes (leBytes 128 0) with etype := 2, rank := 3, layout := 1, flags := 3, base := 0x20000000, dim := [2592, 1944, 3], bc := 32, br := 16,
                                      stride := [0, 82944, 10119168] }

/-- The A4 weights of the example under R189. -/
def a4Weights : Desc :=
  { Desc.ofBytes (leBytes 128 0) with etype := 0x18, rank := 2, layout := 1, flags := 1, dim := [6144, 16896], bc := 128, br := 64,
                                      stride := [0, 196608], sb := 32, stype := 0xD, scaleRs := 192 }

/-- The window of the example under R179. -/
def window : Desc :=
  { Desc.ofBytes (leBytes 128 0) with etype := 8, rank := 3, flags := 5, dim := [32, 640, 480], kw := 3, kh := 3, sw := 2, sh := 2, dw := 1, dh := 1,
                                      padL := 1, padR := 1, padT := 1, padB := 1 }

/-- Pairs of BF16 codes with ones. -/
def withOnes (cs : List Nat) : List (Val × Val) := cs.map fun c => (decodeVal 1 c, decodeVal 1 0x3F80)

theorem test_footprint_of_blocks : fp16Planes.extent = 30357504 := by decide +kernel
theorem test_address_in_block : fp16Planes.elemAddr [1000, 1000, 2] = (0x20000000 + 0x0183C610, 0) := by decide +kernel
theorem test_footprint_of_scaled : a4Weights.extent = 51904512 ∧ a4Weights.scaleExtent = 3244032 := by decide +kernel
theorem test_address_of_nibble : a4Weights.elemAddr [5000, 700] = (2129668, 0) ∧ a4Weights.scaleAddr [5000, 700] = 134556 := by decide +kernel
theorem test_window_view : window.viewDims 0 = [288, 320, 240] := by decide +kernel
theorem test_window_element : window.select 0 false (fun _ => 0) [100, 5, 0] = .elem [4, 9, 0] := by decide +kernel
theorem test_window_padding : window.select 0 false (fun _ => 0) [0, 0, 0] = .zero := by decide +kernel
theorem test_a4_values : ([7, 0xC, 1].map fun c => (to32 ((scaledVal 0x18 c 0xA6).mul (val32 0x3C000000)).1).1) = [0x40280000, 0xBF600000, 0x3E600000] := by
  decide +kernel
theorem test_a4_quantised : quantA4 0x3C000000 [some 0x402CCCCD, some 0xBF800000, some 0x3E99999A] 0 (fun _ => 0) = ([7, 0xC, 1], 0xA6, 0) := by
  decide +kernel
theorem test_bf16_chunk : chunkFloat (withOnes [0x4B80, 0x3F80, 0xCB80, 0x3F80]) (tensorScale 1 1 0 0) = (0x40000000, 0) := by decide +kernel
theorem test_bf16_two_chunks :
    accFloat (accFloat 0 (chunkFloat (withOnes [0x4B80, 0x3F80]) (tensorScale 1 1 0 0)).1).1
      (chunkFloat (withOnes [0xCB80, 0x3F80]) (tensorScale 1 1 0 0)).1 = (0x3F800000, 0) := by decide +kernel
theorem test_e4m3_overflow_tie : convert 3 (val32 0x43E80000) 0 false 0 = (0x7E, 0) := by decide +kernel
theorem test_e2m1_toward_zero : convert 7 (val32 0x41100000) 1 false 0 = (7, 4) := by decide +kernel
theorem test_int8_toward_zero : convert 8 (val32 0x43960000) 1 false 0 = (127, 4) := by decide +kernel
theorem test_int32_saturates : accInt 0x7FFFFFFF 1 = (0x7FFFFFFF, 4) := by decide +kernel
/-- The check value of CRC-32C (R48). -/
theorem test_crc32c : crc32c ((List.range 9).map fun i => BitVec.ofNat 8 (0x31 + i)) = 0xE3069283 := by decide +kernel
/-- The first example of FIPS 180-4 for SHA-256 (R442). -/
theorem test_sha256 : (sha256 [0x61, 0x62, 0x63]).take 4 = [0xBA, 0x78, 0x16, 0xBF] := by decide +kernel

/-! ### One step of some command of each family -/

/-- The state after one step of a command. -/
def after (c : Instr) (s : State) : State :=
  match step { s with pending := [c] } with
  | .next t => t
  | _ => s

theorem test_register_write : (after (.registerWrite 0 (BitVec.ofNat 32 Reg.PWR_WAKE_EN) false 9) ready).rdN Reg.PWR_WAKE_EN = 9 := by decide +kernel
theorem test_csi_enable : (after (.csiCtrlWrite 0 0x03E80001) ready).rdB (Reg.CSI_CTRL 0) 0 = true := by decide +kernel
theorem test_desc_create_busy : (after (.dscCreate 0 5) mapped).rdB (Reg.DSC_PT_STATUS 0) 0 = true := by decide +kernel
theorem test_flag_add : (Tab.getD (after (.flagAddWrite 0 0 3 false) { ready with own := [(ownKey 0x33 0, 0)] }).flags.tab 0 {}).value = 3 := by decide +kernel
theorem test_cache_busy : (after (.flushAll 0) ready).rdB (Reg.MEM_PT_CACHE_STATUS 0) 0 = true := by decide +kernel
theorem test_security_refused : (after (.secSession 0) { ready with sec := { ready.sec with rngBad := true } }).sec.cmd.map (·.code) = some 0x0C0B := by
  decide +kernel
theorem test_hold_test : (after .holdTest checking).safe.heldSince.isSome = true := by decide +kernel
theorem test_self_test_fails : (after (.selftestComplete false) checking).degraded = true := by decide +kernel
theorem test_freeze : (after .dbgFreeze ready).isFrozen = true := by decide +kernel
theorem test_thaw : (after .dbgThaw (after .dbgFreeze ready)).isFrozen = false := by decide +kernel
theorem test_thermal_stop : (after (.thermalSample 120 3) ready).pwr.stopped = true ∧ (after (.thermalSample 120 3) ready).pwr.kHeat = 4 := by decide +kernel
theorem test_audio_number : (after (.audioSample [1, 2, 3, 4, 5, 6, 7, 8]) (ready.wr Reg.AUD_CFG 0x301)).rdN Reg.AUD_NEXT = 1 := by decide +kernel
theorem test_frame_request : (after (.frameWrite timeFrame) ready).mgt.request = some (timeFrame.take 8) := by decide +kernel
theorem test_idle_tick : (match step ready with | .next t => t.time | _ => 0) = nominalRate := by decide +kernel

/-! ### The premises of the statements hold together somewhere -/

/-- The premises of IdleStepTicksDeviceTime, idle, hold together. -/
theorem witness_IdleStepTicksDeviceTime_0 : ∃ (s : State),
    s.pending = [] :=
  ⟨State.reset, by decide +kernel⟩

/-- The premises of EveryStepKeepsTheInvariant, keeps, hold together. -/
theorem witness_EveryStepKeepsTheInvariant_0 : ∃ (s t : State),
    s.Inv ∧
    step s = .next t :=
  ⟨State.reset, State.reset.tick, ⟨⟨by decide, by decide, by decide⟩, by intro e he; cases he⟩, rfl⟩

/-- The premises of EveryStepTakesOneCommandAndKeepsOutputs, takes, hold together. -/
theorem witness_EveryStepTakesOneCommandAndKeepsOutputs_0 : ∃ (c : Instr) (rest : List Instr) (s t : State),
    s.pending = c :: rest ∧
    step s = .next t :=
  ⟨.dbgThaw, [], { State.reset with pending := [.dbgThaw] }, State.reset.wrF Reg.DBG_STATUS 0 1 0, rfl, rfl⟩

/-- The premises of MemoryReadsAsLastWritten, canonical, hold together. -/
theorem witness_MemoryReadsAsLastWritten_1 : ∃ (s : State) (a : Nat) (bs : List Byte) (bad : Bool),
    Memory.wf s.mem = true :=
  ⟨State.reset, 0, [1#8], false, by decide +kernel⟩

/-- The premises of HostRegisterAccess, registerWrite W1C, hold together. -/
theorem witness_HostRegisterAccess_0 : ∃ (off : BitVec 32) (v : BitVec 64) (row : RegRow) (s : State),
    s.answers 0 off.toNat = true ∧
    off.toNat % 4 = 0 ∧
    isMsix off.toNat = false ∧
    (¬(0x1880000 ≤ off.toNat ∧ off.toNat < 0x1900000)) ∧
    Reg.find off.toNat = some (row, 0) ∧
    (s.wake 0).hidden 0 off.toNat = false ∧
    row.own = false ∧
    row.acc = .w1c :=
  ⟨0xD0000C#32, 1#64, ⟨"CSI_n_ERR", 0xD0000C, [(0x4000, 12)], 4, .w1c, 0xFFFFFFFF, false⟩, ready, by decide +kernel⟩

/-- The premises of HostRegisterAccess, registerWrite RW taken, hold together. -/
theorem witness_HostRegisterAccess_1 : ∃ (off : BitVec 32) (v : BitVec 64) (row : RegRow) (s : State),
    s.answers 0 off.toNat = true ∧
    off.toNat % 4 = 0 ∧
    isMsix off.toNat = false ∧
    (¬(0x1880000 ≤ off.toNat ∧ off.toNat < 0x1900000)) ∧
    Reg.find off.toNat = some (row, 0) ∧
    (s.wake 0).hidden 0 off.toNat = false ∧
    row.own = false ∧
    row.acc = .rw ∧
    (s.wake 0).writeRefused row off.toNat ((s.wake 0).rdN off.toNat - ((s.wake 0).rdN off.toNat &&& (row.wmask &&& (2 ^ 32 - 1))) +
      (v.toNat % 2 ^ 32 &&& (row.wmask &&& (2 ^ 32 - 1)))) = none :=
  ⟨0x1B00014#32, 30#64, ⟨"PWR_LIMIT", 0x1B00014, [], 4, .rw, 0x7F, false⟩, ready, by decide +kernel⟩

/-- The premises of HostRegisterAccess, registerWrite RW refused, hold together. -/
theorem witness_HostRegisterAccess_2 : ∃ (off : BitVec 32) (v : BitVec 64) (row : RegRow) (s t : State),
    s.answers 0 off.toNat = true ∧
    off.toNat % 4 = 0 ∧
    isMsix off.toNat = false ∧
    (¬(0x1880000 ≤ off.toNat ∧ off.toNat < 0x1900000)) ∧
    Reg.find off.toNat = some (row, 0) ∧
    (s.wake 0).hidden 0 off.toNat = false ∧
    row.own = false ∧
    row.acc = .rw ∧
    (s.wake 0).writeRefused row off.toNat ((s.wake 0).rdN off.toNat - ((s.wake 0).rdN off.toNat &&& (row.wmask &&& (2 ^ 32 - 1))) +
      (v.toNat % 2 ^ 32 &&& (row.wmask &&& (2 ^ 32 - 1)))) = some t :=
  ⟨0x1B00014#32, 91#64, ⟨"PWR_LIMIT", 0x1B00014, [], 4, .rw, 0x7F, false⟩, ready, ready.pwrErr 0x0F02, by decide +kernel⟩

/-- The premises of HostRegisterAccess, registerWrite RO, hold together. -/
theorem witness_HostRegisterAccess_3 : ∃ (off : BitVec 32) (v : BitVec 64) (row : RegRow) (s : State),
    s.answers 0 off.toNat = true ∧
    off.toNat % 4 = 0 ∧
    isMsix off.toNat = false ∧
    (¬(0x1800000 ≤ off.toNat ∧ off.toNat < 0x1900000)) ∧
    Reg.find off.toNat = some (row, 0) ∧
    row.own = false ∧
    row.acc = .ro :=
  ⟨0x1B00000#32, 30#64, ⟨"PWR_STATUS", 0x1B00000, [], 4, .ro, 0x0, false⟩, ready, by decide +kernel⟩

/-- The premises of HostRegisterAccess, rcRead, hold together. -/
theorem witness_HostRegisterAccess_4 : ∃ (off : BitVec 32) (row : RegRow) (s : State),
    s.answers 0 off.toNat = true ∧
    off.toNat % 4 = 0 ∧
    Reg.find off.toNat = some (row, 0) ∧
    row.acc = .rc :=
  ⟨0x1000018#32, ⟨"CRZ_HANDOFF_MAX", 0x1000018, [], 4, .rc, 0x0, false⟩, ready, by decide +kernel⟩

/-- The premises of HostRegisterAccess, counterLowRead, hold together. -/
theorem witness_HostRegisterAccess_5 : ∃ (off : BitVec 32) (row : RegRow) (s : State),
    s.answers 0 off.toNat = true ∧
    off.toNat % 4 = 0 ∧
    Reg.find off.toNat = some (row, 0) ∧
    isCounter off.toNat = true :=
  ⟨0x100030#32, ⟨"TC_n_OPS", 0x100030, [(0x10000, 32)], 8, .ro, 0x0, false⟩, ready, by decide +kernel⟩

/-- The premises of HostRegisterAccess, dtNowLowRead, hold together. -/
theorem witness_HostRegisterAccess_6 : ∃ (s : State),
    s.answers 0 Reg.DT_NOW = true :=
  ⟨ready, by decide +kernel⟩

/-- The premises of SensorPortCommands, csiCtrlWrite enable, hold together. -/
theorem witness_SensorPortCommands_0 : ∃ (n : Fin 12) (value : BitVec 32) (s : State),
    csiCtrlOk (value.toNat &&& 0xFFFF001F) = true ∧
    bitAt (value.toNat &&& 0xFFFF001F) 0 = true ∧
    s.rdB (Reg.CSI_CTRL n) 0 = false ∧
    s.rung < 2 :=
  ⟨3, 0x03E80001#32, ready, by decide +kernel⟩

/-- The premises of SensorPortCommands, csiCtrlWrite refused, hold together. -/
theorem witness_SensorPortCommands_1 : ∃ (n : Fin 12) (value : BitVec 32) (s : State),
    csiCtrlOk (value.toNat &&& 0xFFFF001F) = false :=
  ⟨3, 1#32, ready, by decide +kernel⟩

/-- The premises of SensorPortCommands, csiCalibrationComplete, hold together. -/
theorem witness_SensorPortCommands_2 : ∃ (n : Fin 12) (s : State),
    s.rdB (Reg.CSI_CTRL n) 0 = true :=
  ⟨3, ready.wr (Reg.CSI_CTRL 3) 1, by decide +kernel⟩

/-- The premises of SensorPortCommands, laneLockFailure, hold together. -/
theorem witness_SensorPortCommands_3 : ∃ (n : Fin 12) (s : State),
    s.rdB (Reg.CSI_CTRL n) 0 = true :=
  ⟨3, ready.wr (Reg.CSI_CTRL 3) 1, by decide +kernel⟩

/-- The premises of SensorPortCommands, streamRegWrite disabled, hold together. -/
theorem witness_SensorPortCommands_5 : ∃ (m : Fin 48) (reg : ShadowReg) (value : BitVec 32) (s : State),
    bitAt (s.st m).cfg 0 = false :=
  ⟨5, .geom, 0#32, ready, by decide +kernel⟩

/-- The premises of SensorPortCommands, streamRegWrite enabled, hold together. -/
theorem witness_SensorPortCommands_6 : ∃ (m : Fin 48) (reg : ShadowReg) (value : BitVec 32) (s : State),
    bitAt (s.st m).cfg 0 = true ∧
    reg ≠ .cfg ∧
    s.rdB (Reg.ST_CFG m) 0 = true :=
  ⟨5, .geom, 0#32, (ready.setSt 5 { cfg := 1 }).wr (Reg.ST_CFG 5) 1, by decide +kernel⟩

/-- The premises of SensorFrameCommands, frameStart, hold together. -/
theorem witness_SensorFrameCommands_0 : ∃ (n : Fin 12) (vc : Fin 32) (fnum : BitVec 16) (s : State),
    s.csiLocked n = true :=
  ⟨0, 0, 0#16, locked, by decide +kernel⟩

/-- The premises of SensorFrameCommands, longPacket, hold together. -/
theorem witness_SensorFrameCommands_1 : ∃ (n : Fin 12) (vc : Fin 32) (dt : BitVec 6) (payload : List Byte) (m : Nat) (f : OpenFrame) (s : State),
    s.csiLocked n = true ∧
    ((s.csiStreams n).filter fun k => s.vcMatch n k vc).find? (fun k => fld (s.st k).dt 0 6 == dt.toNat || fld (s.st k).dt 8 6 == dt.toNat) = some m ∧
    (s.st m).frame = some f :=
  ⟨0, 0, 0#6, [1#8], 0, frame0, inFrame, by decide +kernel⟩

/-- The premises of SensorFrameCommands, frameEnd, hold together. -/
theorem witness_SensorFrameCommands_2 : ∃ (n : Fin 12) (vc : Fin 32) (s : State),
    s.csiLocked n = true :=
  ⟨0, 0, locked, by decide +kernel⟩

/-- The premises of SensorFrameCommands, frameTimeout, hold together. -/
theorem witness_SensorFrameCommands_3 : ∃ (m : Fin 48) (f : OpenFrame) (s : State),
    (s.st m).frame = some f ∧
    s.rdN (Reg.ST_TIMEOUT m) ≠ 0 :=
  ⟨0, frame0, inFrame.wr (Reg.ST_TIMEOUT 0) 100, by decide +kernel⟩

/-- The premises of SensorFrameCommands, not locked, hold together. -/
theorem witness_SensorFrameCommands_4 : ∃ (n : Fin 12) (vc : Fin 32) (fnum : BitVec 16) (dt : BitVec 6) (payload : List Byte) (chk : PktCheck) (s : State),
    s.csiLocked n = false :=
  ⟨0, 0, 0#16, 0#6, [], ⟨false, false, false, false, false⟩, ready, by decide +kernel⟩

/-- The premises of ImagePipelineCommands, ispCtxCfgWrite SRC, hold together. -/
theorem witness_ImagePipelineCommands_0 : ∃ (u : Fin 48) (value : BitVec 32) (s : State),
    bitAt (s.ictxCfg u) 0 = false :=
  ⟨5, 7#32, ready, by decide +kernel⟩

/-- The premises of ImagePipelineCommands, ispCtxCfgWrite CFG, hold together. -/
theorem witness_ImagePipelineCommands_1 : ∃ (u : Fin 48) (value : BitVec 32) (s : State),
    bitAt (s.ictxCfg u) 0 = false ∧
    bitAt (value.toNat &&& 0x3FFFFF) 0 = false ∧
    fld (value.toNat &&& 0x3FFFFF) 4 4 ≤ 6 ∧
    fld (value.toNat &&& 0x3FFFFF) 16 6 ≤ 32 :=
  ⟨5, 0x200060#32, ready, by decide +kernel⟩

/-- The premises of ImagePipelineCommands, ispCtxCfgWrite enabled, hold together. -/
theorem witness_ImagePipelineCommands_2 : ∃ (u : Fin 48) (src : Bool) (value : BitVec 32) (s : State),
    bitAt (s.ictxCfg u) 0 = true :=
  ⟨5, false, 0#32, ready.wr (Reg.ISP_CTX_CFG 1 1) 1, by decide +kernel⟩

/-- The premises of ImagePipelineCommands, pbPost, hold together. -/
theorem witness_ImagePipelineCommands_3 : ∃ (u : Fin 48) (dva : BitVec 64) (s : State),
    (s.ictx u).post = none :=
  ⟨5, 0x10000#64, ready, by decide +kernel⟩

/-- The premises of ImagePipelineCommands, pbFetchComplete ready, hold together. -/
theorem witness_ImagePipelineCommands_4 : ∃ (u : Fin 48) (dva : Nat) (b : List Byte) (s : State),
    (s.ictx u).post = some dva ∧
    (s.ictx u).ready = none ∧
    s.readDva (s.ictxPt u) dva 16640 = .data b false ∧
    dva % 256 = 0 :=
  ⟨5, 0x10000, setPages.flatMap fun e => posted.readPA e.1 e.2, posted, by decide +kernel, by decide +kernel, set_readable, by decide +kernel⟩

/-- The premises of ImagePipelineCommands, ispRowOutput, hold together. -/
theorem witness_ImagePipelineCommands_5 : ∃ (u : Fin 48) (f : IspFrame) (s s1 : State),
    (s.ictx u).frame = some f ∧
    f.rows < f.height ∧
    f.ready (s.ictxExp u) f.rows = true ∧
    s.ispWrite u f.pt (f.rowBad (s.ictxExp u) f.rows) (s.ispRow u f) = some s1 :=
  ⟨0, ispFrame0, ready.setIctx 0 { frame := some ispFrame0 }, ready.setIctx 0 { frame := some ispFrame0 }, by decide +kernel⟩

/-- The premises of ImagePipelineCommands, ispStatsWrite, hold together. -/
theorem witness_ImagePipelineCommands_6 : ∃ (u : Fin 48) (f : IspFrame) (s : State),
    (s.ictx u).frame = some f ∧
    f.height ≤ f.rows ∧
    s.rewriting f.pt f.handles = false :=
  ⟨0, { ispFrame0 with rows := 1 }, ready.setIctx 0 { frame := some { ispFrame0 with rows := 1 } }, by decide +kernel⟩

/-- The premises of BrackenEngineCommands, brackenJobAccept, hold together. -/
theorem witness_BrackenEngineCommands_0 : ∃ (e : Fin 11) (r : NodeRef) (rest : List NodeRef) (k : Nat) (b : List Byte) (planes : Tab (List Byte)) (s s1 : State),
    (s.eng e).queue = r :: rest ∧
    (List.range 4).find? (fun k => (Tab.get? (s.eng e).ctx k).isNone) = some k ∧
    s1 = ((s.needP0.setEng e { s.eng e with queue := rest }).readJob e (s.cgPt r.slot) (((s.nodeRun r).map (·.block)).getD 0)).1 ∧
    ((s.needP0.setEng e { s.eng e with queue := rest }).readJob e (s.cgPt r.slot) (((s.nodeRun r).map (·.block)).getD 0)).2.toOption = some b ∧
    jobFinite (engKind e) b = true ∧
    (s1.capturePlanes (s.cgPt r.slot) (engKind e) (jobPlanes (engKind e) b) []).1 = some planes ∧
    BrkJob.shapeCode { node := r, pt := s.cgPt r.slot, dva := ((s.nodeRun r).map (·.block)).getD 0, block := b, planes := planes } (engKind e) = 0 :=
  ⟨2, ⟨0, 1, 0⟩, [], 0, filterJob, job0.planes, jobWaits, jobWaits.needP0.setEng 2 {}, by decide +kernel⟩

/-- The premises of BrackenEngineCommands, brackenRowStart, hold together. -/
theorem witness_BrackenEngineCommands_1 : ∃ (e : Fin 11) (k : Nat) (j : BrkJob) (d : Tab Nat) (s : State),
    (s.eng e).ctx.any (fun c => c.2.busy) = false ∧
    s.brkChoose (s.eng e) (engKind e) ((s.eng e).ctx.filter fun c => s.brkCanRun c.2 (engKind e)) = some (k, j, d) ∧
    0 < j.unit ∧
    j.recA.isSome = true :=
  ⟨2, 0, { job0 with unit := 1 }, [(0, 1004)], jobIn { job0 with unit := 1 }, by decide +kernel⟩

/-- The premises of BrackenEngineCommands, brackenRowDone, hold together. -/
theorem witness_BrackenEngineCommands_2 : ∃ (e : Fin 11) (k : Nat) (j : BrkJob) (r : UnitRes) (s s1 : State),
    (s.eng e).ctx.find? (fun c => c.2.busy) = some (k, j) ∧
    s.brkUnit e j = some r ∧
    r.bad = false ∧
    s.brkWriteAll j.pt e r.runs = some s1 ∧
    j.aborting = none :=
  ⟨2, 0, { job0 with busy := true }, ((jobIn { job0 with busy := true }).brkUnit 2 { job0 with busy := true }).getD {}, jobIn { job0 with busy := true }, ((jobIn { job0 with busy := true }).brkWriteAll 0 2 (((jobIn { job0 with busy := true }).brkUnit 2 { job0 with busy := true }).getD {}).runs).getD State.reset, by decide +kernel⟩

/-- The premises of BrackenEngineCommands, brackenWaitTimeout, hold together. -/
theorem witness_BrackenEngineCommands_3 : ∃ (e : Fin 11) (k : Fin 4) (j : BrkJob) (s : State),
    Tab.get? (s.eng e).ctx k = some j ∧
    getLE j.block 8 4 ≠ 0 ∧
    j.started = true ∧
    j.busy = false ∧
    j.unit < j.units (engKind e) ∧
    s.brkReady j (engKind e) = false :=
  ⟨2, 0, { job0 with ins := [some 0] }, jobIn { job0 with ins := [some 0] }, by decide +kernel⟩

/-- The premises of BrackenEngineCommands, brackenJobComplete, hold together. -/
theorem witness_BrackenEngineCommands_4 : ∃ (e : Fin 11) (k : Fin 4) (j : BrkJob) (s : State),
    Tab.get? (s.eng e).ctx k = some j ∧
    j.started = true ∧
    j.busy = false ∧
    j.units (engKind e) ≤ j.unit ∧
    s.rewriting j.pt (brkOutputs j.block) = false :=
  ⟨2, 0, { job0 with unit := 16 }, jobIn { job0 with unit := 16 }, by decide +kernel⟩

/-- The premises of CrozierCommands, crzLoad, hold together. -/
theorem witness_CrozierCommands_0 : ∃ (g : Fin 64) (s : State),
    s.crzOwned g = true ∧
    s.crzActive g = false ∧
    Tab.get? s.crz.loading g = none :=
  ⟨3, { ready with own := [(ownKey 0x19 3, 2)] }, by decide +kernel⟩

/-- The premises of CrozierCommands, crzLoadComplete, hold together. -/
theorem witness_CrozierCommands_1 : ∃ (g : Fin 64) (prog : Nat) (s : State),
    Tab.get? s.crz.loading g = some prog ∧
    prog % 16 = 0 :=
  ⟨3, 0x100, { ready with crz := { loading := [(3, 0x100)] } }, by decide +kernel⟩

/-- The premises of CrozierCommands, what a program makes, hold together. -/
theorem witness_CrozierCommands_2 : ∃ (g p prog : Nat) (ws : List Nat) (bs : List Byte) (x : CGraph) (s : State),
    (s.mkCGraph g p prog ws bs).toOption = some x :=
  ⟨3, 0, 0, [], [], ((ready.mkCGraph 3 0 0 [] []).toOption).getD graph0, ready, by decide +kernel⟩

/-- The premises of CrozierCommands, crzUnload, hold together. -/
theorem witness_CrozierCommands_3 : ∃ (g : Fin 64) (s : State),
    s.crzOwned g = true ∧
    s.crzActive g = false :=
  ⟨3, { ready with own := [(ownKey 0x19 3, 2)] }, by decide +kernel⟩

/-- The premises of CrozierCommands, crzTrigger, hold together. -/
theorem witness_CrozierCommands_5 : ∃ (g : Fin 64) (s : State),
    s.rdF (Reg.CRZ_GR_CFG g) 4 4 = 0 :=
  ⟨3, ready, by decide +kernel⟩

/-- The premises of CrozierCommands, crzTimerTrigger, hold together. -/
theorem witness_CrozierCommands_6 : ∃ (g : Fin 64) (s : State),
    fld (s.rdN (Reg.CRZ_GR_CFG g)) 4 4 = 4 ∧
    bitAt (s.rdN (Reg.CRZ_GR_CFG g)) 0 = true :=
  ⟨3, ready.wr (Reg.CRZ_GR_CFG 3) 0x41, by decide +kernel⟩

/-- The premises of CrozierCommands, crzCfgWrite EN, hold together. -/
theorem witness_CrozierCommands_7 : ∃ (g : Fin 64) (value : BitVec 32) (x : CGraph) (s : State),
    s.crzOwned g = true ∧
    s.cfgCode g (value.toNat % 2 ^ 26 &&& 0x3FFFFF7) = 0 ∧
    bitAt (value.toNat % 2 ^ 26 &&& 0x3FFFFF7) 0 = true ∧
    s.rdB (Reg.CRZ_GR_CFG g) 0 = false ∧
    s.cg g = some x :=
  ⟨0, 0x1000001#32, graph0, { mapped.setCg 0 graph0 with own := [(ownKey 0x19 0, 0)] }, by decide +kernel⟩

/-- The premises of CrozierCommands, crzCfgWrite refused, hold together. -/
theorem witness_CrozierCommands_8 : ∃ (g : Fin 64) (value : BitVec 32) (s : State),
    s.crzOwned g = true ∧
    s.cfgCode g (value.toNat % 2 ^ 26 &&& 0x3FFFFF7) ≠ 0 :=
  ⟨0, 0x1000001#32, { ready with own := [(ownKey 0x19 0, 0)] }, by decide +kernel⟩

/-- The premises of CrozierCommands, crzNodeStart, hold together. -/
theorem witness_CrozierCommands_9 : ∃ (g : Fin 64) (inst : Nat) (node : Fin 1024) (ns : Nat) (x : CGraph) (i : CInst) (n : CNode) (m : NodeRun) (s : State),
    s.cg g = some x ∧
    x.inst inst = some i ∧
    x.nodes[node.val]? = some n ∧
    i.nodes[node.val]? = some m ∧
    s.mayStart x i node n m = true ∧
    m.told = false :=
  ⟨0, 1, 0, 57, graph1, graph1.insts.headD ⟨0, 0, 0, none, [], false, false, none⟩, ⟨3, 2, 0, 0x30000, 0, [], [], (1, 0)⟩, { phase := .accepted, block := 0x30000 }, ready.setCg 0 graph1, by decide +kernel⟩

/-- The premises of CrozierCommands, crzBudgetExpiry, hold together. -/
theorem witness_CrozierCommands_10 : ∃ (g : Fin 64) (slot : Fin 4) (x : CGraph) (i : CInst) (s : State),
    s.rdN (Reg.CRZ_GR_BUDGET g) ≠ 0 ∧
    s.cg g = some x ∧
    x.insts.find? (fun i => i.slot == slot.val && i.start.isSome) = some i ∧
    i.aborted = false :=
  ⟨0, 0, graph1, graph1.insts.headD ⟨0, 0, 0, none, [], false, false, none⟩, (ready.setCg 0 graph1).wr (Reg.CRZ_GR_BUDGET 0) 100, by decide +kernel⟩

/-- The premises of DescriptorCommands, dscCreate, hold together. -/
theorem witness_DescriptorCommands_0 : ∃ (p : Fin 16) (handle : BitVec 16) (img : List Byte) (s s1 : State),
    s.dscBusy p = false ∧
    (s.dscImage p).toOption = some img ∧
    handle.toNat < s.rdN (Reg.DSC_PT_COUNT p) ∧
    s.entryKind p handle.toNat = none ∧
    s.validateEntry p img = 0 ∧
    s.entryWrite p handle.toNat img = some s1 :=
  ⟨0, 1#16, descBytes 0x08 2 3 0x10000 [16, 16] [1, 64], descTable, ((descTable.entryWrite 0 1 (descBytes 0x08 2 3 0x10000 [16, 16] [1, 64])).getD State.reset), by decide +kernel⟩

/-- The premises of DescriptorCommands, dscReplace, hold together. -/
theorem witness_DescriptorCommands_1 : ∃ (p : Fin 16) (handle : BitVec 16) (img old : List Byte) (bad : Bool) (s s1 : State),
    s.dscBusy p = false ∧
    (s.dscImage p).toOption = some img ∧
    handle.toNat < s.rdN (Reg.DSC_PT_COUNT p) ∧
    s.entryKind p handle.toNat = some (getLE img 0 2) ∧
    s.validateEntry p img = 0 ∧
    s.readDva p (s.entryAddr p handle.toNat) 128 = .data old bad ∧
    s.entryWrite p handle.toNat img = some s1 :=
  ⟨0, 1#16, descBytes 0x08 2 3 0x10000 [16, 16] [1, 64], leBytes 128 0, false, descTable1, ((descTable1.entryWrite 0 1 (descBytes 0x08 2 3 0x10000 [16, 16] [1, 64])).getD State.reset), by decide +kernel⟩

/-- The premises of DescriptorCommands, dscDestroy, hold together. -/
theorem witness_DescriptorCommands_2 : ∃ (p : Fin 16) (handle : BitVec 16) (k : Nat) (s : State),
    s.dscBusy p = false ∧
    handle.toNat < s.rdN (Reg.DSC_PT_COUNT p) ∧
    s.entryKind p handle.toNat = some k :=
  ⟨0, 1#16, 0xD35C, planes, by decide +kernel⟩

/-- The premises of DescriptorCommands, dscInval, hold together. -/
theorem witness_DescriptorCommands_3 : ∃ (p : Fin 16) (handle : BitVec 16) (s : State),
    s.dscBusy p = false ∧
    handle.toNat < s.rdN (Reg.DSC_PT_COUNT p) :=
  ⟨0, 1#16, planes, by decide +kernel⟩

/-- The premises of DescriptorCommands, dscInvalAll, hold together. -/
theorem witness_DescriptorCommands_4 : ∃ (p : Fin 16) (s : State),
    s.dscBusy p = false :=
  ⟨0, planes, by decide +kernel⟩

/-- The premises of DescriptorCommands, busy, hold together. -/
theorem witness_DescriptorCommands_5 : ∃ (p : Fin 16) (handle : BitVec 16) (c : Instr) (s : State),
    s.dscBusy p = true ∧
    c ∈ [.dscCreate p handle, .dscReplace p handle, .dscReplaceInv p handle, .dscDestroy p handle, .dscInval p handle, .dscInvalAll p] :=
  ⟨0, 1#16, .dscInvalAll 0, planes.wr (Reg.DSC_PT_STATUS 0) 1, by decide +kernel⟩

/-- The premises of DescriptorCommands, dscCmdComplete, hold together. -/
theorem witness_DescriptorCommands_6 : ∃ (p : Fin 16) (x : DscCmd) (s : State),
    Tab.get? s.dsc.running p = some x ∧
    x.code = 0 ∧
    x.op < 3 ∧
    x.item = none :=
  ⟨0, ⟨1, 1, 0, none⟩, { planes with dsc := { planes.dsc with running := [(0, ⟨1, 1, 0, none⟩)] } }, by decide +kernel⟩

/-- The premises of DescriptorCommands, dscCmdComplete refused, hold together. -/
theorem witness_DescriptorCommands_7 : ∃ (p : Fin 16) (x : DscCmd) (s : State),
    Tab.get? s.dsc.running p = some x ∧
    x.code ≠ 0 ∧
    x.item = none :=
  ⟨0, ⟨1, 1, 0x050A, none⟩, { planes with dsc := { planes.dsc with running := [(0, ⟨1, 1, 0x050A, none⟩)] } }, by decide +kernel⟩

/-- The premises of DescriptorCommands, descRewriteComplete, hold together. -/
theorem witness_DescriptorCommands_8 : ∃ (w : Rewrite) (ws : List Rewrite) (s : State),
    s.dsc.rewrites = w :: ws :=
  ⟨⟨0, 1, 0x40⟩, [], { planes with dsc := { planes.dsc with rewrites := [⟨0, 1, 0x40⟩] } }, by decide +kernel⟩

/-- The premises of RegionCommands, rgnWrite, hold together. -/
theorem witness_RegionCommands_0 : ∃ (s : State),
    s.rdB Reg.RGN_STATUS 0 = false ∧
    Tab.get? s.dsc.regions (s.rdF Reg.RGN_SEL 0 16) = none ∧
    s.rdB Reg.RGN_ATTR 31 = true ∧
    s.stagedRegion.rangeOk = true ∧
    s.dsc.regions.any (fun e => s.stagedRegion.meets e.2) = false ∧
    s.isConf s.stagedRegion.pt = false :=
  ⟨((ready.wr Reg.RGN_BASE 0x1000).wr Reg.RGN_SIZE 0x1000).wr Reg.RGN_ATTR (2 ^ 31 + 0x32), by decide +kernel⟩

/-- The premises of RegionCommands, rgnRead, hold together. -/
theorem witness_RegionCommands_1 : ∃ (r : Region) (s : State),
    s.rdB Reg.RGN_STATUS 0 = false ∧
    Tab.get? s.dsc.regions (s.rdF Reg.RGN_SEL 0 16) = some r :=
  ⟨⟨0x1000, 0x1000, 2, true, true, false⟩, { ready with dsc := { regions := [(0, ⟨0x1000, 0x1000, 2, true, true, false⟩)] } }, by decide +kernel⟩

/-- The premises of RegionCommands, rgnRead invalid, hold together. -/
theorem witness_RegionCommands_2 : ∃ (s : State),
    s.rdB Reg.RGN_STATUS 0 = false ∧
    Tab.get? s.dsc.regions (s.rdF Reg.RGN_SEL 0 16) = none :=
  ⟨ready, by decide +kernel⟩

/-- The premises of RegionCommands, rgnClear, hold together. -/
theorem witness_RegionCommands_3 : ∃ (s : State),
    s.rdB Reg.RGN_STATUS 0 = false ∧
    (∀ r, Tab.get? s.dsc.regions (s.rdF Reg.RGN_SEL 0 16) = some r → s.isConf r.pt = false) :=
  ⟨ready, by decide +kernel, fun r h => by cases h⟩

/-- The premises of RegionCommands, rgnCmdComplete, hold together. -/
theorem witness_RegionCommands_4 : ∃ (c i : Nat) (s : State),
    s.dsc.rgnRun = some (c, i) ∧
    ((if c = 1 then s.dsc.regions.put i s.stagedRegion else s.dsc.regions.del i) ≠ s.dsc.regions) :=
  ⟨1, 0, { ready with dsc := { rgnRun := some (1, 0) } }, by decide +kernel⟩

/-- The premises of GraphLoadCommands, gsLoad, hold together. -/
theorem witness_GraphLoadCommands_0 : ∃ (p : Fin 16) (s : State),
    s.gsBusy p = false :=
  ⟨3, ready, by decide +kernel⟩

/-- The premises of GraphLoadCommands, gsLoad while a load runs, hold together. -/
theorem witness_GraphLoadCommands_1 : ∃ (p : Fin 16) (s : State),
    s.gsBusy p = true :=
  ⟨3, ready.wr (Reg.GS_PT_STATUS 3) 1, by decide +kernel⟩

/-- The premises of GraphLoadCommands, gsLoadComplete, hold together. -/
theorem witness_GraphLoadCommands_2 : ∃ (p : Fin 16) (dva : Nat) (h b : List Byte) (s s0 : State),
    Tab.get? s.gs.loading p = some dva ∧
    s0 = { s.wr (Reg.GS_PT_STATUS p) 0 with gs := { s.gs with loading := s.gs.loading.del p } } ∧
    s0.graphImages p dva = (s0, .ok (h, b)) ∧
    s0.graphCode p h b = 0 :=
  ⟨0, 0x10000, graphFull, opImage, gsLoads 8, gsLoaded 8, by decide +kernel, by decide +kernel, gs_images 8 (.inl rfl), gs_code.1⟩

/-- The premises of GraphLoadCommands, gsLoadComplete refused, hold together. -/
theorem witness_GraphLoadCommands_3 : ∃ (p : Fin 16) (dva : Nat) (h b : List Byte) (s s0 : State),
    Tab.get? s.gs.loading p = some dva ∧
    s0 = { s.wr (Reg.GS_PT_STATUS p) 0 with gs := { s.gs with loading := s.gs.loading.del p } } ∧
    s0.graphImages p dva = (s0, .ok (h, b)) ∧
    s0.graphCode p h b ≠ 0 :=
  ⟨0, 0x10000, graphFull, opImage, gsLoads 0, gsLoaded 0, by decide +kernel, by decide +kernel, gs_images 0 (.inr rfl), fun h => absurd (gs_code.2.symm.trans h) (by decide)⟩

/-- The premises of GraphLoadCommands, gsUnload, hold together. -/
theorem witness_GraphLoadCommands_4 : ∃ (p : Fin 16) (g : Graph) (s : State),
    s.gsBusy p = false ∧
    s.handleGraph p (s.rdN (Reg.GS_PT_CMD_ARG p)) = some g ∧
    g.cur = none ∧
    g.queue = [] :=
  ⟨0, gsGraph0, holding gsGraph0 (ready.wr (Reg.GS_PT_CMD_ARG 0) 3), by decide +kernel⟩

/-- The premises of GraphLoadCommands, gsUnload in use, hold together. -/
theorem witness_GraphLoadCommands_5 : ∃ (p : Fin 16) (g : Graph) (s : State),
    s.gsBusy p = false ∧
    s.handleGraph p (s.rdN (Reg.GS_PT_CMD_ARG p)) = some g ∧
    (g.cur.isSome = true ∨ g.queue ≠ []) :=
  ⟨0, gsRunning .ready, holding (gsRunning .ready) (ready.wr (Reg.GS_PT_CMD_ARG 0) 3), by decide +kernel⟩

/-- The premises of GraphLoadCommands, gsAbort, hold together. -/
theorem witness_GraphLoadCommands_6 : ∃ (p : Fin 16) (g : Graph) (s : State),
    s.gsBusy p = false ∧
    s.handleGraph p (s.rdN (Reg.GS_PT_CMD_ARG p)) = some g :=
  ⟨0, gsRunning .ready, holding (gsRunning .ready) (ready.wr (Reg.GS_PT_CMD_ARG 0) 3), by decide +kernel⟩

/-- The premises of GraphLoadCommands, setprio, hold together. -/
theorem witness_GraphLoadCommands_7 : ∃ (p : Fin 16) (g : Graph) (op : Nat) (hit : CopyId → Bool) (s : State),
    s.gsBusy p = false ∧
    s.handleGraph p (s.rdN (Reg.GS_PT_CMD_ARG p)) = some g ∧
    op = fld (s.rdN (Reg.GS_PT_CMD_ARG p)) 32 16 ∧
    op < g.ops.length ∧
    fld (s.rdN (Reg.GS_PT_CMD_ARG p)) 51 13 = 0 ∧
    hit = (fun (c : CopyId) => c.graph == g.hdr && c.op == op && c.copy < 2) :=
  ⟨0, gsRunning .ready, 0, (fun c => c.graph == 3 && c.op == 0 && c.copy < 2), gsWaits.wr (Reg.GS_PT_CMD_ARG 0) 0x5000000000003, by decide +kernel, by decide +kernel, by decide +kernel, by decide +kernel, by decide +kernel, rfl⟩

/-- The premises of GraphLoadCommands, an invalid handle, hold together. -/
theorem witness_GraphLoadCommands_8 : ∃ (p : Fin 16) (s : State),
    s.gsBusy p = false ∧
    s.handleGraph p (s.rdN (Reg.GS_PT_CMD_ARG p)) = none :=
  ⟨0, ready, by decide +kernel⟩

/-- The premises of GraphRunCommands, gsLaunch idle, hold together. -/
theorem witness_GraphRunCommands_0 : ∃ (p : Fin 16) (handle : BitVec 32) (g : Graph) (s : State),
    s.handleGraph p handle.toNat = some g ∧
    s.rdB Reg.REL_STATUS 0 = false ∧
    g.cur = none :=
  ⟨0, 3#32, gsGraph0, holding gsGraph0 ready, by decide +kernel⟩

/-- The premises of GraphRunCommands, gsLaunch busy, hold together. -/
theorem witness_GraphRunCommands_1 : ∃ (p : Fin 16) (handle : BitVec 32) (g : Graph) (s : State),
    s.handleGraph p handle.toNat = some g ∧
    s.rdB Reg.REL_STATUS 0 = false ∧
    g.cur.isSome = true ∧
    g.queue.length < 4 :=
  ⟨0, 3#32, gsRunning .ready, holding (gsRunning .ready) ready, by decide +kernel⟩

/-- The premises of GraphRunCommands, gsLaunch with four queued, hold together. -/
theorem witness_GraphRunCommands_2 : ∃ (p : Fin 16) (handle : BitVec 32) (g : Graph) (s : State),
    s.handleGraph p handle.toNat = some g ∧
    s.rdB Reg.REL_STATUS 0 = false ∧
    g.cur.isSome = true ∧
    4 ≤ g.queue.length :=
  ⟨0, 3#32, { gsRunning .ready with queue := [(2, 0, none), (3, 0, none), (4, 0, none), (5, 0, none)] }, holding { gsRunning .ready with queue := [(2, 0, none), (3, 0, none), (4, 0, none), (5, 0, none)] } ready, by decide +kernel⟩

/-- The premises of GraphRunCommands, gsDispatch, hold together. -/
theorem witness_GraphRunCommands_3 : ∃ (p : Fin 16) (n k : Nat) (c : CopyId) (s : State),
    s.rdB Reg.REL_STATUS 0 = false ∧
    s.nextPlace p = some (n, k, c) :=
  ⟨0, 5, 0, ⟨3, 0, 0⟩, gsWaits, by decide +kernel⟩

/-- The premises of GraphRunCommands, gsDispatch withdrawing, hold together. -/
theorem witness_GraphRunCommands_4 : ∃ (p : Fin 16) (n k : Nat) (c : CopyId) (x : Slot) (s : State),
    s.rdB Reg.REL_STATUS 0 = false ∧
    s.nextPlace p = none ∧
    s.withdrawal p = some (c, n, k, x) :=
  ⟨0, 5, 2, ⟨3, 0, 0⟩, ⟨⟨9, 0, 0⟩, 1, 2⟩, gsWaits.setTc 5 { slot0 := some ⟨⟨9, 1, 0⟩, 3, 0⟩, slot1 := some ⟨⟨9, 0, 0⟩, 1, 1⟩, slot2 := some ⟨⟨9, 0, 0⟩, 1, 2⟩ }, by decide +kernel⟩

/-- The premises of GraphRunCommands, prefetchComplete, hold together. -/
theorem witness_GraphRunCommands_5 : ∃ (n : Fin 32) (x : Slot) (s : State),
    (s.tc n).slot1 = some x ∧
    x.st = 1 :=
  ⟨5, ⟨⟨3, 0, 0⟩, 1, 1⟩, ready.setTc 5 { slot1 := some ⟨⟨3, 0, 0⟩, 1, 1⟩ }, by decide +kernel⟩

/-- The premises of GraphRunCommands, gsOpRelease, hold together. -/
theorem witness_GraphRunCommands_6 : ∃ (p : Fin 16) (e : EndRec) (s : State),
    s.gs.ends.find? (fun e => e.pt == p.val && s.drained e.cid) = some e :=
  ⟨0, { cid := ⟨3, 0, 0⟩, pt := 0, code := 0 }, { frond5 (.ended 5) with gs := { (frond5 (.ended 5)).gs with ends := [{ cid := ⟨3, 0, 0⟩, pt := 0, code := 0 }] } }, by decide +kernel⟩

/-- The premises of GraphRunCommands, gsDelayTick, hold together. -/
theorem witness_GraphRunCommands_7 : ∃ (p : Fin 16) (l : List (Nat × CopyId)) (tick : Nat) (s : State),
    l = s.gs.delay.getD p [] ∧
    tick = s.now / 1000 / max 1 (s.rdF (Reg.GS_PT_CFG p) 8 8) ∧
    (∀ e ∈ l, tick < e.1) :=
  ⟨0, [(9, ⟨3, 0, 0⟩)], 0, { ready with gs := { delay := [(0, [(9, ⟨3, 0, 0⟩)])] } }, by decide +kernel⟩

/-- The premises of GraphRunCommands, gsDelayTick with one due, hold together. -/
theorem witness_GraphRunCommands_8 : ∃ (p : Fin 16) (due : Nat) (c : CopyId) (x : CopyRun) (s s1 : State),
    s.gs.delay.getD p [] = [(due, c)] ∧
    due ≤ s.now / 1000 / max 1 (s.rdF (Reg.GS_PT_CFG p) 8 8) ∧
    s1 = ({ s.wake 4 with gs := { (s.wake 4).gs with delay := (s.wake 4).gs.delay.put p [] } }).gsReady p ∧
    (s1.graphAt c.graph).bind (fun g => g.copyRun c.op 0) = some x ∧
    x.phase = .delayed :=
  ⟨0, 0, ⟨3, 0, 0⟩, ⟨0, 0, .delayed, false, 0⟩, delayed0, ({ delayed0 with gs := { delayed0.gs with delay := [(0, [])] } }).gsReady 0, by decide +kernel⟩

/-- The premises of GraphRunCommands, gsBudgetExpiry, hold together. -/
theorem witness_GraphRunCommands_9 : ∃ (p : Fin 16) (handle : BitVec 32) (g : Graph) (s : State),
    s.handleGraph p handle.toNat = some g ∧
    g.budget ≠ 0 ∧
    g.cur.isSome = true :=
  ⟨0, 3#32, gsRunning .ready, holding (gsRunning .ready) ready, by decide +kernel⟩

/-- The premises of GraphRunCommands, copy2Request, hold together. -/
theorem witness_GraphRunCommands_10 : ∃ (p : Fin 16) (handle : BitVec 32) (run : BitVec 48) (op : BitVec 16) (g : Graph) (s : State),
    s.handleGraph p handle.toNat = some g ∧
    s.copy2Code g run.toNat op.toNat = 0 :=
  ⟨0, 3#32, 1#48, 0#16, { gsRunning (.ended 8) with ops := [{ gsOp0 with flags := 1 }] }, { frond5 .ready with gs := { graphs := [{ gsRunning (.ended 8) with ops := [{ gsOp0 with flags := 1 }] }] } }, by decide +kernel⟩

/-- The premises of GraphRunCommands, deadlockDeclare, hold together. -/
theorem witness_GraphRunCommands_11 : ∃ (p : Fin 16) (s s4 : State),
    s.rdB (Reg.GS_PT_CFG p) 1 = true ∧
    s.deadlocked p = true ∧
    Tab.get? s.gs.quiet p = none ∧
    s4 = ((({ s with gs := { s.gs with quiet := s.gs.quiet.put p s.now } }.gsErr p 0x0705).bump (Reg.GS_PT_DEADLOCKS p) 1).wrF
      (Reg.DBG_PT_TRACE_CFG p) 2 1 1).waitEdges p (s.busyFronds p) (s.busyChannels p) :=
  ⟨0, stuck, ((({ stuck with gs := { stuck.gs with quiet := [(0, 0)] } }.gsErr 0 0x0705).bump (Reg.GS_PT_DEADLOCKS 0) 1).wrF (Reg.DBG_PT_TRACE_CFG 0) 2 1 1).waitEdges 0 [5] [], by decide +kernel, by decide +kernel, by decide +kernel, by decide +kernel⟩

/-- The premises of FrondRunCommands, frondOpStart, hold together. -/
theorem witness_FrondRunCommands_0 : ∃ (n : Fin 32) (x : Slot) (g : Graph) (r : GsRun) (y : CopyRun) (s s1 s3 : State),
    (s.tc n).slot0 = some x ∧
    x.st = 2 ∧
    (s.tc n).itemWait = false ∧
    (s.tc n).aborting = none ∧
    (s.tc n).zeroing = false ∧
    s.rdB Reg.REL_STATUS 0 = false ∧
    s.graphAt x.cid.graph = some g ∧
    g.cur = some r ∧
    g.copyRun x.cid.op x.cid.copy = some y ∧
    s1 = (s.progress g.pt).setTc n ({ s.tc n with slot0 := some { x with st := 3 } }.setUp (copyArgs (g.opAt x.cid.op) x.cid.copy r.larg)
      (g.opAt x.cid.op).entry s.now) ∧
    (s3 = ((if 250 < s.now - y.readyAt then s1.bump Reg.GS_LATE 1 else s1).rcMax Reg.GS_START_MAX (s.now - y.readyAt)).event
      (uTc n) 0x01 g.pt 0 x.cid.op (g.opAt x.cid.op).entry) :=
  ⟨5, ⟨⟨3, 0, 0⟩, 2, 1⟩, gsRunning (.placed 5), ((gsRunning (.placed 5)).cur).getD ⟨0, 0, 0, [], [], none, false, false, [], none⟩, ⟨0, 0, .placed 5, false, 0⟩, placed5, (placed5.setTc 5 ({ placed5.tc 5 with slot0 := some ⟨⟨3, 0, 0⟩, 3, 1⟩ }.setUp [1, 2] 0x10000 0)), (placed5.setTc 5 ({ placed5.tc 5 with slot0 := some ⟨⟨3, 0, 0⟩, 3, 1⟩ }.setUp [1, 2] 0x10000 0)).event (uTc 5) 0x01 0 0 0 0x10000, by decide +kernel⟩

/-- The premises of FrondRunCommands, frondOpEnd, hold together. -/
theorem witness_FrondRunCommands_1 : ∃ (n : Fin 32) (x : Slot) (p : Nat) (s s1 s3 : State),
    (s.tc n).slot0 = some x ∧
    (s.tc n).retired = true ∧
    x.st = 3 ∧
    (s.tc n).loads = [] ∧
    (s.tc n).mmas = [] ∧
    (s.tc n).itemWait = false ∧
    p = s.tcPt n ∧
    (s.tc n).digests.any Digest.countErr = false ∧
    s1 = s.progress p ∧
    s3 = (((((s1.setTc n { s1.tc n with aborting := none }).holdSlot n).setCopy x.cid fun c => { c with phase := .ended n }).bump (Reg.TC_OPS n) 1).bump
      (Reg.GS_PT_OPS p) 1).event (uTc n) 0x02 p 0 x.cid.op (s.tc n).bytes :=
  ⟨5, ⟨⟨3, 0, 0⟩, 3, 1⟩, 0, ended5, ended5, (((((ended5.setTc 5 (ended5.tc 5)).holdSlot 5).setCopy ⟨3, 0, 0⟩ fun c => { c with phase := .ended 5 }).bump (Reg.TC_OPS 5) 1).bump (Reg.GS_PT_OPS 0) 1).event (uTc 5) 0x02 0 0 0 0, by decide +kernel⟩

/-- The premises of FrondRunCommands, frondAbortComplete, hold together. -/
theorem witness_FrondRunCommands_2 : ∃ (n : Fin 32) (x : Slot) (why : AbortWhy) (s : State),
    (s.tc n).slot0 = some x ∧
    (s.tc n).aborting = some why :=
  ⟨5, ⟨⟨3, 0, 0⟩, 3, 1⟩, .run, placed5.setTc 5 { slot0 := some ⟨⟨3, 0, 0⟩, 3, 1⟩, aborting := some .run }, by decide +kernel⟩

/-- The premises of FrondRunCommands, frondZeroingComplete, hold together. -/
theorem witness_FrondRunCommands_3 : ∃ (n : Fin 32) (s : State),
    (s.tc n).zeroing = true ∧
    (s.tc n).fencing = none :=
  ⟨5, ready.setTc 5 { zeroing := true }, by decide +kernel⟩

/-- The premises of FrondRunCommands, frondZeroingComplete of a fenced Frond, hold together. -/
theorem witness_FrondRunCommands_4 : ∃ (n : Fin 32) (r : Nat) (s : State),
    (s.tc n).zeroing = true ∧
    (s.tc n).fencing = some r :=
  ⟨5, 0x0D04, ready.setTc 5 { zeroing := true, fencing := some 0x0D04 }, by decide +kernel⟩

/-- The premises of LaneInstructions, vadd, hold together. -/
theorem witness_LaneInstructions_0 : ∃ (n : Fin 32) (chk : FrondCheck) (w : Nat) (s : State),
    s.issuesWord n 2 0x01 w = true ∧
    vecOk (vINT ||| vB ||| vVD ||| vVA ||| vVLEN ||| vSAT) w = true ∧
    bFieldsOk w = true ∧
    satOk w = true :=
  ⟨5, ⟨0, none, false⟩, 0x20100000, withWord 0x20100000, by decide +kernel⟩

/-- The premises of LaneInstructions, vsub, hold together. -/
theorem witness_LaneInstructions_1 : ∃ (n : Fin 32) (chk : FrondCheck) (w : Nat) (s : State),
    s.issuesWord n 2 0x02 w = true ∧
    vecOk (vINT ||| vB ||| vVD ||| vVA ||| vVLEN ||| vSAT) w = true ∧
    bFieldsOk w = true ∧
    satOk w = true :=
  ⟨5, ⟨0, none, false⟩, 0x20200000, withWord 0x20200000, by decide +kernel⟩

/-- The premises of LaneInstructions, vmul, hold together. -/
theorem witness_LaneInstructions_2 : ∃ (n : Fin 32) (chk : FrondCheck) (w : Nat) (s : State),
    s.issuesWord n 2 0x03 w = true ∧
    vecOk (vINT ||| vB ||| vVD ||| vVA ||| vVLEN ||| vSAT) w = true ∧
    bFieldsOk w = true ∧
    satOk w = true :=
  ⟨5, ⟨0, none, false⟩, 0x20300000, withWord 0x20300000, by decide +kernel⟩

/-- The premises of LaneInstructions, vfma, hold together. -/
theorem witness_LaneInstructions_3 : ∃ (n : Fin 32) (chk : FrondCheck) (w : Nat) (s : State),
    s.issuesWord n 2 0x04 w = true ∧
    vecOk (vINT ||| vB ||| vVD ||| vVA ||| vVC ||| vVLEN ||| vSAT) w = true ∧
    bFieldsOk w = true ∧
    satOk w = true :=
  ⟨5, ⟨0, none, false⟩, 0x20400000, withWord 0x20400000, by decide +kernel⟩

/-- The premises of LaneInstructions, vmin, hold together. -/
theorem witness_LaneInstructions_4 : ∃ (n : Fin 32) (chk : FrondCheck) (w : Nat) (s : State),
    s.issuesWord n 2 0x05 w = true ∧
    vecOk (vINT ||| vB ||| vVD ||| vVA ||| vVLEN) w = true ∧
    bFieldsOk w = true :=
  ⟨5, ⟨0, none, false⟩, 0x20500000, withWord 0x20500000, by decide +kernel⟩

/-- The premises of LaneInstructions, vmax, hold together. -/
theorem witness_LaneInstructions_5 : ∃ (n : Fin 32) (chk : FrondCheck) (w : Nat) (s : State),
    s.issuesWord n 2 0x06 w = true ∧
    vecOk (vINT ||| vB ||| vVD ||| vVA ||| vVLEN) w = true ∧
    bFieldsOk w = true :=
  ⟨5, ⟨0, none, false⟩, 0x20600000, withWord 0x20600000, by decide +kernel⟩

/-- The premises of LaneInstructions, vdiv, hold together. -/
theorem witness_LaneInstructions_6 : ∃ (n : Fin 32) (chk : FrondCheck) (w : Nat) (s : State),
    s.issuesWord n 2 0x07 w = true ∧
    vecOk (vB ||| vVD ||| vVA ||| vVLEN) w = true ∧
    bFieldsOk w = true :=
  ⟨5, ⟨0, none, false⟩, 0x20700000, withWord 0x20700000, by decide +kernel⟩

/-- The premises of LaneInstructions, vsqrt, hold together. -/
theorem witness_LaneInstructions_7 : ∃ (n : Fin 32) (chk : FrondCheck) (w : Nat) (s : State),
    s.issuesWord n 2 0x08 w = true ∧
    vecOk (vVD ||| vVA ||| vVLEN) w = true :=
  ⟨5, ⟨0, none, false⟩, 0x20800000, withWord 0x20800000, by decide +kernel⟩

/-- The premises of LaneInstructions, vcmp, hold together. -/
theorem witness_LaneInstructions_8 : ∃ (n : Fin 32) (chk : FrondCheck) (w : Nat) (s : State),
    s.issuesWord n 2 0x09 w = true ∧
    vecOk (vINT ||| vB ||| vVD ||| vVA ||| vVLEN ||| vFN) w = true ∧
    bFieldsOk w = true ∧
    fFN w ≤ 3 :=
  ⟨5, ⟨0, none, false⟩, 0x20900000, withWord 0x20900000, by decide +kernel⟩

/-- The premises of LaneInstructions, vsel, hold together. -/
theorem witness_LaneInstructions_9 : ∃ (n : Fin 32) (chk : FrondCheck) (w : Nat) (s : State),
    s.issuesWord n 2 0x0A w = true ∧
    vecOk (vB ||| vVD ||| vVA ||| vVC ||| vVLEN) w = true ∧
    bFieldsOk w = true :=
  ⟨5, ⟨0, none, false⟩, 0x20A00000, withWord 0x20A00000, by decide +kernel⟩

/-- The premises of LaneInstructions, vlogic, hold together. -/
theorem witness_LaneInstructions_10 : ∃ (n : Fin 32) (chk : FrondCheck) (w : Nat) (s : State),
    s.issuesWord n 2 0x0B w = true ∧
    vecOk (vB ||| vVD ||| vVA ||| vVLEN ||| vFN) w = true ∧
    bFieldsOk w = true ∧
    fFN w ≤ 3 :=
  ⟨5, ⟨0, none, false⟩, 0x20B00000, withWord 0x20B00000, by decide +kernel⟩

/-- The premises of LaneInstructions, vshift, hold together. -/
theorem witness_LaneInstructions_11 : ∃ (n : Fin 32) (chk : FrondCheck) (w : Nat) (s : State),
    s.issuesWord n 2 0x0C w = true ∧
    vecOk (vINT ||| vB ||| vVD ||| vVA ||| vVLEN ||| vFN) w = true ∧
    bFieldsOk w = true ∧
    (fFN w ≤ 2 ∧ fINT w = true) :=
  ⟨5, ⟨0, none, false⟩, 0x20C10000, withWord 0x20C10000, by decide +kernel⟩

/-- The premises of LaneInstructions, vsfu, hold together. -/
theorem witness_LaneInstructions_12 : ∃ (n : Fin 32) (chk : FrondCheck) (w : Nat) (s : State),
    s.issuesWord n 2 0x0D w = true ∧
    vecOk (vVD ||| vVA ||| vVLEN ||| vFN) w = true ∧
    fFN w ≤ 10 :=
  ⟨5, ⟨0, none, false⟩, 0x20D00000, withWord 0x20D00000, by decide +kernel⟩

/-- The premises of VectorMoves, vbcst, hold together. -/
theorem witness_VectorMoves_0 : ∃ (n : Fin 32) (chk : FrondCheck) (w : Nat) (s : State),
    s.issuesWord n 2 0x15 w = true ∧
    vecOk (wm 0 18 1 ||| vVD ||| vSS ||| vVLEN ||| vIMM) w = true ∧
    ((if fBCI w then fSS w = 0 else fIMM w = 0)) :=
  ⟨5, ⟨0, none, false⟩, 0x21500000, withWord 0x21500000, by decide +kernel⟩

/-- The premises of VectorMoves, viota, hold together. -/
theorem witness_VectorMoves_1 : ∃ (n : Fin 32) (chk : FrondCheck) (w : Nat) (s : State),
    s.issuesWord n 2 0x16 w = true ∧
    vecOk (vVD ||| vVLEN ||| vIMM) w = true :=
  ⟨5, ⟨0, none, false⟩, 0x21600000, withWord 0x21600000, by decide +kernel⟩

/-- The premises of VectorMoves, vrdacc, hold together. -/
theorem witness_VectorMoves_2 : ∃ (n : Fin 32) (chk : FrondCheck) (w : Nat) (s : State),
    s.issuesWord n 2 0x13 w = true ∧
    vecOk (vVD ||| vSS ||| vFN ||| vIMM) w = true ∧
    fFN w ≤ 7 ∧
    (s.tc n).sMark (fSS w) = false ∧
    (s.tc n).sreg (fSS w) + fIMM w < 128 ∧
    (s.tc n).tileBusy (fFN w) = false :=
  ⟨5, ⟨0, none, false⟩, 0x21300000, withWord 0x21300000, by decide +kernel⟩

/-- The premises of VectorMoves, vwracc, hold together. -/
theorem witness_VectorMoves_3 : ∃ (n : Fin 32) (chk : FrondCheck) (w : Nat) (F : Frond) (row : Nat) (s : State),
    s.issuesWord n 2 0x14 w = true ∧
    vecOk (vVA ||| vSS ||| vFN ||| vIMM) w = true ∧
    fFN w ≤ 7 ∧
    (s.tc n).sMark (fSS w) = false ∧
    row = (s.tc n).sreg (fSS w) + fIMM w ∧
    row < 128 ∧
    (s.tc n).tileBusy (fFN w) = false ∧
    F = (List.range 64).foldl (fun (g : Frond) i => g.setElem (fFN w) row i ((s.tc n).lane (fVA w) i)) (s.tc n) :=
  ⟨5, ⟨0, none, false⟩, 0x21400000, (withWord 0x21400000).tc 5, 0, withWord 0x21400000, by decide +kernel⟩

/-- The premises of VectorMoves, vld, hold together. -/
theorem witness_VectorMoves_4 : ∃ (n : Fin 32) (chk : FrondCheck) (w : Nat) (a size : Nat) (s : State),
    s.issuesWord n 2 0x11 w = true ∧
    vecOk (vVD ||| vSS ||| vFN ||| vIMM) w = true ∧
    fFN w ≤ 3 ∧
    (s.tc n).sMark (fSS w) = false ∧
    a = (s.tc n).moveAddr w ∧
    size = 64 * (fFN w + 1) ∧
    scratchOk a size = true ∧
    (s.tc n).loadBusy a size = false :=
  ⟨5, ⟨0, none, false⟩, 0x21100000, 0, 64, withWord 0x21100000, by decide +kernel⟩

/-- The premises of VectorMoves, vst, hold together. -/
theorem witness_VectorMoves_5 : ∃ (n : Fin 32) (chk : FrondCheck) (w : Nat) (a size : Nat) (s : State),
    s.issuesWord n 2 0x12 w = true ∧
    vecOk (vVA ||| vSS ||| vFN ||| vIMM) w = true ∧
    fFN w ≤ 3 ∧
    (s.tc n).sMark (fSS w) = false ∧
    a = (s.tc n).moveAddr w ∧
    size = 64 * (fFN w + 1) ∧
    scratchOk a size = true ∧
    (s.tc n).loadBusy a size = false ∧
    (s.tc n).mmaReads a size = false :=
  ⟨5, ⟨0, none, false⟩, 0x21200000, 0, 64, withWord 0x21200000, by decide +kernel⟩

/-- The premises of VectorMoves, vcvt, hold together. -/
theorem witness_VectorMoves_6 : ∃ (n : Fin 32) (chk : FrondCheck) (w : Nat) (res : Nat → Nat × Nat × Bool) (s : State),
    s.issuesWord n 2 0x0E w = true ∧
    cvtOk w = true ∧
    (∀ i, res i = (let src := if cvtNarrow w then ((s.tc n).lane (fVA w) i, (s.tc n).vMark (fVA w) i) else (s.tc n).readPart (fVA w) (fPART w) (codeBits (fST w)) i
      let x := if fFN w = 1 then (decodeVal (fST w) src.1).mul (val32 ((s.tc n).opB w i).1) else (decodeVal (fST w) src.1, false)
      let c := convert (fDT w) x.1 (fRM w) (fSAT w) (srBits ((s.tc n).sreg (fSD w) % 2 ^ 32) ((s.tc n).sreg (fSX w) + i))
      (c.1, c.2 ||| x.2.toNat, src.2 || (fFN w == 1 && ((s.tc n).opB w i).2) || (fRM w == 2 && ((s.tc n).sMark (fSD w) || (s.tc n).sMark (fSX w)))))) :=
  ⟨5, ⟨0, none, false⟩, 0x20E00000 + 2 ^ 75, cvtRes (withWord (0x20E00000 + 2 ^ 75)) 5 (0x20E00000 + 2 ^ 75), withWord (0x20E00000 + 2 ^ 75), by decide +kernel, by decide +kernel, fun _ => rfl⟩

/-- The premises of VectorMoves, vqnt, hold together. -/
theorem witness_VectorMoves_7 : ∃ (n : Fin 32) (chk : FrondCheck) (w : Nat) (blk : Nat → List Nat × Nat × Nat) (bad : Nat → Bool) (s : State),
    s.issuesWord n 2 0x0F w = true ∧
    qntOk w = true ∧
    (fDT w ≠ 0x18 ∨ (s.tc n).sMark (fSS w) = false) ∧
    (∀ q, blk q = qntBlock w ((s.tc n).sreg (fSS w) % 2 ^ 32)
      ((List.range 32).map fun j => if 32 * q + j < activeLanes w then some ((s.tc n).lane (fVA w) (32 * q + j)) else none)
      fun j => srBits ((s.tc n).sreg (fSD w) % 2 ^ 32) ((s.tc n).sreg (fSX w) + 32 * q + j)) ∧
    (∀ q, bad q = (fRM w == 2 && ((s.tc n).sMark (fSD w) || (s.tc n).sMark (fSX w)) && 32 * q < activeLanes w ||
      (List.range 32).any fun j => 32 * q + j < activeLanes w && (s.tc n).vMark (fVA w) (32 * q + j))) :=
  ⟨5, ⟨0, none, false⟩, 0x20F00000 + 0x11 * 2 ^ 75, qntBlk (withWord (0x20F00000 + 0x11 * 2 ^ 75)) 5 (0x20F00000 + 0x11 * 2 ^ 75), qntBad (withWord (0x20F00000 + 0x11 * 2 ^ 75)) 5 (0x20F00000 + 0x11 * 2 ^ 75), withWord (0x20F00000 + 0x11 * 2 ^ 75), by decide +kernel, by decide +kernel, .inl (by decide +kernel), fun _ => rfl, fun _ => rfl⟩

/-- The premises of ScalarInstructions, vred, hold together. -/
theorem witness_ScalarInstructions_0 : ∃ (n : Fin 32) (chk : FrondCheck) (w : Nat) (s : State),
    s.issuesWord n 2 0x10 w = true ∧
    vecOk (vINT ||| vVA ||| vSX ||| vVLEN ||| vFN) w = true ∧
    fFN w ≤ 4 ∧
    (fINT w = true → fFN w ≤ 2) :=
  ⟨5, ⟨0, none, false⟩, 0x21000000, withWord 0x21000000, by decide +kernel, by decide +kernel, by decide +kernel, by decide +kernel⟩

/-- The premises of ScalarInstructions, vlane, hold together. -/
theorem witness_ScalarInstructions_1 : ∃ (n : Fin 32) (chk : FrondCheck) (w : Nat) (s : State),
    s.issuesWord n 2 0x17 w = true ∧
    vecOk (vVA ||| vSX ||| vIMM) w = true ∧
    fIMM w ≤ 63 :=
  ⟨5, ⟨0, none, false⟩, 0x21700000, withWord 0x21700000, by decide +kernel⟩

/-- The premises of ScalarInstructions, vstat, hold together. -/
theorem witness_ScalarInstructions_2 : ∃ (n : Fin 32) (chk : FrondCheck) (w : Nat) (s : State),
    s.issuesWord n 2 0x18 w = true ∧
    vecOk vSX w = true :=
  ⟨5, ⟨0, none, false⟩, 0x21800000, withWord 0x21800000, by decide +kernel⟩

/-- The premises of ScalarInstructions, dqry, hold together. -/
theorem witness_ScalarInstructions_3 : ∃ (n : Fin 32) (chk : FrondCheck) (w : Nat) (h c : Nat) (image : List Byte) (s s1 : State),
    s.issuesWord n 2 0x19 w = true ∧
    vecOk (wm 0 17 1 ||| vSS ||| vSX ||| vFN ||| vIMM) w = true ∧
    (fFN w ≤ 4 ∨ 8 ≤ fFN w ∧ fFN w ≤ 12) ∧
    (if fBCS w then fIMM w = 0 else fSS w = 0 ∧ fIMM w < 65536) ∧
    (fBCS w = false ∨ (s.tc n).sMark (fSS w) = false) ∧
    (h = if fBCS w then (s.tc n).sreg (fSS w) % 65536 else fIMM w) ∧
    (s.capture (s.tcPt n) h 0xD35C).1.toOption = some image ∧
    (s.capture (s.tcPt n) h 0xD35C).2 = s1 ∧
    ((if (Desc.ofBytes image).isIndexed then s1.indexCount (s.tcPt n) (Desc.ofBytes image) else some 0) = some c) :=
  ⟨5, ⟨0, none, false⟩, 0x21900000 + 2 ^ 96, 1, 0, descBytes 0x08 2 3 0x10000 [16, 16] [1, 64], onPlanes (0x21900000 + 2 ^ 96), onPlanes (0x21900000 + 2 ^ 96), by decide +kernel⟩

/-- The premises of ScalarInstructions, salu, hold together. -/
theorem witness_ScalarInstructions_4 : ∃ (n : Fin 32) (chk : FrondCheck) (w : Nat) (b : Nat × Bool) (s : State),
    s.issuesWord n 2 0x20 w = true ∧
    w &&& (wmOp ||| wm 0 16 1 ||| wm 0 0 12 ||| wm 1 0 6 ||| wm 1 8 8 ||| wm 2 0 32) = w ∧
    cFN w ≤ 0x13 ∧
    (if bitAt w 16 then cSRC2 w = 0 else cLO w = 0) ∧
    (b = if bitAt w 16 then (codeOf 64 (signedOf 32 (cLO w)), false) else ((s.tc n).sreg (cSRC2 w), (s.tc n).sMark (cSRC2 w))) :=
  ⟨5, ⟨0, none, false⟩, 0x22000000, (0, false), withWord 0x22000000, by decide +kernel⟩

/-- The premises of ScalarInstructions, sli, hold together. -/
theorem witness_ScalarInstructions_5 : ∃ (n : Fin 32) (chk : FrondCheck) (w : Nat) (s : State),
    s.issuesWord n 2 0x21 w = true ∧
    w &&& (wmOp ||| wm 0 0 6 ||| wm 2 0 32 ||| wm 3 0 32) = w :=
  ⟨5, ⟨0, none, false⟩, 0x22100000, withWord 0x22100000, by decide +kernel⟩

/-- The premises of ScalarInstructions, br not taken, hold together. -/
theorem witness_ScalarInstructions_6 : ∃ (n : Fin 32) (chk : FrondCheck) (w : Nat) (s : State),
    s.issuesWord n 2 0x22 w = true ∧
    w &&& (wmOp ||| wm 0 6 6 ||| wm 1 0 6 ||| wm 1 8 8 ||| wm 2 0 32) = w ∧
    cFN w ≤ 6 ∧
    (s.tc n).sMark (cSRC1 w) = false ∧
    (s.tc n).sMark (cSRC2 w) = false ∧
    brTaken (cFN w) ((s.tc n).sreg (cSRC1 w)) ((s.tc n).sreg (cSRC2 w)) = false :=
  ⟨5, ⟨0, none, false⟩, 0x22200000 + 2 ^ 40, withWord (0x22200000 + 2 ^ 40), by decide +kernel⟩

/-- The premises of ScalarInstructions, br taken, hold together. -/
theorem witness_ScalarInstructions_7 : ∃ (n : Fin 32) (chk : FrondCheck) (w : Nat) (target : Nat) (s s1 : State),
    s.issuesWord n 2 0x22 w = true ∧
    w &&& (wmOp ||| wm 0 6 6 ||| wm 1 0 6 ||| wm 1 8 8 ||| wm 2 0 32) = w ∧
    cFN w ≤ 6 ∧
    (s.tc n).sMark (cSRC1 w) = false ∧
    (s.tc n).sMark (cSRC2 w) = false ∧
    brTaken (cFN w) ((s.tc n).sreg (cSRC1 w)) ((s.tc n).sreg (cSRC2 w)) = true ∧
    target = codeOf 64 (((s.tc n).pc : Int) + signedOf 32 (cLO w) * 16) ∧
    s.fetchLine n target = (s1, true) :=
  ⟨5, ⟨0, none, false⟩, 0x22200000, 0, branching, branching.setTc 5 { branching.tc 5 with line := some (0, leBytes 64 0) }, by decide +kernel⟩

/-- The premises of ScalarInstructions, end, hold together. -/
theorem witness_ScalarInstructions_8 : ∃ (n : Fin 32) (chk : FrondCheck) (w : Nat) (s : State),
    s.issuesWord n 2 0x23 w = true ∧
    w &&& wmOp = w :=
  ⟨5, ⟨0, none, false⟩, 0x22300000, withWord 0x22300000, by decide +kernel⟩

/-- The premises of ScalarInstructions, after END, hold together. -/
theorem witness_ScalarInstructions_9 : ∃ (n : Fin 32) (cls op : Nat) (chk : FrondCheck) (body : State → Nat → Nat → Issue) (s : State),
    (s.tc n).retired = true :=
  ⟨5, 2, 1, ⟨0, none, false⟩, (fun s _ _ => .fail s 0 false), ready.setTc 5 { retired := true }, by decide +kernel⟩

/-- The premises of ScalarInstructions, fread, hold together. -/
theorem witness_ScalarInstructions_10 : ∃ (n : Fin 32) (chk : FrondCheck) (w : Nat) (s : State),
    s.issuesWord n 3 4 w = true ∧
    w &&& (wmOp ||| wm 0 16 1 ||| wm 0 19 1 ||| wm 0 0 15 ||| wm 1 0 6 ||| wm 1 12 6) = w ∧
    flagFieldsOk w = true ∧
    (s.tc n).flagOperands w false false = 0 ∧
    s.owns (s.tcPt n) 0x33 ((s.tc n).flagIndex w) = true ∧
    (s.flag ((s.tc n).flagIndex w)).poisoned = false :=
  ⟨5, ⟨0, none, false⟩, 0x30400000, flagOwner 0x30400000, by decide +kernel⟩

/-- The premises of SyncInstructions, signal here, hold together. -/
theorem witness_SyncInstructions_0 : ∃ (n : Fin 32) (chk : FrondCheck) (w : Nat) (op : FlagOp) (s : State),
    s.issuesWord n 3 1 w = true ∧
    w &&& (wmOp ||| wm 0 16 3 ||| wm 0 0 15 ||| wm 1 0 12 ||| wm 1 18 7 ||| wm 2 0 32) = w ∧
    flagFieldsOk w = true ∧
    valueFieldsOk w = true ∧
    (bitAt w 18 = false ∧ wfld w 1 18 7 = 0 ∨ wfld w 1 18 7 = s.devId ∧ bitAt w 18 = true) ∧
    (bitAt w 17 = true ∨ wfld w 2 0 32 ≠ 0) ∧
    (s.tc n).flagOperands w true true = 0 ∧
    s.owns (s.tcPt n) 0x33 ((s.tc n).flagIndex w) = true ∧
    op = { isSet := false, flag := (s.tc n).flagIndex w, n := (s.tc n).flagValue w, pt := s.tcPt n, agent := uTc n, ctx := s.tcCtx n } :=
  ⟨5, ⟨0, none, false⟩, 0x30100000 + 2 ^ 64, { isSet := false, flag := 0, n := 1, pt := 0, agent := uTc 5 }, flagOwner (0x30100000 + 2 ^ 64), by decide +kernel⟩

/-- The premises of SyncInstructions, signal to a device, hold together. -/
theorem witness_SyncInstructions_1 : ∃ (n : Fin 32) (chk : FrondCheck) (w : Nat) (op : FlagOp) (s : State),
    s.issuesWord n 3 1 w = true ∧
    w &&& (wmOp ||| wm 0 16 3 ||| wm 0 0 15 ||| wm 1 0 12 ||| wm 1 18 7 ||| wm 2 0 32) = w ∧
    flagFieldsOk w = true ∧
    valueFieldsOk w = true ∧
    bitAt w 18 = true ∧
    wfld w 1 18 7 ≠ s.devId ∧
    (bitAt w 17 = true ∨ wfld w 2 0 32 ≠ 0) ∧
    (s.tc n).flagOperands w true true = 0 ∧
    op = { isSet := false, flag := (s.tc n).flagIndex w, n := (s.tc n).flagValue w, pt := s.tcPt n, agent := uTc n, ctx := s.tcCtx n } :=
  ⟨5, ⟨0, none, false⟩, 0x30140000 + 2 ^ 50 + 2 ^ 64, { isSet := false, flag := 0, n := 1, pt := 0, agent := uTc 5 }, flagOwner (0x30140000 + 2 ^ 50 + 2 ^ 64), by decide +kernel⟩

/-- The premises of SyncInstructions, fset, hold together. -/
theorem witness_SyncInstructions_2 : ∃ (n : Fin 32) (chk : FrondCheck) (w : Nat) (op : FlagOp) (s : State),
    s.issuesWord n 3 3 w = true ∧
    w &&& (wmOp ||| wm 0 16 2 ||| wm 0 0 15 ||| wm 1 0 12 ||| wm 2 0 32) = w ∧
    flagFieldsOk w = true ∧
    valueFieldsOk w = true ∧
    (s.tc n).flagOperands w true false = 0 ∧
    s.owns (s.tcPt n) 0x33 ((s.tc n).flagIndex w) = true ∧
    op = { isSet := true, flag := (s.tc n).flagIndex w, n := (s.tc n).flagValue w, pt := s.tcPt n, agent := uTc n, ctx := s.tcCtx n } :=
  ⟨5, ⟨0, none, false⟩, 0x30300000, { isSet := true, flag := 0, n := 0, pt := 0, agent := uTc 5 }, flagOwner 0x30300000, by decide +kernel⟩

/-- The premises of SyncInstructions, wait, hold together. -/
theorem witness_SyncInstructions_3 : ∃ (n : Fin 32) (chk : FrondCheck) (w : Nat) (s s1 : State),
    s.issuesWord n 3 2 w = true ∧
    w &&& (wmOp ||| wm 0 16 2 ||| wm 0 0 15 ||| wm 1 0 12 ||| wm 2 0 32) = w ∧
    flagFieldsOk w = true ∧
    valueFieldsOk w = true ∧
    (s.tc n).flagOperands w true false = 0 ∧
    s.flagWait (s.tcPt n) ((s.tc n).flagIndex w) ((s.tc n).flagValue w) (uTc n) (s.tcCtx n) = (s1, 0) :=
  ⟨5, ⟨0, none, false⟩, 0x30200000 + 2 ^ 64, flagOwner (0x30200000 + 2 ^ 64), ((flagOwner (0x30200000 + 2 ^ 64)).flagWait 0 0 1 (uTc 5) 0).1, by decide +kernel⟩

/-- The premises of SyncInstructions, fence, hold together. -/
theorem witness_SyncInstructions_4 : ∃ (n : Fin 32) (chk : FrondCheck) (w : Nat) (x : Slot) (done : Bool) (s : State),
    s.issuesWord n 3 5 w = true ∧
    w &&& (wmOp ||| wm 1 25 2) = w ∧
    wfld w 1 25 2 ≠ 3 ∧
    (s.tc n).slot0 = some x ∧
    done = ((wfld w 1 25 2 == 1 || (s.tc n).loads.isEmpty) && (wfld w 1 25 2 == 2 || ((s.tc n).stores.filter fun y => y.2 == x.cid).isEmpty)) :=
  ⟨5, ⟨0, none, false⟩, 0x30500000, ⟨⟨3, 0, 0⟩, 3, 0⟩, true, withWord 0x30500000, by decide +kernel⟩

/-- The premises of TensorInstructions, mma, hold together. -/
theorem witness_TensorInstructions_0 : ∃ (n : Fin 32) (chk : FrondCheck) (w : Nat) (i : MmaWord) (rs : List (Nat × Nat)) (F : Frond × Nat) (s s1 : State),
    s.issuesWord n 1 1 w = true ∧
    i = mmaWord w ∧
    i.ok w = true ∧
    ((s.tc n).sMark i.av = false ∧ (s.tc n).sMark i.bv = false) ∧
    ((isScaled i.ta = true → (s.tc n).sMark i.as_ = false) ∧ (isScaled i.tb = true → (s.tc n).sMark i.bs = false)) ∧
    ((i.ta = 0x18 → (s.tc n).sMark i.at_ = false) ∧ (i.tb = 0x18 → (s.tc n).sMark i.bt = false)) ∧
    rs = operandRanges i.ta i.m i.klen ((s.tc n).sreg i.av) ((s.tc n).sreg i.as_) ++ operandRanges i.tb i.n i.klen ((s.tc n).sreg i.bv) ((s.tc n).sreg i.bs) ∧
    rs.all (fun x => scratchOk x.1 x.2) = true ∧
    (i.clear = true ∨ (s.tc n).accInt.contains i.acc = i.intPath) ∧
    (s.tc n).tileBusy i.acc = false ∧
    rs.any (fun x => (s.tc n).loadBusy x.1 x.2) = false ∧
    F = (s.tc n).mma i ∧
    s1 = (s.setTc n { F.1 with mmas := F.1.mmas ++ [(i.acc, rs)] }).setArith n F.2 :=
  ⟨5, ⟨0, none, false⟩, 0x10110000 + 0x8 + 0x8 * 32, mmaWord (0x10110000 + 0x8 + 0x8 * 32), [(0, 64), (0, 64)], ((withWord (0x10110000 + 0x8 + 0x8 * 32)).tc 5).mma (mmaWord (0x10110000 + 0x8 + 0x8 * 32)), withWord (0x10110000 + 0x8 + 0x8 * 32), mmaDone (0x10110000 + 0x8 + 0x8 * 32), by decide +kernel⟩

/-- The premises of TensorInstructions, mmaComplete, hold together. -/
theorem witness_TensorInstructions_1 : ∃ (n : Fin 32) (x : Nat × List (Nat × Nat)) (xs : List (Nat × List (Nat × Nat))) (s : State),
    (s.tc n).mmas = x :: xs :=
  ⟨5, (0, []), [], ready.setTc 5 { mmas := [(0, [])] }, by decide +kernel⟩

/-- The premises of TensorInstructions, tload, hold together. -/
theorem witness_TensorInstructions_2 : ∃ (n : Fin 32) (chk : FrondCheck) (w : Nat) (t : Tile) (s s1 : State),
    s.issuesWord n 1 2 w = true ∧
    (s.tileOperands n w 0).toOption = some (s1, t) ∧
    t.panels.any (fun x => (s1.tc n).loadBusy x.1 x.2 || (s1.tc n).mmaReads x.1 x.2) = false ∧
    t.originOk = true ∧
    s1.tileCheck (s1.tcPt n) t t.elems = none ∧
    s1.tileRemote (s1.tcPt n) t t.elems = [] :=
  ⟨5, ⟨0, none, false⟩, tloadWord, tile1, onPlanes tloadWord, onPlanes tloadWord, by decide +kernel⟩

/-- The premises of TensorInstructions, tloadComplete, hold together. -/
theorem witness_TensorInstructions_3 : ∃ (n : Fin 32) (l : Load) (ls : List Load) (s s2 s3 : State),
    (s.tc n).loads = l :: ls ∧
    s.remoteOpen (uTc n) 2 = false ∧
    (s.setTc n { s.tc n with loads := ls }).loadTile n (s.tcPt n) l.tile = (s2, none) ∧
    s3 = (s2.bump (Reg.DBG_TC_LOAD_BYTES n) l.tile.bytes).chargeShare (s.tcPt n) l.tile.bytes :=
  ⟨5, ⟨0, 0, tile1⟩, [], tileLoading, ((tileLoading.setTc 5 { tileLoading.tc 5 with loads := [] }).loadTile 5 0 tile1).1, ((((tileLoading.setTc 5 { tileLoading.tc 5 with loads := [] }).loadTile 5 0 tile1).1).bump (Reg.DBG_TC_LOAD_BYTES 5) 16).chargeShare 0 16, by decide +kernel⟩

/-- The premises of TensorInstructions, tstore, hold together. -/
theorem witness_TensorInstructions_4 : ∃ (n : Fin 32) (chk : FrondCheck) (w : Nat) (t : Tile) (x : Slot) (ds : List Digest) (s s1 s3 : State),
    s.issuesWord n 1 3 w = true ∧
    (s.tileOperands n w 1).toOption = some (s1, t) ∧
    (s1.tc n).slot0 = some x ∧
    (s1.tc n).loads = [] ∧
    (t.desc.cmpMode = 1 ∨ ((s1.tc n).digests.any fun g => g.handle == t.handle) = true ∨ (s1.tc n).digests.length < 8) ∧
    t.originOk = true ∧
    (ds = if t.desc.cmpMode = 1 ∨ ((s1.tc n).digests.any fun g => g.handle == t.handle) = true then (s1.tc n).digests else (s1.tc n).digests ++ [{ handle := t.handle, image := t.image, count := t.count }]) ∧
    (s1.setTc n { s1.tc n with digests := ds, nextId := (s1.tc n).nextId + 1, stores := (s1.tc n).stores ++ [((s1.tc n).nextId, x.cid)] }).storeGroups n (s1.tcPt n) t t.groups = (s3, none) :=
  ⟨5, ⟨0, none, false⟩, tstoreWord, { tile2 with e0 := 1 }, ⟨⟨3, 0, 0⟩, 3, 0⟩, [{ handle := 2, image := tile2.image, count := 0 }], onPlanes tstoreWord, onPlanes tstoreWord, (((onPlanes tstoreWord).setTc 5 { (onPlanes tstoreWord).tc 5 with digests := [{ handle := 2, image := tile2.image, count := 0 }], nextId := 1, stores := [(0, ⟨3, 0, 0⟩)] }).storeGroups 5 0 { tile2 with e0 := 1 } [(0, 0)]).1, by decide +kernel⟩

/-- The premises of TensorInstructions, tstoreComplete, hold together. -/
theorem witness_TensorInstructions_5 : ∃ (n : Fin 32) (x : Nat × CopyId) (xs : List (Nat × CopyId)) (s : State),
    (s.tc n).stores = x :: xs ∧
    s.remoteOpen (uTc n) 1 = false :=
  ⟨5, (0, ⟨3, 0, 0⟩), [], ready.setTc 5 { stores := [(0, ⟨3, 0, 0⟩)] }, by decide +kernel⟩

/-- The premises of TensorInstructions, tclr, hold together. -/
theorem witness_TensorInstructions_6 : ∃ (n : Fin 32) (chk : FrondCheck) (w : Nat) (s : State),
    s.issuesWord n 1 4 w = true ∧
    w &&& (wmOp ||| wm 0 16 1 ||| wm 0 0 8) = w ∧
    (∃ k, k < 8 ∧ bitAt w k = true) ∧
    (∀ k, k < 8 → bitAt w k = true → (s.tc n).tileBusy k = false) :=
  ⟨5, ⟨0, none, false⟩, 0x10400001, withWord 0x10400001, by decide +kernel, by decide +kernel, ⟨0, by decide +kernel⟩, by decide +kernel⟩

/-- The premises of FlagOperations, signal, hold together. -/
theorem witness_FlagOperations_0 : ∃ (s : State) (p i n : Nat) (a : UnitId) (ctx op : Nat),
    s.owns p 0x33 i = true ∧
    (s.flag i).poisoned = false ∧
    (s.flag i).value + n < 2 ^ 32 :=
  ⟨flag7 3 ⟨false, 7, 1, 2, ⟨0x30, 2⟩, 0⟩, 2, 7, 5, ⟨0x30, 2⟩, 0, 1, by decide +kernel⟩

/-- The premises of FlagOperations, refused wrap, hold together. -/
theorem witness_FlagOperations_1 : ∃ (s : State) (p i n : Nat) (a : UnitId) (ctx op : Nat),
    s.owns p 0x33 i = true ∧
    (s.flag i).poisoned = false ∧
    2 ^ 32 ≤ (s.flag i).value + n :=
  ⟨flag7 3 ⟨false, 7, 1, 2, ⟨0x30, 2⟩, 0⟩, 2, 7, 0xFFFFFFFD, ⟨0x30, 2⟩, 0, 1, by decide +kernel⟩

/-- The premises of FlagOperations, set, hold together. -/
theorem witness_FlagOperations_2 : ∃ (s : State) (p i n : Nat) (a : UnitId) (ctx : Nat),
    s.owns p 0x33 i = true :=
  ⟨flag7 3 ⟨true, 7, 1, 2, ⟨0x30, 2⟩, 0⟩, 2, 7, 0, ⟨0x30, 2⟩, 0, by decide +kernel⟩

/-- The premises of FlagOperations, not owned, hold together. -/
theorem witness_FlagOperations_3 : ∃ (s : State) (p i n : Nat) (a : UnitId) (ctx op : Nat),
    s.owns p 0x33 i = false :=
  ⟨flag7 3 ⟨true, 7, 1, 2, ⟨0x30, 2⟩, 0⟩, 3, 7, 0, ⟨0x30, 3⟩, 0, 1, by decide +kernel⟩

/-- The premises of FlagOperations, poisoned, hold together. -/
theorem witness_FlagOperations_4 : ∃ (s : State) (p i n : Nat) (a : UnitId) (ctx op : Nat),
    s.owns p 0x33 i = true ∧
    (s.flag i).poisoned = true :=
  ⟨(flag7 0 ⟨true, 7, 1, 2, ⟨0x30, 2⟩, 0⟩).setFlag 7 { poisoned := true }, 2, 7, 0, ⟨0x30, 2⟩, 0, 1, by decide +kernel⟩

/-- The premises of FlagOperations, wait, hold together. -/
theorem witness_FlagOperations_5 : ∃ (s : State) (p i target : Nat) (a : UnitId) (ctx : Nat),
    s.owns p 0x33 i = true ∧
    (s.flag i).poisoned = false :=
  ⟨flag7 3 ⟨true, 7, 1, 2, ⟨0x30, 2⟩, 0⟩, 2, 7, 9, ⟨0x30, 2⟩, 0, by decide +kernel⟩

/-- The premises of FlagCommands, signalApply, hold together. -/
theorem witness_FlagCommands_0 : ∃ (i : Fin 32768) (o : FlagOp) (s : State),
    s.nextFlagOp i = some o ∧
    o.isSet = false ∧
    ((s.takeFlagOp o).flagSignal o.pt i o.n o.agent o.ctx).2 = 0 :=
  ⟨7, ⟨false, 7, 1, 2, ⟨0x30, 2⟩, 0⟩, flag7 3 ⟨false, 7, 1, 2, ⟨0x30, 2⟩, 0⟩, by decide +kernel⟩

/-- The premises of FlagCommands, setApply, hold together. -/
theorem witness_FlagCommands_1 : ∃ (i : Fin 32768) (o : FlagOp) (s : State),
    s.nextFlagOp i = some o ∧
    o.isSet = true ∧
    ((s.takeFlagOp o).flagSet o.pt i o.n o.agent o.ctx).2 = 0 :=
  ⟨7, ⟨true, 7, 1, 2, ⟨0x30, 2⟩, 0⟩, flag7 3 ⟨true, 7, 1, 2, ⟨0x30, 2⟩, 0⟩, by decide +kernel⟩

/-- The premises of FlagCommands, waitSatisfied, hold together. -/
theorem witness_FlagCommands_2 : ∃ (i : Fin 32768) (w : Wait) (s : State),
    (s.flag i).waits.find? (fun w => w.ended.isSome) = some w :=
  ⟨7, { agent := ⟨1, 5⟩, pt := 2, target := 1, since := 0, ended := some 0 }, ready.setFlag 7 { value := 1, waits := [{ agent := ⟨1, 5⟩, pt := 2, target := 1, since := 0, ended := some 0 }] }, by decide +kernel⟩

/-- The premises of FlagCommands, waitTimeout, hold together. -/
theorem witness_FlagCommands_3 : ∃ (channel : Bool) (n : Fin 64) (u : UnitId) (i target : Nat) (w : Wait) (s : State),
    (u = if channel then uCh n else uTc n) ∧
    s.waitOf channel n = some (i, target) ∧
    (s.flag i).waits.find? (fun w => w.agent == u && w.target == target && w.ended.isNone) = some w ∧
    s.rdB (Reg.GS_PT_CFG w.pt) 0 = true :=
  ⟨false, 5, ⟨1, 5⟩, 7, 9, { agent := ⟨1, 5⟩, pt := 2, target := 9, since := 0 }, ((ready.wr (Reg.GS_PT_CFG 2) 1).setFlag 7 { value := 1, waits := [{ agent := ⟨1, 5⟩, pt := 2, target := 9, since := 0 }] }).setTc 5 { wait := some (7, 9) }, by decide +kernel⟩

/-- The premises of FlagCommands, valueWrite, hold together. -/
theorem witness_FlagCommands_4 : ∃ (fn : Fin 16) (i : Fin 32768) (value : BitVec 32) (q : Nat) (s : State),
    s.hostFlagPt fn i = some q :=
  ⟨2, 7, 5#32, 2, flag7 3 ⟨true, 7, 1, 2, ⟨0x30, 2⟩, 0⟩, by decide +kernel⟩

/-- The premises of FlagCommands, addWrite, hold together. -/
theorem witness_FlagCommands_5 : ∃ (fn : Fin 16) (i : Fin 32768) (value : BitVec 32) (q : Nat) (s : State),
    s.hostFlagPt fn i = some q ∧
    value ≠ 0#32 :=
  ⟨0, 7, 5#32, 2, flag7 3 ⟨true, 7, 1, 2, ⟨0x30, 2⟩, 0⟩, by decide +kernel⟩

/-- The premises of FlagCommands, addWrite of 0, hold together. -/
theorem witness_FlagCommands_6 : ∃ (fn : Fin 16) (i : Fin 32768) (ue : Bool) (q : Nat) (s : State),
    s.hostFlagPt fn i = some q :=
  ⟨2, 7, false, 2, flag7 3 ⟨true, 7, 1, 2, ⟨0x30, 2⟩, 0⟩, by decide +kernel⟩

/-- The premises of MoverPrograms, SETV, hold together. -/
theorem witness_MoverPrograms_0 : ∃ (ch : Fin 64) (w : Nat) (s : State),
    s.chIssues ch w = true ∧
    fld w 58 6 = 7 ∧
    chFields w [(55, 3), (54, 1), (0, 48)] = true :=
  ⟨5, 0x1D40000000000001, movRuns 0x1D40000000000001, by decide +kernel⟩

/-- The premises of MoverPrograms, LOOP, hold together. -/
theorem witness_MoverPrograms_1 : ∃ (ch : Fin 64) (w count : Nat) (s : State),
    s.chIssues ch w = true ∧
    fld w 58 6 = 3 ∧
    chFields w [(57, 1), (54, 3), (0, 16)] = true ∧
    ((if bitAt w 57 then fld w 0 16 != 0 else fld w 54 3 != 0) = false) ∧
    (s.ch ch).loops.length < 4 ∧
    (count = if bitAt w 57 then s.chX ch (fld w 54 3) % 2 ^ 32 else fld w 0 16 + 1) :=
  ⟨5, 0x0C00000000000003, 4, movRuns 0x0C00000000000003, by decide +kernel⟩

/-- The premises of MoverPrograms, ENDL, hold together. -/
theorem witness_MoverPrograms_2 : ∃ (ch : Fin 64) (w body k : Nat) (rest : List (Nat × Nat)) (s : State),
    s.chIssues ch w = true ∧
    fld w 58 6 = 4 ∧
    chFields w [] = true ∧
    (s.ch ch).loops = (body, k) :: rest :=
  ⟨5, 0x1000000000000000, 8, 2, [], (movRuns 0x1000000000000000).setCh 5 { (movRuns 0x1000000000000000).ch 5 with loops := [(8, 2)] }, by decide +kernel⟩

/-- The premises of MoverPrograms, WAIT, hold together. -/
theorem witness_MoverPrograms_3 : ∃ (ch : Fin 64) (w i : Nat) (s s1 : State),
    s.chIssues ch w = true ∧
    fld w 58 6 = 5 ∧
    s.chFlag ch w = some i ∧
    chFlagFields w false = true ∧
    (s.wr (Reg.MOV_CH_RESIDUE ch) 0).flagWait (s.chPt ch) i (s.chValue ch w) (uCh ch) (s.rdN (Reg.MOV_CH_PC ch)) = (s1, 0) :=
  ⟨5, 0x1400000000000003, 0, movRuns 0x1400000000000003, (((movRuns 0x1400000000000003).wr (Reg.MOV_CH_RESIDUE 5) 0).flagWait 0 0 3 (uCh 5) 0).1, by decide +kernel, by decide +kernel, by decide +kernel, by decide +kernel, rfl⟩

/-- The premises of MoverPrograms, SIGNAL, hold together. -/
theorem witness_MoverPrograms_4 : ∃ (ch : Fin 64) (w i : Nat) (s s1 : State),
    s.chIssues ch w = true ∧
    fld w 58 6 = 6 ∧
    s.chFlag ch w = some i ∧
    chFlagFields w true = true ∧
    bitAt w 40 = false ∧
    s.chValue ch w ≠ 0 ∧
    s.owns (s.chPt ch) 0x33 i = true ∧
    s1 = ((s.wr (Reg.MOV_CH_RESIDUE ch) 0).setCh ch { s.ch ch with rels := (s.ch ch).rels ++
      [{ needs := (s.ch ch).writes.map (·.id), act := .signal i (s.chValue ch w) none }] }).chReleases ch ((s.ch ch).rels.length + 1) ∧
    (s1.ch ch).live = true :=
  ⟨5, 0x1800000000000001, 0, movRuns 0x1800000000000001, (((movRuns 0x1800000000000001).wr (Reg.MOV_CH_RESIDUE 5) 0).setCh 5 { (movRuns 0x1800000000000001).ch 5 with rels := [{ needs := [], act := .signal 0 1 none }] }).chReleases 5 1, by decide +kernel, by decide +kernel, by decide +kernel, by decide +kernel, by decide +kernel, by decide +kernel, by decide +kernel, by decide +kernel, by decide +kernel⟩

/-- The premises of MoverPrograms, HALT, hold together. -/
theorem witness_MoverPrograms_5 : ∃ (ch : Fin 64) (w : Nat) (s : State),
    s.chIssues ch w = true ∧
    fld w 58 6 = 8 ∧
    chFields w [] = true :=
  ⟨5, 0x2000000000000000, movRuns 0x2000000000000000, by decide +kernel⟩

/-- The premises of MoverPrograms, MOVE, hold together. -/
theorem witness_MoverPrograms_6 : ∃ (ch : Fin 64) (w len rows : Nat) (s : State) (x : Nat → Nat),
    s.chIssues ch w = true ∧
    fld w 58 6 = 1 ∧
    x = (fun lo => s.chX ch (fld w lo 3)) ∧
    len = fld w 21 20 ∧
    rows = fld w 5 16 + 1 ∧
    fld w 0 5 = 0 ∧
    len ≠ 0 ∧
    bitAt w 56 = false ∧
    bitAt w 57 = false ∧
    x 46 % 64 = 0 ∧
    x 43 % 64 = 0 ∧
    ([x 52, x 49, len].any (fun v => v % (if bitAt w 55 then 4 else 64) != 0) = false) :=
  ⟨5, 0x0400000008000000, 64, 1, movRuns 0x0400000008000000, fun lo => (movRuns 0x0400000008000000).chX 5 (fld 0x0400000008000000 lo 3), by decide +kernel, by decide +kernel, rfl, by decide +kernel, by decide +kernel, by decide +kernel, by decide +kernel, by decide +kernel, by decide +kernel, by decide +kernel, by decide +kernel, by decide +kernel⟩

/-- The premises of MoverPrograms, MOVX, hold together. -/
theorem witness_MoverPrograms_7 : ∃ (ch : Fin 64) (w len rows : Nat) (s : State) (x : Nat → Nat),
    s.chIssues ch w = true ∧
    fld w 58 6 = 2 ∧
    x = (fun lo => s.chX ch (fld w lo 3)) ∧
    len = fld w 21 20 ∧
    rows = fld w 5 16 + 1 ∧
    fld w 0 5 = 0 ∧
    len ≠ 0 ∧
    bitAt w 55 = false ∧
    bitAt w 41 = false ∧
    x 46 % 4 = 0 ∧
    [x 52, x 49, len].any (fun v => v % 64 != 0) = false :=
  ⟨5, 0x0800000008000000, 64, 1, movRuns 0x0800000008000000, fun lo => (movRuns 0x0800000008000000).chX 5 (fld 0x0800000008000000 lo 3), by decide +kernel, by decide +kernel, rfl, by decide +kernel, by decide +kernel, by decide +kernel, by decide +kernel, by decide +kernel, by decide +kernel, by decide +kernel, by decide +kernel⟩

/-- The premises of MoverPrograms, illegal, hold together. -/
theorem witness_MoverPrograms_8 : ∃ (ch : Fin 64) (w op : Nat) (body : State → Nat → Nat → State) (s : State),
    s.chIssues ch w = true ∧
    knownChOp (fld w 58 6) = false :=
  ⟨5, 0, 7, fun s _ _ => s, movRuns 0, by decide +kernel⟩

/-- The premises of MoverCommands, movStart, hold together. -/
theorem witness_MoverCommands_0 : ∃ (ch : Fin 64) (s : State),
    (s.ch ch).held = none ∧
    s.startCode ch (s.rdN (Reg.MOV_CH_PROG ch)) = 0 ∧
    s.rdB Reg.REL_STATUS 0 = false :=
  ⟨5, movOwned, by decide +kernel⟩

/-- The premises of MoverCommands, movStart refused, hold together. -/
theorem witness_MoverCommands_1 : ∃ (ch : Fin 64) (s : State),
    s.startCode ch (s.rdN (Reg.MOV_CH_PROG ch)) ≠ 0 ∧
    (s.ch ch).held = none :=
  ⟨5, ready, by decide +kernel⟩

/-- The premises of MoverCommands, movAbort, hold together. -/
theorem witness_MoverCommands_2 : ∃ (ch : Fin 64) (s : State),
    (s.ch ch).live = true ∧
    s.chState ch = 1 ∧
    (s.ch ch).failed = false :=
  ⟨5, movRuns 0, by decide +kernel⟩

/-- The premises of MoverCommands, movResume, hold together. -/
theorem witness_MoverCommands_3 : ∃ (ch : Fin 64) (s : State),
    (s.ch ch).live = true ∧
    s.chState ch = 3 :=
  ⟨5, (movRuns 0).wr (Reg.MOV_CH_STATE 5) 3, by decide +kernel⟩

/-- The premises of MoverCommands, movResume refused, hold together. -/
theorem witness_MoverCommands_4 : ∃ (ch : Fin 64) (s : State),
    s.chState ch ≠ 3 :=
  ⟨5, movRuns 0, by decide +kernel⟩

/-- The premises of MoverCommands, movRingReset, hold together. -/
theorem witness_MoverCommands_5 : ∃ (ch : Fin 64) (p fl : Nat) (s : State),
    s.chState ch = 0 ∧
    s.ownerOf 0x21 ch = some p ∧
    fl = s.rdN (Reg.MOV_CH_RING_FLAGS ch) :=
  ⟨5, 0, 0, movOwned, by decide +kernel⟩

/-- The premises of MoverCommands, beatIssue, hold together. -/
theorem witness_MoverCommands_6 : ∃ (m : Fin 4) (write : Bool) (n : Nat) (r : List Nat) (s s1 s2 : State),
    s.beatWinner m write = some n ∧
    r = (((List.range 16).map (m.val * 16 + ·)).filter fun n => s.beatReady n write) ∧
    s1 = (r.filter fun n => !s.tagFree n write).foldl (fun s n => s.bump (Reg.MOV_CH_TAG_STALL n) 1) s ∧
    s2 = (r.filter fun k => s.rdF (Reg.MOV_CH_PRIO k) 0 3 < s.rdF (Reg.MOV_CH_PRIO n) 0 3).foldl
      (fun s k => s.bump (Reg.MOV_CH_PREEMPTED k) 1) (s1.progress (s.chPt n)) :=
  ⟨0, false, 5, [5], movBeats, movBeats, movBeats.progress 0, by decide +kernel, by decide +kernel, by rfl, by rfl⟩

/-- The premises of MoverCommands, readReturn, hold together. -/
theorem witness_MoverCommands_7 : ∃ (ch : Fin 64) (b : Beat) (bs : List Beat) (s : State),
    (s.ch ch).reads = b :: bs ∧
    s.remotePending 2 ch b.pa = false ∧
    s.poisonedPA b.pa b.len = false ∧
    ((s.ch ch).run.map (·.noWrite)).getD false = false ∧
    (s.ch ch).failed = false :=
  ⟨5, { id := 0, src := 0x10000, dst := 0x20000, len := 64, pa := 0x10000 }, [], (movRuns 0).setCh 5 { (movRuns 0).ch 5 with reads := [{ id := 0, src := 0x10000, dst := 0x20000, len := 64, pa := 0x10000 }] }, by decide +kernel⟩

/-- The premises of MoverCommands, writeAck, hold together. -/
theorem witness_MoverCommands_8 : ∃ (ch : Fin 64) (b : Beat) (bs : List Beat) (s : State),
    (s.ch ch).writes = b :: bs ∧
    s.remotePending 1 ch b.pa = false ∧
    (s.ch ch).rels = [] ∧
    (s.ch ch).cur = none ∧
    (s.ch ch).failed = false :=
  ⟨5, { id := 0, src := 0x10000, dst := 0x20000, len := 64, pa := 0x20000 }, [], (movRuns 0).setCh 5 { (movRuns 0).ch 5 with writes := [{ id := 0, src := 0x10000, dst := 0x20000, len := 64, pa := 0x20000 }], drains := [[0]] }, by decide +kernel⟩

/-- The premises of MoverCommands, busError, hold together. -/
theorem witness_MoverCommands_9 : ∃ (ch : Fin 64) (b : Beat) (bs : List Beat) (s : State),
    (s.ch ch).reads = b :: bs :=
  ⟨5, { id := 0, src := 0x10000, dst := 0x20000, len := 64, pa := 0x10000 }, [], (movRuns 0).setCh 5 { (movRuns 0).ch 5 with reads := [{ id := 0, src := 0x10000, dst := 0x20000, len := 64, pa := 0x10000 }] }, by decide +kernel⟩

/-- The premises of MoverCommands, runComplete, hold together. -/
theorem witness_MoverCommands_10 : ∃ (ch : Fin 64) (r : ChRun) (code : Nat) (s s1 s2 : State),
    (s.ch ch).run = some r ∧
    (s.ch ch).runOver = true ∧
    code = r.ended.getD 0 ∧
    s1 = (s.setCh ch { s.ch ch with run := none, cur := none, line := none, redo := [], failedR := [], failedW := [], failed := false }).wr
      (Reg.MOV_CH_STATE ch) ((s.ch ch).loops.length * 16 + code * 65536) ∧
    (s2 = (if s1.rdB (Reg.MOV_CH_IRQ ch) (if code = 0 then 0 else 1) then s1.irqReg (s.chPt ch) (Reg.QM_CH_IVEC ch) else s1).chWriteRecord ch r code) :=
  ⟨5, { start := 0, ended := some 0 }, 0, movEnds, ((movEnds.setCh 5 { movEnds.ch 5 with run := none, cur := none, line := none, redo := [], failedR := [], failedW := [], failed := false }).wr (Reg.MOV_CH_STATE 5) 0), ((movEnds.setCh 5 { movEnds.ch 5 with run := none, cur := none, line := none, redo := [], failedR := [], failedW := [], failed := false }).wr (Reg.MOV_CH_STATE 5) 0), by decide +kernel⟩

/-- The premises of MoverCommands, doneSignal, hold together. -/
theorem witness_MoverCommands_11 : ∃ (ch : Fin 64) (flagReg code : Nat) (rs : List ChRel) (s s1 : State),
    (s.ch ch).rels = { needs := [], act := .done flagReg none code } :: rs ∧
    s1 = s.setCh ch { s.ch ch with rels := rs } :=
  ⟨5, 2 ^ 31 + 7, 0, [], movOwned.setCh 5 { rels := [{ needs := [], act := .done (2 ^ 31 + 7) none 0 }] }, (movOwned.setCh 5 { rels := [{ needs := [], act := .done (2 ^ 31 + 7) none 0 }] }).setCh 5 {}, by decide +kernel⟩

/-- The premises of MoverCommands, drainReturn, hold together. -/
theorem witness_MoverCommands_13 : ∃ (ch : Fin 64) (ds : List (List Nat)) (s : State),
    (s.ch ch).drains = [] :: ds :=
  ⟨5, [], movOwned.setCh 5 { drains := [[]] }, by decide +kernel⟩

/-- The premises of MoverCommands, drainTimeout, hold together. -/
theorem witness_MoverCommands_14 : ∃ (ch : Fin 64) (d : List Nat) (ds : List (List Nat)) (s : State),
    (s.ch ch).drains = d :: ds :=
  ⟨5, [3], [], movOwned.setCh 5 { drains := [[3]] }, by decide +kernel⟩

/-- The premises of MoverCommands, drainTimeout of a partition, hold together. -/
theorem witness_MoverCommands_15 : ∃ (p : Fin 64) (s : State),
    s.qm.drainReads.contains p.val = true :=
  ⟨2, { ready with qm := { ready.qm with drainReads := [2] } }, by decide +kernel⟩

/-- The premises of MoverCommands, sporeSubmit, hold together. -/
theorem witness_MoverCommands_16 : ∃ (ch : Fin 64) (value : BitVec 32) (len : Nat) (s : State),
    len = fld value.toNat 0 8 + 1 ∧
    (s.ch ch).spores.length < 16 ∧
    (s.ownerOf 0x21 ch).isSome = true ∧
    s.rdB Reg.REL_STATUS 0 = false ∧
    bitAt value.toNat 8 = true ∧
    len ≤ 32 ∧
    s.rdN (Reg.MOV_CH_SPORE_DST ch) % 4096 + len ≤ 4096 :=
  ⟨5, 0x11F#32, 32, movOwned, by decide +kernel⟩

/-- The premises of MoverCommands, sporeComplete, hold together. -/
theorem witness_MoverCommands_17 : ∃ (ch : Fin 64) (x : Spore) (xs : List Spore) (bs : List Byte) (pa : Nat) (s : State),
    (s.ch ch).spores = x :: xs ∧
    (s.xlate (s.chPt ch) x.dst x.len .write).toOption = some pa ∧
    x.wrote = false ∧
    x.inline = some bs ∧
    targetOf pa = .inPackage :=
  ⟨5, ⟨some [1#8], 0, 0x10000, 1, none, false, false⟩, [], [1#8], 0x10000, movOwned.setCh 5 { spores := [⟨some [1#8], 0, 0x10000, 1, none, false, false⟩] }, by decide +kernel⟩

/-- The premises of MemoryCommands, cache commands, hold together. -/
theorem witness_MemoryCommands_0 : ∃ (p : Fin 16) (c : Instr) (op result : Nat) (s : State),
    (c, op, result) ∈ [(Instr.cleanRange p, 1, s.cacheResult p), (.flushRange p, 2, s.cacheResult p), (.flushAll p, 3, 0), (.releaseRetained p, 4, 0)] ∧
    s.rdB (Reg.MEM_PT_CACHE_STATUS p) 0 = false :=
  ⟨0, .cleanRange 0, 1, 0, ready, by decide +kernel⟩

/-- The premises of MemoryCommands, cache command while one runs, hold together. -/
theorem witness_MemoryCommands_1 : ∃ (p : Fin 16) (c : Instr) (s : State),
    c ∈ [Instr.cleanRange p, .flushRange p, .flushAll p, .releaseRetained p] ∧
    s.rdB (Reg.MEM_PT_CACHE_STATUS p) 0 = true :=
  ⟨0, .flushAll 0, ready.wr (Reg.MEM_PT_CACHE_STATUS 0) 1, by decide +kernel⟩

/-- The premises of MemoryCommands, cacheCmdComplete, hold together. -/
theorem witness_MemoryCommands_2 : ∃ (p : Fin 16) (op : Nat) (s : State),
    Tab.get? s.memx.cacheRun p = some (op, 0) :=
  ⟨0, 3, { ready with memx := { ready.memx with cacheRun := [(0, (3, 0))] } }, by decide +kernel⟩

/-- The premises of MemoryCommands, cacheCmdComplete skipped page, hold together. -/
theorem witness_MemoryCommands_3 : ∃ (p : Fin 16) (op : Nat) (s : State),
    Tab.get? s.memx.cacheRun p = some (op, 0x0503) ∧
    op < 3 :=
  ⟨0, 1, { ready with memx := { ready.memx with cacheRun := [(0, (1, 0x0503))] } }, by decide +kernel⟩

/-- The premises of MemoryCommands, translation commands, hold together. -/
theorem witness_MemoryCommands_4 : ∃ (p : Fin 16) (c : Instr) (op : Nat) (s : State),
    (c, op) ∈ [(Instr.s1All p, 1), (.s1Range p, 2), (.s2All 0 p, 3), (.s2Range 0 p, 4)] ∧
    s.rdB (Reg.MEM_PT_XLAT_STATUS p) 0 = false :=
  ⟨0, .s2Range 0 0, 4, ready, by decide +kernel⟩

/-- The premises of MemoryCommands, stage-2 operations from a VF, hold together. -/
theorem witness_MemoryCommands_5 : ∃ (fn p : Fin 16) (s : State),
    fn ≠ 0 :=
  ⟨1, 1, ready, by decide +kernel⟩

/-- The premises of MemoryCommands, translation command while one runs, hold together. -/
theorem witness_MemoryCommands_6 : ∃ (p : Fin 16) (c : Instr) (s : State),
    c ∈ [Instr.s1All p, .s1Range p, .s2All 0 p, .s2Range 0 p] ∧
    s.rdB (Reg.MEM_PT_XLAT_STATUS p) 0 = true :=
  ⟨0, .s1All 0, ready.wr (Reg.MEM_PT_XLAT_STATUS 0) 1, by decide +kernel⟩

/-- The premises of MemoryCommands, xlatCmdComplete, hold together. -/
theorem witness_MemoryCommands_7 : ∃ (p : Fin 16) (op : Nat) (s : State),
    Tab.get? s.memx.xlatRun p = some op :=
  ⟨0, 1, { ready with memx := { ready.memx with xlatRun := [(0, 1)] } }, by decide +kernel⟩

/-- The premises of MemoryCommands, cacheFill good, hold together. -/
theorem witness_MemoryCommands_10 : ∃ (p : Fin 16) (reader : AgentClass) (inst : Fin 256) (pa : BitVec 48) (s : State),
    targetOf pa.toNat = .inPackage ∧
    s.granBad (pa.toNat / 64) = false ∧
    s.memx.poison.contains (pa.toNat / 64) = false :=
  ⟨0, .frond, 5, 0x10000#48, ready, by decide +kernel⟩

/-- The premises of MemoryCommands, cacheFill uncorrectable, hold together. -/
theorem witness_MemoryCommands_11 : ∃ (p : Fin 16) (reader : AgentClass) (inst : Fin 256) (pa : BitVec 48) (s : State),
    targetOf pa.toNat = .inPackage :=
  ⟨0, .frond, 5, 0x10000#48, ready, by decide +kernel⟩

/-- The premises of MemoryCommands, cacheFill tag mismatch, hold together. -/
theorem witness_MemoryCommands_12 : ∃ (p : Fin 16) (reader : AgentClass) (inst : Fin 256) (pa : BitVec 48) (s s1 : State),
    targetOf pa.toNat = .inPackage ∧
    s.memx.poison.contains (pa.toNat / 64) = false ∧
    s1 = ((s.bump (Reg.MEM_CH_RD_BYTES (s.channelOf pa.toNat)) 64).bump (Reg.MEM_PT_BYTES p) 64).bump (Reg.MEM_PT_MISSES p) 1 :=
  ⟨0, .frond, 5, 0x10000#48, ready, ((ready.bump (Reg.MEM_CH_RD_BYTES (ready.channelOf 0x10000)) 64).bump (Reg.MEM_PT_BYTES 0) 64).bump (Reg.MEM_PT_MISSES 0) 1, by decide +kernel, by decide +kernel, by rfl⟩

/-- The premises of MemoryCommands, imbalance window below the ratio, hold together. -/
theorem witness_MemoryCommands_13 : ∃ (total busyCount : Nat) (busiest : Fin 32) (pt : Fin 16) (s s1 s2 : State),
    (total * 64 < 61440000 ∨ busyCount * 32 ≤ total * 4) ∧
    (s1 = (s.wr Reg.MEM_IMB_RATIO (if total = 0 then 0 else min 0xFFFF (busyCount * 32 * 256 / total))).wr Reg.MEM_IMB_STATUS
      (busiest.val + pt.val * 256 + s.rdF Reg.MEM_IMB_STATUS 16 16 * 65536)) ∧
    s2 = (s1.wrF Reg.MEM_IMB_STATUS 16 16 0).wrF Reg.MEM_STATUS 4 1 0 :=
  ⟨0, 0, 0, 0, ready, (ready.wr Reg.MEM_IMB_RATIO 0).wr Reg.MEM_IMB_STATUS 0, (((ready.wr Reg.MEM_IMB_RATIO 0).wr Reg.MEM_IMB_STATUS 0).wrF Reg.MEM_IMB_STATUS 16 16 0).wrF Reg.MEM_STATUS 4 1 0, by decide +kernel⟩

/-- The premises of MemoryCommands, imbalance window above the ratio, hold together. -/
theorem witness_MemoryCommands_14 : ∃ (total busyCount run : Nat) (busiest : Fin 32) (pt : Fin 16) (s s1 : State),
    61440000 ≤ total * 64 ∧
    total * 4 < busyCount * 32 ∧
    (s1 = (s.wr Reg.MEM_IMB_RATIO (if total = 0 then 0 else min 0xFFFF (busyCount * 32 * 256 / total))).wr Reg.MEM_IMB_STATUS
      (busiest.val + pt.val * 256 + s.rdF Reg.MEM_IMB_STATUS 16 16 * 65536)) ∧
    run = min 0xFFFF (s.rdF Reg.MEM_IMB_STATUS 16 16 + 1) ∧
    run < 1000 :=
  ⟨1000000, 200000, 1, 3, 0, ready, ((ready.wr Reg.MEM_IMB_RATIO (min 0xFFFF (200000 * 32 * 256 / 1000000))).wr Reg.MEM_IMB_STATUS 3), by decide +kernel⟩

/-- The premises of MemoryCommands, mr4Poll, hold together. -/
theorem witness_MemoryCommands_15 : ∃ (tempC : Fin 256) (channel : Fin 32) (s s1 : State),
    (s1 = (((s.wr Reg.MEM_TEMP (tempC.val + channel.val * 256)).wrF Reg.MEM_STATUS 1 2 (refreshRow tempC)).wrF Reg.MEM_STATUS 3 1
      (if 105 < tempC.val then 1 else if tempC.val ≤ 100 then 0 else (s.rdB Reg.MEM_STATUS 3).toNat))) :=
  ⟨106, 3, ready, ((ready.wr Reg.MEM_TEMP 874).wrF Reg.MEM_STATUS 1 2 3).wrF Reg.MEM_STATUS 3 1 1, by decide +kernel⟩

/-- The premises of AssignmentCommands, assign and release, hold together. -/
theorem witness_AssignmentCommands_0 : ∃ (p : Fin 16) (c : Instr) (assign : Bool) (cls first n : Nat) (s s1 : State),
    (c, assign) ∈ [(Instr.unitAssign p, true), (.unitRelease p, false)] ∧
    s.rdB Reg.QM_ASSIGN_STATUS 0 = false ∧
    cls = s.rdN Reg.QM_ASSIGN_CLASS ∧
    first = s.rdN Reg.QM_ASSIGN_FIRST ∧
    n = s.rdN Reg.QM_ASSIGN_COUNT ∧
    s.assignRefusal assign cls first n p = 0 ∧
    cls ≠ 0x01 ∧
    s1 = (s.assignApply assign cls first n p).capChange :=
  ⟨1, .unitAssign 1, true, 0x33, 5, 2, assigning, (assigning.assignApply true 0x33 5 2 1).capChange, by decide +kernel, by decide +kernel, by decide +kernel, by decide +kernel, by decide +kernel, by decide +kernel, by decide +kernel, rfl⟩

/-- The premises of AssignmentCommands, assign of Fronds, hold together. -/
theorem witness_AssignmentCommands_1 : ∃ (p : Fin 16) (c : Instr) (assign : Bool) (first n : Nat) (s s1 : State),
    (c, assign) ∈ [(Instr.unitAssign p, true), (.unitRelease p, false)] ∧
    s.rdB Reg.QM_ASSIGN_STATUS 0 = false ∧
    s.rdN Reg.QM_ASSIGN_CLASS = 0x01 ∧
    first = s.rdN Reg.QM_ASSIGN_FIRST ∧
    n = s.rdN Reg.QM_ASSIGN_COUNT ∧
    s.assignRefusal assign 0x01 first n p = 0 ∧
    s1 = (s.assignApply assign 0x01 first n p).capChange.rejudgeAll p :=
  ⟨1, .unitAssign 1, true, 5, 2, assigning.wr Reg.QM_ASSIGN_CLASS 1, (((assigning.wr Reg.QM_ASSIGN_CLASS 1).assignApply true 0x01 5 2 1).capChange).rejudgeAll 1, by decide +kernel, by decide +kernel, by decide +kernel, by decide +kernel, by decide +kernel, by decide +kernel, rfl⟩

/-- The premises of AssignmentCommands, assign refused, hold together. -/
theorem witness_AssignmentCommands_2 : ∃ (p : Fin 16) (c : Instr) (assign : Bool) (code : Nat) (s : State),
    (c, assign) ∈ [(Instr.unitAssign p, true), (.unitRelease p, false)] ∧
    s.rdB Reg.QM_ASSIGN_STATUS 0 = false ∧
    code = s.assignRefusal assign (s.rdN Reg.QM_ASSIGN_CLASS) (s.rdN Reg.QM_ASSIGN_FIRST) (s.rdN Reg.QM_ASSIGN_COUNT) p ∧
    code ≠ 0 :=
  ⟨1, .unitRelease 1, false, 0x0A08, assigning, by decide +kernel⟩

/-- The premises of AssignmentCommands, assignComplete, hold together. -/
theorem witness_AssignmentCommands_3 : ∃ (op cls first n p : Nat) (s : State),
    s.qm.assignRun = some (op, cls, first, n, p) ∧
    (¬(op = 2 ∧ cls = 0x01 ∧ (List.range n).any (fun k => s.frondZeroing (first + k)) = true)) :=
  ⟨1, 0x33, 5, 2, 1, { ready with qm := { ready.qm with assignRun := some (1, 0x33, 5, 2, 1) } }, by decide +kernel⟩

/-- The premises of AssignmentCommands, grant, hold together. -/
theorem witness_AssignmentCommands_4 : ∃ (p : Fin 16) (first n : Nat) (s : State),
    s.rdB Reg.QM_GRANT_STATUS 0 = false ∧
    s.ptReady p = true ∧
    first = s.rdN Reg.QM_GRANT_FIRST ∧
    n = s.rdN Reg.QM_GRANT_COUNT ∧
    (¬(n = 0 ∨ chunkCount < first + n ∨ s.isConf p = true ∨ s.chunks.any (fun e => first ≤ e.1 && e.1 < first + n) = true)) :=
  ⟨1, 5, 2, granting, by decide +kernel⟩

/-- The premises of AssignmentCommands, chunkFillComplete, hold together. -/
theorem witness_AssignmentCommands_5 : ∃ (next last p : Nat) (s s1 : State),
    s.qm.grantRun = some (1, next, last, p) ∧
    s1 = ({ s.zeroChunk next with chunks := (s.zeroChunk next).chunks.put next p }).countChunks p :=
  ⟨5, 7, 1, { granting with qm := { granting.qm with grantRun := some (1, 5, 7, 1) } }, ({ granting with qm := { granting.qm with grantRun := some (1, 5, 7, 1) }, chunks := [(5, 1)] }).countChunks 1, rfl, by decide +kernel⟩

/-- The premises of AssignmentCommands, chunkRelease, hold together. -/
theorem witness_AssignmentCommands_6 : ∃ (p : Fin 16) (first n : Nat) (s s1 : State),
    s.rdB Reg.QM_GRANT_STATUS 0 = false ∧
    s.ptReady p = true ∧
    first = s.rdN Reg.QM_GRANT_FIRST ∧
    n = s.rdN Reg.QM_GRANT_COUNT ∧
    (¬(n = 0 ∨ chunkCount < first + n ∨ s.isConf p = true ∨ (s.chunks.filter fun e => first ≤ e.1 && e.1 < first + n && e.2 == p.val).length ≠ n)) ∧
    s1 = s.freeChunks first n p :=
  ⟨1, 5, 2, { granting with chunks := [(5, 1), (6, 1)] }, ({ granting with chunks := [(5, 1), (6, 1)] }).freeChunks 5 2 1, by decide +kernel, by decide +kernel, by decide +kernel, by decide +kernel, by decide +kernel, rfl⟩

/-- The premises of AssignmentCommands, chunkReleaseComplete, hold together. -/
theorem witness_AssignmentCommands_7 : ∃ (first last p : Nat) (s : State),
    s.qm.grantRun = some (2, first, last, p) :=
  ⟨5, 7, 1, { ready with qm := { ready.qm with grantRun := some (2, 5, 7, 1) } }, by decide +kernel⟩

/-- The premises of AssignmentCommands, grant and release refused, hold together. -/
theorem witness_AssignmentCommands_8 : ∃ (p : Fin 16) (c : Instr) (s : State),
    (c = .chunkGrant p ∨ c = .chunkRelease p) ∧
    s.rdB Reg.QM_GRANT_STATUS 0 = false ∧
    s.ptReady p = false :=
  ⟨1, .chunkGrant 1, ready.wr (Reg.QM_PT_STATE 1) 2, by decide +kernel⟩

/-- The premises of AssignmentCommands, qosMemWrite, hold together. -/
theorem witness_AssignmentCommands_11 : ∃ (fn p : Fin 16) (value : BitVec 32) (lo hi : Nat) (s : State),
    lo = fld value.toNat 0 16 ∧
    hi = fld value.toNat 16 16 :=
  ⟨0, 1, 0x00200010#32, 0x10, 0x20, ready, by decide +kernel⟩

/-- The premises of AssignmentCommands, qosLinkWrite, hold together. -/
theorem witness_AssignmentCommands_12 : ∃ (fn p : Fin 16) (value : BitVec 32) (v lo hi : Nat) (s : State),
    v = value.toNat &&& 0x0FFF0FFF ∧
    lo = fld v 0 12 ∧
    hi = fld v 16 12 :=
  ⟨0, 1, 0x00200010#32, 0x00200010, 0x10, 0x20, ready, by decide +kernel⟩

/-- The premises of AssignmentCommands, qosInterval, hold together. -/
theorem witness_AssignmentCommands_13 : ∃ (s s1 : State),
    (s1 = (List.range 16).foldl (fun s p => if s.rdF (Reg.QOS_PT_MEM p) 16 16 ≠ 0 ∧ s.rdF (Reg.QOS_PT_MEM p) 16 16 ≤ s.qm.admitted.getD p 0
      then s.bump (Reg.QOS_PT_CAPPED p) 1 else s) s) :=
  ⟨ready, ready, by decide +kernel⟩

/-- The premises of AssignmentCommands, ptDrainReturn, hold together. -/
theorem witness_AssignmentCommands_15 : ∃ (p : Fin 16) (s : State),
    s.qm.drainReads.contains p.val = true :=
  ⟨1, { ready with qm := { ready.qm with drainReads := [1] } }, by decide +kernel⟩

/-- The premises of AssignmentCommands, msixEnableSet, hold together. -/
theorem witness_AssignmentCommands_17 : ∃ (fn : Fin 16) (s s1 : State),
    s1 = { s with qm := { s.qm with msixEn := insSorted fn s.qm.msixEn, draining := s.qm.draining.filter (· != fn.val), drainFirst := s.qm.drainFirst.filter (· != fn.val) } } :=
  ⟨3, ready, { ready with qm := { ready.qm with msixEn := [3] } }, by decide +kernel⟩

/-- The premises of RingCommands, doorbellTail, hold together. -/
theorem witness_RingCommands_0 : ∃ (p : Fin 16) (ring : Fin 8192) (epoch : BitVec 16) (value : BitVec 32) (s : State),
    s.ptReady p = true ∧
    s.doorbellCheck p false ring 0 epoch.toNat = none ∧
    (value.toNat + 2 ^ 32 - s.rdN (Reg.RING_TAIL ring)) % 2 ^ 32 ≤ s.ringSize ring - s.ringUsed ring :=
  ⟨0, 9, 0#16, 1#32, subRing, by decide +kernel⟩

/-- The premises of RingCommands, doorbellHead, hold together. -/
theorem witness_RingCommands_1 : ∃ (p : Fin 16) (ring : Fin 8192) (epoch : BitVec 16) (value : BitVec 32) (s : State),
    s.ptReady p = true ∧
    s.doorbellCheck p false ring 1 epoch.toNat = none ∧
    (value.toNat + 2 ^ 32 - s.rdN (Reg.RING_HEAD ring)) % 2 ^ 32 ≤ s.ringUsed ring :=
  ⟨0, 9, 0#16, 1#32, comRing.wr (Reg.RING_TAIL 9) 1, by decide +kernel⟩

/-- The premises of RingCommands, doorbells refused, hold together. -/
theorem witness_RingCommands_2 : ∃ (p : Fin 16) (malformed : Bool) (ring : Fin 8192) (epoch : BitVec 16) (value : BitVec 32) (code : Nat) (s : State),
    s.ptReady p = true ∧
    code ≠ 0x0503 :=
  ⟨0, true, 9, 0#16, 1#32, 0x0A03, subRing, by decide +kernel⟩

/-- The premises of RingCommands, doorbells while resetting, hold together. -/
theorem witness_RingCommands_3 : ∃ (p : Fin 16) (malformed : Bool) (ring : Fin 8192) (epoch : BitVec 16) (value : BitVec 32) (s : State),
    s.ptReady p = false :=
  ⟨1, false, 9, 0#16, 1#32, ready.wr (Reg.QM_PT_STATE 1) 2, by decide +kernel⟩

/-- The premises of RingCommands, ringEntriesArrive, hold together. -/
theorem witness_RingCommands_4 : ∃ (ring : Fin 8192) (hostData bs : List Byte) (hostBad : Bool) (p tail n : Nat) (its : List Item) (s s1 : State),
    s.ownerOf 0x31 ring = some p ∧
    tail = s.rdN (Reg.RING_TAIL ring) ∧
    n = (s.rdN (Reg.RING_TAIL_RAW ring) + 2 ^ 32 - tail) % 2 ^ 32 ∧
    (¬((!s.ptReady p) = true ∨ (!s.rdB (Reg.RING_CFG ring) 0) = true ∨ s.rdB (Reg.RING_CFG ring) 1 = true ∨ n = 0)) ∧
    s.readEntries p ring hostBad n tail hostData = .data bs false ∧
    its = cutItems ring n tail bs ∧
    s1 = (s.wr (Reg.RING_TAIL ring) ((tail + its.foldl (fun a i => a + i.bytes.length / 64) 0) % 2 ^ 32)).bump (Reg.RING_ITEMS ring) its.length :=
  ⟨9, [], itemNop, false, 0, 0, 1, [⟨9, 0, itemNop⟩], arriving, (arriving.wr (Reg.RING_TAIL 9) 1).bump (Reg.RING_ITEMS 9) 1, by decide +kernel, by decide +kernel, by decide +kernel, by decide +kernel, by decide +kernel, by decide +kernel, by rfl⟩

/-- The premises of RingCommands, ring fault, hold together. -/
theorem witness_RingCommands_5 : ∃ (ring : Fin 8192) (hostData bs : List Byte) (hostBad : Bool) (p tail n : Nat) (s : State),
    s.ownerOf 0x31 ring = some p ∧
    tail = s.rdN (Reg.RING_TAIL ring) ∧
    n = (s.rdN (Reg.RING_TAIL_RAW ring) + 2 ^ 32 - tail) % 2 ^ 32 ∧
    (¬((!s.ptReady p) = true ∨ (!s.rdB (Reg.RING_CFG ring) 0) = true ∨ s.rdB (Reg.RING_CFG ring) 1 = true ∨ n = 0)) ∧
    s.readEntries p ring hostBad n tail hostData = .data bs true :=
  ⟨9, [], itemNop, false, 0, 0, 1, { arriving with memx := { arriving.memx with poison := [1024] } }, by decide +kernel, by decide +kernel, by decide +kernel, by decide +kernel, by decide +kernel⟩

/-- The premises of RingCommands, items, hold together. -/
theorem witness_RingCommands_6 : ∃ (ring : Fin 8192) (c : Instr) (opc p : Nat) (i : Item) (s s1 s2 : State) (code : Nat),
    s.takeItem ring opc = some (s1, p, i) ∧
    ((c = .itemLaunch ring ∧ opc = 0x01 ∧ (s2, code) = s1.launch p (getLE i.bytes 8 4) (getLE i.bytes 0x10 8)) ∨
      (c = .itemSignal ring ∧ opc = 0x02 ∧ (s2, code) = s1.flagSignal p (getLE i.bytes 8 2) (getLE i.bytes 0x0C 4) ⟨0x30, p⟩) ∨
      (c = .itemSet ring ∧ opc = 0x03 ∧ (s2, code) = s1.flagSet p (getLE i.bytes 8 2) (getLE i.bytes 0x0C 4) ⟨0x30, p⟩) ∨
      (c = .itemTrigger ring ∧ opc = 0x04 ∧ s1.owns p 0x19 (getLE i.bytes 8 1) = true ∧ code = 0 ∧
        s2 = if s1.rdF (Reg.CRZ_GR_CFG (getLE i.bytes 8 1)) 4 4 = 0 then s1.crzFire (getLE i.bytes 8 1) else s1) ∨
      (c = .itemMstart ring ∧ opc = 0x05 ∧ s1.owns p 0x21 (getLE i.bytes 8 1) = true ∧
        (s2, code) = s1.movStart (getLE i.bytes 8 1) (some (getLE i.bytes 0x10 8, (List.range 4).map fun k => getLE i.bytes (0x18 + 8 * k) 8)) none)) :=
  ⟨9, .itemSet 9, 0x03, 0, ⟨9, 0, itemSetB⟩, itemWaits itemSetB, itemTaken itemSetB, ((itemTaken itemSetB).flagSet 0 0 5 ⟨0x30, 0⟩).1, 0, item_taken itemSetB 3 (by decide +kernel) items_valid.2.1 (by decide +kernel) (by decide +kernel), Or.inr (Or.inr (Or.inl ⟨rfl, rfl, by decide +kernel⟩))⟩

/-- The premises of RingCommands, itemDsc, hold together. -/
theorem witness_RingCommands_8 : ∃ (ring : Fin 8192) (p code : Nat) (i : Item) (s s1 s2 s3 : State),
    s.takeItem ring 0x06 = some (s1, p, i) ∧
    s1.dscBusy p = false ∧
    (s2, code) = s1.dscRun p (getLE i.bytes 8 2) (getLE i.bytes 0x0A 1) (.ok (i.bytes.drop 64)) ∧
    s3 = { s2 with qm := { s2.qm with handed := s2.qm.handed ++ [i.handed] } } :=
  ⟨9, 0, 0, ⟨9, 0, itemDscB⟩, itemWaits itemDscB, itemTaken itemDscB, (itemTaken itemDscB).dropStale 0 1, { (itemTaken itemDscB).dropStale 0 1 with qm := { ((itemTaken itemDscB).dropStale 0 1).qm with handed := ((itemTaken itemDscB).dropStale 0 1).qm.handed ++ [(⟨9, 0, itemDscB⟩ : Item).handed] } }, item_taken itemDscB 6 (by decide +kernel) items_valid.2.2 (by decide +kernel) (by decide +kernel), by decide +kernel, by decide +kernel, rfl⟩

/-- The premises of RingCommands, itemNop, hold together. -/
theorem witness_RingCommands_9 : ∃ (ring : Fin 8192) (p : Nat) (i : Item) (s s1 : State),
    s.takeItem ring 0x07 = some (s1, p, i) :=
  ⟨9, 0, ⟨9, 0, itemNop⟩, itemWaits itemNop, itemTaken itemNop, item_taken itemNop 7 (by decide +kernel) items_valid.1 (by decide +kernel) (by decide +kernel)⟩

/-- The premises of RingCommands, completionPost, hold together. -/
theorem witness_RingCommands_10 : ∃ (ring : Fin 8192) (x : Post) (n tail t : Nat) (s s1 s2 : State),
    s.qm.posts.find? (fun x => x.ring == ring.val) = some x ∧
    n = x.bytes.length / 64 ∧
    tail = s.rdN (Reg.RING_TAIL ring) ∧
    (¬((!s.rdB (Reg.RING_CFG ring) 0) = true ∨ (!s.rdB (Reg.RING_CFG ring) 1) = true ∨ s.ringSize ring < s.ringUsed ring + n)) ∧
    s.writeEntries x.pt ring n tail x.bytes = .done s1 ∧
    t = (tail + n) % 2 ^ 32 ∧
    s2 = ((({ s1 with qm := { s1.qm with posts := s1.qm.posts.erase x } }).wrF (Reg.RING_STATUS ring) 5 1 0).wr (Reg.RING_TAIL ring) t).bump (Reg.RING_ITEMS ring) 1 :=
  ⟨9, ⟨9, 0, leBytes 64 1, none⟩, 1, 0, 1, posting, posted1, ((({ posted1 with qm := { posting.qm with posts := [] } }).wrF (Reg.RING_STATUS 9) 5 1 0).wr (Reg.RING_TAIL 9) 1).bump (Reg.RING_ITEMS 9) 1, by decide +kernel, by decide +kernel, by decide +kernel, by decide +kernel, by decide +kernel, by decide +kernel, by rfl⟩

/-- The premises of RingCommands, completionPost without room, hold together. -/
theorem witness_RingCommands_11 : ∃ (ring : Fin 8192) (x : Post) (s : State),
    s.qm.posts.find? (fun x => x.ring == ring.val) = some x ∧
    s.ringSize ring < s.ringUsed ring + x.bytes.length / 64 :=
  ⟨9, ⟨9, 0, leBytes 64 1, none⟩, posting.wr (Reg.RING_TAIL 9) 4, by rfl, by decide +kernel⟩

/-- The premises of RingCommands, holdoffExpiry, hold together. -/
theorem witness_RingCommands_12 : ∃ (ring : Fin 8192) (h : Holdoff) (p : Nat) (s s1 : State),
    Tab.get? s.qm.holdoff ring = some h ∧
    s.ownerOf 0x31 ring = some p ∧
    s1 = { s with qm := { s.qm with holdoff := s.qm.holdoff.del ring } } :=
  ⟨9, { until_ := 0 }, 0, { subRing with qm := { subRing.qm with holdoff := [(9, { until_ := 0 })] } }, subRing, rfl, by decide +kernel, by rfl⟩

/-- The premises of RingCommands, qmRingFlushAll, hold together. -/
theorem witness_RingCommands_14 : ∃ (ring : Fin 8192) (tail : Nat) (s s1 : State),
    s.rdB (Reg.RING_CFG ring) 1 = false ∧
    tail = s.rdN (Reg.RING_TAIL ring) ∧
    s1 = (s.wr (Reg.RING_HEAD ring) tail).wr (Reg.RING_TAIL_RAW ring) tail :=
  ⟨9, 0, subRing, subRing, by decide +kernel, by decide +kernel, by rfl⟩

/-- The premises of RingCommands, qmRingFlushAll of a completion ring, hold together. -/
theorem witness_RingCommands_15 : ∃ (ring : Fin 8192) (s : State),
    s.rdB (Reg.RING_CFG ring) 1 = true :=
  ⟨9, comRing, by decide +kernel⟩

/-- The premises of RingCommands, qmRingReset, hold together. -/
theorem witness_RingCommands_16 : ∃ (ring : Fin 8192) (s s1 : State),
    s.rdB (Reg.RING_CFG ring) 0 = false ∧
    s1 = ((s.wr (Reg.RING_HEAD ring) 0).wr (Reg.RING_TAIL ring) 0).wr (Reg.RING_TAIL_RAW ring) 0 :=
  ⟨9, ready, ready, by decide +kernel, by rfl⟩

/-- The premises of RingCommands, qmRingReset refused, hold together. -/
theorem witness_RingCommands_17 : ∃ (ring : Fin 8192) (s : State),
    s.rdB (Reg.RING_CFG ring) 0 = true :=
  ⟨9, subRing, by decide +kernel⟩

/-- The premises of RingCommands, ringCfgWrite, hold together. -/
theorem witness_RingCommands_18 : ∃ (ring : Fin 8192) (value : BitVec 32) (v cur : Nat) (s : State),
    v = value.toNat % 2 ^ 25 ∧
    cur = s.rdN (Reg.RING_CFG ring) :=
  ⟨9, 8#32, 8, 0, ready, by decide +kernel⟩

/-- The premises of PartitionResets, partitionReset, hold together. -/
theorem witness_PartitionResets_0 : ∃ (p : Fin 16) (c : Instr) (s s1 s2 : State),
    (c = .partitionReset p ∨ c = .functionReset p) ∧
    p ≠ 0 ∧
    s.resetting p = false ∧
    s1 = ((s.finishRuns p).dropRestart p).setPtState p 2 ∧
    s2 = { s1 with qm := { s1.qm with draining := insSorted p s1.qm.draining, drainFirst := s1.qm.drainFirst.filter (· != p.val) } } :=
  ⟨3, .partitionReset 3, ready, ready.setPtState 3 2, { ready.setPtState 3 2 with qm := { ready.qm with draining := [3] } }, Or.inl rfl, by decide +kernel, by decide +kernel, by decide +kernel, by rfl⟩

/-- The premises of PartitionResets, resetting already, hold together. -/
theorem witness_PartitionResets_1 : ∃ (p : Fin 16) (s : State),
    p ≠ 0 ∧
    s.resetting p = true :=
  ⟨3, ready.wr (Reg.QM_PT_STATE 3) 3, by decide +kernel⟩

/-- The premises of PartitionResets, of every partition, hold together. -/
theorem witness_PartitionResets_2 : ∃ (s s1 : State),
    s1 = { s with qm := { s.qm with vfEnable := false, vfClearing := (List.range 16).drop 1 } } :=
  ⟨ready, { ready with qm := { ready.qm with vfEnable := false, vfClearing := (List.range 16).drop 1 } }, by rfl⟩

/-- The premises of PartitionResets, ptResetAccessesDone, hold together. -/
theorem witness_PartitionResets_3 : ∃ (p : Fin 16) (s : State),
    s.rdF (Reg.QM_PT_STATE p) 0 3 = 2 :=
  ⟨3, ready.wr (Reg.QM_PT_STATE 3) 2, by decide +kernel⟩

/-- The premises of PartitionResets, ptScrubComplete, hold together. -/
theorem witness_PartitionResets_4 : ∃ (p : Fin 16) (s : State),
    s.rdF (Reg.QM_PT_STATE p) 0 3 = 3 :=
  ⟨3, ready.wr (Reg.QM_PT_STATE 3) 3, by decide +kernel⟩

/-- The premises of PartitionResets, ptZeroingComplete, hold together. -/
theorem witness_PartitionResets_5 : ∃ (p : Fin 16) (s s1 s2 : State),
    s.rdF (Reg.QM_PT_STATE p) 0 3 = 4 ∧
    s1 = ((((s.chunks.filter fun e => e.2 == p.val).map (·.1)).foldl (fun s c => s.zeroChunk c) s).setPtState p 1).bump (Reg.QM_PT_RESETS p) 1 ∧
    s.qm.vfClearing = [] ∧
    s1.qm.vfClearing = [] ∧
    (s2 = { s1 with qm := { s1.qm with msixEn := s1.qm.msixEn.filter (· != p.val), fnMask := s1.qm.fnMask.filter (· != p.val), d3hot := s1.qm.d3hot.filter (· != p.val) }, safe := { s1.safe with armAt := s1.safe.armAt.map fun (e : Nat × Nat) => match s1.task e.1 with | some x => if taskPt x = p.val then (e.1, s1.now) else e | none => e } }) :=
  ⟨3, ready.wr (Reg.QM_PT_STATE 3) 4, ((ready.wr (Reg.QM_PT_STATE 3) 4).setPtState 3 1).bump (Reg.QM_PT_RESETS 3) 1, ((ready.wr (Reg.QM_PT_STATE 3) 4).setPtState 3 1).bump (Reg.QM_PT_RESETS 3) 1, by decide +kernel, by rfl, by rfl, by rfl, by decide +kernel⟩

/-- The premises of DebugCommands, dbgDump, hold together. -/
theorem witness_DebugCommands_4 : ∃ (pf : Bool) (p : Fin 16) (s s1 : State),
    Tab.get? s.dbg.dump (dumpKey pf p) = none ∧
    s.rdN (dumpDst pf p) % 64 = 0 ∧
    s1 = s.wr (dumpStatus pf p) 1 :=
  ⟨true, 0, ready, ready.wr Reg.DBG_DUMP_STATUS 1, by decide +kernel, by decide +kernel, rfl⟩

/-- The premises of DebugCommands, dumpComplete, hold together. -/
theorem witness_DebugCommands_6 : ∃ (pf : Bool) (p : Fin 16) (sel dst code : Nat) (s s0 s1 : State),
    Tab.get? s.dbg.dump (dumpKey pf p) = some (sel, dst) ∧
    s0 = { s with dbg := { s.dbg with dump := s.dbg.dump.del (dumpKey pf p) } } ∧
    (s1, code) = s0.dumpRecs (dumpPt pf p) dst (s0.selRing pf p sel).recs.reverse :=
  ⟨true, 0, 0, 0x10000, 0, { ready with dbg := { ready.dbg with dump := [(16, (0, 0x10000))] } }, ready, ready, by decide +kernel, by decide +kernel, by decide +kernel⟩

/-- The premises of ReliabilityCommands, kakSliceDue, hold together. -/
theorem witness_ReliabilityCommands_0 : ∃ (n : Fin 32) (s : State),
    s.kakRuns = true ∧
    s.tcLive n = true :=
  ⟨5, ready.wr Reg.REL_KAK_CFG 1, by decide +kernel⟩

/-- The premises of ReliabilityCommands, kakSliceStart, hold together. -/
theorem witness_ReliabilityCommands_1 : ∃ (n : Fin 32) (s s1 s2 : State),
    s.rel.kakDue.contains n.val = true ∧
    s.tcLive n = true ∧
    (s.tc n).slot0.isNone = true ∧
    ((s.tc n).itemWait || (s.tc n).zeroing || (s.tc n).aborting.isSome || (s.tc n).kak.isSome) = false ∧
    Tab.get? s.rel.kakLast n = none ∧
    s1 = s.setTc n { s.tc n with kak := some s.now } ∧
    s2 = { s1 with rel := { s1.rel with kakDue := s1.rel.kakDue.filter (· != n.val), kakLast := s1.rel.kakLast.put n s.now } } :=
  ⟨5, { ready with rel := { ready.rel with kakDue := [5] } }, ({ ready with rel := { ready.rel with kakDue := [5] } }).setTc 5 { kak := some 0 }, { ready.setTc 5 { kak := some 0 } with rel := { ready.rel with kakLast := [(5, 0)] } }, by decide +kernel⟩

/-- The premises of ReliabilityCommands, kakSliceStart late, hold together. -/
theorem witness_ReliabilityCommands_2 : ∃ (n : Fin 32) (t : Nat) (s s1 s2 : State),
    s.rel.kakDue.contains n.val = true ∧
    s.tcLive n = true ∧
    (s.tc n).slot0.isNone = true ∧
    ((s.tc n).itemWait || (s.tc n).zeroing || (s.tc n).aborting.isSome || (s.tc n).kak.isSome) = false ∧
    Tab.get? s.rel.kakLast n = some t ∧
    t + 2 * s.rdF Reg.REL_KAK_CFG 8 12 * 1000000 < s.now ∧
    s1 = s.setTc n { s.tc n with kak := some s.now } ∧
    s2 = { s1 with rel := { s1.rel with kakDue := s1.rel.kakDue.filter (· != n.val), kakLast := s1.rel.kakLast.put n s.now } } :=
  ⟨5, 0, { ready with time := 2 ^ 80, rel := { ready.rel with kakDue := [5], kakLast := [(5, 0)] } }, ({ ready with time := 2 ^ 80, rel := { ready.rel with kakDue := [5], kakLast := [(5, 0)] } }).setTc 5 { kak := some (2 ^ 48) }, { ready.setTc 5 { kak := some (2 ^ 48) } with time := 2 ^ 80, rel := { ready.rel with kakLast := [(5, 2 ^ 48)] } }, by decide +kernel⟩

/-- The premises of ReliabilityCommands, kakSliceEnd, hold together. -/
theorem witness_ReliabilityCommands_3 : ∃ (n : Fin 32) (t : Nat) (s s1 s2 : State),
    (s.tc n).kak = some t ∧
    s1 = s.fresh.2.setTc n { s.tc n with kak := none, scratch := (Config.kakScratch s.fresh.1).foldl (fun (m : Tab Byte) e => Tab.write (fun _ => 0#8) m (e.1 % scratchSize) e.2) (s.tc n).scratch, lineBad := [], s := [], sBad := [], v := [], vBad := [], acc := [], accInt := [], accBad := [] } ∧
    s2 = { s1 with rel := { s1.rel with kakWait := s1.rel.kakWait ++ [(n.val, t)], kakSlice := s1.rel.kakSlice.put n ((s1.rel.kakSlice.getD n 0 + 1) % 64) } } :=
  ⟨5, 3, ready.setTc 5 { kak := some 3 }, (ready.setTc 5 { kak := some 3 }).fresh.2.setTc 5 { (ready.setTc 5 { kak := some 3 }).tc 5 with kak := none, scratch := (Config.kakScratch (ready.setTc 5 { kak := some 3 }).fresh.1).foldl (fun (m : Tab Byte) e => Tab.write (fun _ => 0#8) m (e.1 % scratchSize) e.2) ((ready.setTc 5 { kak := some 3 }).tc 5).scratch, lineBad := [], s := [], sBad := [], v := [], vBad := [], acc := [], accInt := [], accBad := [] }, _, by decide +kernel, rfl, rfl⟩

/-- The premises of ReliabilityCommands, kakVerdict, hold together. -/
theorem witness_ReliabilityCommands_4 : ∃ (n : Fin 32) (pass : Bool) (e : Nat × Nat) (s s1 : State),
    s.rel.kakWait.find? (fun e => e.1 == n.val) = some e ∧
    s1 = { s with rel := { s.rel with kakWait := s.rel.kakWait.erase e } } :=
  ⟨5, true, (5, 3), { ready with rel := { ready.rel with kakWait := [(5, 3)] } }, ready, by decide +kernel, by decide +kernel⟩

/-- The premises of ReliabilityCommands, fenceCmd, hold together. -/
theorem witness_ReliabilityCommands_5 : ∃ (n : Fin 32) (s : State),
    s.rdB Reg.REL_FENCE_STATUS 0 = false :=
  ⟨5, ready, by decide +kernel⟩

/-- The premises of ReliabilityCommands, fenceCmd refused, hold together. -/
theorem witness_ReliabilityCommands_6 : ∃ (n : Fin 32) (s : State),
    s.rdB Reg.REL_FENCE_STATUS 0 = true :=
  ⟨5, ready.wr Reg.REL_FENCE_STATUS 1, by decide +kernel⟩

/-- The premises of ReliabilityCommands, readmitFrond, hold together. -/
theorem witness_ReliabilityCommands_7 : ∃ (n : Fin 32) (s s1 : State),
    s.rdB Reg.REL_FENCE_STATUS 0 = false ∧
    s.tcLive n = false ∧
    (s.tc n).fencing = none ∧
    s.rdF (Reg.REL_TC_FENCE_INFO n) 16 8 < 3 ∧
    s1 = s.wr Reg.REL_FENCE_STATUS (1 + n.val * 256) :=
  ⟨5, ready.wr Reg.REL_FENCED_MAP 32, (ready.wr Reg.REL_FENCED_MAP 32).wr Reg.REL_FENCE_STATUS 1281, by decide +kernel⟩

/-- The premises of ReliabilityCommands, readmitComplete, hold together. -/
theorem witness_ReliabilityCommands_8 : ∃ (n : Nat) (s s0 s1 s2 : State),
    s.rel.readmit = some n ∧
    s0 = { s.wr Reg.REL_FENCE_STATUS 0 with rel := { s.rel with readmit := none } } ∧
    s1 = (s0.wr Reg.REL_FENCED_MAP (setFld (s0.rdN Reg.REL_FENCED_MAP) n 1 0)).setTc n { placed := (s0.tc n).placed } ∧
    s2 = { s1 with rel := { s1.rel with kakSlice := s1.rel.kakSlice.del n } } :=
  ⟨5, { ready with rel := { ready.rel with readmit := some 5 } }, ready, ready, ready, by decide +kernel, by decide +kernel, by decide +kernel, by decide +kernel⟩

/-- The premises of ReliabilityCommands, errIrqTimer, hold together. -/
theorem witness_ReliabilityCommands_11 : ∃ (p b : Fin 16) (s s1 : State),
    s.rel.irqDue.contains (p.val * 16 + b.val) = true ∧
    s1 = { s with rel := { s.rel with irqDue := s.rel.irqDue.filter (· != p.val * 16 + b.val), irqAt := s.rel.irqAt.put (p.val * 16 + b.val) s.now } } :=
  ⟨1, 2, { ready with rel := { ready.rel with irqDue := [18] } }, { ready with rel := { ready.rel with irqAt := [(18, 0)] } }, by decide +kernel⟩

/-- The premises of BootAndResets, coldReset, hold together. -/
theorem witness_BootAndResets_0 : ∃ (s : State),
    s.sec.cmd = none :=
  ⟨ready, by decide +kernel⟩

/-- The premises of BootAndResets, porstRelease, hold together. -/
theorem witness_BootAndResets_1 : ∃ (straps : BitVec 12) (s s1 : State),
    s.boot.porst = true ∧
    s1 = { s with boot := { s.boot with porst := false, testHold := false } } :=
  ⟨5#12, { ready with boot := { ready.boot with porst := true } }, { ready with boot := { ready.boot with porst := false, testHold := false } }, by decide +kernel⟩

/-- The premises of BootAndResets, testModeFall, hold together. -/
theorem witness_BootAndResets_2 : ∃ (straps : BitVec 12) (s s1 : State),
    s.boot.testHold = true ∧
    s1 = { s with boot := { s.boot with testHold := false } } :=
  ⟨5#12, { ready with boot := { ready.boot with testHold := true } }, { ready with boot := { ready.boot with testHold := false } }, by decide +kernel⟩

/-- The premises of BootAndResets, bootImageLoaded, hold together. -/
theorem witness_BootAndResets_3 : ∃ (t : Nat) (d : List Byte) (two pref : Bool) (s s1 : State),
    t = s.boot.next ∧
    1 ≤ t ∧
    t ≤ 4 ∧
    (s.bootDir = none ∨ s.bootDir = some (d, two)) ∧
    pref = bitAt (getLE d 8 4) (t - 1) ∧
    s1 = s.wrF Reg.GLB_BOOT_STATUS 16 16 (s.bootCode t (s.slotImage d t pref)) :=
  ⟨1, [], false, false, { ready with boot := { ready.boot with next := 1 } }, ({ ready with boot := { ready.boot with next := 1 } }).wrF Reg.GLB_BOOT_STATUS 16 16 (({ ready with boot := { ready.boot with next := 1 } } : State).bootCode 1 (({ ready with boot := { ready.boot with next := 1 } } : State).slotImage [] 1 false)), by decide +kernel, by decide +kernel, by decide +kernel, Or.inl (by decide +kernel), by decide +kernel, rfl⟩

/-- The premises of BootAndResets, memoryTrainingComplete, hold together. -/
theorem witness_BootAndResets_4 : ∃ (s : State),
    s.boot.next ≠ 0 ∧
    s.rdB Reg.MEM_STATUS 0 = false :=
  ⟨{ ready with boot := { ready.boot with next := 3 } }, by decide +kernel⟩

/-- The premises of BootAndResets, bootReady, hold together. -/
theorem witness_BootAndResets_5 : ∃ (failed : BitVec 32) (s s1 s2 s3 : State),
    s.stage = 4 ∧
    s.rdB Reg.MEM_STATUS 0 = true ∧
    s1 = ((((List.range 32).filter fun n => failed.getLsbD n).foldl (fun s n => s.bootFence n) s).bootConfig).kSync ∧
    s2 = (s1.wrF Reg.GLB_BOOT_STATUS 0 4 6).wr Reg.GLB_BOOT_TIME s.now ∧
    Tab.get? s1.sec.imgs 3 = none ∧
    s3 = { s2 with boot := { s2.boot with next := 0 } } :=
  ⟨0#32, (ready.wrF Reg.GLB_BOOT_STATUS 0 4 4).wr Reg.MEM_STATUS 1, ((ready.wrF Reg.GLB_BOOT_STATUS 0 4 4).wr Reg.MEM_STATUS 1).bootConfig.kSync, ((((ready.wrF Reg.GLB_BOOT_STATUS 0 4 4).wr Reg.MEM_STATUS 1).bootConfig.kSync).wrF Reg.GLB_BOOT_STATUS 0 4 6).wr Reg.GLB_BOOT_TIME 0, { ((((ready.wrF Reg.GLB_BOOT_STATUS 0 4 4).wr Reg.MEM_STATUS 1).bootConfig.kSync).wrF Reg.GLB_BOOT_STATUS 0 4 6).wr Reg.GLB_BOOT_TIME 0 with boot := { (((ready.wrF Reg.GLB_BOOT_STATUS 0 4 4).wr Reg.MEM_STATUS 1).bootConfig.kSync).boot with next := 0 } }, by decide +kernel, by decide +kernel, by decide +kernel, by decide +kernel, by decide +kernel, by decide +kernel⟩

/-- The premises of BootAndResets, restart, hold together. -/
theorem witness_BootAndResets_7 : ∃ (source straps : Nat) (s s1 s2 : State),
    s.stage = 6 ∧
    s.mgt.mainGone = false ∧
    (s1 = ((if s.safe.heldSince.isNone then s.mgtEvent 5 (leBytes 8 0 ++ leBytes 8 s.now) else s).setRung 0).clearMain) ∧
    s2 = (s1.wr Reg.GLB_RESTARTS (min 0xFFFF (s1.rdN Reg.GLB_RESTARTS + 1))).wr Reg.GLB_RESET_CAUSE (2 + source * 16) :=
  ⟨2, 5, ready, ((if ready.safe.heldSince.isNone then ready.mgtEvent 5 (leBytes 8 0 ++ leBytes 8 ready.now) else ready).setRung 0).clearMain, ((((if ready.safe.heldSince.isNone then ready.mgtEvent 5 (leBytes 8 0 ++ leBytes 8 ready.now) else ready).setRung 0).clearMain).wr Reg.GLB_RESTARTS (min 0xFFFF ((((if ready.safe.heldSince.isNone then ready.mgtEvent 5 (leBytes 8 0 ++ leBytes 8 ready.now) else ready).setRung 0).clearMain).rdN Reg.GLB_RESTARTS + 1))).wr Reg.GLB_RESET_CAUSE (2 + 2 * 16), by decide +kernel, by decide +kernel, rfl, rfl⟩

/-- The premises of BootAndResets, fatalRestartTimer, hold together. -/
theorem witness_BootAndResets_8 : ∃ (straps : BitVec 12) (s : State),
    s.boot.fatalAt.isSome = true ∧
    s.rdB Reg.GLB_CFG 0 = true :=
  ⟨5#12, ({ ready with boot := { ready.boot with fatalAt := some 0 } }).wr Reg.GLB_CFG 1, by decide +kernel⟩

/-- The premises of BootAndResets, hostReset, hold together. -/
theorem witness_BootAndResets_9 : ∃ (how : HostResetBy) (straps : BitVec 12) (s s1 s2 : State),
    s1 = { s with boot := { s.boot with linkUp := false, inL1 := false, perst := s.boot.perst || how == .perst } } ∧
    s1.stage = 6 ∧
    (how == .perst && s1.rdB Reg.GLB_CFG 1) = false ∧
    s2 = (s1.resetPartition 0).vfClear :=
  ⟨.linkLoss, 5#12, ready, ready, (ready.resetPartition 0).vfClear, by decide +kernel, by decide +kernel, by decide +kernel, by rfl⟩

/-- The premises of BootAndResets, hostReset that restarts, hold together. -/
theorem witness_BootAndResets_10 : ∃ (straps : BitVec 12) (s s1 : State),
    s1 = { s with boot := { s.boot with linkUp := false, inL1 := false, perst := true } } ∧
    s1.stage = 6 ∧
    s1.rdB Reg.GLB_CFG 1 = true :=
  ⟨5#12, ready.wr Reg.GLB_CFG 2, { ready.wr Reg.GLB_CFG 2 with boot := { ready.boot with perst := true } }, by decide +kernel, by decide +kernel, by decide +kernel⟩

/-- The premises of BootAndResets, mainRailFault, hold together. -/
theorem witness_BootAndResets_11 : ∃ (s : State),
    s.mgt.mainGone = false :=
  ⟨ready, by decide +kernel⟩

/-- The premises of BootAndResets, pcieLinkUp, hold together. -/
theorem witness_BootAndResets_13 : ∃ (s : State),
    s.boot.porst = false ∧
    s.boot.perst = false ∧
    s.rung ≠ 4 :=
  ⟨{ ready with boot := { ready.boot with porst := false, perst := false } }, by decide +kernel⟩

/-- The premises of BootAndResets, pcieL1Exit, hold together. -/
theorem witness_BootAndResets_14 : ∃ (s s1 : State),
    s1 = { s with boot := { s.boot with inL1 := false } } :=
  ⟨ready, ready, by decide +kernel⟩

/-- The premises of BootAndResets, cfwSwitchComplete, hold together. -/
theorem witness_BootAndResets_15 : ∃ (u : Update) (s s1 : State),
    s.sec.upd = some u ∧
    u.type = 2 ∧
    s1 = { s with mgt := { s.mgt with switching := false }, pwr := { s.pwr with asked := [] } } :=
  ⟨cfwUpd, { ready with sec := { ready.sec with upd := some cfwUpd } }, { ready with sec := { ready.sec with upd := some cfwUpd }, pwr := { ready.pwr with asked := [] } }, by decide +kernel⟩

/-- The premises of ManagementPort, frameWrite, hold together. -/
theorem witness_ManagementPort_0 : ∃ (frame r : List Byte) (n : Nat) (s s1 s2 : State),
    (n = 12 + frLen frame + (if frAuth frame then 16 else 0)) ∧
    (¬(frame.length < 8 ∨ (frLen frame ≤ 1024 ∧ frame.length < n))) ∧
    s.mgt.request = none ∧
    s.stage ≠ 0xF ∧
    frameGood frame = true ∧
    s.mgt.switching = false ∧
    r = frame.take (n - 4) ∧
    payloadOk (frCmd r) (frPayload r) = true ∧
    s1 = s.bump Reg.MGT_FRAMES 1 ∧
    s2 = { s1 with mgt := { s1.mgt with request := some r, reqAt := s.now, response := none } } :=
  ⟨timeFrame, timeFrame.take 8, 12, ready, ready.bump Reg.MGT_FRAMES 1, { ready.bump Reg.MGT_FRAMES 1 with mgt := { (ready.bump Reg.MGT_FRAMES 1).mgt with request := some (timeFrame.take 8), reqAt := 0, response := none } }, by decide +kernel, by decide +kernel, by decide +kernel, by decide +kernel, by decide +kernel, by decide +kernel, by decide +kernel, by decide +kernel, rfl, by decide +kernel⟩

/-- The premises of ManagementPort, frameWrite while busy or bad, hold together. -/
theorem witness_ManagementPort_1 : ∃ (frame : List Byte) (s : State),
    (¬(frame.length < 8 ∨ (frLen frame ≤ 1024 ∧ frame.length < 12 + frLen frame + (if frAuth frame then 16 else 0)))) :=
  ⟨timeFrame, ready, by decide +kernel⟩

/-- The premises of ManagementPort, getInfo, hold together. -/
theorem witness_ManagementPort_3 : ∃ (r : List Byte) (s : State),
    s.mgtAccepts 0x01 false r = true :=
  ⟨plainFrame 1 [], plainReq (plainFrame 1 []), by decide +kernel⟩

/-- The premises of ManagementPort, getStatus, hold together. -/
theorem witness_ManagementPort_4 : ∃ (r : List Byte) (s : State),
    s.mgtAccepts 0x02 false r = true :=
  ⟨plainFrame 2 [], plainReq (plainFrame 2 []), by decide +kernel⟩

/-- The premises of ManagementPort, getEvent, hold together. -/
theorem witness_ManagementPort_5 : ∃ (r : List Byte) (e : MgtEv) (es : List MgtEv) (s s1 : State),
    s.mgtAccepts 0x03 false r = true ∧
    s.mgt.events = e :: es ∧
    s.mgt.waiting = [] ∧
    s1 = { s with mgt := { s.mgt with events := es } } :=
  ⟨plainFrame 3 [], ⟨5, false, 1, []⟩, [], { plainReq (plainFrame 3 []) with mgt := { (plainReq (plainFrame 3 [])).mgt with events := [⟨5, false, 1, []⟩] } }, plainReq (plainFrame 3 []), by decide +kernel, by decide +kernel, by decide +kernel, by rfl⟩

/-- The premises of ManagementPort, getEvent of an empty queue, hold together. -/
theorem witness_ManagementPort_6 : ∃ (r : List Byte) (s : State),
    s.mgtAccepts 0x03 false r = true ∧
    s.mgt.events = [] :=
  ⟨plainFrame 3 [], plainReq (plainFrame 3 []), by decide +kernel⟩

/-- The premises of ManagementPort, getTime, hold together. -/
theorem witness_ManagementPort_7 : ∃ (r : List Byte) (s : State),
    s.mgtAccepts 0x04 false r = true :=
  ⟨plainFrame 4 [], plainReq (plainFrame 4 []), by decide +kernel⟩

/-- The premises of ManagementPort, getErrors, hold together. -/
theorem witness_ManagementPort_8 : ∃ (r : List Byte) (s : State),
    s.mgtAccepts 0x05 false r = true :=
  ⟨plainFrame 5 [], plainReq (plainFrame 5 []), by decide +kernel⟩

/-- The premises of ManagementPort, getAttest, hold together. -/
theorem witness_ManagementPort_9 : ∃ (r body : List Byte) (k : Nat) (s s1 : State),
    s.mgtAccepts 0x06 false r = true ∧
    s.sec.rngBad = false ∧
    (k, s1) = s.freshPriv ∧
    body = s1.attestBody 0 (frPayload r) :=
  ⟨plainFrame 6 (leBytes 32 0), _, (plainReq (plainFrame 6 (leBytes 32 0))).freshPriv.1, plainReq (plainFrame 6 (leBytes 32 0)), (plainReq (plainFrame 6 (leBytes 32 0))).freshPriv.2, by decide +kernel, by decide +kernel, rfl, rfl⟩

/-- The premises of ManagementPort, authOpen, hold together. -/
theorem witness_ManagementPort_10 : ∃ (r n : List Byte) (d : Nat) (s s1 s2 : State),
    s.mgtAccepts 0x10 false r = true ∧
    s.mgt.lockedOut = false ∧
    s.sec.rngBad = false ∧
    (n, s1) = s.freshBytes 32 ∧
    (d, s2) = s1.freshPriv :=
  ⟨plainFrame 16 [], ((plainReq (plainFrame 16 [])).freshBytes 32).1, ((plainReq (plainFrame 16 [])).freshBytes 32).2.freshPriv.1, plainReq (plainFrame 16 []), ((plainReq (plainFrame 16 [])).freshBytes 32).2, ((plainReq (plainFrame 16 [])).freshBytes 32).2.freshPriv.2, by decide +kernel, by decide +kernel, by decide +kernel, rfl, rfl⟩

/-- The premises of ManagementPort, authOpen during the lock-out, hold together. -/
theorem witness_ManagementPort_11 : ∃ (r : List Byte) (s : State),
    s.mgtAccepts 0x10 false r = true ∧
    s.mgt.lockedOut = true :=
  ⟨plainFrame 16 [], { plainReq (plainFrame 16 []) with mgt := { (plainReq (plainFrame 16 [])).mgt with lockedOut := true } }, by decide +kernel⟩

/-- The premises of ManagementPort, authFinish, hold together. -/
theorem witness_ManagementPort_12 : ∃ (r n dpub epub pub b : List Byte) (d k : Nat) (s s1 : State),
    s.mgtAccepts 0x11 false r = true ∧
    s.mgt.challenge = some (n, d, dpub) ∧
    b = frPayload r ∧
    k = getLE b 0 1 ∧
    epub = (b.drop 4).take 96 ∧
    pub = (b.drop 100).take 96 ∧
    s1 = { s with mgt := { s.mgt with challenge := none } } :=
  ⟨plainFrame 17 (leBytes 292 0), [], [], leBytes 96 0, leBytes 96 0, leBytes 292 0, 0, 0, { plainReq (plainFrame 17 (leBytes 292 0)) with mgt := { (plainReq (plainFrame 17 (leBytes 292 0))).mgt with challenge := some ([], 0, []) } }, plainReq (plainFrame 17 (leBytes 292 0)), by decide +kernel, by decide +kernel, by decide +kernel, by decide +kernel, by decide +kernel, by decide +kernel, by rfl⟩

/-- The premises of ManagementPort, authClose, hold together. -/
theorem witness_ManagementPort_13 : ∃ (r : List Byte) (s : State),
    s.mgtAccepts 0x12 false r = true :=
  ⟨signed (plainFrame 18 []), session (plainFrame 18 []), session_accepts (plainFrame 18 []) 18 false (by decide +kernel) (by decide +kernel) (by decide +kernel)⟩

/-- The premises of ManagementPort, setRung, hold together. -/
theorem witness_ManagementPort_15 : ∃ (r : List Byte) (k : Nat) (ok : Bool) (s s1 : State),
    s.mgt.switching = false ∧
    s.mgtAccepts 0x20 false r = true ∧
    k = getLE (frPayload r) 0 1 ∧
    ((s1, ok) = if k = 1 then ((s.mgtStarts 0x20 r).wakeNow 2, true) else (s.mgtStarts 0x20 r).rungRequest k) :=
  ⟨signed (plainFrame 32 [2#8]), 2, ((session (plainFrame 32 [2#8])).mgtStarts 32 (signed (plainFrame 32 [2#8]))).rungRequest 2 |>.2, session (plainFrame 32 [2#8]), (((session (plainFrame 32 [2#8])).mgtStarts 32 (signed (plainFrame 32 [2#8]))).rungRequest 2).1, by rfl, session_accepts (plainFrame 32 [2#8]) 32 false (by decide +kernel) (by decide +kernel) (by decide +kernel), (signed_payload (plainFrame 32 [2#8]) [2#8] (by decide +kernel)).symm ▸ rfl, by rfl⟩

/-- The premises of ManagementPort, mgmtResetPartition, hold together. -/
theorem witness_ManagementPort_17 : ∃ (r : List Byte) (p : Nat) (s s0 : State),
    s.mgtAccepts 0x23 true r = true ∧
    getLE (frPayload r) 0 1 = 1 ∧
    p = getLE (frPayload r) 1 1 ∧
    s0 = s.mgtStarts 0x23 r :=
  ⟨signed (plainFrame 35 [1#8, 3#8]), 3, session (plainFrame 35 [1#8, 3#8]), _, session_accepts (plainFrame 35 [1#8, 3#8]) 35 true (by decide +kernel) (by decide +kernel) (by decide +kernel), (signed_payload (plainFrame 35 [1#8, 3#8]) [1#8, 3#8] (by decide +kernel)).symm ▸ rfl, (signed_payload (plainFrame 35 [1#8, 3#8]) [1#8, 3#8] (by decide +kernel)).symm ▸ rfl, rfl⟩

/-- The premises of ManagementPort, mgmtResetDevice, hold together. -/
theorem witness_ManagementPort_18 : ∃ (straps : BitVec 12) (r : List Byte) (s s1 : State),
    s.mgtAccepts 0x23 false r = true ∧
    getLE (frPayload r) 0 1 = 2 ∧
    s1 = ((s.mgtStarts 0x23 r).answer r 0 []).mgtEnds 0x23 r :=
  ⟨5#12, signed (plainFrame 35 [2#8, 0#8]), session (plainFrame 35 [2#8, 0#8]), _, session_accepts (plainFrame 35 [2#8, 0#8]) 35 false (by decide +kernel) (by decide +kernel) (by decide +kernel), (signed_payload (plainFrame 35 [2#8, 0#8]) [2#8, 0#8] (by decide +kernel)).symm ▸ rfl, rfl⟩

/-- The premises of LinkTransport, lnkCtrlWrite, hold together. -/
theorem witness_LinkTransport_0 : ∃ (n : Fin 8) (value : BitVec 32) (s s1 : State),
    s1 = s.wr (Reg.LNK_PORT_CTRL n) (value.getLsbD 0).toNat :=
  ⟨3, 1#32, ready, ready.wr (Reg.LNK_PORT_CTRL 3) 1, by decide +kernel⟩

/-- The premises of LinkTransport, trainingComplete of a retraining port, hold together. -/
theorem witness_LinkTransport_1 : ∃ (n : Fin 8) (neighbour : Fin 128) (nrole : Role) (authOk joining : Bool) (peerNow : Nat) (s : State),
    s.portState n = 3 :=
  ⟨3, 9, .member, true, false, 0, ready.wr (Reg.LNK_PORT_STATUS 3) 3, by decide +kernel⟩

/-- The premises of LinkTransport, trainingComplete, hold together. -/
theorem witness_LinkTransport_2 : ∃ (n : Fin 8) (neighbour : Fin 128) (nrole : Role) (joining : Bool) (peerNow : Nat) (s s1 s2 s3 : State),
    s.portState n = 1 ∧
    s1 = (s.wr (Reg.LNK_PORT_STATUS n) (2 + neighbour.val * 16)).setPort n { s.port n with rxSeq := 255, nakRun := 0, lastFlit := s.now } ∧
    (¬(neighbour.val = s.devId ∨ (nrole = .master ∧ s.lnk.role = .master) ∨ (nrole = .standby ∧ s.lnk.role = .standby))) ∧
    s2 = (s1.wrF (Reg.LNK_PORT_STATUS n) 2 1 1).rejoin neighbour ∧
    s3 = { s2 with lnk := { s2.lnk with seqTop := (s2.lnk.seqTop.del (neighbour * 2)).del (neighbour * 2 + 1), seqSeen := (s2.lnk.seqSeen.del (neighbour * 2)).del (neighbour * 2 + 1), alive := s2.lnk.alive.put neighbour s.now, devices := insSorted neighbour s2.lnk.devices } } :=
  ⟨3, 9, .member, false, 0, ready.wr (Reg.LNK_PORT_STATUS 3) 1, _, _, _, by decide +kernel, rfl, by decide +kernel, rfl, rfl⟩

/-- The premises of LinkTransport, trainingComplete refused, hold together. -/
theorem witness_LinkTransport_3 : ∃ (n : Fin 8) (neighbour : Fin 128) (nrole : Role) (authOk joining conflict : Bool) (peerNow : Nat) (s s1 : State),
    s.portState n = 1 ∧
    s1 = (s.wr (Reg.LNK_PORT_STATUS n) (2 + neighbour.val * 16)).setPort n { s.port n with rxSeq := 255, nakRun := 0, lastFlit := s.now } ∧
    (conflict = decide (neighbour.val = s.devId ∨ (nrole = .master ∧ s.lnk.role = .master) ∨ (nrole = .standby ∧ s.lnk.role = .standby))) ∧
    (conflict || !authOk) = true :=
  ⟨3, 9, .member, false, false, false, 0, ready.wr (Reg.LNK_PORT_STATUS 3) 1, _, by decide +kernel, rfl, by decide +kernel, by decide +kernel⟩

/-- The premises of LinkTransport, trainingFailure, hold together. -/
theorem witness_LinkTransport_4 : ∃ (n : Fin 8) (s s1 : State),
    (s.portState n = 1 ∨ s.portState n = 3) ∧
    s1 = (s.wr (Reg.LNK_PORT_STATUS n) 0).setPort n { s.port n with lastFail := s.now, nakRun := 0 } :=
  ⟨3, ready.wr (Reg.LNK_PORT_STATUS 3) 1, _, by decide +kernel, rfl⟩

/-- The premises of LinkTransport, trainingRetry, hold together. -/
theorem witness_LinkTransport_5 : ∃ (n : Fin 8) (s : State),
    s.portState n = 0 ∧
    s.rdB (Reg.LNK_PORT_CTRL n) 0 = true ∧
    s.lnk.strapRole ≠ .standalone :=
  ⟨3, ready.wr (Reg.LNK_PORT_CTRL 3) 1, by decide +kernel⟩

/-- The premises of LinkTransport, flitReceive, hold together. -/
theorem witness_LinkTransport_6 : ∃ (n : Fin 8) (check : FlitCheck) (kind : FlitKind) (seq : Fin 256) (creditVc : Fin 4) (credits : Fin 4096) (packets : List Packet) (s s0 s1 : State),
    s.portState n = 2 ∧
    check ≠ .crcFail ∧
    seq.val = ((s.port n).rxSeq + 1) % 256 ∧
    (s0 = if check = .corrected then s.bump (Reg.LNK_PORT_FEC_CE n) 1 else s) ∧
    s1 = s0.setPort n { s.port n with rxSeq := seq, lastFlit := s.now, credits := (s.port n).credits.modify creditVc (· + credits.val) } :=
  ⟨3, .good, .idle, 0, 0, 0, [], ready.wr (Reg.LNK_PORT_STATUS 3) 2, _, _, by decide +kernel, by decide +kernel, by decide +kernel, rfl, rfl⟩

/-- The premises of LinkTransport, flitReceive dropped, hold together. -/
theorem witness_LinkTransport_7 : ∃ (n : Fin 8) (check : FlitCheck) (kind : FlitKind) (seq : Fin 256) (creditVc : Fin 4) (credits : Fin 4096) (packets : List Packet) (s s0 : State),
    s.portState n = 2 ∧
    (check = .crcFail ∨ seq.val ≠ ((s.port n).rxSeq + 1) % 256) ∧
    (s0 = if check = .corrected then s.bump (Reg.LNK_PORT_FEC_CE n) 1 else s) :=
  ⟨3, .crcFail, .data, 0, 0, 0, [], ready.wr (Reg.LNK_PORT_STATUS 3) 2, _, by decide +kernel, by decide +kernel, rfl⟩

/-- The premises of LinkTransport, nakReceive, hold together. -/
theorem witness_LinkTransport_8 : ∃ (n : Fin 8) (lastGood : Fin 256) (run : Nat) (s : State),
    s.portState n = 2 ∧
    (run = if (s.port n).nakRun ≠ 0 ∧ (s.port n).nakSeq = lastGood.val then (s.port n).nakRun + 1 else 1) :=
  ⟨3, 7, 1, ready.wr (Reg.LNK_PORT_STATUS 3) 2, by decide +kernel⟩

/-- The premises of LinkTransport, nakLimit and flitTimeout, hold together. -/
theorem witness_LinkTransport_9 : ∃ (n : Fin 8) (s : State),
    s.portState n = 2 :=
  ⟨3, ready.wr (Reg.LNK_PORT_STATUS 3) 2, by decide +kernel⟩

/-- The premises of LinkTransport, linkWrite, hold together. -/
theorem witness_LinkTransport_10 : ∃ (pk : Packet) (p dva : Nat) (ps : List (Nat × Nat)) (s s1 : State),
    s1 = s.consume pk ∧
    s1.bindFor pk true = some (p, dva) ∧
    (s1.xlateAll p .write false (pieces dva (pk.len * 64))).toOption = some ps ∧
    ps.any (fun e => targetOf e.1 == .undecoded) = false :=
  ⟨linkPk 1 0x40, 0, 0x10040, [(0x10040, 64)], bound, _, rfl, by decide +kernel, by decide +kernel, by decide +kernel⟩

/-- The premises of LinkTransport, linkRead, hold together. -/
theorem witness_LinkTransport_11 : ∃ (pk : Packet) (p dva : Nat) (bs : List Byte) (bad : Bool) (s s1 : State),
    s1 = s.consume pk ∧
    s1.bindFor pk false = some (p, dva) ∧
    s1.readDva p dva (pk.len * 64) = .data bs bad :=
  ⟨linkPk 2 0x40, 0, 0x10040, leBytes 64 0, false, bound, _, rfl, by decide +kernel, by decide +kernel⟩

/-- The premises of LinkTransport, requests without a binding, hold together. -/
theorem witness_LinkTransport_12 : ∃ (pk : Packet) (s s1 : State),
    s1 = s.consume pk :=
  ⟨linkPk 1 0, ready, _, rfl⟩

/-- The premises of LinkTransport, linkSignal, hold together. -/
theorem witness_LinkTransport_13 : ∃ (pk : Packet) (sel flag n code : Nat) (b : Binding) (s s0 s1 : State),
    s0 = s.consume pk ∧
    flag = fld (getLE pk.payload 0 8) 0 15 ∧
    n = fld (getLE pk.payload 0 8) 32 32 ∧
    s0.lnk.bindings.find? (fun e => e.2.srcDev == pk.src && e.2.srcPt == pk.pt && e.2.sig) = some (sel, b) ∧
    s0.owns b.localPt 0x33 flag = true ∧
    s0.ptReady b.localPt = true ∧
    (s1, code) = s0.flagSignal b.localPt flag n ⟨0x38, pk.src⟩ 0 8 :=
  ⟨{ linkPk 5 0 with payload := leBytes 8 0x100000000 }, 0, 0, 1, 0, ⟨9, 2, 1, 0, 0x10000, 0x1000, true, true, true⟩, bound, _, _, rfl, by decide +kernel, by decide +kernel, by decide +kernel, by decide +kernel, by decide +kernel, rfl⟩

/-- The premises of LinkTransport, responses that refuse, and none, hold together. -/
theorem witness_LinkTransport_15 : ∃ (tag status : Fin 65536) (poison : Fin 16) (data : List Byte) (r : Remote) (s : State),
    status ≠ 0 :=
  ⟨4, 0x0503, 0, [], ⟨4, 2, 9, 0, ⟨0x21, 5⟩, 0, 64, 0⟩, ready, by decide +kernel⟩

/-- The premises of LinkSystem, heartbeatBroadcast, hold together. -/
theorem witness_LinkSystem_0 : ∃ (s : State),
    s.lnk.role = .master :=
  ⟨ready.setRole .master, by decide +kernel⟩

/-- The premises of LinkSystem, heartbeat, hold together. -/
theorem witness_LinkSystem_1 : ∃ (src : Fin 128) (mepoch sysGen : BitVec 32) (s s1 s2 : State),
    mepoch.toNat = s.rdN Reg.LNK_MEPOCH ∧
    s.lnk.role ≠ .master ∧
    s1 = s.wrF Reg.LNK_STATUS 16 7 src ∧
    s2 = { s1.wr Reg.LNK_SYS_GEN sysGen.toNat with lnk := { s1.lnk with beat := s.now } } :=
  ⟨9, 0#32, 3#32, ready, _, _, by decide +kernel, by decide +kernel, rfl, rfl⟩

/-- The premises of LinkSystem, heartbeat of a new master, hold together. -/
theorem witness_LinkSystem_2 : ∃ (src : Fin 128) (mepoch sysGen : BitVec 32) (s s1 s2 : State),
    s.rdN Reg.LNK_MEPOCH < mepoch.toNat ∧
    s1 = s.acceptMaster src mepoch.toNat ∧
    s2 = { s1.wr Reg.LNK_SYS_GEN sysGen.toNat with lnk := { s1.lnk with beat := s.now } } :=
  ⟨9, 1#32, 3#32, ready, _, _, by decide +kernel, rfl, rfl⟩

/-- The premises of LinkSystem, heartbeatAnswer, hold together. -/
theorem witness_LinkSystem_3 : ∃ (src : Fin 128) (s : State),
    s.lnk.role = .master :=
  ⟨9, ready.setRole .master, by decide +kernel⟩

/-- The premises of LinkSystem, lossTimeout, hold together. -/
theorem witness_LinkSystem_4 : ∃ (dev : Fin 128) (s : State),
    s.lnk.role = .master ∧
    bitAt (s.rdN (Reg.LNK_UNREACH (dev / 64))) (dev % 64) = false :=
  ⟨9, ready.setRole .master, by decide +kernel⟩

/-- The premises of LinkSystem, masterTimeout, hold together. -/
theorem witness_LinkSystem_6 : ∃ (e : Nat) (s s1 : State),
    s.lnk.role = .standby ∧
    e = (s.rdN Reg.LNK_MEPOCH + 1) % 2 ^ 32 ∧
    s1 = ((((s.wr Reg.LNK_MEPOCH e).setRole .master).wrF Reg.LNK_STATUS 16 7 s.devId).wr Reg.LNK_STANDBY 0).emit (.link everyDevice kMaster [s.devId, e] []) :=
  ⟨1, ready.setRole .standby, _, by decide +kernel, by decide +kernel, rfl⟩

/-- The premises of LinkSystem, masterNotice, hold together. -/
theorem witness_LinkSystem_7 : ∃ (src : Fin 128) (mepoch : BitVec 32) (s s1 : State),
    s1 = s.wake 1 ∧
    s1.rdN Reg.LNK_MEPOCH < mepoch.toNat :=
  ⟨9, 1#32, ready, _, rfl, by decide +kernel⟩

/-- The premises of LinkSystem, standbyWrite, hold together. -/
theorem witness_LinkSystem_8 : ∃ (value : BitVec 32) (v : Nat) (s : State),
    v = value.toNat % 128 + (value.getLsbD 31).toNat * 2 ^ 31 :=
  ⟨5#32, 5, ready, by decide +kernel⟩

/-- The premises of LinkSystem, standbyNotice, hold together. -/
theorem witness_LinkSystem_9 : ∃ (value : BitVec 32) (v : Nat) (s : State),
    v = value.toNat % 128 + (value.getLsbD 31).toNat * 2 ^ 31 :=
  ⟨5#32, 5, ready, by decide +kernel⟩

/-- The premises of LinkSystem, timeExchange, hold together. -/
theorem witness_LinkSystem_10 : ∃ (errNs : Int) (s s1 : State),
    s.lnk.role ≠ .master ∧
    s.lnk.role ≠ .standalone ∧
    s1 = (s.fresh.2.wr Reg.LNK_TIME_ERR (codeOf 32 errNs)).wr Reg.DT_RATE (nominalRate - nominalRate / 10000 + s.fresh.1 % (2 * (nominalRate / 10000) + 1)) :=
  ⟨5, ready, _, by decide +kernel, by decide +kernel, rfl⟩

/-- The premises of LinkSystem, errorReport, hold together. -/
theorem witness_LinkSystem_12 : ∃ (src : Fin 128) (code : BitVec 16) (subjClass subjInst : Fin 256) (info time : BitVec 64) (k : Nat) (s s0 s1 : State),
    s0 = s.wake 1 ∧
    s0.lnk.role = .master ∧
    k = code.toNat * 128 + src ∧
    code ≠ 0x0D0B#16 ∧
    Tab.get? s0.lnk.storms k = none ∧
    s1 = { s0 with lnk := { s0.lnk with storms := s0.lnk.storms.put k ⟨src, time.toNat, s0.now⟩ } } :=
  ⟨9, 0x0901#16, 0, 0, 0#64, 0#64, 0x0901 * 128 + 9, ready.setRole .master, _, _, rfl, by decide +kernel, rfl, by decide +kernel, by decide +kernel, rfl⟩

/-- The premises of LinkSystem, freezePacket, hold together. -/
theorem witness_LinkSystem_13 : ∃ (n : Fin 8) (originator : Fin 128) (seq : Fin 65536) (s s0 s1 s2 : State),
    s0 = s.wake 1 ∧
    s0.dbg.seen.contains (originator.val, seq.val) = false ∧
    s1 = { s0 with dbg := { s0.dbg with seen := (originator.val, seq.val) :: s0.dbg.seen } } ∧
    s0.isFrozen = false ∧
    s2 = ((List.range 8).filter fun k => k != n.val && s0.portState k == 2).foldl (fun s k => s.emit (.flit k 5 (originator.val * 65536 + seq.val))) s1 :=
  ⟨3, 9, 1, ready, _, _, _, rfl, by decide +kernel, rfl, by decide +kernel, rfl⟩

/-- The premises of LinkSystem, bindWrite and bindClear, hold together. -/
theorem witness_LinkSystem_14 : ∃ (sel : Nat) (s s1 : State),
    sel = s.rdF Reg.LNK_BIND_SEL 0 10 ∧
    s.bindBusy = false ∧
    s1 = s.wr Reg.LNK_BIND_STATUS 1 :=
  ⟨0, ready, _, by decide +kernel, by decide +kernel, rfl⟩

/-- The premises of LinkSystem, bindRead, hold together. -/
theorem witness_LinkSystem_15 : ∃ (b : Binding) (s : State),
    s.bindBusy = false ∧
    Tab.get? s.lnk.bindings (s.rdF Reg.LNK_BIND_SEL 0 10) = some b :=
  ⟨⟨9, 2, 1, 0, 0x10000, 0x1000, true, true, true⟩, bound, by decide +kernel⟩

/-- The premises of LinkSystem, bindCmdComplete, hold together. -/
theorem witness_LinkSystem_16 : ∃ (c sel : Nat) (s s1 : State),
    s.lnk.bindRun = some c ∧
    sel = s.rdF Reg.LNK_BIND_SEL 0 10 ∧
    s1 = s.wr Reg.LNK_BIND_STATUS 0 :=
  ⟨3, 0, { ready with lnk := { ready.lnk with bindRun := some 3 } }, _, by decide +kernel, by decide +kernel, rfl⟩

/-- The premises of LinkSystem, ckptEnable, hold together. -/
theorem witness_LinkSystem_18 : ∃ (value : BitVec 32) (v : Nat) (s s1 : State),
    v = value.toNat % 65536 / 16 * 16 + (value.getLsbD 0).toNat ∧
    s.rdB Reg.LNK_CKPT_CFG 0 = false ∧
    s1 = (s.wr Reg.LNK_CKPT_CFG v).wr Reg.LNK_CKPT_EPOCH 0 :=
  ⟨0#32, 0, ready, _, by decide +kernel, by decide +kernel, rfl⟩

/-- The premises of LinkSystem, ckptRequest, hold together. -/
theorem witness_LinkSystem_19 : ∃ (s s1 : State),
    s.lnk.role = .master ∧
    s.rdB Reg.LNK_CKPT_CFG 0 = true ∧
    s.lnk.ckpt.waiting = false ∧
    s.lnk.ckpt.acked = true ∧
    s1 = s.wr Reg.LNK_CKPT_EPOCH (s.rdN Reg.LNK_CKPT_EPOCH + 1) :=
  ⟨(ready.setRole .master).wr Reg.LNK_CKPT_CFG 1, _, by decide +kernel, by decide +kernel, by decide +kernel, by decide +kernel, rfl⟩

/-- The premises of LinkSystem, ckptSnapshot, hold together. -/
theorem witness_LinkSystem_20 : ∃ (e sb : Nat) (bs : List Byte) (s s1 : State),
    e = s.rdN Reg.LNK_CKPT_EPOCH ∧
    sb = s.rdF Reg.LNK_STANDBY 0 7 ∧
    s.lnk.ckpt.waiting = true ∧
    e ≤ (s.flag (s.rdF Reg.LNK_CKPT_FLAGS_A 16 15)).value ∧
    (s.ckptList s.ckptPt (s.rdN Reg.LNK_CKPT_LIST) (s.rdF Reg.LNK_CKPT_CFG 8 8)).bind (s.ckptBytes s.ckptPt) = some bs ∧
    s.rdB Reg.LNK_STANDBY 31 = true ∧
    s.reachable sb = true ∧
    s1 = { s with lnk := { s.lnk with ckpt := { s.lnk.ckpt with waiting := false, prevSnap := s.lnk.ckpt.snapTime, snapTime := s.now } } } :=
  ⟨0, 9, [], ckptWaits, _, by decide +kernel, by decide +kernel, by decide +kernel, by decide +kernel, by decide +kernel, by decide +kernel, by decide +kernel, rfl⟩

/-- The premises of LinkSystem, ckptBegin, hold together. -/
theorem witness_LinkSystem_21 : ∃ (epoch total : BitVec 64) (s s1 : State),
    s.lnk.role = .standby ∧
    s.rdB Reg.LNK_CKPT_CFG 0 = true ∧
    s.rdN Reg.LNK_CKPT_COMMITTED < epoch.toNat ∧
    total.toNat ≤ s.rdN Reg.LNK_CKPT_SLOT_SIZE ∧
    s1 = (s.discardEpoch.wrF Reg.LNK_CKPT_STATUS 16 1 1).wr Reg.LNK_CKPT_EPOCH epoch.toNat :=
  ⟨1#64, 0#64, (ready.setRole .standby).wr Reg.LNK_CKPT_CFG 1, _, by decide +kernel, by decide +kernel, by decide +kernel, by decide +kernel, rfl⟩

/-- The premises of LinkSystem, ckptData, hold together. -/
theorem witness_LinkSystem_22 : ∃ (epoch : BitVec 64) (data : List Byte) (s s1 : State),
    s.lnk.role = .standby ∧
    s.lnk.ckpt.openEpoch = some epoch.toNat ∧
    s.writeDva s.ckptPt (uPort 0) (s.slotBase s.openSlot + s.lnk.ckpt.got.length) data = .done s1 :=
  ⟨1#64, [], ckptOpen, ckptOpen, by decide +kernel, by decide +kernel, by decide +kernel⟩

/-- The premises of LinkSystem, ckptCommit, hold together. -/
theorem witness_LinkSystem_23 : ∃ (epoch crc snap : BitVec 64) (s s1 s2 : State),
    s.lnk.role = .standby ∧
    s.lnk.ckpt.openEpoch = some epoch.toNat ∧
    s.lnk.ckpt.got.length = s.lnk.ckpt.total ∧
    crc64 s.lnk.ckpt.got = crc.toNat ∧
    s1 = ((s.wr Reg.LNK_CKPT_COMMITTED epoch.toNat).wr Reg.LNK_CKPT_SNAP_TIME snap.toNat).wr Reg.LNK_CKPT_STATUS (s.openSlot * 2 ^ 17) ∧
    s2 = { s1 with lnk := { s1.lnk with ckpt := { s1.lnk.ckpt with openEpoch := none, total := 0, got := [] } } } :=
  ⟨1#64, (BitVec.ofNat 64 (crc64 [])), 0#64, ckptOpen, _, _, by decide +kernel, by decide +kernel, by decide +kernel, by decide +kernel, rfl, rfl⟩

/-- The premises of LinkSystem, ckptCommit of a broken epoch, hold together. -/
theorem witness_LinkSystem_24 : ∃ (epoch crc snap : BitVec 64) (s : State),
    s.lnk.role = .standby ∧
    s.lnk.ckpt.openEpoch = some epoch.toNat ∧
    (s.lnk.ckpt.got.length ≠ s.lnk.ckpt.total ∨ crc64 s.lnk.ckpt.got ≠ crc.toNat) :=
  ⟨1#64, (BitVec.ofNat 64 (crc64 [] + 1)), 0#64, ckptOpen, by decide +kernel⟩

/-- The premises of LinkSystem, ckptAck, hold together. -/
theorem witness_LinkSystem_25 : ∃ (epoch : BitVec 64) (code : BitVec 16) (s s1 : State),
    s.lnk.role = .master ∧
    epoch.toNat = s.rdN Reg.LNK_CKPT_EPOCH ∧
    s.lnk.ckpt.acked = false ∧
    s.lnk.ckpt.waiting = false ∧
    s1 = { s with lnk := { s.lnk with ckpt := { s.lnk.ckpt with lastD := s.now - s.lnk.ckpt.reqTime, nextReq := max s.now (s.lnk.ckpt.snapTime + s.rdN Reg.LNK_CKPT_INTERVAL * 1000 - (s.now - s.lnk.ckpt.reqTime)) } } } :=
  ⟨0#64, 0#16, { ready.setRole .master with lnk := { (ready.setRole .master).lnk with ckpt := { acked := false } } }, _, by decide +kernel, by decide +kernel, by decide +kernel, by decide +kernel, rfl⟩

/-- The premises of SecurityCommands, refused while one runs, hold together. -/
theorem witness_SecurityCommands_0 : ∃ (p : Fin 16) (c : Instr) (s : State),
    c ∈ [Instr.secAttest p, .secChain p, .secSession p, .secImport p, .secExport p, .confEnable p, .confDisable p, .confGrant p, .confRelease p, .confMode p, .svnCommit p] ∧
    s.sec.cmd.isSome = true :=
  ⟨0, .secSession 0, { ready with sec := { ready.sec with cmd := some ⟨3, 0, 0, 0, 1⟩ } }, by decide +kernel⟩

/-- The premises of SecurityCommands, secAttest, hold together. -/
theorem witness_SecurityCommands_1 : ∃ (p : Fin 16) (nonce body : List Byte) (k : Nat) (s s1 : State),
    s.sec.cmd = none ∧
    s.secArg 1 % 64 = 0 ∧
    (s.secRead 0 (s.secArg 0) 32).toOption = some nonce ∧
    (k, s1) = s.freshPriv ∧
    body = s1.attestBody p nonce :=
  ⟨0, leBytes 32 0, _, mapped.freshPriv.1, mapped, mapped.freshPriv.2, by decide +kernel, by decide +kernel, by decide +kernel, rfl, rfl⟩

/-- The premises of SecurityCommands, secChain, hold together. -/
theorem witness_SecurityCommands_2 : ∃ (p : Fin 16) (b : List Byte) (s : State),
    s.sec.cmd = none ∧
    b = (s.idkCert ++ Config.certificate 1 (ecPub s.sec.l1k) (s.imgHash 1) (s.imgSvn 1) ++
      Config.certificate 2 (ecPub s.sec.ak) (s.imgHash 2 ++ s.imgHash 3 ++ s.imgHash 4 ++ s.hCfg) (s.imgSvn 2)).take (s.secArg 2) :=
  ⟨0, _, ready, by decide +kernel, rfl⟩

/-- The premises of SecurityCommands, secSession, hold together. -/
theorem witness_SecurityCommands_3 : ∃ (p : Fin 16) (d : Nat) (s s1 : State),
    s.sec.cmd = none ∧
    s.sec.rngBad = false ∧
    (d, s1) = s.freshPriv :=
  ⟨0, _, ready, _, by decide +kernel, by decide +kernel, rfl⟩

/-- The premises of SecurityCommands, secImport, hold together. -/
theorem witness_SecurityCommands_4 : ∃ (p : Fin 16) (h b ct : List Byte) (x : Session) (s : State),
    s.sec.cmd = none ∧
    (s.secRead 0 (s.secArg 0) 128).toOption = some h ∧
    Tab.get? s.sec.sess p = some x ∧
    bundleOk h x.lastSeq = true ∧
    (s.secRead 0 (s.secArg 0 + 128) (getLE h 0x10 4 + 16)).toOption = some b ∧
    ct = b.take (getLE h 0x10 4) :=
  ⟨0, bundleHead, leBytes 16 0, [], { priv := 1, pub := [] }, importing, by decide +kernel, by decide +kernel, by decide +kernel, by decide +kernel, by decide +kernel, by decide +kernel⟩

/-- The premises of SecurityCommands, secExport, hold together. -/
theorem witness_SecurityCommands_5 : ∃ (p : Fin 16) (data : List Byte) (dest : List Byte) (x : Session) (s s1 : State),
    s.sec.cmd = none ∧
    Tab.get? s.sec.sess p = some x ∧
    x.owner.isEmpty = false ∧
    (s.secRead p (s.secArg 1) (s.secArg 3)).toOption = some data ∧
    (dest, s1) = s.freshBytes 8 :=
  ⟨0, [], _, { priv := 1, pub := [], owner := [0#8] }, { ready with sec := { ready.sec with sess := [(0, { priv := 1, pub := [], owner := [0#8] })] } }, _, by decide +kernel, by decide +kernel, by decide +kernel, by decide +kernel, rfl⟩

/-- The premises of SecurityCommands, confEnable, hold together. -/
theorem witness_SecurityCommands_6 : ∃ (p : Fin 16) (c : Nat) (s s1 s2 : State),
    s.sec.cmd = none ∧
    c = s.secArg 1 ∧
    p ≠ 0 ∧
    s.ptReady p = true ∧
    s.ownsNothing p = true ∧
    c < chunkCount ∧
    Tab.get? s.chunks c = none ∧
    s1 = { s.zeroChunk c with chunks := (s.zeroChunk c).chunks.put c p } ∧
    s2 = (s1.countChunks p).wr (Reg.MEM_PT_S2_BASE p) (c * 0x200000) :=
  ⟨3, 0, ready, _, _, by decide +kernel, by decide +kernel, by decide +kernel, by decide +kernel, by decide +kernel, by decide +kernel, by decide +kernel, rfl, rfl⟩

/-- The premises of SecurityCommands, confDisable, confRelease and confMode, hold together. -/
theorem witness_SecurityCommands_7 : ∃ (p : Fin 16) (s : State),
    s.sec.cmd = none ∧
    s.isConf p = true :=
  ⟨3, ready.wr Reg.SEC_CONF 8, by decide +kernel⟩

/-- The premises of SecurityCommands, confGrant, hold together. -/
theorem witness_SecurityCommands_8 : ∃ (p : Fin 16) (s s1 : State),
    s.sec.cmd = none ∧
    s.confRange p true = 0 ∧
    s1 = (List.range (s.secArg 3)).foldl (fun s k => { s.zeroChunk (s.secArg 1 + k) with chunks := (s.zeroChunk (s.secArg 1 + k)).chunks.put (s.secArg 1 + k) p }) s :=
  ⟨3, (ready.wr Reg.SEC_CONF 8).wr (Reg.SEC_ARG 3) 1, _, by decide +kernel, by decide +kernel, rfl⟩

/-- The premises of SecurityCommands, secUpdate, hold together. -/
theorem witness_SecurityCommands_9 : ∃ (p : Fin 16) (h body b : List Byte) (t : Nat) (s : State),
    s.sec.upd = none ∧
    s.sec.cmd = none ∧
    (s.secRead 0 (s.secArg 0) 256).toOption = some h ∧
    getLE h 0x0C 4 ≤ 0x400000 ∧
    (s.secRead 0 (s.secArg 0 + 256) (getLE h 0x0C 4)).toOption = some body ∧
    b = h ++ body ∧
    t = getLE h 4 1 :=
  ⟨0, leBytes 256 0, [], leBytes 256 0, 0, mapped, by decide +kernel⟩

/-- The premises of SecurityCommands, svnCommit, hold together. -/
theorem witness_SecurityCommands_10 : ∃ (p : Fin 16) (i : RunImg) (s : State),
    s.sec.cmd = none ∧
    Tab.get? s.sec.imgs (s.rdF (Reg.SEC_ARG 0) 0 2 + 1) = some i :=
  ⟨0, ⟨3, 0, [], false⟩, { ready with sec := { ready.sec with imgs := [(1, ⟨3, 0, [], false⟩)] } }, by decide +kernel⟩

/-- The premises of SecurityCommands, secCmdComplete, hold together. -/
theorem witness_SecurityCommands_11 : ∃ (c : SecCmd) (s s0 s1 : State),
    s.sec.cmd = some c ∧
    (¬(c.op = 7 ∧ c.code = 0 ∧ s.ptReady c.pt = false)) ∧
    (s0 = if c.op = 7 ∧ c.code = 0 then s.confRelease c.pt else if c.op = 0x0B ∧ c.code = 0 then { s with sec := { s.sec with floor := s.sec.floor.put c.arg (max (s.svnFloor c.arg) (s.imgSvn c.arg)) } } else s) ∧
    (s1 = ((({ s0 with sec := { s0.sec with cmd := none } }).wr Reg.SEC_CMD_STATUS (c.code * 2 ^ 16)).wr Reg.SEC_CMD_LEN c.len).bump (if c.code = 0 then Reg.SEC_CMDS else Reg.SEC_REFUSED) 1) :=
  ⟨⟨3, 0, 0, 0, 1⟩, { ready with sec := { ready.sec with cmd := some ⟨3, 0, 0, 0, 1⟩ } }, _, _, by decide +kernel, by decide +kernel, rfl, rfl⟩

/-- The premises of SecurityCommands, debugChallenge, hold together. -/
theorem witness_SecurityCommands_12 : ∃ (x c : List Byte) (s s1 : State),
    s.sec.locked = false ∧
    s.sec.rngBad = false ∧
    (x, s1) = s.freshBytes 32 ∧
    c = x ++ sha384 s.idkPub :=
  ⟨_, _, ready, _, by decide +kernel, by decide +kernel, rfl, rfl⟩

/-- The premises of SecurityCommands, debugChallenge refused, hold together. -/
theorem witness_SecurityCommands_13 : ∃ (s : State),
    s.sec.locked = true :=
  ⟨{ ready with sec := { ready.sec with locked := true } }, by decide +kernel⟩

/-- The premises of SecurityCommands, debugResponse good, hold together. -/
theorem witness_SecurityCommands_14 : ∃ (answer : List Byte) (s s1 : State),
    s.sec.locked = false ∧
    s.debugOk answer = true ∧
    s1 = { s with sec := { s.sec with challenge := none } } :=
  ⟨leBytes 196 3, { ready with sec := { ready.sec with lcs := 0 } }, _, by decide +kernel, by decide +kernel, rfl⟩

/-- The premises of SecurityCommands, debugResponse bad, hold together. -/
theorem witness_SecurityCommands_15 : ∃ (answer : List Byte) (n : Nat) (s s0 s1 : State),
    s.sec.locked = false ∧
    s.debugOk answer = false ∧
    n = s.rdN Reg.SEC_DBG_FAILS + 1 ∧
    s0 = s.wr Reg.SEC_DBG_FAILS n ∧
    s1 = { s0 with sec := { s.sec with challenge := none, locked := decide (3 ≤ n) } } :=
  ⟨[], 1, ready, _, _, by decide +kernel, by decide +kernel, by decide +kernel, rfl, rfl⟩

/-- The premises of SecurityCommands, rngHealthFail, hold together. -/
theorem witness_SecurityCommands_17 : ∃ (s s1 : State),
    s.sec.rngBad = false ∧
    s1 = { s with sec := { s.sec with rngBad := true, rngFails := 1 } } :=
  ⟨ready, _, by decide +kernel, rfl⟩

/-- The premises of SecurityCommands, rngRetry, hold together. -/
theorem witness_SecurityCommands_18 : ∃ (s s1 : State),
    s.sec.rngBad = true ∧
    s1 = { s with sec := { s.sec with rngFails := s.sec.rngFails + 1 } } :=
  ⟨{ ready with sec := { ready.sec with rngBad := true } }, _, by decide +kernel, rfl⟩

/-- The premises of CheckerRuns, checkerItem, hold together. -/
theorem witness_CheckerRuns_0 : ∃ (p : Nat) (b : List Byte) (rest : List (Nat × List Byte)) (s s1 : State),
    s.safe.mailbox = (p, b) :: rest ∧
    s.checkerRuns = true ∧
    s1 = { s with safe := { s.safe with mailbox := rest } } :=
  ⟨0, leBytes 64 0x20, [], { checking with safe := { checking.safe with mailbox := [(0, leBytes 64 0x20)] } }, _, by decide +kernel, by decide +kernel, rfl⟩

/-- The premises of CheckerRuns, a run passes, fails, or asks, hold together. -/
theorem witness_CheckerRuns_1 : ∃ (task : Fin 256) (key : Nat) (ended : Option ProgEnd) (e : List Byte) (r r1 r2 : SafeRun) (s s1 s2 : State),
    s.runOf task key = some (e, r) ∧
    s.keepRecs e r = (s1, r1) ∧
    s1.resolveRun e r1 = (s2, r2) :=
  ⟨1, 0, none, chkEntry 0x28 0xFF, chkRun, _, _, gathered 0x28 0xFF, _, _, by decide +kernel, rfl, rfl⟩

/-- The premises of CheckerRuns, a run with a program, hold together. -/
theorem witness_CheckerRuns_2 : ∃ (task : Fin 256) (key t0 n : Nat) (x : ProgEnd) (e : List Byte) (r r1 r2 : SafeRun) (s s1 s2 : State),
    s.runOf task key = some (e, r) ∧
    s.keepRecs e r = (s1, r1) ∧
    s1.resolveRun e r1 = (s2, r2) ∧
    s2.judgeRun e r2 = .program ∧
    r2.prog = some (t0, n) ∧
    s2.postRoom e = true :=
  ⟨1, 0, 0, 0, ⟨false, 0, [], []⟩, chkEntry 0x28 0, { chkRun with prog := some (0, 0) }, _, _, judging, _, _, by decide +kernel, rfl, rfl, rfl, rfl, by decide +kernel⟩

/-- The premises of CheckerRuns, a program starts, hold together. -/
theorem witness_CheckerRuns_3 : ∃ (task : Fin 256) (key : Nat) (ended : Option ProgEnd) (e : List Byte) (r r1 r2 : SafeRun) (s s1 s2 : State),
    s.runOf task key = some (e, r) ∧
    s.keepRecs e r = (s1, r1) ∧
    s1.resolveRun e r1 = (s2, r2) ∧
    s2.judgeRun e r2 = .program ∧
    r2.prog = none :=
  ⟨1, 0, none, chkEntry 0x28 0, chkRun, _, _, gathered 0x28 0, _, _, by decide +kernel, rfl, rfl, rfl, rfl⟩

/-- The premises of CheckerRuns, recordReread, hold together. -/
theorem witness_CheckerRuns_4 : ∃ (task : Fin 256) (key : Nat) (e : List Byte) (r : SafeRun) (l : List (List Byte)) (s : State),
    s.runOf task key = some (e, r) ∧
    r.waitRec = true :=
  ⟨1, 0, chkEntry 0x28 0xFF, { chkRun with waitRec := true }, [], rereading, by decide +kernel⟩

/-- The premises of CheckerRuns, programRead, hold together. -/
theorem witness_CheckerRuns_5 : ∃ (task : Fin 256) (key t0 n : Nat) (dva : BitVec 64) (length : BitVec 32) (b : List Byte) (e : List Byte) (r : SafeRun) (s s1 : State),
    s.runOf task key = some (e, r) ∧
    r.prog = some (t0, n) ∧
    n + length.toNat ≤ taskReadMax e ∧
    s.readDva r.pt dva.toNat length.toNat = .data b false ∧
    s1 = s.setSafeRun { r with prog := some (t0, n + length.toNat) } :=
  ⟨1, 0, 0, 0, 0x10000, 8, leBytes 8 0, chkEntry 0x28 0, { chkRun with prog := some (0, 0) }, judging, _, by decide +kernel, by decide +kernel, by decide +kernel, readRes_ok (by decide +kernel), rfl⟩

/-- The premises of CheckerRuns, programRead out of its range, and programTimeout, hold together. -/
theorem witness_CheckerRuns_6 : ∃ (task : Fin 256) (key t0 n : Nat) (e : List Byte) (r : SafeRun) (s : State),
    s.runOf task key = some (e, r) ∧
    r.prog = some (t0, n) :=
  ⟨1, 0, 0, 0, chkEntry 0x28 0, { chkRun with prog := some (0, 0) }, judging, by decide +kernel⟩

/-- The premises of CheckerRuns, copyTimeout, hold together. -/
theorem witness_CheckerRuns_7 : ∃ (task : Fin 256) (key : Nat) (e : List Byte) (r : SafeRun) (s : State),
    s.runOf task key = some (e, r) ∧
    taskMode e 0 = true ∧
    (Tab.get? r.items 0 = none ∨ Tab.get? r.items 1 = none) :=
  ⟨1, 0, chkEntry 0x29 0xFF, chkRun, gathered 0x29 0xFF, by decide +kernel⟩

/-- The premises of CheckerRuns, latencyTimeout, hold together. -/
theorem witness_CheckerRuns_8 : ∃ (task : Fin 256) (key : Nat) (e : List Byte) (r : SafeRun) (s : State),
    s.runOf task key = some (e, r) :=
  ⟨1, 0, chkEntry 0x28 0xFF, chkRun, gathered 0x28 0xFF, by decide +kernel⟩

/-- The premises of CheckerRuns, arrivalTimeout, hold together. -/
theorem witness_CheckerRuns_9 : ∃ (task : Fin 256) (t : Nat) (e : List Byte) (s : State),
    s.task task = some e ∧
    Tab.get? s.safe.armAt task = some t ∧
    s.checkerRuns = true :=
  ⟨1, 0, chkEntry 0x28 0xFF, checking, by decide +kernel⟩

/-- The premises of FailedTasks, failTask, hold together. -/
theorem witness_FailedTasks_0 : ∃ (t : Nat) (e : List Byte) (code run digest fs : Nat) (resolved timer : Bool) (s s1 s2 s3 s4 : State),
    s1 = (s.enterHold t code).safeSync code t ∧
    s2 = s1.postReject t e code run digest fs resolved (s.safe.hold.contains t) ∧
    s3 = ((s2.bump Reg.SAFE_REJECTED 1).bump (Reg.SAFE_TASK_REJECTS t) 1).taskErr (taskPt e) t code run ∧
    s4 = { s3 with safe := { s3.safe with armAt := s3.safe.armAt.put t s.now } } :=
  ⟨1, chkEntry 0x28 0xFF, 0x0E06, 0, 0, 0, false, true, checking, _, _, _, _, rfl, rfl, rfl, rfl⟩

/-- The premises of FailedTasks, safetyRestart, hold together. -/
theorem witness_FailedTasks_1 : ∃ (p code t : Nat) (s s1 : State),
    s.safe.restarts.contains p = false ∧
    s.ptReady p = true ∧
    s.pwr.entry = none ∧
    s1 = { ((s.wrF (Reg.QM_PT_STATE p) 0 3 5).wr (Reg.SAFE_PT_RESTART_CODE p) (code + t * 2 ^ 16)) with safe := { s.safe with restarts := insSorted p s.safe.restarts } } :=
  ⟨0, 0x0E06, 1, checking, _, by decide +kernel, by decide +kernel, by decide +kernel, rfl⟩

/-- The premises of FailedTasks, no restart, hold together. -/
theorem witness_FailedTasks_2 : ∃ (p code t : Nat) (s : State),
    (s.safe.restarts.contains p = true ∨ s.ptReady p = false) :=
  ⟨0, 0, 0, { checking with safe := { checking.safe with restarts := [0] } }, by decide +kernel⟩

/-- The premises of FailedTasks, restartAccessesDone, hold together. -/
theorem witness_FailedTasks_3 : ∃ (p : Fin 16) (s s1 s2 : State),
    p.val ∈ s.safe.restarts ∧
    s1 = (((((s.abandonAccesses p).zeroFronds p).clearCounters p).clearFlags p).flushRings p).dropCaches p ∧
    s2 = s1.dropRuns p :=
  ⟨0, { checking with safe := { checking.safe with restarts := [0] } }, _, _, by decide +kernel, rfl, rfl⟩

/-- The premises of FailedTasks, restartReloadComplete, hold together. -/
theorem witness_FailedTasks_4 : ∃ (p : Fin 16) (s s1 s2 s3 s4 : State),
    p.val ∈ s.safe.restarts ∧
    s1 = (s.gs.graphs.filter (fun g => g.pt == p.val)).foldl (fun s g => s.reloadGraph g) s ∧
    s2 = (s1.crz.graphs.filter (fun e => s1.crzOwned e.1 && s1.cgPt e.1 == p.val)).foldl (fun s e => s.reloadProgram e.1 e.2) s1 ∧
    s3 = ((s2.wrF (Reg.QM_PT_STATE p) 0 3 1).bump (Reg.SAFE_PT_RESTARTS p) 1).wr (Reg.SAFE_PT_LAST_READY p) s.now ∧
    (s4 = { s3 with safe := { s3.safe with restarts := s3.safe.restarts.filter (· != p.val), mailbox := s3.safe.mailbox.filter (fun m => m.1 != p.val), notices := s3.safe.notices.filter (fun n => n.1 != p.val), runs := s3.safe.runs.filter (fun r => r.pt != p.val), judged := s3.safe.judged.filter (fun (e : Nat × Nat × Nat) => match s3.task e.1 with | some x => taskPt x != p.val | none => false), armAt := s3.safe.table.foldl (fun (t : Tab Nat) (e : Nat × List Byte) => if taskPt e.2 = p.val then t.put e.1 s.now else t) s3.safe.armAt } }) :=
  ⟨0, { checking with safe := { checking.safe with restarts := [0] } }, _, _, _, _, by decide +kernel, rfl, rfl, rfl, rfl⟩

/-- The premises of CheckerPairs, dutySwap, hold together. -/
theorem witness_CheckerPairs_0 : ∃ (deferred : BitVec 32) (s s1 : State),
    s.checkerRuns = true ∧
    s.degraded = false ∧
    s.dutyBusy = false ∧
    s1 = ({ s with safe := { s.safe with dutyB := !s.safe.dutyB } }.bump Reg.SAFE_SWAPS 1).rcMax Reg.SAFE_SWAP_DEFER_MAX deferred.toNat :=
  ⟨5, checking, _, by decide +kernel, by decide +kernel, by decide +kernel, rfl⟩

/-- The premises of CheckerPairs, selftestComplete, hold together. -/
theorem witness_CheckerPairs_1 : ∃ (pass : Bool) (k : Nat) (s s1 : State),
    s.checkerRuns = true ∧
    s.degraded = false ∧
    s.sec.upd = none ∧
    k = 1 - s.safe.dutyB.toNat ∧
    s1 = s.wrF Reg.SAFE_SELFTEST (16 + k) 1 pass.toNat :=
  ⟨false, 1, checking, _, by decide +kernel, by decide +kernel, by decide +kernel, by decide +kernel, rfl⟩

/-- The premises of CheckerPairs, retirePair, hold together. -/
theorem witness_CheckerPairs_2 : ∃ (k code : Nat) (s s1 : State),
    s.degraded = false ∧
    (s1 = { s with safe := { s.safe with retA := s.safe.retA || k == 0, retB := s.safe.retB || k == 1, dutyB := if s.safe.dutyB.toNat = k then !s.safe.dutyB else s.safe.dutyB } }) :=
  ⟨1, 0x0E0B, checking, _, by decide +kernel, rfl⟩

/-- The premises of CheckerPairs, lockstepMismatch, hold together. -/
theorem witness_CheckerPairs_3 : ∃ (pairB : Bool) (s s1 : State),
    s.checkerRuns = true ∧
    ((if pairB then s.safe.retB else s.safe.retA) = false) ∧
    s1 = { s with safe := { s.safe with runs := s.safe.runs.map (fun (r : SafeRun) => { r with prog := none }) } } :=
  ⟨false, checking, _, by decide +kernel, by decide +kernel, rfl⟩

/-- The premises of CheckerPairs, watchdogExpiry, hold together. -/
theorem witness_CheckerPairs_4 : ∃ (s s1 : State),
    s.checkerRuns = true ∧
    s1 = { s.beatStops with safe := { s.beatStops.safe with down := true, runs := [], notices := [], judged := [], pers := [], seq := [], armAt := [], heldBack := [] } } :=
  ⟨checking, _, by decide +kernel, rfl⟩

/-- The premises of CheckerPairs, checkerRestartComplete, hold together. -/
theorem witness_CheckerPairs_5 : ∃ (s : State),
    s.safe.down = true :=
  ⟨{ checking with safe := { checking.safe with down := true } }, by decide +kernel⟩

/-- The premises of CheckerPairs, degradedLimit, hold together. -/
theorem witness_CheckerPairs_6 : ∃ (s s1 : State),
    s.degraded = true ∧
    s.safe.limit = false ∧
    s1 = { s with safe := { s.safe with limit := true } } :=
  ⟨{ checking with safe := { checking.safe with retB := true } }, _, by decide +kernel, by decide +kernel, rfl⟩

/-- The premises of CheckerPairs, the safe rail, hold together. -/
theorem witness_CheckerPairs_9 : ∃ (s s1 s2 : State),
    s1 = { s.beatStops with safe := { s.beatStops.safe with vddBad := true, mailbox := [], runs := [], notices := [], judged := [], pers := [], seq := [], armAt := [], heldBack := [], holdTest := none } } ∧
    s2 = { s with safe := { s.safe with vddBad := false, down := false, armAt := s.safe.table.map (fun (e : Nat × List Byte) => (e.1, s.now)) } } :=
  ⟨{ checking with safe := { checking.safe with vddBad := true } }, _, _, rfl, rfl⟩

/-- The premises of CheckerPairs, the safe clock, hold together. -/
theorem witness_CheckerPairs_10 : ∃ (s s1 s2 : State),
    s1 = { s with safe := { s.safe with clkBad := true } } ∧
    s2 = { s with safe := { s.safe with clkBad := false } } :=
  ⟨{ checking with safe := { checking.safe with clkBad := true } }, _, _, rfl, rfl⟩

/-- The premises of PowerLadder, p1Entry, hold together. -/
theorem witness_PowerLadder_0 : ∃ (s : State),
    s.rung = 0 ∧
    s.pwr.entry = none ∧
    s.pwr.exiting = false ∧
    s.idleNow = true :=
  ⟨State.setRung ready 0, by decide +kernel⟩

/-- The premises of PowerLadder, requests, hold together. -/
theorem witness_PowerLadder_1 : ∃ (s : State),
    s.mgt.switching = false :=
  ⟨(State.setRung ready 1).wr Reg.PWR_CFG 1, by decide +kernel⟩

/-- The premises of PowerLadder, requests wait, hold together. -/
theorem witness_PowerLadder_3 : ∃ (s : State),
    s.mgt.switching = true :=
  ⟨{ ready with mgt := { ready.mgt with switching := true } }, by decide +kernel⟩

/-- The premises of PowerLadder, rungEntryComplete, hold together. -/
theorem witness_PowerLadder_4 : ∃ (k t : Nat) (s s1 : State),
    s.pwr.entry = some (k, t) ∧
    s1 = ((s.wrF Reg.PWR_STATUS 3 1 0).setRung k).bump (Reg.PWR_ENTRIES k) 1 :=
  ⟨2, 0, { ready with pwr := { ready.pwr with entry := some (2, 0) } }, _, by decide +kernel, rfl⟩

/-- The premises of PowerLadder, rungExitComplete, hold together. -/
theorem witness_PowerLadder_5 : ∃ (s s1 s2 s3 s4 : State),
    s.pwr.exiting = true ∧
    s1 = { s.setRung 1 with pwr := { (s.setRung 1).pwr with exiting := false } } ∧
    (s2 = if 3 ≤ s.rung then s1.wakeFronds else s1) ∧
    (s3 = (if s.rung = 4 then s2.losePasr else s2).checkerWake) ∧
    s4 = s3.pwr.kwWait.foldl (fun s b => s.kwDeliver b) { s3 with pwr := { s3.pwr with kwWait := [] } } :=
  ⟨{ State.setRung ready 2 with pwr := { ready.pwr with exiting := true } }, _, _, _, _, by decide +kernel, rfl, rfl, rfl, rfl⟩

/-- The premises of PowerLadder, thermalSample, hold together. -/
theorem witness_PowerLadder_6 : ∃ (tj : Fin 256) (sensor : Fin 24) (s s1 s2 s3 s4 : State),
    s1 = (s.wr Reg.PWR_TJ (tj + sensor * 256)).rcMax Reg.PWR_TJ_MAX tj ∧
    (s2 = if s.rdF Reg.PWR_TJ_THR 0 8 ≤ tj then s1 else { s1 with pwr := { s1.pwr with heatSteps := false } }) ∧
    (s3 = if 105 ≤ tj.val then { (if s.rdF Reg.PWR_TJ 0 8 < 105 then s2.thermalEvent 0x0F04 tj else s2) with pwr := { s2.pwr with kHeat := 4 } } else s2) ∧
    (s4 = if 115 ≤ tj.val && !s3.pwr.stopped then { (s3.wrF Reg.PWR_STATUS 14 1 1).thermalEvent 0x0F05 tj with pwr := { s3.pwr with stopped := true } } else s3) :=
  ⟨120, 3, ready, _, _, _, _, rfl, rfl, rfl, rfl⟩

/-- The premises of PowerLadder, kSync, hold together. -/
theorem witness_PowerLadder_7 : ∃ (s : State),
    s.pwr.throttledAt = none :=
  ⟨ready, by decide +kernel⟩

/-- The premises of PowerLadder, throttleStep by heat, hold together. -/
theorem witness_PowerLadder_8 : ∃ (tj thr : Nat) (s s1 : State),
    tj = s.rdF Reg.PWR_TJ 0 8 ∧
    thr = s.rdF Reg.PWR_TJ_THR 0 8 ∧
    (s1 = if s.pwr.heatSteps then s else s.evt 0 0x0F03 tj) :=
  ⟨95, _, ready.wr Reg.PWR_TJ 95, _, by decide +kernel, rfl, rfl⟩

/-- The premises of PowerLadder, powerSample, hold together. -/
theorem witness_PowerLadder_10 : ∃ (mw : BitVec 32) (s s1 s2 : State),
    s1 = s.wr Reg.PWR_PKG_MW mw.toNat ∧
    (s2 = if s1.pwr.powerSteps then s1 else s1.evt 0 0x0F06 mw.toNat) :=
  ⟨99000, ready, _, _, rfl, rfl⟩

/-- The premises of TimeAndAudio, ppsEdge, hold together. -/
theorem witness_TimeAndAudio_0 : ∃ (jitter : Fin 9) (t : Nat) (d e : Int) (s s1 s2 s3 : State),
    t = s.now + jitter.val - 4 ∧
    (s1 = if (s.wr Reg.PPS_LAST t).rdB Reg.PPS_CFG 1 then (s.wr Reg.PPS_LAST t).wake 5 else s.wr Reg.PPS_LAST t) ∧
    d = (t : Int) - s1.rdN Reg.PPS_OFFSET ∧
    e = d - (d + 500000000) / 1000000000 * 1000000000 ∧
    s2 = (s1.wr Reg.PPS_ERR (codeOf 32 e)).wrF Reg.PPS_STATUS 1 1 0 ∧
    (s3 = if s2.pwr.ppsFirst = true ∧ e < 0 then s2.stepTime e.natAbs else s2.ppsSlew) :=
  ⟨4, _, _, _, ready.wr Reg.PPS_CFG 1, _, _, _, rfl, rfl, rfl, rfl, rfl, rfl⟩

/-- The premises of TimeAndAudio, audioSample, hold together. -/
theorem witness_TimeAndAudio_2 : ∃ (samples : List (BitVec 16)) (n : Nat) (x : List Nat) (s s1 s2 : State),
    s.rdB Reg.AUD_CFG 0 = true ∧
    n = s.rdN Reg.AUD_NEXT ∧
    (x = (List.range 8).map (fun m => if s.rdB Reg.AUD_CFG (8 + m) then (samples.getD m 0#16).toNat else 0)) ∧
    (s1 = if n = 0 then s.wr Reg.AUD_T0 s.now else s) ∧
    s2 = s1.wr Reg.AUD_T0_ERR (codeOf 32 ((s.now : Int) - (s1.rdN Reg.AUD_T0 + n * 62500 : Nat))) :=
  ⟨[3, 4], 0, _, ready.wr Reg.AUD_CFG 0x101, _, _, by decide +kernel, by decide +kernel, rfl, rfl, rfl⟩

/-- The premises of TimeAndAudio, audCopy, hold together. -/
theorem witness_TimeAndAudio_3 : ∃ (first n dst : Nat) (s : State),
    first = s.rdN Reg.AUD_FIRST ∧
    n = s.rdN Reg.AUD_COUNT ∧
    dst = s.rdN Reg.AUD_DST ∧
    s.pwr.copying = none :=
  ⟨0, _, 0, (ready.wr Reg.AUD_COUNT 1).wr Reg.AUD_NEXT 1, by decide +kernel, rfl, by decide +kernel, by decide +kernel⟩

/-- The premises of TimeAndAudio, audCopyComplete, hold together. -/
theorem witness_TimeAndAudio_4 : ∃ (first n dst : Nat) (bytes : List Byte) (s s0 s1 : State),
    s.pwr.copying = some (first, n, dst) ∧
    s.audioHas first n = true ∧
    s0 = { s with pwr := { s.pwr with copying := none } } ∧
    bytes = (List.range n).flatMap (fun k => (s.pwr.audio.getD (first + k) []).flatMap (leBytes 2)) ∧
    s0.writeDva 0 ⟨0, 0⟩ dst bytes = .done s1 :=
  ⟨0, 1, 0x10000, leBytes 16 3, audWaits, _, audCopied, by decide +kernel, by decide +kernel, rfl, by decide +kernel, by decide +kernel⟩

/-- The premises of TimeAndAudio, audCopyComplete with samples overwritten, hold together. -/
theorem witness_TimeAndAudio_5 : ∃ (first n dst : Nat) (s s0 : State),
    s.pwr.copying = some (first, n, dst) ∧
    s.audioHas first n = false ∧
    s0 = { s with pwr := { s.pwr with copying := none } } :=
  ⟨0, 1, 0, { ready with pwr := { ready.pwr with copying := some (0, 1, 0) } }, _, by decide +kernel, by decide +kernel, rfl⟩

/-- The premises of TimeAndAudio, kwsFrameEnd, hold together. -/
theorem witness_TimeAndAudio_6 : ∃ (n : Nat) (win : List (Option Int)) (row : List Nat) (s : State),
    n = s.rdN Reg.AUD_NEXT ∧
    s.rdB Reg.KWS_CFG 0 = true ∧
    s.rdB Reg.AUD_CFG 0 = true ∧
    (n ≠ 0 ∧ n % 160 = 0) ∧
    (win = (List.range 400).map (fun i => if n + i < 400 then none else some (signedOf 16 ((s.pwr.audio.getD (n + i - 400) []).getD (s.rdF Reg.KWS_CFG 1 3) 0)))) ∧
    row = (List.range 40).map (fun j => codeOf 8 (max (-128) (min 127 (Config.kwsFeature win j)))) :=
  ⟨160, _, _, ((ready.wr Reg.AUD_CFG 1).wr Reg.KWS_CFG 1).wr Reg.AUD_NEXT 160, by decide +kernel, by decide +kernel, by decide +kernel, by decide +kernel, rfl, rfl⟩

/-- The premises of TimeAndAudio, kwsEvaluationComplete, hold together. -/
theorem witness_TimeAndAudio_7 : ∃ (f rung nk : Nat) (now : List Int) (s s1 : State),
    s.pwr.frame = some (f, rung) ∧
    nk = s.rdF Reg.KWS_CFG 4 3 + 1 ∧
    now = kwsScores s.pwr.model s.pwr.feats (s.rdF Reg.KWS_SHIFT 0 5) (s.rdF Reg.KWS_SHIFT 8 5) nk ∧
    s1 = { s with pwr := { s.pwr with frame := none, scores := now } } :=
  ⟨3, 0, _, _, { ready with pwr := { ready.pwr with frame := some (3, 0) } }, _, by decide +kernel, rfl, rfl, rfl⟩

/-- The premises of TimeAndAudio, kwsModelData, hold together. -/
theorem witness_TimeAndAudio_9 : ∃ (value : BitVec 32) (a : Nat) (m : Tab Byte) (s : State),
    s.rdB Reg.KWS_CFG 0 = false ∧
    a = s.rdF Reg.KWS_MODEL_ADDR 0 16 ∧
    m = (List.range 4).foldl (fun (t : Tab Byte) i => Tab.write (fun _ => 0#8) t (a + i) (BitVec.ofNat 8 (value.toNat / 256 ^ i))) s.pwr.model :=
  ⟨0x01020304, 0, _, ready, by decide +kernel, by decide +kernel, rfl⟩

/-- The premises of TimeAndAudio, kwsModelData refused, hold together. -/
theorem witness_TimeAndAudio_10 : ∃ (value : BitVec 32) (s : State),
    s.rdB Reg.KWS_CFG 0 = true :=
  ⟨0, ready.wr Reg.KWS_CFG 1, by decide +kernel⟩

/-- The premises of VstatWritesTheOperationStatus, vstat, hold together. -/
theorem witness_VstatWritesTheOperationStatus_0 : ∃ (n : Fin 32) (chk : FrondCheck) (w : Nat) (s : State),
    s.issuesWord n 2 0x18 w = true ∧
    vecOk vSX w = true :=
  ⟨5, ⟨0, none, false⟩, 0x21800000, withWord 0x21800000, by decide +kernel⟩

/-- The premises of InPackageMemoryPassesOnlyInOwnChunks, refused, hold together. -/
theorem witness_InPackageMemoryPassesOnlyInOwnChunks_0 : ∃ (p dva n ia pa : Nat) (acc : Access) (ring : Bool) (u : UnitId) (b : List Byte) (s : State),
    dva < 2 ^ 48 ∧
    s.walk1 p acc 4 (s.rdN (Reg.MEM_PT_S1_BASE p)) dva = .ok ia ∧
    s.stage2 p ia (some acc) = .ok pa ∧
    targetOf pa = .inPackage ∧
    s.chunkOwner pa ≠ some p :=
  ⟨0, 0x10000, 64, 0x10000, 0x10000, .read, false, ⟨0, 0⟩, [], { mapped with chunks := [] }, by decide +kernel, walk_ok (by decide +kernel), walk_ok (by decide +kernel), by decide +kernel, by decide +kernel⟩

/-- The premises of InPackageMemoryPassesOnlyInOwnChunks, passes only in its own chunks, hold together. -/
theorem witness_InPackageMemoryPassesOnlyInOwnChunks_1 : ∃ (p dva n pa : Nat) (acc : Access) (ring : Bool) (s : State),
    s.xlate p dva n acc ring = .ok pa ∧
    targetOf pa = .inPackage :=
  ⟨0, 0x10000, 64, 0x10000, .read, false, mapped, walk_ok (by decide +kernel), by decide +kernel⟩

/-- The premises of InPackageMemoryPassesOnlyInOwnChunks, host and link addresses, hold together. -/
theorem witness_InPackageMemoryPassesOnlyInOwnChunks_2 : ∃ (p dva n ia pa : Nat) (acc : Access) (ring : Bool) (s : State),
    dva < 2 ^ 48 ∧
    s.walk1 p acc 4 (s.rdN (Reg.MEM_PT_S1_BASE p)) dva = .ok ia ∧
    s.stage2 p ia (some acc) = .ok pa ∧
    (targetOf pa = .host ∨ targetOf pa = .link) :=
  ⟨0, 0x40010000, 64, 0x40010000, 0x800000010000, .read, false, place (place mapped 0x1008 (leBytes 8 0x80000000001F)) 0x3008 (leBytes 8 0x4000001F), by decide +kernel, walk_ok (by decide +kernel), walk_ok (by decide +kernel), by decide +kernel⟩

/-- The premises of PortTakesOneRequestAtATime, a frame while BUSY, hold together. -/
theorem witness_PortTakesOneRequestAtATime_1 : ∃ (frame : List Byte) (s : State),
    bitAt s.statusWord 1 = true ∧
    (¬(frame.length < 8 ∨ (frLen frame ≤ 1024 ∧ frame.length < 12 + frLen frame + (if frAuth frame then 16 else 0)))) :=
  ⟨timeFrame, { ready with mgt := { ready.mgt with request := some [] } }, by decide +kernel⟩

/-- The premises of PortTakesOneRequestAtATime, a frame accepted, hold together. -/
theorem witness_PortTakesOneRequestAtATime_2 : ∃ (frame r : List Byte) (n : Nat) (s : State),
    (n = 12 + frLen frame + (if frAuth frame then 16 else 0)) ∧
    (¬(frame.length < 8 ∨ (frLen frame ≤ 1024 ∧ frame.length < n))) ∧
    s.mgt.request = none ∧
    s.stage ≠ 0xF ∧
    frameGood frame = true ∧
    s.mgt.switching = false ∧
    r = frame.take (n - 4) ∧
    payloadOk (frCmd r) (frPayload r) = true :=
  ⟨timeFrame, timeFrame.take 8, 12, { ready with mgt := { ready.mgt with response := some [] } }, by decide +kernel⟩

end Sys2Proof.Tests
end

section
/-! PROOFS of the family 00_scope (O6, O8): a register keeps what is written to it (R6, R7), and the host's accesses to registers of the
physical function follow the access code of the register's row (R7, R9, R10, R524, R537). -/

namespace Sys2Proof.Machine

/-- Settles O6: the law of tables read after a write (`rd_wr`), at the registers. -/
theorem registerReadsAsLastWritten : Obligations.RegisterReadsAsLastWritten := rd_wr

/-! ### A write by the access code of the row -/

section WriteReg

variable {s t : State} {row : RegRow} {a m v : Nat}

theorem writeReg_w1c (hacc : row.acc = .w1c) : s.writeReg row a m v = s.wr a (s.rdN a - (s.rdN a &&& m &&& v)) := by
  simp only [State.writeReg, hacc]

theorem writeReg_rw_taken (hacc : row.acc = .rw) (hok : s.writeRefused row a (s.rdN a - (s.rdN a &&& m) + (v &&& m)) = none) :
    s.writeReg row a m v = (s.wr a (s.rdN a - (s.rdN a &&& m) + (v &&& m))).afterWrite row a (s.rdN a) := by
  simp only [State.writeReg, hacc, hok]

theorem writeReg_rw_refused (hacc : row.acc = .rw) (hno : s.writeRefused row a (s.rdN a - (s.rdN a &&& m) + (v &&& m)) = some t) :
    s.writeReg row a m v = t := by
  simp only [State.writeReg, hacc, hno]

theorem writeReg_ro (hacc : row.acc = .ro) (hsec : ¬(0x1800000 ≤ a ∧ a < 0x1900000)) : s.writeReg row a m v = s := by
  simp only [State.writeReg, hacc, if_neg hsec]

end WriteReg

/-! ### Accesses of the physical function -/

section PhysicalFunction

variable {s : State} {off : BitVec 32} {v : BitVec 64} {row : RegRow}

/-- The physical function reaches every offset of BAR0 itself (R27). -/
@[simp] theorem decodes_pf (s : State) (a : Nat) : s.decodes 0 a = some a := rfl

/-- The check that every access of the physical function passes when its offset is aligned and it is answered. -/
theorem not_misaligned_or_unanswered {a : Nat} (hans : s.answers 0 a = true) (hal : a % 4 = 0) :
    ¬(a % 4 ≠ 0 ∨ (!s.answers 0 a) = true) := by
  simp [hans, hal]

/-- A write at the start of a register without a row of its own is a write by its access code, unless the register is hidden. -/
theorem writeOne_pf {a n x : Nat} (hmsix : isMsix a = false) (hkeys : ¬(0x1880000 ≤ a ∧ a < 0x1900000))
    (hfind : Reg.find a = some (row, 0)) (hown : row.own = false) :
    s.writeOne 0 a n x = if s.hidden 0 a then s else s.writeReg row a (row.wmask &&& (2 ^ (8 * n) - 1)) x := by
  simp [State.writeOne, hmsix, hkeys, hfind, hown]

/-- REGISTER_WRITE of 32 bits: the device wakes, and the write reaches the register by its access code unless it is hidden. -/
theorem exec_registerWrite_pf (hans : s.answers 0 off.toNat = true) (hal : off.toNat % 4 = 0)
    (hmsix : isMsix off.toNat = false) (hkeys : ¬(0x1880000 ≤ off.toNat ∧ off.toNat < 0x1900000))
    (hfind : Reg.find off.toNat = some (row, 0)) (hown : row.own = false) :
    exec (.registerWrite 0 off false v) s = .next (if (s.wake 0).hidden 0 off.toNat then s.wake 0
      else (s.wake 0).writeReg row off.toNat (row.wmask &&& (2 ^ 32 - 1)) (v.toNat % 2 ^ 32)) := by
  change execRegisterWrite 0 off false v s = _
  rw [← writeOne_pf (n := 4) hmsix hkeys hfind hown]
  simp only [execRegisterWrite, Fin.val_zero, decodes_pf, if_neg (not_misaligned_or_unanswered hans hal), Bool.not_false, if_true]

/-- As `exec_registerWrite_pf`, for a register that is not hidden. -/
theorem exec_registerWrite_pf_shown (hans : s.answers 0 off.toNat = true) (hal : off.toNat % 4 = 0)
    (hmsix : isMsix off.toNat = false) (hkeys : ¬(0x1880000 ≤ off.toNat ∧ off.toNat < 0x1900000))
    (hfind : Reg.find off.toNat = some (row, 0)) (hhid : (s.wake 0).hidden 0 off.toNat = false) (hown : row.own = false) :
    exec (.registerWrite 0 off false v) s =
      .next ((s.wake 0).writeReg row off.toNat (row.wmask &&& (2 ^ 32 - 1)) (v.toNat % 2 ^ 32)) := by
  rw [exec_registerWrite_pf hans hal hmsix hkeys hfind hown, hhid, if_neg Bool.false_ne_true]

/-- RC_READ: the device wakes, the value is put out, and the register is set to its reset value. -/
theorem exec_rcRead_pf (hans : s.answers 0 off.toNat = true) (hal : off.toNat % 4 = 0)
    (hfind : Reg.find off.toNat = some (row, 0)) (hacc : row.acc = .rc) :
    exec (.rcRead 0 off) s =
      .next (((s.wake 0).emit (.readData (s.readReg 0 off.toNat false))).wr off.toNat (Reg.resetOf off.toNat).toNat) := by
  change execRcRead 0 off s = _
  simp only [execRcRead, Fin.val_zero, decodes_pf, if_neg (not_misaligned_or_unanswered hans hal), hfind, hacc, beq_self_eq_true,
    if_true]
  rfl

/-- A read of the lower half of a latching register: the device wakes, the half is put out, and the upper half is latched. -/
theorem lowRead_pf {a : Nat} {P : Nat → Bool} (hans : s.answers 0 a = true) (hal : a % 4 = 0)
    (hfind : Reg.find a = some (row, 0)) (hP : P a = true) :
    s.lowRead 0 a P = { s.wake 0 with
      out := (s.wake 0).out ++ [.readData (s.readReg 0 a false)]
      dbg := { (s.wake 0).dbg with hiLatch := (s.wake 0).dbg.hiLatch.put a (fld (s.shown row a) 32 32) } } := by
  simp only [State.lowRead, decodes_pf, if_neg (not_misaligned_or_unanswered hans hal), hfind, hP, if_true]

/-- After a read of a lower half: the answer is put out, the upper half is latched, and the rest is as the wake left it. -/
theorem lowRead_pf_latches {a : Nat} {P : Nat → Bool} (hans : s.answers 0 a = true) (hal : a % 4 = 0)
    (hfind : Reg.find a = some (row, 0)) (hP : P a = true) :
    (s.lowRead 0 a P).out = (s.wake 0).out ++ [.readData (s.readReg 0 a false)] ∧
      Tab.get? (s.lowRead 0 a P).dbg.hiLatch a = some (fld (s.shown row a) 32 32) ∧
      s.lowRead 0 a P = { s.wake 0 with
        out := (s.lowRead 0 a P).out, dbg := { (s.wake 0).dbg with hiLatch := (s.lowRead 0 a P).dbg.hiLatch } } := by
  rw [lowRead_pf hans hal hfind hP]
  exact ⟨rfl, by rw [Tab.get?_put, if_pos rfl], rfl⟩

end PhysicalFunction

/-! ### Device time -/

/-- The row of DT_NOW in the register map (R524). -/
def rowDtNow : RegRow := ⟨"DT_NOW", 0x1B00100, [], 8, .ro, 0x0, false⟩

theorem find_DT_NOW : Reg.find Reg.DT_NOW = some (rowDtNow, 0) := by decide +kernel

/-- DT_NOW shows device time, not a stored value (R524). -/
theorem shown_DT_NOW (s : State) : s.shown rowDtNow Reg.DT_NOW = s.now := rfl

/-- Settles O8: each clause is the lemma of its access, taken at the access code of the register's row. -/
theorem hostRegisterAccess : Obligations.HostRegisterAccess := by
  refine ⟨?w1c, ?rwTaken, ?rwRefused, ?ro, ?rc, ?counter, ?dtNow⟩
  case w1c =>
    intro off v row s hans hal hmsix hkeys hfind hhid hown hacc
    rw [exec_registerWrite_pf_shown hans hal hmsix hkeys hfind hhid hown, writeReg_w1c hacc]
  case rwTaken =>
    intro off v row s hans hal hmsix hkeys hfind hhid hown hacc hok
    rw [exec_registerWrite_pf_shown hans hal hmsix hkeys hfind hhid hown, writeReg_rw_taken hacc hok]
  case rwRefused =>
    intro off v row s t hans hal hmsix hkeys hfind hhid hown hacc hno
    rw [exec_registerWrite_pf_shown hans hal hmsix hkeys hfind hhid hown, writeReg_rw_refused hacc hno]
  case ro =>
    intro off v row s hans hal hmsix hsec hfind hown hacc
    have hkeys : ¬(0x1880000 ≤ off.toNat ∧ off.toNat < 0x1900000) := by omega
    rw [exec_registerWrite_pf hans hal hmsix hkeys hfind hown, writeReg_ro hacc hsec, ite_self]
  case rc =>
    intro off row s hans hal hfind hacc
    refine ⟨_, exec_rcRead_pf hans hal hfind hacc, rfl, ?_, fun b hb => rd_wr_ne _ _ hb, rfl⟩
    rw [rd_wr_same, BitVec.ofNat_toNat, BitVec.setWidth_eq]
  case counter =>
    intro off row s hans hal hfind hcnt
    exact ⟨s.lowRead 0 off.toNat isCounter, rfl, lowRead_pf_latches hans hal hfind hcnt⟩
  case dtNow =>
    intro s hans
    rw [← shown_DT_NOW s]
    exact ⟨s.lowRead 0 Reg.DT_NOW (· == Reg.DT_NOW), rfl, lowRead_pf_latches hans rfl find_DT_NOW rfl⟩

end Sys2Proof.Machine
end

section
/-! PROOFS of the family 02_sensor_ingress (O9, O10): the commands of sensor ports, streams and record slots (R38, R39, R44, R52, R54,
R56), and the frame starts, lines and frame ends of a virtual channel (R42, R50, R51, R54). -/

namespace Sys2Proof.Machine

/-! ### Writes of one register -/

section OneRegister

variable {s : State}

theorem rdB_wr_ne {a b : Nat} (v i : Nat) (h : b ≠ a) : (s.wr a v).rdB b i = s.rdB b i :=
  congrArg (bitAt · i) (rdN_wr_ne s v h)

theorem rdB_wrF_ne {a b : Nat} (lo w x i : Nat) (h : b ≠ a) : (s.wrF a lo w x).rdB b i = s.rdB b i := rdB_wr_ne _ i h

/-- A write of a field sets the field, leaves every other register, and changes nothing but registers. -/
theorem wrF_sets_field_only (a x : Nat) {lo w : Nat} (hw : lo + w ≤ 64) :
    (s.wrF a lo w x).rdF a lo w = x % 2 ^ w ∧ (∀ b, b ≠ a → (s.wrF a lo w x).rd b = s.rd b) ∧
      s.wrF a lo w x = { s with regs := (s.wrF a lo w x).regs } :=
  ⟨rdF_wrF_same s a x hw, fun _ hb => rd_wrF_ne s lo w x hb, rfl⟩

end OneRegister

/-! ### Ports (R38, R39, R54, R56) -/

section Port

variable {n : Fin 12} {value : BitVec 32} {s : State}

/-- Unusable fields raise 0x0113 and store nothing, whatever EN is: the model's choice (row 101 of the assumption log; R56 does not say). -/
theorem exec_csiCtrlWrite_unusable (hbad : csiCtrlOk (value.toNat &&& 0xFFFF001F) = false) :
    exec (.csiCtrlWrite n value) s = .next (s.csiPortErr n 0x0113) := by
  change execCsiCtrlWrite n value s = _
  simp only [execCsiCtrlWrite, hbad, Bool.not_false, if_true]

/-- The write that sets EN above P2 is not held back for P0 and is no change of an enabled port's fields. -/
theorem exec_csiCtrlWrite_enable (hok : csiCtrlOk (value.toNat &&& 0xFFFF001F) = true)
    (hen : bitAt (value.toNat &&& 0xFFFF001F) 0 = true) (hoff : s.rdB (Reg.CSI_CTRL n) 0 = false) (hrung : s.rung < 2) :
    exec (.csiCtrlWrite n value) s =
      .next ((s.needP0.wr (Reg.CSI_CTRL n) (value.toNat &&& 0xFFFF001F)).wrF (Reg.CSI_STATUS n) 0 2 0) := by
  change bitAt (s.rdN (Reg.CSI_CTRL n)) 0 = false at hoff
  have hawake : decide (2 ≤ s.rung) = false := decide_eq_false (by omega)
  change execCsiCtrlWrite n value s = _
  simp only [execCsiCtrlWrite, hok, hen, hoff, hawake, Bool.not_true, Bool.not_false, Bool.false_and, Bool.and_false, Bool.and_true,
    Bool.true_or, Bool.false_eq_true, if_false, if_true]

theorem exec_csiCalibrationComplete_enabled (hen : s.rdB (Reg.CSI_CTRL n) 0 = true) :
    exec (.csiCalibrationComplete n) s = .next (s.wrF (Reg.CSI_STATUS n) 0 2 3) := if_pos hen

theorem exec_laneLockFailure_enabled (hen : s.rdB (Reg.CSI_CTRL n) 0 = true) :
    exec (.laneLockFailure n) s = .next ((s.wrF (Reg.CSI_STATUS n) 0 2 0).portFault n 0x0112).crzDrain := by
  change execLaneLockFailure n s = _
  simp only [execLaneLockFailure, hen, Bool.not_true, Bool.false_eq_true, if_false]

end Port

/-! ### Streams and record slots (R44, R52) -/

section StreamCommands

variable {m : Fin 48} {reg : ShadowReg} {value : BitVec 32} {s : State}

/-- A stream whose written ST_m_CFG keeps EN is not disabled. -/
theorem stDisable_of_written_enabled {k : Nat} (h : s.rdB (Reg.ST_CFG k) 0 = true) : s.stDisable k = s := by
  simp only [State.stDisable, h, Bool.not_true, Bool.and_false, Bool.false_and, Bool.false_eq_true, if_false]

/-- The shadowed registers other than ST_m_CFG lie elsewhere. -/
theorem ST_CFG_ne_shadowReg (k : Nat) (h : reg ≠ .cfg) : Reg.ST_CFG k ≠ shadowReg k reg := by
  cases reg with
  | cfg => exact absurd rfl h
  | dt | geom | sealCfg | fnumMax => simp [shadowReg, Reg.ST_CFG, Reg.ST_DT, Reg.ST_GEOM, Reg.ST_SEAL, Reg.ST_FNUM_MAX]

theorem ST_CFG_ne_ST_STATUS (k : Nat) : Reg.ST_CFG k ≠ Reg.ST_STATUS k := by simp [Reg.ST_CFG, Reg.ST_STATUS]

theorem exec_streamRegWrite_disabled (hoff : bitAt (s.st m).cfg 0 = false) :
    exec (.streamRegWrite m reg value) s = .next ((s.wr (shadowReg m reg) (value.toNat &&& shadowMask reg)).stApply m) := by
  change execStreamRegWrite m reg value s = _
  simp only [execStreamRegWrite, hoff, Bool.not_false, if_true]

theorem exec_streamRegWrite_enabled (hon : bitAt (s.st m).cfg 0 = true) :
    exec (.streamRegWrite m reg value) s =
      .next (((s.wr (shadowReg m reg) (value.toNat &&& shadowMask reg)).wrF (Reg.ST_STATUS m) 0 1 1).stDisable m) := by
  change execStreamRegWrite m reg value s = _
  simp only [execStreamRegWrite, hon, Bool.not_true, Bool.false_eq_true, if_false]

/-- A write of a register other than ST_m_CFG leaves the EN written there, so the enabled stream stays enabled and is only PENDING. -/
theorem exec_streamRegWrite_pending (hon : bitAt (s.st m).cfg 0 = true) (hreg : reg ≠ .cfg) (hen : s.rdB (Reg.ST_CFG m) 0 = true) :
    exec (.streamRegWrite m reg value) s =
      .next ((s.wr (shadowReg m reg) (value.toNat &&& shadowMask reg)).wrF (Reg.ST_STATUS m) 0 1 1) := by
  have hkeep : ((s.wr (shadowReg m reg) (value.toNat &&& shadowMask reg)).wrF (Reg.ST_STATUS m) 0 1 1).rdB (Reg.ST_CFG m) 0 = true := by
    rw [rdB_wrF_ne _ _ _ _ (ST_CFG_ne_ST_STATUS m), rdB_wr_ne _ _ (ST_CFG_ne_shadowReg (m : Nat) hreg), hen]
  rw [exec_streamRegWrite_enabled hon, stDisable_of_written_enabled hkeep]

/-- The state once slot `k` of stream `m` is released: it is no longer held, and its hold is gone. -/
def State.recReleased (s : State) (m k : Nat) : State :=
  { s.setSt m { s.st m with held := (s.st m).held.filter (· != k) } with
    crz := { s.crz with holds := s.crz.holds.filter fun h => !(h.stream == m && h.slot == k) } }

theorem held_recReleased (s : State) (m k : Nat) : ((s.recReleased m k).st m).held = (s.st m).held.filter (· != k) := by
  change ((s.setSt m _).st m).held = _
  rw [st_setSt, if_pos rfl]

theorem exec_recRelease (m : Fin 48) (value : BitVec 32) (s : State) :
    exec (.recRelease m value) s = .next (s.recReleased m value.toNat) := rfl

end StreamCommands

/-- Settles O9: each clause is the lemma of its command. That unusable fields are refused whatever EN is rests on row 101 of the
assumption log. -/
theorem sensorPortCommands : Obligations.SensorPortCommands := by
  refine ⟨?enable, ?unusable, ?calibrated, ?lockLost, ?ulps, ?disabled, ?pending, ?release⟩
  case enable => exact fun n value s hok hen hoff hrung => exec_csiCtrlWrite_enable hok hen hoff hrung
  case unusable => exact fun n value s hbad => exec_csiCtrlWrite_unusable hbad
  case calibrated =>
    exact fun n s hen => ⟨_, exec_csiCalibrationComplete_enabled hen, wrF_sets_field_only _ 3 (by omega)⟩
  case lockLost => exact fun n s hen => exec_laneLockFailure_enabled hen
  case ulps =>
    intro n lane enter s
    obtain ⟨hset, hframe⟩ := wrF_sets_field_only (s := s) (Reg.CSI_STATUS n) enter.toNat (lo := 2 + lane) (w := 1) (by omega)
    have hbit : enter.toNat % 2 ^ 1 = enter.toNat := Nat.mod_eq_of_lt enter.toNat_lt
    exact ⟨_, rfl, hset.trans hbit, hframe⟩
  case disabled => exact fun m reg value s hoff => exec_streamRegWrite_disabled hoff
  case pending => exact fun m reg value s hon hreg hen => exec_streamRegWrite_pending hon hreg hen
  case release =>
    intro m value s
    have hheld := held_recReleased s m value.toNat
    exact ⟨_, exec_recRelease m value s, hheld, rfl, by rw [hheld]; rfl⟩

/-! ### Packets of a port (R42, R50, R51, R54) -/

section Packets

variable {n : Fin 12} {vc : Fin 32} {fnum : BitVec 16} {dt : BitVec 6} {payload : List Byte} {chk : PktCheck} {s : State}

theorem exec_frameStart_locked (h : s.csiLocked n = true) :
    exec (.frameStart n vc fnum) s =
      .next (((s.csiStreams n).filter fun m => s.vcMatch n m vc).foldl (fun s m => s.frameStart m fnum.toNat) s).crzDrain := by
  change execFrameStart n vc fnum s = _
  simp only [execFrameStart, h, Bool.not_true, Bool.false_eq_true, if_false]

theorem exec_frameEnd_locked (h : s.csiLocked n = true) :
    exec (.frameEnd n vc) s =
      .next (((s.csiStreams n).filter fun m => s.vcMatch n m vc).foldl (fun s m => s.frameEnd m) s).crzDrain := by
  change execFrameEnd n vc s = _
  simp only [execFrameEnd, h, Bool.not_true, Bool.false_eq_true, if_false]

/-- A clean long packet whose virtual channel and data type match slot `m`, while a frame of `m` is open, is a packet of that frame. -/
theorem exec_longPacket_open {m : Nat} {f : OpenFrame} (h : s.csiLocked n = true)
    (hm : ((s.csiStreams n).filter fun k => s.vcMatch n k vc).find?
      (fun k => fld (s.st k).dt 0 6 == dt.toNat || fld (s.st k).dt 8 6 == dt.toNat) = some m)
    (hf : (s.st m).frame = some f) :
    exec (.longPacket n vc dt payload ⟨false, false, false, false, false⟩) s =
      .next (s.longPacket m f (fld (s.st m).dt 0 6 == dt.toNat) payload ⟨false, false, false, false, false⟩).crzDrain := by
  have hne : ((s.csiStreams n).filter fun k => s.vcMatch n k vc).isEmpty = false :=
    List.isEmpty_eq_false_iff_exists_mem.mpr ⟨m, List.mem_of_find?_eq_some hm⟩
  change execLongPacket n vc dt payload _ s = _
  simp only [execLongPacket, h, hne, hm, hf, Bool.not_true, Bool.false_eq_true, if_false]

end Packets

/-! ### A frame without its end (R54) -/

/-- The open frame of stream `m` of partition `p` has timed out: 0x0114 is reported, and the frame has an error of class A. -/
def State.timedOut (s : State) (m p : Nat) : State := (s.stErr m p 0x0114).frameFault m [0x0114] true

/-- What is left open of a frame of stream `m` is closed, and its later FE finds no frame. -/
def State.closeUnended (s : State) (m : Nat) : State :=
  match (s.st m).frame with
  | none => s
  | some g => (s.setSt m { s.st m with unaccepted := true }).frameClose m g {} 0

theorem exec_frameTimeout_open {m : Fin 48} {f : OpenFrame} {s : State} (hf : (s.st m).frame = some f)
    (ht : s.rdN (Reg.ST_TIMEOUT m) ≠ 0) :
    exec (.frameTimeout m) s = .next ((s.timedOut m f.pt).closeUnended m).crzDrain := by
  change execFrameTimeout m s = _
  simp only [execFrameTimeout, hf, if_neg ht]
  rfl

/-! ### A port that is not enabled and locked

It discards its packets: the model's choice (row 100 of the assumption log; the manual does not say). -/

section Unlocked

variable {n : Fin 12} {s : State} (h : s.csiLocked n = false)

include h

theorem exec_frameStart_unlocked (vc : Fin 32) (fnum : BitVec 16) : exec (.frameStart n vc fnum) s = .next s := by
  change execFrameStart n vc fnum s = _
  simp only [execFrameStart, h, Bool.not_false, if_true]

theorem exec_longPacket_unlocked (vc : Fin 32) (dt : BitVec 6) (payload : List Byte) (chk : PktCheck) :
    exec (.longPacket n vc dt payload chk) s = .next s := by
  change execLongPacket n vc dt payload chk s = _
  simp only [execLongPacket, h, Bool.not_false, if_true]

theorem exec_frameEnd_unlocked (vc : Fin 32) : exec (.frameEnd n vc) s = .next s := by
  change execFrameEnd n vc s = _
  simp only [execFrameEnd, h, Bool.not_false, if_true]

end Unlocked

/-- Settles O10: each clause is the lemma of its command. That a port which is not enabled and locked changes nothing rests on row 100
of the assumption log. -/
theorem sensorFrameCommands : Obligations.SensorFrameCommands := by
  refine ⟨?start, ?line, ?frameEnd, ?timeout, ?unlocked⟩
  case start => exact fun n vc fnum s h => exec_frameStart_locked h
  case line => exact fun n vc dt payload m f s h hm hf => exec_longPacket_open h hm hf
  case frameEnd => exact fun n vc s h => exec_frameEnd_locked h
  case timeout => exact fun m f s hf ht => ⟨_, exec_frameTimeout_open hf ht, rfl⟩
  case unlocked =>
    exact fun n vc fnum dt payload chk s h =>
      ⟨exec_frameStart_unlocked h vc fnum, exec_longPacket_unlocked h vc dt payload chk, exec_frameEnd_unlocked h vc⟩

end Sys2Proof.Machine
end

section
/-! PROOFS of the family 03_image_pipeline (O11): the configuration of a context (R58 to R60), its parameter sets (R64, R66), and the rows
and the statistics of its frame (R63, R75, R77). -/

namespace Sys2Proof.Machine

/-! ### Configuration (R58, R59) -/

section ContextConfiguration

variable {u : Fin 48} {value : BitVec 32} {s : State}

/-- An enabled context refuses every write of its configuration, one that clears EN too: R59 ignores a write while EN is 1, and that
CFG makes no exception is row 116 of the assumption log. -/
theorem exec_ispCtxCfgWrite_enabled (src : Bool) (hon : bitAt (s.ictxCfg u) 0 = true) :
    exec (.ispCtxCfgWrite u src value) s = .next (s.ispErr u 0x0201) := if_pos hon

theorem exec_ispCtxCfgWrite_src (hoff : bitAt (s.ictxCfg u) 0 = false) :
    exec (.ispCtxCfgWrite u true value) s = .next (s.wr (Reg.ISP_CTX_SRC (u / 4) (u % 4)) (value.toNat &&& 0x3F3F3F3F)) := by
  change execIspCtxCfgWrite u true value s = _
  simp only [execIspCtxCfgWrite, hoff, Bool.false_eq_true, if_false, if_true]

/-- A CFG that leaves EN clear needs an allowed PATTERN and SKEW only: the checks of R58 wait for EN. -/
theorem exec_ispCtxCfgWrite_cfg (hoff : bitAt (s.ictxCfg u) 0 = false) (hen : bitAt (value.toNat &&& 0x3FFFFF) 0 = false)
    (hpattern : fld (value.toNat &&& 0x3FFFFF) 4 4 ≤ 6) (hskew : fld (value.toNat &&& 0x3FFFFF) 16 6 ≤ 32) :
    exec (.ispCtxCfgWrite u false value) s = .next (s.wr (Reg.ISP_CTX_CFG (u / 4) (u % 4)) (value.toNat &&& 0x3FFFFF)) := by
  have hfields : ¬(6 < fld (value.toNat &&& 0x3FFFFF) 4 4 ∨ 32 < fld (value.toNat &&& 0x3FFFFF) 16 6) := by omega
  change execIspCtxCfgWrite u false value s = _
  simp only [execIspCtxCfgWrite, hoff, hen, if_neg hfields, Bool.false_and, Bool.false_eq_true, if_false]

end ContextConfiguration

/-! ### Parameter sets (R64, R66) -/

section ParameterSets

variable {u : Fin 48} {s : State}

theorem ictx_wr (s : State) (a v k : Nat) : (s.wr a v).ictx k = s.ictx k := rfl

theorem ictx_wrF (s : State) (a lo w x k : Nat) : (s.wrF a lo w x).ictx k = s.ictx k := rfl

/-- A post makes the set pending and not READY, in place of any earlier one, and leaves the other contexts. -/
theorem ictx_ispPost (s : State) (k dva v : Nat) (hpost : (s.ictx k).post = none) :
    (s.ispPost k dva).ictx v = if v = k then { s.ictx k with post := some dva, ready := none } else s.ictx v := by
  simp only [State.ispPost, hpost, Option.isSome_none, Bool.false_eq_true, if_false, ictx_wr, ictx_wrF, ictx_setIctx]

/-- A post that supersedes no set counts nothing, and changes registers and the context only. -/
theorem ispPost_changes_only (k dva : Nat) (hpost : (s.ictx k).post = none) :
    s.ispPost k dva = { s with regs := (s.ispPost k dva).regs, isp := (s.ispPost k dva).isp } := by
  simp only [State.ispPost, hpost, Option.isSome_none, Bool.false_eq_true, if_false]
  rfl

/-- The state once the pending set of context `u`, of bytes `b`, is READY. -/
def State.pbReady (s : State) (u : Nat) (b : List Byte) : State :=
  (s.setIctx u { s.ictx u with ready := some b }).wrF (Reg.ISP_CTX_PB_STATUS (u / 4) (u % 4)) 1 1 1

/-- A pending set that is read whole is discarded with 0x0203 when it is poisoned (row 118 of the assumption log), not aligned (R67) or
not valid (R66), and is READY otherwise. -/
theorem exec_pbFetchComplete_read {dva : Nat} {b : List Byte} {bad : Bool} (hpost : (s.ictx u).post = some dva)
    (hready : (s.ictx u).ready = none) (hread : s.readDva (s.ictxPt u) dva 16640 = .data b bad) :
    exec (.pbFetchComplete u) s =
      .next (if bad || dva % 256 != 0 || !setOk (s.ictxCfg u) b then s.setReject u else s.pbReady u b) := by
  rw [apply_ite Host.Outcome.next]
  change execPbFetchComplete u s = _
  simp only [execPbFetchComplete, State.pbReady, hpost, hready, hread, Option.isSome_none, Bool.false_eq_true, if_false]

/-- An aligned pending set that is read whole, without poison, is READY when it is valid, and discarded otherwise. -/
theorem exec_pbFetchComplete_aligned {dva : Nat} {b : List Byte} (hpost : (s.ictx u).post = some dva)
    (hready : (s.ictx u).ready = none) (hread : s.readDva (s.ictxPt u) dva 16640 = .data b false) (halign : dva % 256 = 0) :
    exec (.pbFetchComplete u) s = .next (if setOk (s.ictxCfg u) b then s.pbReady u b else s.setReject u) := by
  rw [exec_pbFetchComplete_read hpost hready hread]
  cases hvalid : setOk (s.ictxCfg u) b <;> simp [halign]

end ParameterSets

/-! ### Rows and statistics of a frame (R63, R75, R77) -/

section Frames

variable {u : Fin 48} {f : IspFrame} {s : State}

/-- The next row of frame `f` of context `u` is written: it is counted, and the counters of the outputs advance. -/
def State.rowDone (s : State) (u : Nat) (f : IspFrame) : State :=
  (s.setIctx u { s.ictx u with frame := some { f with rows := f.rows + 1 } }).ispAdvance u

/-- A row whose input is there (up to row y + 8: row 120 of the assumption log) and whose writes all succeed is done. -/
theorem exec_ispRowOutput_written {s1 : State} (hframe : (s.ictx u).frame = some f) (hrow : f.rows < f.height)
    (hinput : f.ready (s.ictxExp u) f.rows = true)
    (hwrite : s.ispWrite u f.pt (f.rowBad (s.ictxExp u) f.rows) (s.ispRow u f) = some s1) :
    exec (.ispRowOutput u) s = .next (s1.rowDone u f).crzDrain := by
  have hgo : ¬(f.height ≤ f.rows ∨ (!f.ready (s.ictxExp u) f.rows) = true) := by simp [hinput, hrow]
  change execIspRowOutput u s = _
  simp only [execIspRowOutput, hframe, if_neg hgo, hwrite]
  rfl

/-- The frame `f` of context `u` is over, its statistics written: the context is free, and the frame is counted and recorded. -/
def State.frameCounted (s : State) (u : Nat) (f : IspFrame) : State :=
  ((s.setIctx u { s.ictx u with frame := none }).bump (Reg.ISP_CTX_FRAMES (u / 4) (u % 4)) 1).event (uIsp (u / 4)) 0x02 f.pt 0 f.seq 0

/-- After the last row, and once the rewrites of the frame's descriptors are complete, the statistics are written and the node ends. -/
theorem exec_ispStatsWrite_last (hframe : (s.ictx u).frame = some f) (hlast : f.height ≤ f.rows)
    (hrewrites : s.rewriting f.pt f.handles = false) :
    exec (.ispStatsWrite u) s = .next (((((s.ispAdvance u).ispStats u f).frameCounted u f).crzDone f.node 0).crzDrain) := by
  have hgo : ¬(f.rows < f.height ∨ s.rewriting f.pt f.handles = true) := by simp [hrewrites, hlast]
  change execIspStatsWrite u s = _
  simp only [execIspStatsWrite, hframe, if_neg hgo]
  rfl

end Frames

/-- Settles O11: each clause is the lemma of its command. That an enabled context refuses a CFG that clears EN rests on row 116 of the
assumption log, that TSRC and TCH out of range make a set invalid on row 118, and the input rows that an output row needs on row 120. -/
theorem imagePipelineCommands : Obligations.ImagePipelineCommands := by
  refine ⟨?src, ?cfg, ?enabled, ?post, ?fetch, ?row, ?stats⟩
  case src =>
    exact fun u value s hoff => ⟨_, exec_ispCtxCfgWrite_src hoff, rd_wr_same s _ _, fun _ hb => rd_wr_ne s _ hb, rfl⟩
  case cfg => exact fun u value s hoff hen hpattern hskew => exec_ispCtxCfgWrite_cfg hoff hen hpattern hskew
  case enabled => exact fun u src value s hon => exec_ispCtxCfgWrite_enabled src hon
  case post =>
    intro u dva s hpost
    have hctx := fun v => ictx_ispPost s u dva.toNat v hpost
    have hself := (hctx u).trans (if_pos rfl)
    exact ⟨s.ispPost u dva.toNat, rfl, by rw [hself], by rw [hself], fun v hv => (hctx v).trans (if_neg hv),
      ispPost_changes_only u _ hpost⟩
  case fetch => exact fun u dva b s hpost hready hread halign => exec_pbFetchComplete_aligned hpost hready hread halign
  case row => exact fun u f s s1 hframe hrow hinput hwrite => exec_ispRowOutput_written hframe hrow hinput hwrite
  case stats => exact fun u f s hframe hlast hrewrites => exec_ispStatsWrite_last hframe hlast hrewrites

end Sys2Proof.Machine
end

section
/-! PROOFS of the family 04_pyramids_filters_warps_features (O12): how a Bracken engine accepts a job (R80 to R83), starts and ends a
unit of work (R83 to R85, R407), times a wait out (R84) and completes a job (R85). -/

namespace Sys2Proof.Machine

/-! ### Acceptance (R80 to R83) -/

section Acceptance

theorem eq_ok_of_toOption_eq_some {ε α : Type} {x : Except ε α} {a : α} (h : x.toOption = some a) : x = .ok a := by
  cases x with
  | error c => nomatch h
  | ok b => exact congrArg Except.ok (Option.some.inj h)

/-- The checks of a job's shapes read its block and its captured planes only. -/
theorem shapeCode_congr {i j : BrkJob} (hblock : i.block = j.block) (hplanes : i.planes = j.planes) (kind : Nat) :
    i.shapeCode kind = j.shapeCode kind := by
  cases i
  cases j
  cases hblock
  cases hplanes
  rfl

/-- The block of the job that a node presents, at the address that its program gives it. -/
def State.jobDva (s : State) (r : NodeRef) : Nat := ((s.nodeRun r).map (·.block)).getD 0

/-- The job of node `r` as it is captured, with the acceptance number `order`: its counters and its stripe height are those of the
chains that the node binds in `s`. -/
def State.capturedJob (s : State) (r : NodeRef) (p dva : Nat) (b : List Byte) (planes : Tab (List Byte)) (order : Nat) : BrkJob :=
  { node := r, pt := p, dva := dva, block := b, planes := planes, ins := s.brkIns r, stripeH := s.brkStripe r, order := order }

/-- Job `j` is in context `k` of engine `e`, with its number the last one given, and its node is accepted. -/
def State.takeJob (s : State) (e k : Nat) (j : BrkJob) : State :=
  (s.setEng e { s.eng e with ctx := (s.eng e).ctx.put k j, accepted := j.order }).setNode j.node fun n => { n with phase := .accepted }

variable {e : Fin 11} {r : NodeRef} {rest : List NodeRef} {k : Nat} {b : List Byte} {planes : Tab (List Byte)} {s s1 s2 : State}

/-- The first presented job, when nothing refuses it, is taken into the lowest free context. -/
theorem exec_brackenJobAccept_taken (hqueue : (s.eng e).queue = r :: rest)
    (hfree : (List.range 4).find? (fun k => (Tab.get? (s.eng e).ctx k).isNone) = some k)
    (hread : (s.needP0.setEng e { s.eng e with queue := rest }).readJob e (s.cgPt r.slot) (s.jobDva r) = (s1, .ok b))
    (hfinite : jobFinite (engKind e) b = true)
    (hcapture : s1.capturePlanes (s.cgPt r.slot) (engKind e) (jobPlanes (engKind e) b) [] = (some planes, s2))
    (hshape : (s2.capturedJob r (s.cgPt r.slot) (s.jobDva r) b planes ((s.eng e).accepted + 1)).shapeCode (engKind e) = 0) :
    exec (.brackenJobAccept e) s =
      .next (s2.takeJob e k (s2.capturedJob r (s.cgPt r.slot) (s.jobDva r) b planes ((s.eng e).accepted + 1))).crzDrain := by
  unfold State.jobDva at hread hshape ⊢
  unfold State.capturedJob at hshape
  change execBrackenJobAccept e s = _
  simp only [execBrackenJobAccept, hqueue, hfree, hread, hfinite, hcapture, hshape, Bool.not_true, Bool.false_eq_true, ne_eq,
    not_true_eq_false, if_false]
  rfl

end Acceptance

/-! ### Units of work (R83 to R85, R407) -/

section Units

variable {e : Fin 11} {k : Nat} {j : BrkJob} {s : State}

/-- Engine `e` has started the next unit of job `j` of context `k`, with the deficits `d` that the choice leaves. -/
def State.startUnit (s : State) (e k : Nat) (j : BrkJob) (d : Tab Nat) : State :=
  s.setEng e { s.eng e with ctx := (s.eng e).ctx.put k { j with busy := true }, deficit := d, last := j.pt,
                            turn := (s.eng e).turn.put j.pt j.order }

theorem eng_startUnit (s : State) (e k : Nat) (j : BrkJob) (d : Tab Nat) (i : Nat) :
    (s.startUnit e k j d).eng i = if i = e then
      { s.eng e with ctx := (s.eng e).ctx.put k { j with busy := true }, deficit := d, last := j.pt,
                     turn := (s.eng e).turn.put j.pt j.order } else s.eng i := eng_setEng s e i _

/-- A unit after the first of a job whose record address is read reports nothing and takes nothing more: it starts. -/
theorem exec_brackenRowStart_chosen {d : Tab Nat} (hidle : (s.eng e).ctx.any (fun c => c.2.busy) = false)
    (hchoice : s.brkChoose (s.eng e) (engKind e) ((s.eng e).ctx.filter fun c => s.brkCanRun c.2 (engKind e)) = some (k, j, d))
    (hunit : 0 < j.unit) (hrec : j.recA.isSome = true) :
    exec (.brackenRowStart e) s = .next (s.startUnit e k j d) := by
  have hnone : j.recA.isNone = false := by rw [← Option.not_isSome, hrec, Bool.not_true]
  change execBrackenRowStart e s = _
  simp only [execBrackenRowStart, hidle, hchoice, if_neg hunit.ne', hnone, Bool.false_eq_true, if_false]
  rfl

/-- Unit `j.unit` of job `j` of context `k`, which gave `r`, is over at the time `now`: the engine holds what it left on chip, and its
rows, its cycles and its counts are added. -/
def State.endUnit (s : State) (e : Fin 11) (k now : Nat) (j : BrkJob) (r : UnitRes) : State :=
  (r.counts.foldl (fun s c => s.bump c.1 c.2)
    ((s.setEng e { s.eng e with
        ctx := (s.eng e).ctx.put k { j with busy := false, unit := j.unit + 1, chip := r.chip, since := now } }).bump
      (Reg.ENG_ROWS e) r.rows)).bump (Reg.BRK_PT_BUSY j.pt) (j.cycles (engKind e) j.unit)

/-- A unit that read no poison and whose writes all succeed is over, and the output counter advances over it. -/
theorem exec_brackenRowDone_written {r : UnitRes} {s1 : State} (hbusy : (s.eng e).ctx.find? (fun c => c.2.busy) = some (k, j))
    (hunit : s.brkUnit e j = some r) (hclean : r.bad = false) (hwrite : s.brkWriteAll j.pt e r.runs = some s1)
    (hgoes : j.aborting = none) :
    exec (.brackenRowDone e) s = .next ((s1.endUnit e k s.now j r).brkAdvance e k).crzDrain := by
  change execBrackenRowDone e s = _
  simp only [execBrackenRowDone, State.endUnit, hbusy, hunit, hclean, hwrite, hgoes, Bool.false_and, Bool.or_false,
    Bool.false_eq_true, if_false]

end Units

/-! ### The end of a job (R84, R85) -/

section JobEnd

variable {e : Fin 11} {k : Fin 4} {j : BrkJob} {s : State}

/-- A job that may wait WAIT_US at most, and still waits for the input of its next unit, aborts. -/
theorem exec_brackenWaitTimeout_waiting (hjob : Tab.get? (s.eng e).ctx k = some j) (hlimit : getLE j.block 8 4 ≠ 0)
    (hstarted : j.started = true) (hidle : j.busy = false) (hleft : j.unit < j.units (engKind e))
    (hwait : s.brkReady j (engKind e) = false) :
    exec (.brackenWaitTimeout e k) s = .next (s.brkAbort e k 0x0307).crzDrain := by
  have hgo : ¬(getLE j.block 8 4 = 0 ∨ (!j.started) = true ∨ j.busy = true ∨ j.units (engKind e) ≤ j.unit ∨
      s.brkReady j (engKind e) = true) := by simp [hlimit, hstarted, hidle, hleft, hwait]
  change execBrackenWaitTimeout e k s = _
  simp only [execBrackenWaitTimeout, hjob, if_neg hgo]

/-- A job whose units are all done, and whose outputs' rewrites are complete, brings its counter to the final value and ends. -/
theorem exec_brackenJobComplete_done (hjob : Tab.get? (s.eng e).ctx k = some j) (hstarted : j.started = true) (hidle : j.busy = false)
    (hdone : j.units (engKind e) ≤ j.unit) (hrewrites : s.rewriting j.pt (brkOutputs j.block) = false) :
    exec (.brackenJobComplete e k) s = .next ((s.crzAdvance j.node 0 true).brkEnd e k 0).crzDrain := by
  have hgo : ¬((!j.started) = true ∨ j.busy = true ∨ j.unit < j.units (engKind e) ∨
      s.rewriting j.pt (brkOutputs j.block) = true) := by simp [hstarted, hidle, hdone, hrewrites]
  change execBrackenJobComplete e k s = _
  simp only [execBrackenJobComplete, hjob, if_neg hgo]

end JobEnd

/-- Settles O12: each clause is the lemma of its command. The codes of a job's shapes rest on row 132 of the assumption log, the cycles
of a warp's unit on row 135, and the rounds of the deficit that choose a unit on row 137. That a job which binds input counters takes
its record address with its first unit is row 136, beyond the units of the second clause. -/
theorem brackenEngineCommands : Obligations.BrackenEngineCommands := by
  refine ⟨?accept, ?start, ?done, ?timeout, ?complete⟩
  case accept =>
    intro e r rest k b planes s s1 hqueue hfree hs1 hread hfinite hcapture hshape
    refine ⟨_, rfl, exec_brackenJobAccept_taken hqueue hfree (Prod.ext hs1.symm (eq_ok_of_toOption_eq_some hread)) hfinite
      (Prod.ext hcapture rfl) ?_⟩
    exact (shapeCode_congr rfl rfl _).trans hshape
  case start =>
    intro e k j d s hidle hchoice hunit hrec
    have heng := eng_startUnit s e k j d
    have hself := (heng e).trans (if_pos rfl)
    exact ⟨_, exec_brackenRowStart_chosen hidle hchoice hunit hrec, by simp [hself, Tab.get?_put], by rw [hself], by rw [hself],
      fun i hi => (heng i).trans (if_neg hi), rfl⟩
  case done => exact fun e k j r s s1 hbusy hunit hclean hwrite hgoes => exec_brackenRowDone_written hbusy hunit hclean hwrite hgoes
  case timeout =>
    exact fun e k j s hjob hlimit hstarted hidle hleft hwait =>
      exec_brackenWaitTimeout_waiting hjob hlimit hstarted hidle hleft hwait
  case complete =>
    exact fun e k j s hjob hstarted hidle hdone hrewrites => exec_brackenJobComplete_done hjob hstarted hidle hdone hrewrites

end Sys2Proof.Machine
end

section
/-! PROOFS of the family 06_crozier_frame_graphs (O13): how a frame graph is loaded and forgotten (R132, R138, R139), enabled (R133,
R154), triggered (R134), and its nodes started (R144), and how its instances end early (R136, R151). -/

namespace Sys2Proof.Machine

/-! ### Loads (R132, R138, R139) -/

section Loads

variable {g : Fin 64} {s : State}

/-- The graph of slot `g` is forgotten: its node records are free. -/
def State.crzForget (s : State) (g : Nat) : State := { s with crz := { s.crz with graphs := s.crz.graphs.del g } }

theorem cg_crzForget (s : State) (g h : Nat) : (s.crzForget g).cg h = if h = g then none else s.cg h := Tab.get?_del s.crz.graphs g h

/-- The load of slot `g` runs, of the program that PROG names now, and LOAD_ERR of an earlier load is cleared. -/
def State.crzLoadBegin (s : State) (g : Nat) : State :=
  { s.wrF (Reg.CRZ_GR_STATUS g) 1 1 0 with
    crz := { s.crz with loading := s.crz.loading.put g (s.rdN (Reg.CRZ_GR_PROG g)) } }

/-- An idle slot with an owner begins its load without its old graph (row 90 of the assumption log). -/
theorem exec_crzLoad_idle (howned : s.crzOwned g = true) (hidle : s.crzActive g = false)
    (hnone : Tab.get? s.crz.loading g = none) : exec (.crzLoad g) s = .next ((s.crzLoadBegin g).crzForget g) := by
  change execCrzLoad g s = _
  simp only [execCrzLoad, howned, hidle, hnone, Bool.not_true, Option.isSome_none, Bool.false_eq_true, or_self, if_false]
  rfl

/-- A load of an aligned program is over with what its program read gives. -/
theorem exec_crzLoadComplete_aligned {prog : Nat} (hload : Tab.get? s.crz.loading g = some prog) (halign : prog % 16 = 0) :
    exec (.crzLoadComplete g) s = .next (State.crzLoaded g (s.cgPt g) prog
      ({ s with crz := { s.crz with loading := s.crz.loading.del g } }.readProgram (s.cgPt g) false 4096 prog)) := by
  change execCrzLoadComplete g s = _
  simp only [execCrzLoadComplete, hload, halign, ne_eq, not_true_eq_false, if_false]
  rfl

/-- A program that is valid gives its graph to the slot, and its bytes extend PMR_1. -/
theorem crzLoaded_valid {g p prog : Nat} {ws : List Nat} {bs : List Byte} {x : CGraph} (hvalid : s.mkCGraph g p prog ws bs = .ok x) :
    State.crzLoaded g p prog (s, .ok (ws, bs)) = (s.setCg g x).pmrExtend p 1 bs := by
  simp only [State.crzLoaded, hvalid]

theorem exec_crzUnload_idle (howned : s.crzOwned g = true) (hidle : s.crzActive g = false) :
    exec (.crzUnload g) s = .next (s.crzForget g) := by
  change execCrzUnload g s = _
  simp only [execCrzUnload, howned, hidle, Bool.not_true, Bool.false_eq_true, if_false]
  rfl

end Loads

/-! ### Configuration and triggers (R133, R134, R154) -/

section Configuration

variable {g : Fin 64} {value : BitVec 32} {s : State}

/-- The value that a write of CRZ_GR_g_CFG stores: the fields of R154. -/
def cfgValue (value : BitVec 32) : Nat := value.toNat % 2 ^ 26 &&& 0x3FFFFF7

/-- The next instance of graph `x` is its first: instances are numbered, and PREV chains and node counts begin, anew. -/
def CGraph.renumbered (x : CGraph) : CGraph := { x with base := x.seq, acts := [], lastRec := [] }

/-- A value that passes every check and sets EN is stored, and the Crozier arms the instances of the graph, numbered anew. -/
theorem exec_crzCfgWrite_enables {x : CGraph} (howned : s.crzOwned g = true) (hcode : s.cfgCode g (cfgValue value) = 0)
    (hen : bitAt (cfgValue value) 0 = true) (hoff : s.rdB (Reg.CRZ_GR_CFG g) 0 = false) (hgraph : s.cg g = some x) :
    exec (.crzCfgWrite g value) s = .next ((s.wr (Reg.CRZ_GR_CFG g) (cfgValue value)).setCg g x.renumbered).crzDrain := by
  have hkept : (s.wr (Reg.CRZ_GR_CFG g) (cfgValue value)).cg g = some x := hgraph
  unfold cfgValue at hcode hen hkept ⊢
  change execCrzCfgWrite g value s = _
  simp only [execCrzCfgWrite, howned, hcode, hen, hoff, hkept, Bool.not_true, Bool.not_false, Bool.and_self, Bool.false_eq_true,
    ne_eq, not_true_eq_false, if_false, if_true]
  rfl

theorem exec_crzCfgWrite_refused (howned : s.crzOwned g = true) (hcode : s.cfgCode g (cfgValue value) ≠ 0) :
    exec (.crzCfgWrite g value) s = .next (s.crzRefuse g (s.cfgCode g (cfgValue value))) := by
  unfold cfgValue at hcode ⊢
  change execCrzCfgWrite g value s = _
  simp only [execCrzCfgWrite, howned, if_pos hcode, Bool.not_true, Bool.false_eq_true, if_false]

theorem exec_crzTrigger_host (htrig : s.rdF (Reg.CRZ_GR_CFG g) 4 4 = 0) : exec (.crzTrigger g) s = .next (s.crzFire g).crzDrain :=
  if_neg (not_not_intro htrig)

theorem exec_crzTimerTrigger_enabled (htrig : fld (s.rdN (Reg.CRZ_GR_CFG g)) 4 4 = 4)
    (hen : bitAt (s.rdN (Reg.CRZ_GR_CFG g)) 0 = true) :
    exec (.crzTimerTrigger g) s = .next ((s.wake 4).crzFire g).crzDrain := by
  have hgo : ¬(fld (s.rdN (Reg.CRZ_GR_CFG g)) 4 4 ≠ 4 ∨ (!bitAt (s.rdN (Reg.CRZ_GR_CFG g)) 0) = true) := by simp [htrig, hen]
  exact if_neg hgo

end Configuration

/-! ### Node starts and budgets (R136, R144, R146) -/

section Instances

variable {g : Fin 64} {x : CGraph} {i : CInst} {s : State}

/-- A handoff of `ns` ns is counted: it is LATE beyond 56 ns, and HANDOFF_MAX keeps the longest. -/
def State.countHandoff (s : State) (ns : Nat) : State :=
  (if 56 < ns then (s.bump Reg.CRZ_HANDOFFS 1).bump Reg.CRZ_LATE 1 else s.bump Reg.CRZ_HANDOFFS 1).rcMax Reg.CRZ_HANDOFF_MAX ns

/-- A node whose conditions hold, and whose outputs have not been told their record address yet, hands off and starts. -/
theorem exec_crzNodeStart_ready {inst : Nat} {node : Fin 1024} {n : CNode} {m : NodeRun} (ns : Nat) (hgraph : s.cg g = some x)
    (hinst : x.inst inst = some i) (hnode : x.nodes[node.val]? = some n) (hrun : i.nodes[node.val]? = some m)
    (hmay : s.mayStart x i node n m = true) (htold : m.told = false) :
    exec (.crzNodeStart g inst node ns) s = .next ((s.countHandoff ns).crzStart ⟨g, inst, node⟩).crzDrain := by
  change execCrzNodeStart g inst node ns s = _
  simp only [execCrzNodeStart, State.countHandoff, hgraph, Option.bind_some, hinst, Option.map_some, hnode, hrun, hmay, htold,
    Bool.not_false, Bool.and_self, Bool.not_true, Bool.false_eq_true, if_false]

/-- An instance that has started, and whose graph has a budget, is aborted when the budget expires: the command is that moment (row 85 of
the assumption log). -/
theorem exec_crzBudgetExpiry_running {slot : Fin 4} (hbudget : s.rdN (Reg.CRZ_GR_BUDGET g) ≠ 0) (hgraph : s.cg g = some x)
    (hinst : x.insts.find? (fun i => i.slot == slot.val && i.start.isSome) = some i) (hruns : i.aborted = false) :
    exec (.crzBudgetExpiry g slot) s = .next ((s.crzErr g 0x0405).instAbort g i.seq 0x0405).crzDrain := by
  change execCrzBudgetExpiry g slot s = _
  simp only [execCrzBudgetExpiry, if_neg hbudget, hgraph, Option.bind_some, hinst, hruns, Bool.false_eq_true, if_false]

end Instances

/-- Settles O13: each clause is the lemma of its command. That a load forgets the old graph first rests on row 90 of the assumption log,
and the order of the codes that refuse a program, behind the clauses of the load, on row 88. -/
theorem crozierCommands : Obligations.CrozierCommands := by
  refine ⟨?load, ?complete, ?program, ?unload, ?abort, ?trigger, ?timer, ?enable, ?refused, ?start, ?budget⟩
  case load =>
    intro g s howned hidle hnone
    obtain ⟨hfield, hothers, -⟩ := wrF_sets_field_only (s := s) (Reg.CRZ_GR_STATUS g) 0 (lo := 1) (w := 1) (by omega)
    exact ⟨_, exec_crzLoad_idle howned hidle hnone, (cg_crzForget _ g g).trans (if_pos rfl),
      (Tab.get?_put s.crz.loading g g _).trans (if_pos rfl), hfield, hothers, rfl⟩
  case complete => exact fun g prog s hload halign => exec_crzLoadComplete_aligned hload halign
  case program => exact fun g p prog ws bs x s hvalid => crzLoaded_valid (eq_ok_of_toOption_eq_some hvalid)
  case unload =>
    exact fun g s howned hidle => ⟨_, exec_crzUnload_idle howned hidle, (cg_crzForget s g g).trans (if_pos rfl),
      fun h hne => (cg_crzForget s g h).trans (if_neg hne), rfl⟩
  case abort => exact fun g s => rfl
  case trigger => exact fun g s htrig => exec_crzTrigger_host htrig
  case timer => exact fun g s htrig hen => exec_crzTimerTrigger_enabled htrig hen
  case enable => exact fun g value x s howned hcode hen hoff hgraph => exec_crzCfgWrite_enables howned hcode hen hoff hgraph
  case refused => exact fun g value s howned hcode => exec_crzCfgWrite_refused howned hcode
  case start =>
    exact fun g inst node ns x i n m s hgraph hinst hnode hrun hmay htold =>
      exec_crzNodeStart_ready ns hgraph hinst hnode hrun hmay htold
  case budget =>
    exact fun g slot x i s hbudget hgraph hinst hruns => exec_crzBudgetExpiry_running hbudget hgraph hinst hruns

end Sys2Proof.Machine
end

section
/-! PROOFS of the family 07_tensor_descriptors (O14, O15): the commands of descriptor entries (R158, R160, R161, R190), the rewrites of
REC_ADDR (R162), and the commands of region records (R164, R165, R191). -/

namespace Sys2Proof.Machine

/-! ### A command of descriptors starts (R158, R160, R161) -/

section DescriptorStart

variable {p h op : Nat} {s : State}

theorem dscCommand_busy (h op : Nat) (hbusy : s.dscBusy p = true) : s.dscCommand p h op = s.err p uDesc 0x050C := if_pos hbusy

/-- An idle unit starts a command with the outcome of its operation. -/
theorem dscCommand_idle {s1 : State} {code : Nat} (hidle : s.dscBusy p = false)
    (hrun : s.dscRun p h op (s.dscImage p) = (s1, code)) : s.dscCommand p h op = s1.dscStart p h op code none := by
  simp only [State.dscCommand, hidle, hrun, Bool.false_eq_true, if_false]

/-- The operations 1 to 3 store their image. -/
theorem dscRun_stores {img : List Byte} (hop : op < 4) : s.dscRun p h op (.ok img) = s.dscStore p h op img :=
  match op, hop with
  | 0, _ | 1, _ | 2, _ | 3, _ => rfl

theorem dscRun_destroy {k : Nat} (img : Except Nat (List Byte)) (hfits : h < s.rdN (Reg.DSC_PT_COUNT p))
    (hkind : s.entryKind p h = some k) : s.dscRun p h 4 img = ((s.setEntry p h none).dropStale p h, 0) := by
  simp only [State.dscRun, if_neg (Nat.not_le.mpr hfits), hkind, Option.isNone_some, Bool.false_eq_true, if_false]

theorem dscRun_inval (img : Except Nat (List Byte)) (hfits : h < s.rdN (Reg.DSC_PT_COUNT p)) :
    s.dscRun p h 5 img = (s.dropStale p h, 0) := if_neg (Nat.not_le.mpr hfits)

/-- The bytes that entry `h` of partition `p` holds, as far as they can be read. -/
def State.entryContent (s : State) (p h : Nat) : List Byte :=
  match s.readDva p (s.entryAddr p h) 128 with
  | .data bs _ => bs
  | _ => []

/-- Operation `op` makes the written entry valid with the kind of its image: REPLACE alone keeps the bytes `old` as a copy that caches
may use (R161), and the others invalidate the older copies. -/
def State.entryStored (s : State) (p h op : Nat) (img old : List Byte) : State :=
  let s1 := s.setEntry p h (some (getLE img 0 2))
  if op = 2 then s1.keepStale p h old else s1.dropStale p h

/-- The entry's state suits the operation: CREATE needs it invalid, the others valid and of the image's kind (R158). -/
def State.entrySuits (s : State) (p h op : Nat) (img : List Byte) : Prop :=
  s.entryKind p h = if op = 1 then none else some (getLE img 0 2)

/-- An image that validates is stored in an entry whose state suits the operation and which can be written. -/
theorem dscStore_written {img : List Byte} {s1 : State} (hfits : h < s.rdN (Reg.DSC_PT_COUNT p)) (hsuits : s.entrySuits p h op img)
    (hvalid : s.validateEntry p img = 0) (hwrite : s.entryWrite p h img = some s1) :
    s.dscStore p h op img = (s1.entryStored p h op img (s.entryContent p h), 0) := by
  have hstate : ¬(if op = 1 then (s.entryKind p h).isSome else s.entryKind p h != some (getLE img 0 2)) = true := by
    rw [hsuits]
    by_cases hop : op = 1 <;> simp [hop]
  simp only [State.dscStore, if_neg (Nat.not_le.mpr hfits), if_neg hstate, hvalid, hwrite, ne_eq, not_true_eq_false, if_false]
  rfl

/-- CREATE, REPLACE and REPLACE_INV store their image and start with the outcome 0. -/
theorem dscCommand_stores {img : List Byte} {s1 : State} (hop : op < 4) (hidle : s.dscBusy p = false)
    (himage : (s.dscImage p).toOption = some img) (hfits : h < s.rdN (Reg.DSC_PT_COUNT p)) (hsuits : s.entrySuits p h op img)
    (hvalid : s.validateEntry p img = 0) (hwrite : s.entryWrite p h img = some s1) :
    s.dscCommand p h op = (s1.entryStored p h op img (s.entryContent p h)).dscStart p h op 0 none := by
  refine dscCommand_idle hidle ?_
  rw [eq_ok_of_toOption_eq_some himage, dscRun_stores hop, dscStore_written hfits hsuits hvalid hwrite]

/-- The entry is invalid, none of its older copies is left, and DESTROY runs. -/
def State.entryDestroyed (s : State) (p h : Nat) : State := ((s.setEntry p h none).dropStale p h).dscStart p h 4 0 none

theorem get?_valid_entryDestroyed (s : State) (p h j : Nat) :
    Tab.get? (s.entryDestroyed p h).dsc.valid j = if j = p * 65536 + h then none else Tab.get? s.dsc.valid j :=
  Tab.get?_del s.dsc.valid (p * 65536 + h) j

theorem get?_stale_entryDestroyed (s : State) (p h j : Nat) :
    Tab.get? (s.entryDestroyed p h).dsc.stale j = if j = p * 65536 + h then none else Tab.get? s.dsc.stale j :=
  Tab.get?_del s.dsc.stale (p * 65536 + h) j

theorem get?_running_entryDestroyed (s : State) (p h q : Nat) :
    Tab.get? (s.entryDestroyed p h).dsc.running q = if q = p then some ⟨h, 4, 0, none⟩ else Tab.get? s.dsc.running q :=
  Tab.get?_put s.dsc.running p q ⟨h, 4, 0, none⟩

end DescriptorStart

/-! ### A command of descriptors completes (R158, R190), and a rewrite of REC_ADDR is made (R162) -/

section DescriptorComplete

variable {p : Fin 16} {x : DscCmd} {s : State}

/-- No command of partition `p` runs. -/
def State.dscTaken (s : State) (p : Nat) : State := { s with dsc := { s.dsc with running := s.dsc.running.del p } }

/-- RESULT holds `code`, BUSY is clear, and the flag is signalled. -/
def State.dscAnswer (s : State) (p code : Nat) : State :=
  (s.wr (Reg.DSC_PT_STATUS p) (code * 2 ^ 16)).flagReg p (Reg.DSC_PT_FLAG p) 1 uDesc

/-- A CREATE or REPLACE that was made is counted and answers 0. -/
theorem exec_dscCmdComplete_made (hrun : Tab.get? s.dsc.running p = some x) (hcode : x.code = 0) (hop : x.op < 3)
    (hitem : x.item = none) : exec (.dscCmdComplete p) s = .next (((s.dscTaken p).bump (Reg.DSC_PT_CREATED p) 1).dscAnswer p 0) := by
  have hstores : ¬3 ≤ x.op := by omega
  change execDscCmdComplete p s = _
  simp only [execDscCmdComplete, hrun, hcode, hitem, hstores, and_false, if_false, if_true]
  rfl

/-- A refused command is counted, reported to its partition and answered with its code. -/
theorem exec_dscCmdComplete_refused (hrun : Tab.get? s.dsc.running p = some x) (hcode : x.code ≠ 0) (hitem : x.item = none) :
    exec (.dscCmdComplete p) s =
      .next ((((s.dscTaken p).bump (Reg.DSC_PT_REFUSED p) 1).err p uDesc x.code x.handle).dscAnswer p x.code) := by
  change execDscCmdComplete p s = _
  simp only [execDscCmdComplete, hrun, hitem, hcode, false_and, if_false]
  rfl

theorem exec_descRewriteComplete_oldest {w : Rewrite} {ws : List Rewrite} (hrewrites : s.dsc.rewrites = w :: ws) :
    exec .descRewriteComplete s = .next ({ s with dsc := { s.dsc with rewrites := ws } }.rewriteOne w).afterRewrite := by
  change execDescRewriteComplete s = _
  simp only [execDescRewriteComplete, hrewrites]

end DescriptorComplete

/-! ### Region records (R163 to R165, R191) -/

section Regions

variable {s : State}

/-- Region command `c` on record `i` starts: RGN_STATUS holds BUSY alone, so RESULT is 0 while the command runs. -/
def State.rgnStart (s : State) (c i : Nat) : State :=
  { s.wr Reg.RGN_STATUS 1 with dsc := { s.dsc with rgnRun := some (c, i) } }

/-- A start notes the command and changes RGN_STATUS, and nothing else. -/
theorem rgnStart_changes_only (s : State) (c i : Nat) :
    (s.rgnStart c i).rdN Reg.RGN_STATUS = 1 ∧ (s.rgnStart c i).dsc.rgnRun = some (c, i) ∧
      (∀ b, b ≠ Reg.RGN_STATUS → (s.rgnStart c i).rd b = s.rd b) ∧
      s.rgnStart c i =
        { s with regs := (s.rgnStart c i).regs, dsc := { s.dsc with rgnRun := (s.rgnStart c i).dsc.rgnRun } } :=
  ⟨rdN_wr_same s Reg.RGN_STATUS 1, rfl, fun _ hb => rd_wr_ne s 1 hb, rfl⟩

/-- A staged record that R164 accepts starts its write into an invalid record. -/
theorem exec_rgnWrite_starts (hidle : s.rdB Reg.RGN_STATUS 0 = false) (hfree : Tab.get? s.dsc.regions (s.rdF Reg.RGN_SEL 0 16) = none)
    (hstaged : s.rdB Reg.RGN_ATTR 31 = true) (hrange : s.stagedRegion.rangeOk = true)
    (hapart : s.dsc.regions.any (fun e => s.stagedRegion.meets e.2) = false) (hopen : s.isConf s.stagedRegion.pt = false) :
    exec .rgnWrite s = .next (s.rgnStart 1 (s.rdF Reg.RGN_SEL 0 16)) := by
  change execRgnWrite s = _
  simp only [execRgnWrite, hidle, hfree, hstaged, hrange, hapart, hopen, Option.isSome_none, Bool.not_true, Bool.false_eq_true,
    or_self, if_false]
  rfl

/-- The staged fields hold `base`, `size` and `attr`, and RGN_STATUS is 0. -/
def State.rgnStage (s : State) (base size attr : Nat) : State :=
  (((s.wr Reg.RGN_BASE base).wr Reg.RGN_SIZE size).wr Reg.RGN_ATTR attr).wr Reg.RGN_STATUS 0

theorem rd_rgnStage (s : State) (base size attr b : Nat) :
    (s.rgnStage base size attr).rd b =
      if b = Reg.RGN_STATUS then 0#64 else if b = Reg.RGN_ATTR then BitVec.ofNat 64 attr
        else if b = Reg.RGN_SIZE then BitVec.ofNat 64 size else if b = Reg.RGN_BASE then BitVec.ofNat 64 base else s.rd b := by
  simp only [State.rgnStage, rd_wr]

theorem rd_rgnStage_staged (s : State) (base size attr : Nat) :
    (s.rgnStage base size attr).rd Reg.RGN_BASE = BitVec.ofNat 64 base ∧
      (s.rgnStage base size attr).rd Reg.RGN_SIZE = BitVec.ofNat 64 size ∧
      (s.rgnStage base size attr).rd Reg.RGN_ATTR = BitVec.ofNat 64 attr ∧ (s.rgnStage base size attr).rd Reg.RGN_STATUS = 0 := by
  simp [rd_rgnStage]

theorem rd_rgnStage_ne {b : Nat} (base size attr : Nat) (hb : b ∉ [Reg.RGN_BASE, Reg.RGN_SIZE, Reg.RGN_ATTR, Reg.RGN_STATUS]) :
    (s.rgnStage base size attr).rd b = s.rd b := by
  simp only [List.mem_cons, List.not_mem_nil, or_false, not_or] at hb
  obtain ⟨hbase, hsize, hattr, hstatus⟩ := hb
  rw [rd_rgnStage, if_neg hstatus, if_neg hattr, if_neg hsize, if_neg hbase]

theorem rgnStage_changes_regs (s : State) (base size attr : Nat) :
    s.rgnStage base size attr = { s with regs := (s.rgnStage base size attr).regs } := rfl

/-- RGN_ATTR of a valid record (R191). -/
def Region.attr (r : Region) : Nat := r.pt + r.r.toNat * 16 + r.w.toNat * 32 + r.desc.toNat * 64 + 2 ^ 31

theorem exec_rgnRead_valid {r : Region} (hidle : s.rdB Reg.RGN_STATUS 0 = false)
    (hrec : Tab.get? s.dsc.regions (s.rdF Reg.RGN_SEL 0 16) = some r) :
    exec .rgnRead s = .next (s.rgnStage r.base r.size r.attr) := by
  change execRgnRead s = _
  simp only [execRgnRead, hidle, hrec, Bool.false_eq_true, if_false]
  rfl

theorem exec_rgnRead_invalid (hidle : s.rdB Reg.RGN_STATUS 0 = false)
    (hrec : Tab.get? s.dsc.regions (s.rdF Reg.RGN_SEL 0 16) = none) : exec .rgnRead s = .next (s.rgnStage 0 0 0) := by
  change execRgnRead s = _
  simp only [execRgnRead, hidle, hrec, Bool.false_eq_true, if_false]
  rfl

/-- A record that no confidential partition owns, an invalid one too, starts to be cleared. -/
theorem exec_rgnClear_starts (hidle : s.rdB Reg.RGN_STATUS 0 = false)
    (hopen : ∀ r, Tab.get? s.dsc.regions (s.rdF Reg.RGN_SEL 0 16) = some r → s.isConf r.pt = false) :
    exec .rgnClear s = .next (s.rgnStart 3 (s.rdF Reg.RGN_SEL 0 16)) := by
  change execRgnClear s = _
  cases hrec : Tab.get? s.dsc.regions (s.rdF Reg.RGN_SEL 0 16) with
  | none =>
    simp only [execRgnClear, hidle, hrec, Bool.false_eq_true, or_self, if_false]
    rfl
  | some r =>
    simp only [execRgnClear, hidle, hrec, hopen r hrec, Bool.false_eq_true, or_self, if_false]
    rfl

/-- The records once region command `c` on record `i` is applied: WRITE puts the staged record in force, CLEAR removes the record. -/
def State.rgnApplied (s : State) (c i : Nat) : Tab Region :=
  if c = 1 then s.dsc.regions.put i s.stagedRegion else s.dsc.regions.del i

/-- A command that changes a record moves the capability table (row 24 of the assumption log). -/
theorem exec_rgnCmdComplete_changes {c i : Nat} (hrun : s.dsc.rgnRun = some (c, i)) (hchange : s.rgnApplied c i ≠ s.dsc.regions) :
    exec .rgnCmdComplete s =
      .next (({ s with dsc := { s.dsc with regions := s.rgnApplied c i, rgnRun := none } }.capChange).wr Reg.RGN_STATUS 0) := by
  unfold State.rgnApplied at hchange ⊢
  change execRgnCmdComplete s = _
  simp only [execRgnCmdComplete, hrun, if_neg hchange]

end Regions

/-- Settles O15: each clause is the lemma of its command. That a region command moves the capability table rests on row 24 of the
assumption log. While a WRITE or CLEAR runs RESULT is 0, as the model has it; row 36 of the log says that it keeps the last code. -/
theorem regionCommands : Obligations.RegionCommands := by
  refine ⟨?write, ?read, ?readInvalid, ?clear, ?complete⟩
  case write =>
    exact fun s hidle hfree hstaged hrange hapart hopen =>
      ⟨_, exec_rgnWrite_starts hidle hfree hstaged hrange hapart hopen, rgnStart_changes_only s 1 _⟩
  case read =>
    intro r s hidle hrec
    obtain ⟨hbase, hsize, hattr, hstatus⟩ := rd_rgnStage_staged s r.base r.size r.attr
    exact ⟨_, exec_rgnRead_valid hidle hrec, hbase, hsize, hattr, hstatus, fun _ hb => rd_rgnStage_ne _ _ _ hb,
      rgnStage_changes_regs s _ _ _⟩
  case readInvalid =>
    intro s hidle hrec
    refine ⟨_, exec_rgnRead_invalid hidle hrec, fun b => ?_, rgnStage_changes_regs s 0 0 0⟩
    split
    case isTrue hb =>
      simp only [List.mem_cons, List.not_mem_nil, or_false] at hb
      obtain ⟨hbase, hsize, hattr, hstatus⟩ := rd_rgnStage_staged s 0 0 0
      rcases hb with rfl | rfl | rfl | rfl
      exacts [hbase, hsize, hattr, hstatus]
    case isFalse hb => exact rd_rgnStage_ne 0 0 0 hb
  case clear => exact fun s hidle hopen => ⟨_, exec_rgnClear_starts hidle hopen, rgnStart_changes_only s 3 _⟩
  case complete => exact fun c i s hrun hchange => exec_rgnCmdComplete_changes hrun hchange

/-- Settles O14: each clause is the lemma of its command. -/
theorem descriptorCommands : Obligations.DescriptorCommands := by
  refine ⟨?create, ?replace, ?destroy, ?inval, ?invalAll, ?busy, ?made, ?refused, ?rewrite⟩
  case create =>
    exact fun p handle img s s1 hidle himage hfits hnone hvalid hwrite =>
      congrArg Host.Outcome.next (dscCommand_stores (op := 1) (by omega) hidle himage hfits hnone hvalid hwrite)
  case replace =>
    intro p handle img old bad s s1 hidle himage hfits hkind hvalid hread hwrite
    have hold : s.entryContent p handle.toNat = old := by simp only [State.entryContent, hread]
    subst hold
    exact ⟨congrArg Host.Outcome.next (dscCommand_stores (op := 2) (by omega) hidle himage hfits hkind hvalid hwrite),
      congrArg Host.Outcome.next (dscCommand_stores (op := 3) (by omega) hidle himage hfits hkind hvalid hwrite)⟩
  case destroy =>
    intro p handle k s hidle hfits hkind
    exact ⟨s.entryDestroyed p handle.toNat, congrArg Host.Outcome.next (dscCommand_idle hidle (dscRun_destroy _ hfits hkind)),
      (get?_valid_entryDestroyed s p handle.toNat _).trans (if_pos rfl),
      fun j hj => (get?_valid_entryDestroyed s p handle.toNat j).trans (if_neg hj),
      (get?_stale_entryDestroyed s p handle.toNat _).trans (if_pos rfl),
      (get?_running_entryDestroyed s p handle.toNat p).trans (if_pos rfl), fun b hb => rd_wr_ne _ _ hb, rfl⟩
  case inval =>
    exact fun p handle s hidle hfits => congrArg Host.Outcome.next (dscCommand_idle hidle (dscRun_inval _ hfits))
  case invalAll => exact fun p s hidle => congrArg Host.Outcome.next (dscCommand_idle hidle rfl)
  case busy =>
    intro p handle c s hbusy hc
    simp only [List.mem_cons, List.not_mem_nil, or_false] at hc
    rcases hc with rfl | rfl | rfl | rfl | rfl | rfl <;> exact congrArg Host.Outcome.next (dscCommand_busy _ _ hbusy)
  case made => exact fun p x s hrun hcode hop hitem => exec_dscCmdComplete_made hrun hcode hop hitem
  case refused => exact fun p x s hrun hcode hitem => exec_dscCmdComplete_refused hrun hcode hitem
  case rewrite => exact fun w ws s hrewrites => exec_descRewriteComplete_oldest hrewrites

end Sys2Proof.Machine
end

section
/-! PROOFS of the family 09_frond_tensor_cores (O19, O23, O18): the lane instructions (R251 to R255), the tensor instructions with their
completions (R243 to R250, R264, R277), and the start, the end and the abort of an operation on a Frond with its zeroing (R213, R223,
R224, R232, R233, R477). -/

namespace Sys2Proof.Machine

/-! ### Lane instructions (R251 to R255) -/

section LaneInstructions

variable {s : State} {n cls opc w mask : Nat} {chk : FrondCheck} {ok : Nat → Bool} {counter : Nat → Option Nat}

/-- A command that issues a lane instruction whose word meets its rules: `usesB` and `usesC` say whether it reads operand B and VC. -/
theorem next_lanes {usesB usesC : Bool} {op : Nat → Nat → Nat → Nat → Nat × Nat} (hissues : s.issuesWord n cls opc w = true)
    (hop : knownOp cls opc = true) (hvec : vecOk mask w = true) (hB : usesB = true → bFieldsOk w = true) (hok : ok w = true)
    (hnoB : usesB = false → ∀ a b c, op w a b c = op w a 0 c) (hnoC : usesC = false → ∀ a b c, op w a b c = op w a b 0) :
    ∃ t, (.next (s.issue n cls opc chk (laneBody mask ok usesB usesC op counter n)) : Res) = .next (t.afterCheck n chk) ∧
      s.ranLanes t n w (op w) := by
  obtain ⟨t, ht, hran⟩ := issue_lanes hissues hop hvec hB hok hnoB hnoC
  exact ⟨t, congrArg Host.Outcome.next ht, hran⟩

/-- One that reads VA alone. -/
theorem next_lanes_A {op : Nat → Nat → Nat × Nat} (hissues : s.issuesWord n cls opc w = true) (hop : knownOp cls opc = true)
    (hvec : vecOk mask w = true) (hok : ok w = true) :
    ∃ t, (.next (s.issue n cls opc chk (laneBody mask ok false false (fun w a _ _ => op w a) counter n)) : Res) =
      .next (t.afterCheck n chk) ∧ s.ranLanes t n w fun a _ _ => op w a :=
  next_lanes hissues hop hvec nofun hok (fun _ _ _ _ => rfl) (fun _ _ _ _ => rfl)

/-- One that reads VA and operand B. -/
theorem next_lanes_AB {op : Nat → Nat → Nat → Nat × Nat} (hissues : s.issuesWord n cls opc w = true) (hop : knownOp cls opc = true)
    (hvec : vecOk mask w = true) (hB : bFieldsOk w = true) (hok : ok w = true) :
    ∃ t, (.next (s.issue n cls opc chk (laneBody mask ok true false (fun w a b _ => op w a b) counter n)) : Res) =
      .next (t.afterCheck n chk) ∧ s.ranLanes t n w fun a b _ => op w a b :=
  next_lanes hissues hop hvec (fun _ => hB) hok nofun (fun _ _ _ _ => rfl)

/-- One that reads VA, operand B and VC. -/
theorem next_lanes_ABC {op : Nat → Nat → Nat → Nat → Nat × Nat} (hissues : s.issuesWord n cls opc w = true)
    (hop : knownOp cls opc = true) (hvec : vecOk mask w = true) (hB : bFieldsOk w = true) (hok : ok w = true) :
    ∃ t, (.next (s.issue n cls opc chk (laneBody mask ok true true op counter n)) : Res) = .next (t.afterCheck n chk) ∧
      s.ranLanes t n w (op w) :=
  next_lanes hissues hop hvec (fun _ => hB) hok nofun nofun

end LaneInstructions

/-- Settles O19: each clause is the law of lane instructions (`issue_lanes`) at the operands that its instruction reads. -/
theorem laneInstructions : Obligations.LaneInstructions := by
  refine ⟨?vadd, ?vsub, ?vmul, ?vfma, ?vmin, ?vmax, ?vdiv, ?vsqrt, ?vcmp, ?vsel, ?vlogic, ?vshift, ?vsfu⟩
  case vadd => exact fun n chk w s hissues hvec hB hsat => next_lanes_AB hissues rfl hvec hB hsat
  case vsub => exact fun n chk w s hissues hvec hB hsat => next_lanes_AB hissues rfl hvec hB hsat
  case vmul => exact fun n chk w s hissues hvec hB hsat => next_lanes_AB hissues rfl hvec hB hsat
  case vfma => exact fun n chk w s hissues hvec hB hsat => next_lanes_ABC hissues rfl hvec hB hsat
  case vmin => exact fun n chk w s hissues hvec hB => next_lanes_AB hissues rfl hvec hB rfl
  case vmax => exact fun n chk w s hissues hvec hB => next_lanes_AB hissues rfl hvec hB rfl
  case vdiv => exact fun n chk w s hissues hvec hB => next_lanes_AB hissues rfl hvec hB rfl
  case vsqrt => exact fun n chk w s hissues hvec => next_lanes_A hissues rfl hvec rfl
  case vcmp => exact fun n chk w s hissues hvec hB hfn => next_lanes_AB hissues rfl hvec hB (decide_eq_true hfn)
  case vsel => exact fun n chk w s hissues hvec hB => next_lanes_ABC hissues rfl hvec hB rfl
  case vlogic => exact fun n chk w s hissues hvec hB hfn => next_lanes_AB hissues rfl hvec hB (decide_eq_true hfn)
  case vshift =>
    intro n chk w s hissues hvec hB ⟨hfn, hint⟩
    exact next_lanes_AB hissues rfl hvec hB (Bool.and_eq_true_iff.mpr ⟨decide_eq_true hfn, hint⟩)
  case vsfu => exact fun n chk w s hissues hvec hfn => next_lanes_A hissues rfl hvec (decide_eq_true hfn)

/-- A command that issues an instruction whose body succeeds: the instruction is done, and the checks follow. -/
theorem next_issue_ok {s s2 : State} {n cls op w next : Nat} {chk : FrondCheck} {body : State → Nat → Nat → Issue}
    (hissues : s.issuesWord n cls op w = true) (hop : knownOp cls op = true) (hbody : body s w (s.tc n).pc = .ok s2 next) :
    (.next (s.issue n cls op chk body) : Res) = .next ((s.moveOn s2 n next).afterCheck n chk) :=
  congrArg Host.Outcome.next (issue_ok hissues hop hbody)

/-! ### Matrix multiply (R247 to R249) -/

section Multiply

variable {i : MmaWord} {f : Frond} {s : State} {n w : Nat}

/-- The scratch ranges that an MMA reads, by the registers of its Frond. -/
def MmaWord.ranges (i : MmaWord) (f : Frond) : List (Nat × Nat) :=
  operandRanges i.ta i.m i.klen (f.sreg i.av) (f.sreg i.as_) ++ operandRanges i.tb i.n i.klen (f.sreg i.bv) (f.sreg i.bs)

/-- A scalar register that an MMA reads carries a mark (R266). -/
def MmaWord.marked (i : MmaWord) (f : Frond) : Bool :=
  f.sMark i.av || f.sMark i.bv || (isScaled i.ta && f.sMark i.as_) || (isScaled i.tb && f.sMark i.bs) ||
    (i.ta == 0x18 && f.sMark i.at_) || (i.tb == 0x18 && f.sMark i.bt)

/-- The scale registers count for scaled types only, and those of the tensor scale for type 0x18. -/
theorem MmaWord.marked_eq_false (hvalues : f.sMark i.av = false ∧ f.sMark i.bv = false)
    (hscales : (isScaled i.ta = true → f.sMark i.as_ = false) ∧ (isScaled i.tb = true → f.sMark i.bs = false))
    (htensor : (i.ta = 0x18 → f.sMark i.at_ = false) ∧ (i.tb = 0x18 → f.sMark i.bt = false)) : i.marked f = false := by
  obtain ⟨hav, hbv⟩ := hvalues
  obtain ⟨has, hbs⟩ := hscales
  obtain ⟨hat, hbt⟩ := htensor
  simpa [MmaWord.marked, and_assoc] using ⟨hav, hbv, has, hbs, hat, hbt⟩

/-- The tile is written, occupied until the completion, and the status bits are set: the result stands in the accumulator at issue
(row 140 of the assumption log). -/
def State.mmaIssued (s : State) (n : Nat) (i : MmaWord) : State :=
  let F := (s.tc n).mma i
  (s.setTc n { F.1 with mmas := F.1.mmas ++ [(i.acc, i.ranges (s.tc n))] }).setArith n F.2

/-- An MMA whose word, operands and tile meet their rules writes the tile and counts its MACs. -/
theorem mmaBody_runs (pc : Nat) (hi : i = mmaWord w) (hok : i.ok w = true) (hmarks : i.marked (s.tc n) = false)
    (hscratch : (i.ranges (s.tc n)).all (fun x => scratchOk x.1 x.2) = true)
    (hpath : i.clear = true ∨ (s.tc n).accInt.contains i.acc = i.intPath) (htile : (s.tc n).tileBusy i.acc = false)
    (hloads : (i.ranges (s.tc n)).any (fun x => (s.tc n).loadBusy x.1 x.2) = false) :
    mmaBody n s w pc = .ok ((s.mmaIssued n i).mmaCount n ((s.mmaIssued n i).tcPt n) i) (pc + 16) := by
  subst hi
  have hacc : (!(mmaWord w).clear && ((s.tc n).accInt.contains (mmaWord w).acc != (mmaWord w).intPath)) = false := by
    rcases hpath with hclear | hsame
    · rw [hclear, Bool.not_true, Bool.false_and]
    · rw [hsame, bne_self_eq_false, Bool.and_false]
  unfold MmaWord.marked at hmarks
  unfold MmaWord.ranges at hscratch hloads
  simp only [mmaBody, hok, hmarks, hscratch, hacc, htile, hloads, Bool.not_true, Bool.or_self, Bool.false_eq_true, if_false]
  rfl

end Multiply

/-! ### Tile loads (R243, R244, R264) -/

section Loads

variable {s s1 : State} {w : Nat} {t : Tile}

/-- The load of tile `t`, issued at `pc`, is outstanding: its data is what memory holds when it completes (row 141 of the assumption
log). -/
def State.loadQueued (s : State) (n pc : Nat) (t : Tile) : State :=
  s.setTc n { s.tc n with loads := (s.tc n).loads ++ [{ id := (s.tc n).nextId, pc := pc, tile := t }], nextId := (s.tc n).nextId + 1 }

/-- A TLOAD whose operands and addresses pass their checks, with its panels free and nothing of it in another device, is queued. -/
theorem loadBody_queues {n : Nat} (pc : Nat) (hoperands : s.tileOperands n w 0 = .ok (s1, t))
    (hfree : t.panels.any (fun x => (s1.tc n).loadBusy x.1 x.2 || (s1.tc n).mmaReads x.1 x.2) = false) (horigin : t.originOk = true)
    (hcheck : s1.tileCheck (s1.tcPt n) t t.elems = none) (hnear : s1.tileRemote (s1.tcPt n) t t.elems = []) :
    loadBody n s w pc = .ok (s1.loadQueued n pc t) (pc + 16) := by
  simp only [loadBody, hoperands, hfree, horigin, hcheck, hnear, List.isEmpty_nil, Bool.not_true, Bool.false_and, Bool.false_eq_true,
    if_false, List.foldl_nil]
  rfl

/-- The bytes of a completed load of tile `t` are counted, for the Frond, its partition's share and the operation. -/
def State.loadCounted (s : State) (n p : Nat) (t : Tile) : State :=
  let s1 := (s.bump (Reg.DBG_TC_LOAD_BYTES n) t.bytes).chargeShare p t.bytes
  s1.setTc n { s1.tc n with bytes := (s1.tc n).bytes + t.bytes }

theorem exec_tloadComplete_filled {n : Fin 32} {l : Load} {ls : List Load} {s2 : State} (hloads : (s.tc n).loads = l :: ls)
    (hremote : s.remoteOpen (uTc n) 2 = false)
    (hfill : (s.setTc n { s.tc n with loads := ls }).loadTile n (s.tcPt n) l.tile = (s2, none)) :
    exec (.tloadComplete n) s = .next ((s2.loadCounted n (s.tcPt n) l.tile).accessDone n l.id) := by
  change execTloadComplete n s = _
  simp only [execTloadComplete, hloads, hremote, hfill, Bool.false_eq_true, if_false]
  rfl

end Loads

/-! ### Tile stores (R226, R245, R277) -/

section Stores

variable {s s1 : State} {w : Nat} {t : Tile} {x : Slot}

/-- The digests of a Frond once it has begun a store of tile `t`: a covered output that has none yet gets an empty one (R226). -/
def Frond.withDigest (f : Frond) (t : Tile) : List Digest :=
  if t.desc.cmpMode = 1 ∨ (f.digests.any fun g => g.handle == t.handle) = true then f.digests
  else f.digests ++ [{ handle := t.handle, image := t.image, count := t.count }]

/-- The store of tile `t` by the copy in slot 0 is outstanding, with its digest. -/
def State.storeQueued (s : State) (n : Nat) (t : Tile) (x : Slot) : State :=
  s.setTc n { s.tc n with digests := (s.tc n).withDigest t, nextId := (s.tc n).nextId + 1,
                          stores := (s.tc n).stores ++ [((s.tc n).nextId, x.cid)] }

/-- A TSTORE whose operands pass their checks, with no load outstanding and room for its digest, writes its elements. -/
theorem storeBody_stores {n : Nat} {s3 : State} (pc : Nat) (hoperands : s.tileOperands n w 1 = .ok (s1, t))
    (hslot : (s1.tc n).slot0 = some x) (hloads : (s1.tc n).loads = [])
    (hroom : t.desc.cmpMode = 1 ∨ ((s1.tc n).digests.any fun g => g.handle == t.handle) = true ∨ (s1.tc n).digests.length < 8)
    (horigin : t.originOk = true) (hstore : (s1.storeQueued n t x).storeGroups n (s1.tcPt n) t t.groups = (s3, none)) :
    storeBody n s w pc = .ok s3 (pc + 16) := by
  have hfits : (t.desc.cmpMode != 1 && !((s1.tc n).digests.any fun g => g.handle == t.handle) &&
      decide (8 ≤ (s1.tc n).digests.length)) = false := by
    rcases hroom with h | h | h <;> simp [h]
  simp only [State.storeQueued, Frond.withDigest, hslot, hloads] at hstore
  simp only [storeBody, hoperands, hslot, hloads, hfits, horigin, hstore, List.isEmpty_nil, Bool.not_true, Bool.false_eq_true, if_false]

theorem exec_tstoreComplete_visible {n : Fin 32} {y : Nat × CopyId} {ys : List (Nat × CopyId)} (hstores : (s.tc n).stores = y :: ys)
    (hremote : s.remoteOpen (uTc n) 1 = false) :
    exec (.tstoreComplete n) s = .next ((s.setTc n { s.tc n with stores := ys }).accessDone n y.1) := by
  change execTstoreComplete n s = _
  simp only [execTstoreComplete, hstores, hremote, Bool.false_eq_true, if_false]

end Stores

/-! ### Tile clearing (R250) -/

section Clearing

variable {s : State} {n w : Nat}

/-- The tiles that a TCLR word names. -/
def tclrTiles (w : Nat) : List Nat := (List.range 8).filter (bitAt w)

theorem mem_tclrTiles {k : Nat} : k ∈ tclrTiles w ↔ k < 8 ∧ bitAt w k = true := by simp [tclrTiles]

/-- The named tiles hold zeros without marks, and are of the integer path or not as the word says. -/
def Frond.clearTiles (f : Frond) (w : Nat) : Frond :=
  { f with acc := f.acc.filter fun e => !(tclrTiles w).contains (e.1 / 8192)
           accBad := f.accBad.filter fun k => !(tclrTiles w).contains (k / 512)
           accInt := if bitAt w 16 then (tclrTiles w).foldl (fun l t => insSorted t l) f.accInt
             else f.accInt.filter fun t => !(tclrTiles w).contains t }

/-- The elements of a named tile are 0, and those of the other tiles as before. -/
theorem elem_clearTiles (f : Frond) {k m c : Nat} (hk : k < 8) (hm : m < 128) (hc : c < 64) :
    (f.clearTiles w).elem k m c = if bitAt w k then 0 else f.elem k m c := by
  have htile : (k * 8192 + m * 64 + c) / 8192 = k := by omega
  have hnamed : (tclrTiles w).contains k = bitAt w k := by
    rw [Bool.eq_iff_iff]
    simp [mem_tclrTiles, hk]
  simp only [Frond.elem, Frond.clearTiles, Tab.getD, get?_filter f.acc fun a => !(tclrTiles w).contains (a / 8192), htile, hnamed]
  cases bitAt w k <;> rfl

/-- A TCLR whose word meets its rules, with no MMA in a named tile, clears the named tiles. -/
theorem tclrBody_clears (pc : Nat) (hword : w &&& (wmOp ||| wm 0 16 1 ||| wm 0 0 8) = w) (hsome : ∃ k, k < 8 ∧ bitAt w k = true)
    (hidle : ∀ k, k < 8 → bitAt w k = true → (s.tc n).tileBusy k = false) :
    tclrBody n s w pc = .ok (s.setTc n ((s.tc n).clearTiles w)) (pc + 16) := by
  have hnames : (tclrTiles w).isEmpty = false := List.isEmpty_eq_false_iff_exists_mem.mpr (hsome.imp fun _ => mem_tclrTiles.mpr)
  have hfree : (tclrTiles w).any (s.tc n).tileBusy = false := by
    rw [List.any_eq_false]
    intro k hmem
    obtain ⟨hk, hbit⟩ := mem_tclrTiles.mp hmem
    simp [hidle k hk hbit]
  unfold tclrTiles at hnames hfree
  simp only [tclrBody, hword, hnames, hfree, ne_eq, not_true_eq_false, Bool.false_eq_true, or_self, if_false]
  rfl

end Clearing

/-- Settles O23: each clause is the lemma of its instruction or completion. That an MMA's result stands in the tile at issue rests on row
140 of the assumption log, and that a TLOAD's data is what memory holds at its completion on row 141. The clauses take instructions that
do not stall. -/
theorem tensorInstructions : Obligations.TensorInstructions := by
  refine ⟨?mma, ?mmaDone, ?load, ?loadDone, ?store, ?storeDone, ?clear⟩
  case mma =>
    rintro n chk w i _ _ s _ hissues hi hok hvalues hscales htensor rfl hscratch hpath htile hloads rfl rfl
    exact next_issue_ok hissues rfl
      (mmaBody_runs _ hi hok (MmaWord.marked_eq_false hvalues hscales htensor) hscratch hpath htile hloads)
  case mmaDone =>
    intro n x xs s hmmas
    exact ⟨_, rfl, by rw [hmmas]; rfl⟩
  case load =>
    exact fun n chk w t s s1 hissues hoperands hfree horigin hcheck hnear =>
      next_issue_ok hissues rfl (loadBody_queues _ (eq_ok_of_toOption_eq_some hoperands) hfree horigin hcheck hnear)
  case loadDone =>
    rintro n l ls s s2 _ hloads hremote hfill rfl
    exact exec_tloadComplete_filled hloads hremote hfill
  case store =>
    rintro n chk w t x _ s s1 s3 hissues hoperands hslot hloads hroom horigin rfl hstore
    exact next_issue_ok hissues rfl (storeBody_stores _ (eq_ok_of_toOption_eq_some hoperands) hslot hloads hroom horigin hstore)
  case storeDone => exact fun n x xs s hstores hremote => exec_tstoreComplete_visible hstores hremote
  case clear =>
    exact fun n chk w s hissues hword hsome hidle =>
      ⟨_, next_issue_ok hissues rfl (tclrBody_clears _ hword hsome hidle), fun k m c hk hm hc => elem_clearTiles _ hk hm hc, rfl⟩

/-! ### The start and the end of an operation (R213, R223, R224, R294) -/

section Operations

variable {n : Fin 32} {x : Slot} {s : State}

/-- Frond `n` is set up for the copy in its slot 0, from the record of its operation in graph `g` and its run `r` (R213). -/
def State.opSetUp (s : State) (n : Nat) (x : Slot) (g : Graph) (r : GsRun) : State :=
  (s.progress g.pt).setTc n ({ s.tc n with slot0 := some { x with st := 3 } }.setUp
    (copyArgs (g.opAt x.cid.op) x.cid.copy r.larg) (g.opAt x.cid.op).entry s.now)

/-- The start of operation `op` is recorded, `late` after its copy was ready: that START_MAX and LATE count from readiness is row 76 of
the assumption log. -/
def State.startRecorded (s : State) (n p op entry late : Nat) : State :=
  ((if 250 < late then s.bump Reg.GS_LATE 1 else s).rcMax Reg.GS_START_MAX late).event (uTc n) 0x01 p 0 op entry

/-- The first line of the operation is read, and an operation whose line cannot be read stops (R224). -/
def State.firstLine (s : State) (n entry : Nat) : State :=
  if (s.fetchLine n entry).2 then (s.fetchLine n entry).1 else (s.fetchLine n entry).1.frondStop n 0x0605 false

theorem exec_frondOpStart_ready {g : Graph} {r : GsRun} {y : CopyRun} (hslot : (s.tc n).slot0 = some x) (hready : x.st = 2)
    (hitem : (s.tc n).itemWait = false) (habort : (s.tc n).aborting = none) (hzero : (s.tc n).zeroing = false)
    (halive : s.rdB Reg.REL_STATUS 0 = false) (hgraph : s.graphAt x.cid.graph = some g) (hrun : g.cur = some r)
    (hcopy : g.copyRun x.cid.op x.cid.copy = some y) :
    exec (.frondOpStart n) s = .next (((s.opSetUp n x g r).startRecorded n g.pt x.cid.op (g.opAt x.cid.op).entry
      (s.now - y.readyAt)).firstLine n (g.opAt x.cid.op).entry) := by
  have hgo : ¬(x.st ≠ 2 ∨ (s.tc n).itemWait ∨ (s.tc n).aborting.isSome ∨ (s.tc n).zeroing ∨ s.rdB Reg.REL_STATUS 0) := by
    simp [hready, hitem, habort, hzero, halive]
  change execFrondOpStart n s = _
  simp only [execFrondOpStart, hslot, if_neg hgo, hgraph, hrun, hcopy]
  rfl

/-- The copy in slot 0 of Frond `n` has ended: the slot is held, and the operation is counted (row 75 of the assumption log). -/
def State.opEnded (s : State) (n : Nat) (x : Slot) : State :=
  let s1 := s.progress (s.tcPt n)
  (((((s1.setTc n { s1.tc n with aborting := none }).holdSlot n).setCopy x.cid fun c => { c with phase := .ended n }).bump
    (Reg.TC_OPS n) 1).bump (Reg.GS_PT_OPS (s.tcPt n)) 1).event (uTc n) 0x02 (s.tcPt n) 0 x.cid.op (s.tc n).bytes

/-- End `e` of Frond `n` awaits its release, and a fence that waited for it acts. -/
def State.endRecorded (s : State) (n : Nat) (e : EndRec) : State :=
  { s with gs := { s.gs with ends := s.gs.ends ++ [e] } }.fenceDue n

/-- An operation whose END has retired, with every load and MMA done and no COUNT_ERR, ends without an error. -/
theorem exec_frondOpEnd_retired (hslot : (s.tc n).slot0 = some x) (hretired : (s.tc n).retired = true) (hruns : x.st = 3)
    (hloads : (s.tc n).loads = []) (hmmas : (s.tc n).mmas = []) (hitem : (s.tc n).itemWait = false)
    (hcounts : (s.tc n).digests.any Digest.countErr = false) :
    ∃ e : EndRec, exec (.frondOpEnd n) s = .next ((s.opEnded n x).endRecorded n e) ∧ e.cid = x.cid ∧ e.pt = s.tcPt n ∧
      e.code = 0 ∧ e.tc = some n.val ∧ e.arith = (s.tc n).arith ∧ e.digs = digestEntries (s.tc n).digests ∧
      e.startAt = (s.tc n).startAt ∧ e.endAt = s.now := by
  have hgo : ¬((!(s.tc n).retired) ∨ x.st ≠ 3 ∨ (!(s.tc n).loads.isEmpty) ∨ (!(s.tc n).mmas.isEmpty) ∨ (s.tc n).itemWait) := by
    simp [hretired, hruns, hloads, hmmas, hitem]
  change ∃ e, execFrondOpEnd n s = _ ∧ _
  simp only [execFrondOpEnd, hslot, if_neg hgo, hcounts, Bool.false_eq_true, if_false]
  exact ⟨_, rfl, rfl, rfl, rfl, rfl, rfl, rfl, rfl, rfl⟩

end Operations

/-! ### Zeroing (R233, R477) -/

section Zeroing

variable {n : Fin 32} {s : State}

/-- Frond `n` holds zeros; only the number of its placements is left. -/
def State.zeroed (s : State) (n : Nat) : State := s.setTc n { placed := (s.tc n).placed }

theorem tc_zeroed (s : State) (n m : Nat) : (s.zeroed n).tc m = if m = n then { placed := (s.tc n).placed } else s.tc m := tc_setTc s n m _

theorem exec_frondZeroingComplete_unfenced (hzero : (s.tc n).zeroing = true) (hfence : (s.tc n).fencing = none) :
    exec (.frondZeroingComplete n) s = .next (s.zeroed n) := by
  change execFrondZeroingComplete n s = _
  simp only [execFrondZeroingComplete, hzero, hfence, Bool.not_true, Bool.false_eq_true, if_false]
  rfl

theorem exec_frondZeroingComplete_fenced {r : Nat} (hzero : (s.tc n).zeroing = true) (hfence : (s.tc n).fencing = some r) :
    exec (.frondZeroingComplete n) s = .next ((s.zeroed n).fenceDone n r (s.tc n).fencePt) := by
  change execFrondZeroingComplete n s = _
  simp only [execFrondZeroingComplete, hzero, hfence, Bool.not_true, Bool.false_eq_true, if_false]
  rfl

end Zeroing

/-- Settles O18: each clause is the lemma of its command; the abort's is the command's own meaning. That START_MAX and LATE count from
readiness rests on row 76 of the assumption log, and that OPS counts every copy that ends on row 75. -/
theorem frondRunCommands : Obligations.FrondRunCommands := by
  refine ⟨?start, ?opEnd, ?abort, ?zeroed, ?fenced⟩
  case start =>
    rintro n x g r y s _ _ hslot hready hitem habort hzero halive hgraph hrun hcopy rfl rfl
    exact exec_frondOpStart_ready hslot hready hitem habort hzero halive hgraph hrun hcopy
  case opEnd =>
    rintro n x _ s _ _ hslot hretired hruns hloads hmmas hitem rfl hcounts rfl rfl
    exact exec_frondOpEnd_retired hslot hretired hruns hloads hmmas hitem hcounts
  case abort => exact fun n x why s hslot habort => rfl
  case zeroed =>
    intro n s hzero hfence
    exact ⟨_, exec_frondZeroingComplete_unfenced hzero hfence, (tc_zeroed s n n).trans (if_pos rfl),
      fun m hm => (tc_zeroed s n m).trans (if_neg hm), rfl⟩
  case fenced => exact fun n r s hzero hfence => exec_frondZeroingComplete_fenced hzero hfence

end Sys2Proof.Machine
end

section
/-! PROOFS of the family 10_trerok_tensor_vector (O21): the instructions that write one scalar register (R258 to R262, R270), the
branch (R263) and the end of an operation's instructions (R223). -/

namespace Sys2Proof.Machine

/-- A command that issues an instruction whose body writes `v` with its mark to S[d], sets the status bits `st`, and counts. -/
theorem next_scalar {s u : State} {n cls op w d v st : Nat} {bad : Bool} {chk : FrondCheck} {body : State → Nat → Nat → Issue}
    (hissues : s.issuesWord n cls op w = true) (hop : knownOp cls op = true) (hbody : body s w (s.tc n).pc = .ok u ((s.tc n).pc + 16))
    (hcounts : CountsOnly ((s.setTc n ((s.tc n).setS d v bad)).setArith n st) u) :
    ∃ t, (.next (s.issue n cls op chk body) : Res) = .next (t.afterCheck n chk) ∧ s.ranScalar t n d v bad st := by
  obtain ⟨t, ht, hran⟩ := issue_scalar (chk := chk) hissues hop ⟨u, hbody, hcounts⟩
  exact ⟨t, congrArg Host.Outcome.next ht, hran⟩

/-! ### Reduction (R258) -/

section Reduction

variable {s : State} {n w : Nat}

/-- What lane `i` contributes to a VRED: the identity when it is not active, and else its value, square or magnitude. -/
def Frond.redValue (f : Frond) (w i : Nat) : Nat :=
  if activeLanes w ≤ i then redIdent (fINT w) (fFN w)
  else if fFN w = 3 then (mul32 (f.lane (fVA w) i) (f.lane (fVA w) i)).1
  else if fFN w = 4 then f.lane (fVA w) i % 2 ^ 31 else f.lane (fVA w) i

/-- The status bits of the squares that a VRED takes of its active lanes. -/
def Frond.redSquareStatus (f : Frond) (w : Nat) : Nat :=
  if fFN w = 3 then (List.range (activeLanes w)).foldl (fun a i => a ||| (mul32 (f.lane (fVA w) i) (f.lane (fVA w) i)).2) 0 else 0

/-- The result and the status of a VRED's tree. -/
def Frond.reduced (f : Frond) (w : Nat) : Nat × Nat := redTree (fINT w) (fFN w) ((List.range 64).map (f.redValue w))

/-- A VRED whose word meets its rules writes what the tree gives, with the status of the tree and of the squares, and counts its lanes. -/
theorem redBody_writes (pc : Nat) (hvec : vecOk (vINT ||| vVA ||| vSX ||| vVLEN ||| vFN) w = true) (hfn : fFN w ≤ 4)
    (hint : fINT w = true → fFN w ≤ 2) :
    redBody n s w pc = .ok (((s.setTc n ((s.tc n).setS (fSX w) ((s.tc n).reduced w).1
      ((List.range (activeLanes w)).any fun i => (s.tc n).vMark (fVA w) i))).setArith n
        (((s.tc n).reduced w).2 ||| (s.tc n).redSquareStatus w)).bump (Reg.DBG_TC_VRED n) (activeLanes w)) (pc + 16) := by
  have hok : (!vecOk (vINT ||| vVA ||| vSX ||| vVLEN ||| vFN) w || decide (4 < fFN w) || (fINT w && decide (2 < fFN w))) = false := by
    simpa [hvec, hfn] using hint
  unfold redBody
  rw [hok]
  rfl

end Reduction

/-! ### Descriptor reads (R260) -/

section DescriptorReads

variable {s s1 : State} {n w h c : Nat} {image : List Byte}

/-- A DQRY whose word and operand meet their rules, with the descriptor captured and its dynamic dimension known, writes the field. -/
theorem dqryBody_writes (pc : Nat) (hvec : vecOk (wm 0 17 1 ||| vSS ||| vSX ||| vFN ||| vIMM) w = true)
    (hfn : fFN w ≤ 4 ∨ 8 ≤ fFN w ∧ fFN w ≤ 12) (hoperand : if fBCS w then fIMM w = 0 else fSS w = 0 ∧ fIMM w < 65536)
    (hmark : fBCS w = false ∨ (s.tc n).sMark (fSS w) = false) (hh : h = if fBCS w then (s.tc n).sreg (fSS w) % 65536 else fIMM w)
    (hcapture : s.capture (s.tcPt n) h 0xD35C = (.ok image, s1))
    (hcount : (if (Desc.ofBytes image).isIndexed then s1.indexCount (s.tcPt n) (Desc.ofBytes image) else some 0) = some c) :
    dqryBody n s w pc = .ok (s1.setTc n ((s1.tc n).setS (fSX w) ((Desc.ofBytes image).query c (fFN w)))) (pc + 16) := by
  have hfields : (if fBCS w then fIMM w != 0 else fSS w != 0 || decide (65536 ≤ fIMM w)) = false := by
    cases hb : fBCS w <;> simpa [hb] using hoperand
  have hfnOk : (!(decide (fFN w ≤ 4) || (decide (8 ≤ fFN w) && decide (fFN w ≤ 12)))) = false := by
    simpa [or_iff_not_imp_left] using hfn
  have hmarkOk : (fBCS w && (s.tc n).sMark (fSS w)) = false := Bool.and_eq_false_iff.mpr hmark
  subst hh
  simp only [dqryBody, hvec, hfnOk, hfields, hmarkOk, hcapture, hcount, Bool.not_true, Bool.or_self, Bool.false_eq_true, if_false]

end DescriptorReads

/-! ### Scalar arithmetic and flag reads (R262, R270) -/

section ScalarResults

variable {s : State} {n w : Nat}

/-- Operand 2 of a SALU with its mark: the immediate, or S[SRC2]. -/
def Frond.saluOperand (f : Frond) (w : Nat) : Nat × Bool :=
  if bitAt w 16 then (codeOf 64 (signedOf 32 (cLO w)), false) else (f.sreg (cSRC2 w), f.sMark (cSRC2 w))

/-- A SALU whose word meets its rules writes its result and counts. -/
theorem saluBody_writes (pc : Nat) (hword : w &&& (wmOp ||| wm 0 16 1 ||| wm 0 0 12 ||| wm 1 0 6 ||| wm 1 8 8 ||| wm 2 0 32) = w)
    (hfn : cFN w ≤ 0x13) (hoperand : if bitAt w 16 then cSRC2 w = 0 else cLO w = 0) :
    saluBody n s w pc = .ok ((s.setTc n ((s.tc n).setS (wfld w 0 0 6)
      (saluOp (cFN w) ((s.tc n).sreg (cSRC1 w)) ((s.tc n).saluOperand w).1)
      ((s.tc n).sMark (cSRC1 w) || ((s.tc n).saluOperand w).2))).countScalar n) (pc + 16) := by
  have hother : ¬(if bitAt w 16 then cSRC2 w ≠ 0 else cLO w ≠ 0) := by
    cases hb : bitAt w 16 <;> simpa [hb] using hoperand
  exact if_neg (not_or.mpr ⟨not_not.mpr hword, not_or.mpr ⟨Nat.not_lt.mpr hfn, hother⟩⟩)

/-- An FREAD whose word meets its rules, of a flag that the partition owns and that is not poisoned, writes its value and counts. -/
theorem freadBody_writes (pc : Nat)
    (hword : w &&& (wmOp ||| wm 0 16 1 ||| wm 0 19 1 ||| wm 0 0 15 ||| wm 1 0 6 ||| wm 1 12 6) = w) (hflag : flagFieldsOk w = true)
    (hoperands : (s.tc n).flagOperands w false false = 0) (howns : s.owns (s.tcPt n) 0x33 ((s.tc n).flagIndex w) = true)
    (hpoison : (s.flag ((s.tc n).flagIndex w)).poisoned = false) :
    freadBody n s w pc =
      .ok ((s.setTc n ((s.tc n).setS (wfld w 1 12 6) (s.flag ((s.tc n).flagIndex w)).value)).countSync n) (pc + 16) := by
  simp only [freadBody, hword, hflag, hoperands, howns, hpoison, ne_eq, not_true_eq_false, Bool.not_true, Bool.false_eq_true, or_self,
    if_false]

end ScalarResults

/-! ### Branches (R263) -/

section Branches

variable {s s1 : State} {n w : Nat} (pc : Nat)
  (hword : w &&& (wmOp ||| wm 0 6 6 ||| wm 1 0 6 ||| wm 1 8 8 ||| wm 2 0 32) = w) (hfn : cFN w ≤ 6)
  (hmark1 : (s.tc n).sMark (cSRC1 w) = false) (hmark2 : (s.tc n).sMark (cSRC2 w) = false)

include hword hfn hmark1 hmark2

/-- A BR whose condition fails counts and goes on at the next instruction. -/
theorem brBody_passes (hcond : brTaken (cFN w) ((s.tc n).sreg (cSRC1 w)) ((s.tc n).sreg (cSRC2 w)) = false) :
    brBody n s w pc = .ok (s.countScalar n) (pc + 16) := by
  simp only [brBody, hword, Nat.not_lt.mpr hfn, hmark1, hmark2, hcond, ne_eq, not_true_eq_false, or_self, Bool.or_self,
    Bool.not_false, Bool.false_eq_true, if_false, if_true]

/-- A BR whose condition holds and whose target's line is fetched counts and goes on at the target. -/
theorem brBody_jumps (hcond : brTaken (cFN w) ((s.tc n).sreg (cSRC1 w)) ((s.tc n).sreg (cSRC2 w)) = true)
    (hfetch : s.fetchLine n (codeOf 64 ((pc : Int) + signedOf 32 (cLO w) * 16)) = (s1, true)) :
    brBody n s w pc = .ok (s1.countScalar n) (codeOf 64 ((pc : Int) + signedOf 32 (cLO w) * 16)) := by
  simp only [brBody, hword, Nat.not_lt.mpr hfn, hmark1, hmark2, hcond, hfetch, ne_eq, not_true_eq_false, or_self, Bool.or_self,
    Bool.not_true, Bool.false_eq_true, if_false]

end Branches

/-! ### After END (R223) -/

/-- A Frond whose END has issued issues nothing. -/
theorem issues_of_retired {f : Frond} (hretired : f.retired = true) : f.issues = false := by simp [Frond.issues, hretired]

/-- A Frond that cannot issue is left as it is. -/
theorem issue_of_not_issues {s : State} {n : Nat} (cls op : Nat) (chk : FrondCheck) (body : State → Nat → Nat → Issue)
    (hidle : (s.tc n).issues = false) : s.issue n cls op chk body = s := by
  simp only [State.issue, hidle, Bool.not_false, if_true]

/-- Settles O21: each clause is the law of its kind (`next_scalar` for an instruction that writes a scalar register, `next_issue_ok`
for the others) at what its body does. That FREAD writes no trace record rests on row 144 of the assumption log. The clause of a taken BR
takes a target whose line is fetched. -/
theorem scalarInstructions : Obligations.ScalarInstructions := by
  refine ⟨?vred, ?vlane, ?vstat, ?dqry, ?salu, ?sli, ?brNotTaken, ?brTaken, ?endOp, ?afterEnd, ?fread⟩
  case vred =>
    intro n chk w s hissues hvec hfn hint
    obtain ⟨t, ht, hran⟩ := next_scalar (chk := chk) hissues rfl (redBody_writes _ hvec hfn hint) (CountsOnly.bump _ _ _)
    exact ⟨t, _, ht, rfl, hran⟩
  case vlane =>
    intro n chk w s hissues hvec himm
    refine next_scalar hissues rfl (if_neg ?_) (CountsOnly.rfl' _)
    simpa [hvec] using himm
  case vstat =>
    intro n chk w s hissues hvec
    refine next_scalar hissues rfl (if_neg ?_) (CountsOnly.rfl' _)
    simp [hvec]
  case dqry =>
    intro n chk w h c image s s1 hissues hvec hfn hoperand hmark hh himage hs1 hcount
    exact next_issue_ok hissues rfl
      (dqryBody_writes _ hvec hfn hoperand hmark hh (Prod.ext (eq_ok_of_toOption_eq_some himage) hs1) hcount)
  case salu =>
    rintro n chk w _ s hissues hword hfn hoperand rfl
    exact next_scalar hissues rfl (saluBody_writes _ hword hfn hoperand) (CountsOnly.bump _ _ _)
  case sli =>
    exact fun n chk w s hissues hword => next_scalar hissues rfl (if_neg (not_not.mpr hword)) (CountsOnly.bump _ _ _)
  case brNotTaken =>
    exact fun n chk w s hissues hword hfn hmark1 hmark2 hcond =>
      next_issue_ok hissues rfl (brBody_passes _ hword hfn hmark1 hmark2 hcond)
  case brTaken =>
    rintro n chk w _ s s1 hissues hword hfn hmark1 hmark2 hcond rfl hfetch
    exact next_issue_ok hissues rfl (brBody_jumps _ hword hfn hmark1 hmark2 hcond hfetch)
  case endOp => exact fun n chk w s hissues hword => next_issue_ok hissues rfl (if_neg (not_not.mpr hword))
  case afterEnd => exact fun n cls op chk body s hretired => issue_of_not_issues cls op chk body (issues_of_retired hretired)
  case fread =>
    exact fun n chk w s hissues hword hflag hoperands howns hpoison =>
      next_scalar hissues rfl (freadBody_writes _ hword hflag hoperands howns hpoison) (CountsOnly.bump _ _ _)

end Sys2Proof.Machine
end

section
/-! PROOFS of the family 11_sync_flags_ordering (O3, O26, O22, O27): what every step keeps (R268, R270), the operations of the flag unit
(R269 to R271, R284), the instructions of a Frond that release and wait (R272 to R280), and the commands that bring operations, waits and
host writes to the flag unit (R269, R275, R282, R285, R304). -/

namespace Sys2Proof.Machine

/-! ### Every step keeps the invariant -/

/-- Every command leaves the queue, keeps the invariant, draws free values in order and only adds outputs: each of them by the law of its
own meaning, the `keeps_exec…` of its file under Laws/. -/
theorem keepsR_exec (c : Instr) (s : State) : KeepsR s (exec c s) := by
  cases c <;> simp [exec]

/-- The invariant does not speak of the queue. -/
theorem inv_pending (s : State) (q : List Instr) : ({ s with pending := q } : State).Inv ↔ s.Inv := Iff.rfl

/-- A tick moves device time alone, of which the invariant does not speak. -/
theorem inv_tick (s : State) : s.tick.Inv ↔ s.Inv := Iff.rfl

/-- Settles O3: a step is a tick or the command at the front of the queue, and both keep the invariant (`inv_tick`, `keepsR_exec`). -/
theorem everyStepKeepsTheInvariant : Obligations.EveryStepKeepsTheInvariant := by
  intro s t hinv hstep
  cases hqueue : s.pending with
  | nil =>
    rw [step, hqueue] at hstep
    cases hstep
    exact (inv_tick s).mpr hinv
  | cons c rest =>
    rw [step, hqueue] at hstep
    exact (keepsR_exec c _ t hstep).inv ((inv_pending s rest).mpr hinv)

/-! ### What leaves the flags -/

@[simp] theorem flag_wr (s : State) (a v j : Nat) : (s.wr a v).flag j = s.flag j := rfl

@[simp] theorem flag_progress (s : State) (p j : Nat) : (s.progress p).flag j = s.flag j := rfl

@[simp] theorem flag_bump (s : State) (a n j : Nat) : (s.bump a n).flag j = s.flag j := flag_congr (ReportsOnly.bump s a n).flags j

@[simp] theorem flag_report (s : State) (p : Nat) (r : Report) (j : Nat) : (s.report p r).flag j = s.flag j :=
  flag_congr (ReportsOnly.report s p r).flags j

@[simp] theorem flag_trace (s : State) (p op : Nat) (a : UnitId) (i : Nat) (acq : Bool) (b : UnitId) (v x c j : Nat) :
    (s.trace p op a i acq b v x c).flag j = s.flag j :=
  flag_congr (ReportsOnly.trace s p op a i acq b v x c).flags j

@[simp] theorem flag_notOwned (s : State) (p : Nat) (a : UnitId) (i j : Nat) : (s.notOwned p a i).flag j = s.flag j :=
  flag_congr (ReportsOnly.notOwned s p a i).flags j

@[simp] theorem flag_flagPoisonErr (s : State) (i p : Nat) (a : UnitId) (j : Nat) : (s.flagPoisonErr i p p a).flag j = s.flag j := by
  simp [State.flagPoisonErr]

/-! ### The evaluation of waits (R270) -/

/-- Wait `w` once an operation of `agent` has left its flag at `v`: satisfied if it was pending and `v` has reached its target. -/
def Wait.evaluated (w : Wait) (agent : UnitId) (v : Nat) : Wait :=
  if w.ended = none ∧ w.target ≤ v then { w with ended := some 0, endedBy := agent } else w

theorem Wait.evaluated_of_ended {w : Wait} {code : Nat} (a : UnitId) (v : Nat) (h : w.ended = some code) : w.evaluated a v = w := by
  simp [Wait.evaluated, h]

/-- Flag `f` once its waits have been evaluated after an operation of `agent`. -/
def Flag.evaluated (f : Flag) (agent : UnitId) : Flag := { f with waits := f.waits.map fun w => w.evaluated agent f.value }

@[simp] theorem Flag.value_evaluated (f : Flag) (a : UnitId) : (f.evaluated a).value = f.value := rfl

@[simp] theorem Flag.poisoned_evaluated (f : Flag) (a : UnitId) : (f.evaluated a).poisoned = f.poisoned := rfl

@[simp] theorem Flag.waits_evaluated (f : Flag) (a : UnitId) :
    (f.evaluated a).waits = f.waits.map fun w => w.evaluated a f.value := rfl

/-- From `s` to `t` flag `i` has become `f`, and no other flag has changed. -/
def State.FlagBecomes (s t : State) (i : Nat) (f : Flag) : Prop := ∀ j, t.flag j = if j = i then f else s.flag j

theorem State.FlagBecomes.same {s t : State} {i : Nat} {f : Flag} (h : s.FlagBecomes t i f) : t.flag i = f := (h i).trans (if_pos rfl)

theorem State.FlagBecomes.other {s t : State} {i : Nat} {f : Flag} (h : s.FlagBecomes t i f) {j : Nat} (hj : j ≠ i) :
    t.flag j = s.flag j := (h j).trans (if_neg hj)

/-- The last step of every operation that is taken: the waits of the flag are evaluated at what the operation has made of it. -/
theorem State.FlagBecomes.evalWaits {s t : State} {i : Nat} {f : Flag} (h : s.FlagBecomes t i f) (a : UnitId) :
    s.FlagBecomes (t.evalWaits i a) i (f.evaluated a) := by
  intro j
  rw [evalWaits_flag, h.same]
  by_cases hj : j = i
  · rw [if_pos hj, if_pos hj]; rfl
  · rw [if_neg hj, if_neg hj, h.other hj]

/-! ### Signal, set and wait (R270, R271, R284) -/

section FlagUnit

variable {s : State} {p i : Nat}

section NotOwned

variable (howns : s.owns p 0x33 i = false)
include howns

theorem flagSignal_notOwned (n : Nat) (a : UnitId) (ctx op : Nat) : s.flagSignal p i n a ctx op = (s.notOwned p a i, 0x0503) := by
  simp [State.flagSignal, howns]

theorem flagSet_notOwned (n : Nat) (a : UnitId) (ctx : Nat) : s.flagSet p i n a ctx = (s.notOwned p a i, 0x0503) := by
  simp [State.flagSet, howns]

theorem flagWait_notOwned (n : Nat) (a : UnitId) (ctx : Nat) : s.flagWait p i n a ctx = (s.notOwned p a i, 0x0503) := by
  simp [State.flagWait, howns]

end NotOwned

variable (howns : s.owns p 0x33 i = true)
include howns

/-- A set takes the flag to `n`, of 32 bits, and clears poison. -/
theorem flagSet_owned (n : Nat) (a : UnitId) (ctx : Nat) :
    (s.flagSet p i n a ctx).2 = 0 ∧
      s.FlagBecomes (s.flagSet p i n a ctx).1 i (Flag.evaluated { s.flag i with value := n % 2 ^ 32, poisoned := false } a) := by
  simp only [State.flagSet, howns, Bool.not_true, Bool.false_eq_true, if_false, true_and]
  exact State.FlagBecomes.evalWaits (fun j => by simp) a

section Poisoned

variable (hpoison : (s.flag i).poisoned = true)
include hpoison

theorem flagSignal_poisoned (n : Nat) (a : UnitId) (ctx op : Nat) :
    s.flagSignal p i n a ctx op = (s.flagPoisonErr i p p a, 0x0B05) := by
  simp [State.flagSignal, howns, hpoison]

theorem flagWait_poisoned (n : Nat) (a : UnitId) (ctx : Nat) : s.flagWait p i n a ctx = (s.flagPoisonErr i p p a, 0x0B05) := by
  simp [State.flagWait, howns, hpoison]

end Poisoned

variable (hpoison : (s.flag i).poisoned = false)
include hpoison

/-- A signal whose sum fits 32 bits adds. -/
theorem flagSignal_adds {n : Nat} (hfits : (s.flag i).value + n < 2 ^ 32) (a : UnitId) (ctx op : Nat) :
    (s.flagSignal p i n a ctx op).2 = 0 ∧
      s.FlagBecomes (s.flagSignal p i n a ctx op).1 i (Flag.evaluated { s.flag i with value := (s.flag i).value + n } a) := by
  simp only [State.flagSignal, howns, hpoison, Nat.not_le.mpr hfits, Bool.not_true, Bool.false_eq_true, if_false, true_and]
  exact State.FlagBecomes.evalWaits (fun j => by simp) a

/-- A signal that would wrap is counted, traced and reported to the owner, and the requester goes on. -/
theorem flagSignal_wraps {n : Nat} (hwrap : 2 ^ 32 ≤ (s.flag i).value + n) (a : UnitId) (ctx op : Nat) :
    s.flagSignal p i n a ctx op =
      ((((s.bump (Reg.SYN_PT_REFUSED p) 1).wr (Reg.SYN_PT_LAST_REFUSED p) (i + 2 ^ 31)).trace p 5 a i false ⟨0, 0⟩ (s.flag i).value n
        ctx).report p { code := 0x0B02, rep := a, info := i }, 0) := by
  simp only [State.flagSignal, howns, hpoison, hwrap, Bool.not_true, Bool.false_eq_true, if_false, if_true]

/-- A wait joins the flag's waits, and is over at once if the flag has reached its target. -/
theorem flagWait_begins (target : Nat) (a : UnitId) (ctx : Nat) :
    (s.flagWait p i target a ctx).2 = 0 ∧ s.FlagBecomes (s.flagWait p i target a ctx).1 i (Flag.evaluated
      { s.flag i with waits := (s.flag i).waits ++ [{ agent := a, pt := p, target := target, since := s.now, ctx := ctx }] } a) := by
  simp only [State.flagWait, howns, hpoison, Bool.not_true, Bool.false_eq_true, if_false, true_and]
  exact State.FlagBecomes.evalWaits (fun j => by simp) a

end FlagUnit

/-- Settles O26: each clause is the lemma of its operation. -/
theorem flagOperations : Obligations.FlagOperations := by
  refine ⟨?adds, ?wraps, ?sets, ?notOwned, ?poisoned, ?waits⟩
  case adds =>
    intro s p i n a ctx op howns hpoison hfits
    obtain ⟨hcode, hflag⟩ := flagSignal_adds howns hpoison hfits a ctx op
    refine ⟨hcode, ?_, ?_, fun j hj => hflag.other hj⟩
    · rw [hflag.same, Flag.value_evaluated]
    · rw [hflag.same, Flag.waits_evaluated]; rfl
  case wraps =>
    intro s p i n a ctx op howns hpoison hwrap
    have hwraps := flagSignal_wraps howns hpoison hwrap a ctx op
    refine ⟨by rw [hwraps], fun j => ?_, by rw [hwraps]⟩
    rw [hwraps, flag_report, flag_trace, flag_wr, flag_bump]
  case sets =>
    intro s p i n a ctx howns
    obtain ⟨hcode, hflag⟩ := flagSet_owned howns n a ctx
    refine ⟨hcode, ?_, ?_, fun w hw hended => ?_, fun j hj => hflag.other hj⟩
    · rw [hflag.same, Flag.value_evaluated]
    · rw [hflag.same, Flag.poisoned_evaluated]
    · rw [hflag.same, Flag.waits_evaluated]
      exact List.mem_map.mpr ⟨w, hw, Wait.evaluated_of_ended _ _ hended⟩
  case notOwned =>
    intro s p i n a ctx op howns
    rw [flagSignal_notOwned howns, flagSet_notOwned howns, flagWait_notOwned howns]
    exact ⟨rfl, rfl, rfl, fun j => by simp⟩
  case poisoned =>
    intro s p i n a ctx op howns hpoison
    rw [flagSignal_poisoned howns hpoison, flagWait_poisoned howns hpoison]
    exact ⟨rfl, rfl, fun j => by simp⟩
  case waits =>
    intro s p i target a ctx howns hpoison
    obtain ⟨hcode, hflag⟩ := flagWait_begins howns hpoison target a ctx
    rw [hflag.same]
    exact ⟨hcode, rfl, rfl⟩

/-! ### SIGNAL, FSET, WAIT and FENCE of a Frond (R272 to R280) -/

section SyncBodies

variable {s : State} {n w : Nat}

/-- The operation on a flag that the word `w` of Frond `n` releases. -/
def State.frondFlagOp (s : State) (n w : Nat) (isSet : Bool) : FlagOp :=
  { isSet := isSet, flag := (s.tc n).flagIndex w, n := (s.tc n).flagValue w, pt := s.tcPt n, agent := uTc n, ctx := s.tcCtx n }

/-- The flag that a SIGNAL names is this device's (R281): it has no REMOTE, or its device is this one. -/
def State.signalsHere (s : State) (w : Nat) : Bool := !bitAt w 18 || wfld w 1 18 7 == s.devId

/-- A SIGNAL whose word and operands meet their rules becomes a release to its device. -/
theorem signalBody_releases (pc : Nat)
    (hword : w &&& (wmOp ||| wm 0 16 3 ||| wm 0 0 15 ||| wm 1 0 12 ||| wm 1 18 7 ||| wm 2 0 32) = w) (hflag : flagFieldsOk w = true)
    (hvalue : valueFieldsOk w = true) (hdev : bitAt w 18 = false → wfld w 1 18 7 = 0) (hnonzero : bitAt w 17 = true ∨ wfld w 2 0 32 ≠ 0)
    (hoperands : (s.tc n).flagOperands w true true = 0)
    (howns : s.signalsHere w = true → s.owns (s.tcPt n) 0x33 ((s.tc n).flagIndex w) = true) :
    signalBody n s w pc =
      .ok ((s.pushRelease n (s.frondFlagOp n w false) (if s.signalsHere w then none else some (wfld w 1 18 7))).countSync n) (pc + 16) := by
  have hfields : ¬((w &&& (wmOp ||| wm 0 16 3 ||| wm 0 0 15 ||| wm 1 0 12 ||| wm 1 18 7 ||| wm 2 0 32) ≠ w) ∨ !flagFieldsOk w ∨
      !valueFieldsOk w ∨ (!bitAt w 18 ∧ wfld w 1 18 7 ≠ 0) ∨ (!bitAt w 17 ∧ wfld w 2 0 32 = 0)) := by
    have himm : bitAt w 17 = false → wfld w 2 0 32 ≠ 0 := fun hreg => hnonzero.resolve_left (by simp [hreg])
    simpa [hword, hflag, hvalue] using ⟨hdev, himm⟩
  have hplace : ¬((s.signalsHere w && !s.owns (s.tcPt n) 0x33 ((s.tc n).flagIndex w)) = true) := by simpa using howns
  unfold signalBody
  dsimp only
  rw [if_neg hfields, if_neg (not_not.mpr hoperands)]
  exact if_neg hplace

/-- A FSET of a flag of the Frond's partition becomes a release. -/
theorem fsetBody_releases (pc : Nat) (hword : w &&& (wmOp ||| wm 0 16 2 ||| wm 0 0 15 ||| wm 1 0 12 ||| wm 2 0 32) = w)
    (hflag : flagFieldsOk w = true) (hvalue : valueFieldsOk w = true) (hoperands : (s.tc n).flagOperands w true false = 0)
    (howns : s.owns (s.tcPt n) 0x33 ((s.tc n).flagIndex w) = true) :
    fsetBody n s w pc = .ok ((s.pushRelease n (s.frondFlagOp n w true) none).countSync n) (pc + 16) := by
  simp [fsetBody, hword, hflag, hvalue, hoperands, howns, State.frondFlagOp]

/-- A WAIT that the flag unit takes holds the Frond's issue. -/
theorem waitBody_begins {s1 : State} (pc : Nat) (hword : w &&& (wmOp ||| wm 0 16 2 ||| wm 0 0 15 ||| wm 1 0 12 ||| wm 2 0 32) = w)
    (hflag : flagFieldsOk w = true) (hvalue : valueFieldsOk w = true) (hoperands : (s.tc n).flagOperands w true false = 0)
    (hwait : s.flagWait (s.tcPt n) ((s.tc n).flagIndex w) ((s.tc n).flagValue w) (uTc n) (s.tcCtx n) = (s1, 0)) :
    waitBody n s w pc =
      .ok ((s1.setTc n { s1.tc n with wait := some ((s.tc n).flagIndex w, (s.tc n).flagValue w) }).countSync n) (pc + 16) := by
  simp [waitBody, hword, hflag, hvalue, hoperands, hwait]

/-- The accesses of the operation `x` that a FENCE of kind `kind` names are done (R278): 1 leaves out the loads, 2 the stores. -/
def Frond.fenceDone (f : Frond) (x : Slot) (kind : Nat) : Bool :=
  (kind == 1 || f.loads.isEmpty) && (kind == 2 || (f.stores.filter fun y => y.2 == x.cid).isEmpty)

/-- A FENCE holds the Frond's issue unless the accesses of its kind are done. -/
theorem fenceBody_holds {x : Slot} (pc : Nat) (hword : w &&& (wmOp ||| wm 1 25 2) = w) (hkind : wfld w 1 25 2 ≠ 3)
    (hslot : (s.tc n).slot0 = some x) :
    fenceBody n s w pc = .ok ((s.setTc n { s.tc n with
      fence := if (s.tc n).fenceDone x (wfld w 1 25 2) then none else some (wfld w 1 25 2) }).countSync n) (pc + 16) := by
  have hfields : ¬((w &&& (wmOp ||| wm 1 25 2) ≠ w) ∨ wfld w 1 25 2 = 3) := by simpa [hword] using hkind
  unfold fenceBody
  dsimp only
  rw [if_neg hfields, hslot]
  rfl

end SyncBodies

/-- Settles O22: each clause is `next_issue_ok` at what the body of its instruction does. -/
theorem syncInstructions : Obligations.SyncInstructions := by
  refine ⟨?signalHere, ?signalRemote, ?fset, ?wait, ?fence⟩
  case signalHere =>
    rintro n chk w _ s hissues hword hflag hvalue hdev hnonzero hoperands howns rfl
    have hhere : s.signalsHere w = true := by
      rcases hdev with ⟨hlocal, _⟩ | ⟨hthis, _⟩
      · simp [State.signalsHere, hlocal]
      · simp [State.signalsHere, hthis]
    have hzero : bitAt w 18 = false → wfld w 1 18 7 = 0 := fun hlocal => by
      rcases hdev with ⟨_, hzero⟩ | ⟨_, hremote⟩
      · exact hzero
      · simp [hlocal] at hremote
    have hbody := signalBody_releases (s.tc n).pc hword hflag hvalue hzero hnonzero hoperands fun _ => howns
    rw [if_pos hhere] at hbody
    exact next_issue_ok hissues rfl hbody
  case signalRemote =>
    rintro n chk w _ s hissues hword hflag hvalue hremote hother hnonzero hoperands rfl
    have haway : s.signalsHere w = false := by simp [State.signalsHere, hremote, hother]
    have hbody := signalBody_releases (s.tc n).pc hword hflag hvalue (by simp [hremote]) hnonzero hoperands (by simp [haway])
    rw [if_neg (by simp [haway])] at hbody
    exact next_issue_ok hissues rfl hbody
  case fset =>
    rintro n chk w _ s hissues hword hflag hvalue hoperands howns rfl
    exact next_issue_ok hissues rfl (fsetBody_releases _ hword hflag hvalue hoperands howns)
  case wait =>
    exact fun n chk w s s1 hissues hword hflag hvalue hoperands hwait =>
      next_issue_ok hissues rfl (waitBody_begins _ hword hflag hvalue hoperands hwait)
  case fence =>
    rintro n chk w x _ s hissues hword hkind hslot rfl
    exact next_issue_ok hissues rfl (fenceBody_holds _ hword hkind hslot)

/-! ### Released operations and waits that are over (R269, R270, R275, R304) -/

section Releases

variable {i : Fin 32768} {o : FlagOp} {s : State}

theorem exec_flagSignalApply_taken (hnext : s.nextFlagOp i = some o) (hsignal : o.isSet = false)
    (htaken : ((s.takeFlagOp o).flagSignal o.pt i o.n o.agent o.ctx).2 = 0) :
    exec (.flagSignalApply i false) s = .next ((s.takeFlagOp o).flagSignal o.pt i o.n o.agent o.ctx).1.crzDrain := by
  simp [exec, execFlagSignalApply, State.flagWord, hnext, hsignal, htaken]

theorem exec_flagSetApply_taken (hnext : s.nextFlagOp i = some o) (hset : o.isSet = true)
    (htaken : ((s.takeFlagOp o).flagSet o.pt i o.n o.agent o.ctx).2 = 0) :
    exec (.flagSetApply i false) s = .next ((s.takeFlagOp o).flagSet o.pt i o.n o.agent o.ctx).1.crzDrain := by
  simp [exec, execFlagSetApply, State.flagWord, hnext, hset, htaken]

theorem exec_flagWaitSatisfied_ended {w : Wait} (hended : (s.flag i).waits.find? (fun w => w.ended.isSome) = some w) :
    exec (.flagWaitSatisfied i) s =
      .next ((s.setFlag i { s.flag i with waits := (s.flag i).waits.erase w }).waitOver i w (w.ended.getD 0)).crzDrain := by
  simp only [exec, execFlagWaitSatisfied, hended]

end Releases

theorem exec_waitTimeout_pending {channel : Bool} {n : Fin 64} {i target : Nat} {w : Wait} {s : State}
    (hwait : s.waitOf channel n = some (i, target))
    (hpending : (s.flag i).waits.find?
      (fun w => w.agent == (if channel then uCh n else uTc n) && w.target == target && w.ended.isNone) = some w)
    (hmode : s.rdB (Reg.GS_PT_CFG w.pt) 0 = true) :
    exec (.waitTimeout channel n) s = .next (((((s.setFlag i { s.flag i with waits := (s.flag i).waits.erase w }).trace w.pt 6
      (if channel then uCh n else uTc n) i false ⟨0, 0⟩ (s.flag i).value target w.ctx).report w.pt
        { code := 0x0B03, subj := if channel then uCh n else uTc n, rep := if channel then uCh n else uTc n, info := i }).waitOver
          i w 0x0B03).crzDrain) := by
  simp only [exec, execWaitTimeout, hwait, hpending, hmode, Bool.not_true, Bool.false_eq_true, if_false]

/-! ### Host writes (R282, R285) -/

section HostWrites

variable {fn : Fin 16} {i : Fin 32768} {value : BitVec 32} {q : Nat} {s : State}

theorem exec_flagValueWrite_reached (hpt : s.hostFlagPt fn i = some q) :
    exec (.flagValueWrite fn i value false) s = .next ((s.hostWrote q).flagSet q i value.toNat ⟨0x30, fn⟩).1.crzDrain := by
  simp [exec, execFlagValueWrite, State.flagWord, hpt]

theorem exec_flagAddWrite_reached (hpt : s.hostFlagPt fn i = some q) (hvalue : value ≠ 0#32) :
    exec (.flagAddWrite fn i value false) s = .next ((s.hostWrote q).flagSignal q i value.toNat ⟨0x30, fn⟩).1.crzDrain := by
  simp [exec, execFlagAddWrite, State.flagWord, hpt, hvalue]

theorem exec_flagAddWrite_zero (ue : Bool) (hpt : s.hostFlagPt fn i = some q) :
    exec (.flagAddWrite fn i 0 ue) s = .next (s.report fn { code := 0x0B01, info := i }) := by
  simp [exec, execFlagAddWrite, hpt]

end HostWrites

/-- Settles O27: each clause is the lemma of its command. -/
theorem flagCommands : Obligations.FlagCommands := by
  refine ⟨?signalApply, ?setApply, ?waitSatisfied, ?waitTimeout, ?valueWrite, ?addWrite, ?addZero⟩
  case signalApply => exact fun i o s hnext hsignal htaken => exec_flagSignalApply_taken hnext hsignal htaken
  case setApply => exact fun i o s hnext hset htaken => exec_flagSetApply_taken hnext hset htaken
  case waitSatisfied => exact fun i w s hended => exec_flagWaitSatisfied_ended hended
  case waitTimeout =>
    rintro channel n _ i target w s rfl hwait hpending hmode
    exact exec_waitTimeout_pending hwait hpending hmode
  case valueWrite => exact fun fn i value q s hpt => exec_flagValueWrite_reached hpt
  case addWrite => exact fun fn i value q s hpt hvalue => exec_flagAddWrite_reached hpt hvalue
  case addZero => exact fun fn i ue q s hpt => exec_flagAddWrite_zero ue hpt

end Sys2Proof.Machine
end

section
/-! PROOFS of the family 12_graph_scheduler (O16, O17): how a graph is loaded (R288, R291, R292), unloaded (R288) and aborted (R311), how a
priority changes (R297), how runs are launched (R293), placed (R222, R295, R296), released (R294) and delayed (R303), and how a budget
(R311), a request of copy 2 (R301) and a deadlock (R305, R306) are met. -/

namespace Sys2Proof.Machine

/-! ### Loads (R288, R291, R292) -/

section GraphLoads

variable {p : Fin 16} {s : State}

/-- The load of partition `p` runs, of the header that CMD_ARG names now: GS_PT_p_STATUS holds BUSY alone, so RESULT is 0. -/
def State.graphLoadBegin (s : State) (p : Nat) : State :=
  { s.wr (Reg.GS_PT_STATUS p) 1 with gs := { s.gs with loading := s.gs.loading.put p (s.rdN (Reg.GS_PT_CMD_ARG p)) } }

theorem graphLoadBegin_busy (s : State) (p : Nat) : (s.graphLoadBegin p).gsBusy p = true :=
  congrArg (bitAt · 0) (rdN_wr_same s (Reg.GS_PT_STATUS p) 1)

theorem graphLoadBegin_result (s : State) (p : Nat) : (s.graphLoadBegin p).rdF (Reg.GS_PT_STATUS p) 16 16 = 0 :=
  congrArg (fld · 16 16) (rdN_wr_same s (Reg.GS_PT_STATUS p) 1)

theorem get?_loading_graphLoadBegin (s : State) (p : Nat) :
    Tab.get? (s.graphLoadBegin p).gs.loading p = some (s.rdN (Reg.GS_PT_CMD_ARG p)) :=
  (Tab.get?_put s.gs.loading p p _).trans (if_pos rfl)

/-- The begin of a load changes GS_PT_p_STATUS and the table of loads, and nothing else. -/
theorem graphLoadBegin_changes_only (s : State) (p : Nat) :
    (∀ b, b ≠ Reg.GS_PT_STATUS p → (s.graphLoadBegin p).rd b = s.rd b) ∧
      s.graphLoadBegin p =
        { s with regs := (s.graphLoadBegin p).regs, gs := { s.gs with loading := (s.graphLoadBegin p).gs.loading } } :=
  ⟨fun _ hb => rd_wr_ne s 1 hb, rfl⟩

theorem exec_gsLoad_idle (hidle : s.gsBusy p = false) : exec (.gsLoad p) s = .next (s.graphLoadBegin p) :=
  if_neg (Bool.eq_false_iff.mp hidle)

theorem exec_gsLoad_busy (hbusy : s.gsBusy p = true) : exec (.gsLoad p) s = .next (s.gsResult p 0x070A 0) := if_pos hbusy

/-- The load of partition `p` is over: GS_PT_p_STATUS is 0. -/
def State.graphLoadOver (s : State) (p : Nat) : State :=
  { s.wr (Reg.GS_PT_STATUS p) 0 with gs := { s.gs with loading := s.gs.loading.del p } }

/-- A graph is held: its handle is written and its images extend PMR_0. -/
def State.holdGraph (s : State) (p : Nat) (g : Graph) (image : List Byte) : State :=
  ({ s with gs := { s.gs with graphs := s.gs.graphs ++ [g] } }.wr (Reg.GS_PT_HANDLE p) g.handle).pmrExtend p 0 image

theorem rdN_holdGraph (s : State) (p : Nat) (g : Graph) (image : List Byte) :
    (s.holdGraph p g image).rdN (Reg.GS_PT_HANDLE p) = g.handle % 2 ^ 64 :=
  rdN_wr_same { s with gs := { s.gs with graphs := s.gs.graphs ++ [g] } } (Reg.GS_PT_HANDLE p) g.handle

variable {dva : Nat} {h b : List Byte} {s1 : State}

/-- Images that were read and pass every check give a graph in the records that are picked for it. -/
theorem exec_gsLoadComplete_accepted {l : State × List Nat} (hload : Tab.get? s.gs.loading p = some dva)
    (himages : (s.graphLoadOver p).graphImages p dva = (s1, .ok (h, b))) (hcode : s1.graphCode p h b = 0)
    (hrecords : s1.pickRecords (getLE h 4 2 + 1) s1.usedRecords = l) :
    exec (.gsLoadComplete p) s =
      .next (l.1.holdGraph p (l.1.mkGraph p dva (l.2.headD 0) l.2.tail h b) (h.take 0x7C ++ b)) := by
  subst hrecords
  unfold State.graphLoadOver at himages
  change execGsLoadComplete p s = _
  simp only [execGsLoadComplete, hload, himages, hcode, ne_eq, not_true_eq_false, if_false]
  rfl

/-- Images that were read and fail a check leave its code in RESULT. -/
theorem exec_gsLoadComplete_refused (hload : Tab.get? s.gs.loading p = some dva)
    (himages : (s.graphLoadOver p).graphImages p dva = (s1, .ok (h, b))) (hcode : s1.graphCode p h b ≠ 0) :
    exec (.gsLoadComplete p) s = .next (s1.gsResult p (s1.graphCode p h b) dva) := by
  unfold State.graphLoadOver at himages
  change execGsLoadComplete p s = _
  simp only [execGsLoadComplete, hload, himages, if_pos hcode]

end GraphLoads

/-! ### Commands on a handle (R288, R297, R311) -/

section HandleCommands

variable {p : Fin 16} {g : Graph} {s : State}

theorem gsResult_zero (s : State) (p arg : Nat) : s.gsResult p 0 arg = s.wrF (Reg.GS_PT_STATUS p) 16 16 0 := rfl

theorem hdr_ne_of_mem_dropGraph {x : Graph} (hx : x ∈ (s.dropGraph g).gs.graphs) : x.hdr ≠ g.hdr :=
  bne_iff_ne.mp (List.mem_filter.mp hx).2

theorem exec_gsUnload_unused (hidle : s.gsBusy p = false) (hhandle : s.handleGraph p (s.rdN (Reg.GS_PT_CMD_ARG p)) = some g)
    (hrun : g.cur = none) (hqueue : g.queue = []) :
    exec (.gsUnload p) s = .next ((s.dropGraph g).wrF (Reg.GS_PT_STATUS p) 16 16 0) := by
  change execGsUnload p s = _
  simp only [execGsUnload, hidle, hhandle, hrun, hqueue, gsResult_zero, Option.isSome_none, List.isEmpty_nil, Bool.not_true,
    Bool.false_eq_true, or_self, if_false]

theorem exec_gsUnload_used (hidle : s.gsBusy p = false) (hhandle : s.handleGraph p (s.rdN (Reg.GS_PT_CMD_ARG p)) = some g)
    (hused : g.cur.isSome = true ∨ g.queue ≠ []) :
    exec (.gsUnload p) s = .next (s.gsResult p 0x070A (s.rdN (Reg.GS_PT_CMD_ARG p))) := by
  have hrefuses : g.cur.isSome = true ∨ (!g.queue.isEmpty) = true := by simpa using hused
  change execGsUnload p s = _
  simp only [execGsUnload, hidle, hhandle, if_pos hrefuses, Bool.false_eq_true, if_false]

theorem exec_gsAbort_handle (hidle : s.gsBusy p = false) (hhandle : s.handleGraph p (s.rdN (Reg.GS_PT_CMD_ARG p)) = some g) :
    exec (.gsAbort p) s = .next ((s.abortGraph g 0x0708).wrF (Reg.GS_PT_STATUS p) 16 16 0).crzDrain := by
  change execGsAbort p s = _
  simp only [execGsAbort, hidle, hhandle, Bool.false_eq_true, if_false]

/-- Copies 0 and 1 of operation `op` of graph `g`: those whose list SETPRIO changes. -/
def Graph.reprioritised (g : Graph) (op : Nat) (c : CopyId) : Bool := c.graph == g.hdr && c.op == op && c.copy < 2

/-- The graph with priority `prio` in operation `op`. -/
def Graph.withPrio (g : Graph) (op prio : Nat) : Graph := { g with ops := g.ops.set op { g.opAt op with prio := prio } }

/-- The copies on the ready lists of `p` that satisfy `P`, in the order of the lists. -/
def State.waitingCopies (s : State) (p : Nat) (P : CopyId → Bool) : List CopyId :=
  (List.range 8).flatMap fun k => (s.readyList p k).filter P

/-- An operation of the graph takes its new priority; its copies leave their list and wait at the tail of the new one. -/
theorem exec_setprio_handle {op : Nat} (hidle : s.gsBusy p = false)
    (hhandle : s.handleGraph p (s.rdN (Reg.GS_PT_CMD_ARG p)) = some g) (hfield : op = fld (s.rdN (Reg.GS_PT_CMD_ARG p)) 32 16)
    (hop : op < g.ops.length) (hreserved : fld (s.rdN (Reg.GS_PT_CMD_ARG p)) 51 13 = 0) :
    exec (.setprio p) s = .next (((s.waitingCopies p (g.reprioritised op)).foldl (fun s c => s.enqueue p c false)
      ((s.dequeue p (g.reprioritised op)).setGraph (g.withPrio op (fld (s.rdN (Reg.GS_PT_CMD_ARG p)) 48 3)))).gsResult
        p 0 (s.rdN (Reg.GS_PT_CMD_ARG p))) := by
  subst hfield
  have haccepts : ¬(g.ops.length ≤ fld (s.rdN (Reg.GS_PT_CMD_ARG p)) 32 16 ∨ fld (s.rdN (Reg.GS_PT_CMD_ARG p)) 51 13 ≠ 0) := by
    simpa [hreserved] using hop
  change execSetprio p s = _
  simp only [execSetprio, hidle, hhandle, if_neg haccepts, Bool.false_eq_true, if_false]
  rfl

/-- An invalid handle refuses each of the three commands that name a graph. -/
theorem exec_invalidHandle (hidle : s.gsBusy p = false) (hhandle : s.handleGraph p (s.rdN (Reg.GS_PT_CMD_ARG p)) = none)
    {c : Instr} (hc : c ∈ [Instr.gsUnload p, Instr.gsAbort p, Instr.setprio p]) :
    exec c s = .next (s.gsResult p 0x0704 (s.rdN (Reg.GS_PT_CMD_ARG p))) := by
  simp only [List.mem_cons, List.not_mem_nil, or_false] at hc
  rcases hc with rfl | rfl | rfl
  · change execGsUnload p s = _
    simp only [execGsUnload, hidle, hhandle, Bool.false_eq_true, if_false]
  · change execGsAbort p s = _
    simp only [execGsAbort, hidle, hhandle, Bool.false_eq_true, if_false]
  · change execSetprio p s = _
    simp only [execSetprio, hidle, hhandle, Bool.false_eq_true, if_false]

end HandleCommands

/-- Settles O16: each clause is the lemma of its command. That a load is refused with the code of the first check of R291's table that fails
rests on row 82 of the assumption log; the records that it takes, and with them the handle, on row 79, a choice of the model. -/
theorem graphLoadCommands : Obligations.GraphLoadCommands := by
  refine ⟨?load, ?loadBusy, ?accepted, ?refused, ?unload, ?unloadUsed, ?abort, ?setprio, ?invalid⟩
  case load =>
    exact fun p s hidle => ⟨_, exec_gsLoad_idle hidle, graphLoadBegin_busy s p, graphLoadBegin_result s p,
      get?_loading_graphLoadBegin s p, graphLoadBegin_changes_only s p⟩
  case loadBusy => exact fun p s hbusy => exec_gsLoad_busy hbusy
  case accepted =>
    rintro p dva h b s _ hload rfl himages hcode
    exact ⟨_, _, _, exec_gsLoadComplete_accepted hload himages hcode rfl, rfl, rfl, rfl, rdN_holdGraph _ _ _ _, rfl⟩
  case refused =>
    rintro p dva h b s _ hload rfl himages hcode
    exact exec_gsLoadComplete_refused hload himages hcode
  case unload =>
    exact fun p g s hidle hhandle hrun hqueue =>
      ⟨exec_gsUnload_unused hidle hhandle hrun hqueue, fun _ hx => hdr_ne_of_mem_dropGraph hx⟩
  case unloadUsed => exact fun p g s hidle hhandle hused => exec_gsUnload_used hidle hhandle hused
  case abort => exact fun p g s hidle hhandle => exec_gsAbort_handle hidle hhandle
  case setprio =>
    rintro p g op _ s hidle hhandle hfield hop hreserved rfl
    exact exec_setprio_handle hidle hhandle hfield hop hreserved
  case invalid =>
    exact fun p s hidle hhandle => ⟨exec_invalidHandle hidle hhandle (by simp), exec_invalidHandle hidle hhandle (by simp),
      exec_invalidHandle hidle hhandle (by simp)⟩

/-! ### Launches (R293) -/

section Launches

variable {p : Fin 16} {handle : BitVec 32} {g : Graph} {s : State}

/-- A launch of an idle graph starts its next run. -/
theorem launchAs_idle {handle : Nat} (larg : Nat) (node : Option NodeRef) (hhandle : s.handleGraph p handle = some g)
    (halive : s.rdB Reg.REL_STATUS 0 = false) (hrun : g.cur = none) :
    (s.launchAs p handle larg node).1 =
      ((((s.progress p).needP0.setGraph { g with runs := g.runs + 1 }).runStart g.hdr (g.runs + 1) larg node).gsSettle p) := by
  simp only [State.launchAs, hhandle, halive, hrun, Option.isSome_none, Bool.false_and, Bool.false_eq_true, if_false]

/-- A launch of a graph that runs waits in its queue of four. -/
theorem launchAs_queued {handle : Nat} (larg : Nat) (node : Option NodeRef) (hhandle : s.handleGraph p handle = some g)
    (halive : s.rdB Reg.REL_STATUS 0 = false) (hrun : g.cur.isSome = true) (hroom : g.queue.length < 4) :
    (s.launchAs p handle larg node).1 = (s.progress p).needP0.setGraph
      { g with runs := g.runs + 1, queue := g.queue ++ [(g.runs + 1, larg, node)] } := by
  obtain ⟨r, hr⟩ := Option.isSome_iff_exists.mp hrun
  simp only [State.launchAs, hhandle, halive, hr, decide_eq_false (Nat.not_le_of_lt hroom), Bool.and_false, Bool.false_eq_true, if_false]

theorem launchAs_full {handle : Nat} (larg : Nat) (node : Option NodeRef) (hhandle : s.handleGraph p handle = some g)
    (halive : s.rdB Reg.REL_STATUS 0 = false) (hrun : g.cur.isSome = true) (hfull : 4 ≤ g.queue.length) :
    (s.launchAs p handle larg node).1 = s.gsErr p 0x0704 handle := by
  simp only [State.launchAs, hhandle, halive, hrun, decide_eq_true hfull, Bool.and_self, Bool.false_eq_true, if_false, if_true]

/-- A launch by the host is a launch without a node, with the argument of LAUNCH_ARG. -/
theorem exec_gsLaunch_of_launchAs {t : State}
    (hlaunch : (s.launchAs p handle.toNat (s.rdN (Reg.GS_PT_LAUNCH_ARG p)) none).1 = t) :
    exec (.gsLaunch p handle) s = .next t.crzDrain :=
  congrArg (fun t : State => Host.Outcome.next t.crzDrain) hlaunch

end Launches

/-! ### Placement (R222, R295, R296) -/

section Placement

variable {p : Fin 16} {s : State}

theorem exec_gsDispatch_places {n k : Nat} {c : CopyId} (halive : s.rdB Reg.REL_STATUS 0 = false)
    (hplace : s.nextPlace p = some (n, k, c)) : exec (.gsDispatch p) s = .next (s.place p n k c) := by
  change execGsDispatch p s = _
  simp only [execGsDispatch, halive, hplace, Bool.false_eq_true, if_false]

/-- With no placement to make, a waiting copy takes the slot of a prefetched one, which returns to its list. -/
theorem exec_gsDispatch_withdraws {n k : Nat} {c : CopyId} {x : Slot} (halive : s.rdB Reg.REL_STATUS 0 = false)
    (hplace : s.nextPlace p = none) (hwithdraw : s.withdrawal p = some (c, n, k, x)) :
    exec (.gsDispatch p) s = .next ((((((s.setTc n ((s.tc n).clearSlot k)).bump (Reg.GS_PT_WITHDRAWN p) 1).place p n k c).returnCopy
      p x.cid).gsSettle p).crzDrain) := by
  change execGsDispatch p s = _
  simp only [execGsDispatch, halive, hplace, hwithdraw, Bool.false_eq_true, if_false]

theorem exec_prefetchComplete_slot1 {n : Fin 32} {x : Slot} (hslot : (s.tc n).slot1 = some x) (hprefetch : x.st = 1) :
    exec (.prefetchComplete n 1) s = .next (s.setTc n { s.tc n with slot1 := some { x with st := 2 } }) := by
  change execPrefetchComplete n 1 s = _
  simp only [execPrefetchComplete, hslot, Option.map_some, if_pos hprefetch]
  rfl

end Placement

/-! ### Releases, delays and budgets (R294, R303, R311) -/

section RunEvents

variable {p : Fin 16} {s : State}

theorem exec_gsOpRelease_oldest {e : EndRec} (hend : s.gs.ends.find? (fun e => e.pt == p.val && s.drained e.cid) = some e) :
    exec (.gsOpRelease p) s = .next ((s.endRelease e).gsSettle p).crzDrain := by
  change execGsOpRelease p s = _
  simp only [execGsOpRelease, hend]

/-- The delay tick of partition `p` (R303). -/
def State.delayTick (s : State) (p : Nat) : Nat := s.now / 1000 / max 1 (s.rdF (Reg.GS_PT_CFG p) 8 8)

/-- The delay list of `p` is `l`, and GS_PT_p_READY follows it. -/
def State.setDelay (s : State) (p : Nat) (l : List (Nat × CopyId)) : State :=
  { s with gs := { s.gs with delay := s.gs.delay.put p l } }.gsReady p

/-- An entry of the delay list falls due: its operation becomes ready, unless its copy 0 is no longer delayed. -/
def State.entryDue (s : State) (e : Nat × CopyId) : State :=
  let delayed : Bool := match (s.graphAt e.2.graph).bind fun g => g.copyRun e.2.op 0 with
    | some c => c.phase == .delayed
    | none => false
  if delayed then s.opReady e.2.graph e.2.op else s

theorem entryDue_delayed {due : Nat} {c : CopyId} {x : CopyRun}
    (hcopy : (s.graphAt c.graph).bind (fun g => g.copyRun c.op 0) = some x) (hphase : x.phase = .delayed) :
    s.entryDue (due, c) = s.opReady c.graph c.op := by
  simp [State.entryDue, hcopy, hphase]

/-- A delay tick splits the delay list into the entries that are due and those that stay, and wakes the device when one is due. -/
theorem exec_gsDelayTick {due stay : List (Nat × CopyId)} (hdue : (s.gs.delay.getD p []).filter (fun e => e.1 ≤ s.delayTick p) = due)
    (hstay : (s.gs.delay.getD p []).filter (fun e => s.delayTick p < e.1) = stay) :
    exec (.gsDelayTick p) s =
      .next ((due.foldl State.entryDue ((if due.isEmpty then s else s.wake 4).setDelay p stay)).gsSettle p).crzDrain := by
  subst hdue hstay
  rfl

theorem exec_gsDelayTick_none_due (hlater : ∀ e ∈ s.gs.delay.getD p [], s.delayTick p < e.1) :
    exec (.gsDelayTick p) s = .next (((s.setDelay p (s.gs.delay.getD p [])).gsSettle p).crzDrain) :=
  exec_gsDelayTick (due := []) (List.filter_eq_nil_iff.mpr fun e he => by simpa using hlater e he)
    (List.filter_eq_self.mpr fun e he => decide_eq_true (hlater e he))

/-- The only entry of the list, once due, wakes the device and leaves the list, and its operation becomes ready. -/
theorem exec_gsDelayTick_one_due {due : Nat} {c : CopyId} {x : CopyRun} (hlist : s.gs.delay.getD p [] = [(due, c)])
    (hdue : due ≤ s.delayTick p)
    (hcopy : (((s.wake 4).setDelay p []).graphAt c.graph).bind (fun g => g.copyRun c.op 0) = some x) (hphase : x.phase = .delayed) :
    exec (.gsDelayTick p) s = .next (((((s.wake 4).setDelay p []).opReady c.graph c.op).gsSettle p).crzDrain) := by
  have htick := exec_gsDelayTick (p := p) (s := s) (due := [(due, c)]) (stay := []) (by simp [hlist, hdue]) (by simp [hlist, hdue])
  rw [htick, ← entryDue_delayed hcopy hphase]
  rfl

theorem exec_gsBudgetExpiry_running {handle : BitVec 32} {g : Graph} (hhandle : s.handleGraph p handle.toNat = some g)
    (hbudget : g.budget ≠ 0) (hrun : g.cur.isSome = true) :
    exec (.gsBudgetExpiry p handle) s = .next ((s.abortGraph g 0x0709).crzDrain) := by
  have hexpires : ¬(g.budget = 0 ∨ g.cur.isNone = true) := by simp [hbudget, Option.isNone_eq_false_iff.mpr hrun]
  change execGsBudgetExpiry p handle s = _
  simp only [execGsBudgetExpiry, hhandle, if_neg hexpires]

end RunEvents

/-! ### Copy 2 and deadlocks (R301, R305, R306) -/

section Monitors

variable {p : Fin 16} {s : State}

/-- A request that is accepted is answered with code 0, and copy 2 joins the run and becomes ready. -/
theorem exec_copy2Request_accepted {handle : BitVec 32} {run : BitVec 48} {op : BitVec 16} {g : Graph}
    (hhandle : s.handleGraph p handle.toNat = some g) (hcode : s.copy2Code g run.toNat op.toNat = 0) :
    exec (.copy2Request p handle run op) s = .next (((s.toMailbox p (copy2Answer p handle.toNat run.toNat op.toNat 0)).setRun g.hdr
      fun r => { r with copies := r.copies ++ [{ op := op.toNat, copy := 2, phase := .waiting }] }).copyReady
        p ⟨g.hdr, op.toNat, 2⟩ false) := by
  change execCopy2Request p handle run op s = _
  simp only [execCopy2Request, hhandle, hcode, ne_eq, not_true_eq_false, if_false]

/-- A deadlock of `p` is declared: 0x0705 is raised and counted, the trace freezes, and an edge is recorded for each waiter. -/
def State.deadlockDeclared (s : State) (p : Nat) : State :=
  ((({ s with gs := { s.gs with quiet := s.gs.quiet.put p s.now } }.gsErr p 0x0705).bump (Reg.GS_PT_DEADLOCKS p) 1).wrF
    (Reg.DBG_PT_TRACE_CFG p) 2 1 1).waitEdges p (s.busyFronds p) (s.busyChannels p)

/-- A deadlock is declared once, until its partition makes progress (row 83 of the assumption log). -/
theorem exec_deadlockDeclare_first (hon : s.rdB (Reg.GS_PT_CFG p) 1 = true) (hdead : s.deadlocked p = true)
    (hfirst : Tab.get? s.gs.quiet p = none) :
    exec (.deadlockDeclare p) s = .next (if (s.deadlockDeclared p).rdB Reg.DBG_FRZ_CFG 3 then (s.deadlockDeclared p).freezeLocal 4
      else s.deadlockDeclared p) := by
  change execDeadlockDeclare p s = _
  simp only [execDeadlockDeclare, hon, hdead, hfirst, Bool.not_true, Bool.false_eq_true, or_self, if_false, Option.isSome_none]
  rfl

end Monitors

/-- Settles O17: each clause is the lemma of its command. The layout of the answer to a request of copy 2 is a choice of the model (row 21 of
the assumption log); that a deadlock is declared once rests on row 83. -/
theorem graphRunCommands : Obligations.GraphRunCommands := by
  refine ⟨?launch, ?queue, ?full, ?dispatch, ?withdraw, ?prefetch, ?release, ?delay, ?due, ?budget, ?copy2, ?deadlock⟩
  case launch => exact fun p handle g s hhandle halive hrun => exec_gsLaunch_of_launchAs (launchAs_idle _ _ hhandle halive hrun)
  case queue =>
    exact fun p handle g s hhandle halive hrun hroom => exec_gsLaunch_of_launchAs (launchAs_queued _ _ hhandle halive hrun hroom)
  case full =>
    exact fun p handle g s hhandle halive hrun hfull => exec_gsLaunch_of_launchAs (launchAs_full _ _ hhandle halive hrun hfull)
  case dispatch => exact fun p n k c s halive hplace => exec_gsDispatch_places halive hplace
  case withdraw => exact fun p n k c x s halive hplace hwithdraw => exec_gsDispatch_withdraws halive hplace hwithdraw
  case prefetch => exact fun n x s hslot hprefetch => exec_prefetchComplete_slot1 hslot hprefetch
  case release => exact fun p e s hend => exec_gsOpRelease_oldest hend
  case delay =>
    rintro p _ _ s rfl rfl hlater
    exact exec_gsDelayTick_none_due hlater
  case due =>
    rintro p due c x s _ hlist hdue rfl hcopy hphase
    exact exec_gsDelayTick_one_due hlist hdue hcopy hphase
  case budget => exact fun p handle g s hhandle hbudget hrun => exec_gsBudgetExpiry_running hhandle hbudget hrun
  case copy2 => exact fun p handle run op g s hhandle hcode => exec_copy2Request_accepted hhandle hcode
  case deadlock =>
    rintro p s _ hon hdead hfirst rfl
    exact exec_deadlockDeclare_first hon hdead hfirst

end Sys2Proof.Machine
end

section
/-! PROOFS of the family 13_stream_mover (O28, O29): the instructions of a mover program (R320 to R329), and a channel's starts, aborts
and resumes (R319, R343, R345), its beats (R330 to R333, R344), the end of a run (R339), drains (R341, R393) and spore requests (R337,
R338). -/

namespace Sys2Proof.Machine

/-! ### The next word of a channel (R320 to R322) -/

section NextWord

variable {s : State} {n w : Nat}

theorem chIssues_iff : s.chIssues n w = true ↔
    (s.ch n).live = true ∧ s.chState n = 1 ∧ (s.ch n).cur = none ∧ (s.ch n).failed = false ∧ (s.ch n).skip = none ∧
      ∃ a bs, (s.ch n).line = some (a, bs) ∧ s.rdN (Reg.MOV_CH_PC n) / 64 * 64 = a ∧
        getLE bs (s.rdN (Reg.MOV_CH_PC n) % 64) 8 = w := by
  unfold State.chIssues
  cases hline : (s.ch n).line with
  | none => simp [hline]
  | some e =>
    obtain ⟨a, bs⟩ := e
    simp [hline, and_assoc, eq_comm (a := a)]

/-- The channel's step on the word that it executes next is the body of the word's instruction, which finds RESIDUE at 0 unless it is a
MOVE or MOVX. -/
theorem next_chStep {op : Nat} {body : State → Nat → Nat → State} {t : State} (hissues : s.chIssues n w = true)
    (hop : fld w 58 6 = op) (hknown : knownChOp op = true) (hnoMove : 2 < op)
    (hbody : body (s.wr (Reg.MOV_CH_RESIDUE n) 0) w (s.rdN (Reg.MOV_CH_PC n)) = t) : (.next (s.chStep n op body) : Res) = .next t := by
  rw [chStep_issue body hissues hop hknown, if_pos hnoMove, hbody]

theorem next_chStep_of_move {op : Nat} {body : State → Nat → Nat → State} {t : State} (hissues : s.chIssues n w = true)
    (hop : fld w 58 6 = op) (hknown : knownChOp op = true) (hmove : ¬2 < op) (hbody : body s w (s.rdN (Reg.MOV_CH_PC n)) = t) :
    (.next (s.chStep n op body) : Res) = .next t := by
  rw [chStep_issue body hissues hop hknown, if_neg hmove, hbody]

/-- A word of no instruction ends the run with 0x0802, whichever instruction was asked for. -/
theorem chStep_unknown (op : Nat) (body : State → Nat → Nat → State) (hissues : s.chIssues n w = true)
    (hunknown : knownChOp (fld w 58 6) = false) :
    s.chStep n op body = (s.wr (Reg.MOV_CH_RESIDUE n) 0).chFail n 0x0802 (s.rdN (Reg.MOV_CH_PC n)) := by
  obtain ⟨hlive, hstate, hcur, hok, hskip, a, bs, hline, ha, hword⟩ := chIssues_iff.mp hissues
  unfold State.chStep
  simp [hlive, hstate, hcur, hok, hskip, hline, ha, hword, hunknown]

end NextWord

/-! ### Registers of a channel that an instruction writes -/

section ChannelRegisters

variable (s : State) (n i v : Nat)

theorem movX_ne_movPc : Reg.MOV_CH_X n i ≠ Reg.MOV_CH_PC n := by unfold Reg.MOV_CH_X Reg.MOV_CH_PC; omega

theorem movX_ne_movResidue : Reg.MOV_CH_X n i ≠ Reg.MOV_CH_RESIDUE n := by unfold Reg.MOV_CH_X Reg.MOV_CH_RESIDUE; omega

theorem movResidue_ne_movPc : Reg.MOV_CH_RESIDUE n ≠ Reg.MOV_CH_PC n := by unfold Reg.MOV_CH_RESIDUE Reg.MOV_CH_PC; omega

@[simp] theorem ch_wr (a m : Nat) : (s.wr a v).ch m = s.ch m := rfl

@[simp] theorem chPt_wr (a : Nat) : (s.wr a v).chPt n = s.chPt n := rfl

@[simp] theorem owns_wr (a p c : Nat) : (s.wr a v).owns p c i = s.owns p c i := rfl

theorem wr_regs_only (a : Nat) : s.wr a v = { s with regs := (s.wr a v).regs } := rfl

/-- Changes of registers alone compose. -/
theorem regs_only_trans {s t u : State} (hst : t = { s with regs := t.regs }) (htu : u = { t with regs := u.regs }) :
    u = { s with regs := u.regs } :=
  htu.trans (by rw [hst])

@[simp] theorem chX_wr_residue : (s.wr (Reg.MOV_CH_RESIDUE n) v).chX n i = s.chX n i := rdN_wr_ne s v (movX_ne_movResidue n i)

@[simp] theorem chFlag_wr_residue (w : Nat) : (s.wr (Reg.MOV_CH_RESIDUE n) v).chFlag n w = s.chFlag n w := by simp [State.chFlag]

@[simp] theorem chValue_wr_residue (w : Nat) : (s.wr (Reg.MOV_CH_RESIDUE n) v).chValue n w = s.chValue n w := by simp [State.chValue]

end ChannelRegisters

/-! ### What the body of each instruction does (R323 to R328) -/

section Bodies

variable {s : State} {n w : Nat}

/-- What SETV `w` writes to its register: its immediate, or the register with the signed immediate added (R328). -/
def State.setvValue (s : State) (n w : Nat) : Nat :=
  if bitAt w 54 then codeOf 64 ((s.chX n (fld w 55 3) : Int) + signedOf 48 (fld w 0 48)) else fld w 0 48

theorem setvBody_sets (pc : Nat) (hword : chFields w [(55, 3), (54, 1), (0, 48)] = true) :
    setvBody n s w pc = (s.setChX n (fld w 55 3) (s.setvValue n w)).wr (Reg.MOV_CH_PC n) (pc + 8) := by
  simp only [setvBody, hword, Bool.not_true, Bool.false_eq_true, if_false, State.setvValue]

/-- How often LOOP `w` runs its body (R326): as its register says, or its immediate and once more. -/
def State.loopCount (s : State) (n w : Nat) : Nat := if bitAt w 57 then s.chX n (fld w 54 3) % 2 ^ 32 else fld w 0 16 + 1

/-- The channel of a LOOP with `count` before a body at `body`: the loop is pushed, or the body is to be passed over. -/
def Chan.enterLoop (c : Chan) (body count : Nat) : Chan :=
  if count = 0 then { c with skip := some 0 } else { c with loops := (body, count) :: c.loops }

theorem loopBody_enters (pc : Nat) (hword : chFields w [(57, 1), (54, 3), (0, 16)] = true)
    (hform : (if bitAt w 57 then fld w 0 16 != 0 else fld w 54 3 != 0) = false) (hroom : (s.ch n).loops.length < 4) :
    loopBody n s w pc =
      ((s.setCh n ((s.ch n).enterLoop (pc + 8) (s.loopCount n w))).chDepth n).wr (Reg.MOV_CH_PC n) (pc + 8) := by
  have hok : ¬((!chFields w [(57, 1), (54, 3), (0, 16)] || (if bitAt w 57 then fld w 0 16 != 0 else fld w 54 3 != 0) ||
      4 ≤ (s.ch n).loops.length) = true) := by
    simp [hword, hform, hroom]
  unfold loopBody
  dsimp only
  rw [if_neg hok, ← apply_ite (s.setCh n)]
  rfl

theorem endlBody_loops {body k : Nat} {rest : List (Nat × Nat)} (pc : Nat) (hword : chFields w [] = true)
    (hloops : (s.ch n).loops = (body, k) :: rest) :
    endlBody n s w pc =
      if 1 < k then (s.setCh n { s.ch n with loops := (body, k - 1) :: rest }).wr (Reg.MOV_CH_PC n) body
      else ((s.setCh n { s.ch n with loops := rest }).chDepth n).wr (Reg.MOV_CH_PC n) (pc + 8) := by
  simp only [endlBody, hloops, hword, Bool.not_true, Bool.false_eq_true, if_false]

theorem chWaitBody_waits {i pc : Nat} {s1 : State} (hflag : s.chFlag n w = some i) (hword : chFlagFields w false = true)
    (hwait : s.flagWait (s.chPt n) i (s.chValue n w) (uCh n) pc = (s1, 0)) :
    chWaitBody n s w pc = (s1.setCh n { s1.ch n with wait := some (i, s.chValue n w) }).setChState n 2 := by
  simp only [chWaitBody, hflag, hword, hwait, Bool.not_true, Bool.false_eq_true, if_false, ne_eq, not_true_eq_false]

/-- The release that a SIGNAL of this device's flag `i` adds: it waits for the writes made so far (R327). -/
def State.signalRel (s : State) (n w i : Nat) : ChRel :=
  { needs := (s.ch n).writes.map (·.id), act := .signal i (s.chValue n w) none }

/-- The SIGNAL's release is queued, and the releases that wait for no write are delivered. -/
def State.signalled (s : State) (n w i : Nat) : State :=
  (s.setCh n { s.ch n with rels := (s.ch n).rels ++ [s.signalRel n w i] }).chReleases n ((s.ch n).rels.length + 1)

theorem signalled_wr_residue (v i : Nat) : (s.wr (Reg.MOV_CH_RESIDUE n) v).signalled n w i =
    ((s.wr (Reg.MOV_CH_RESIDUE n) v).setCh n { s.ch n with rels := (s.ch n).rels ++ [s.signalRel n w i] }).chReleases n
      ((s.ch n).rels.length + 1) := by
  simp only [State.signalled, State.signalRel, ch_wr, chValue_wr_residue]

theorem chSignalBody_releases {i : Nat} (pc : Nat) (hflag : s.chFlag n w = some i) (hword : chFlagFields w true = true)
    (hlocal : bitAt w 40 = false) (hvalue : s.chValue n w ≠ 0) (howns : s.owns (s.chPt n) 0x33 i = true)
    (hlive : ((s.signalled n w i).ch n).live = true) :
    chSignalBody n s w pc = (s.signalled n w i).wr (Reg.MOV_CH_PC n) (pc + 8) := by
  simp only [chSignalBody, hflag, hword, hlocal, beq_false_of_ne hvalue, howns, Bool.not_true, Bool.or_self, Bool.false_and,
    Bool.false_eq_true, if_false, Option.isNone_none, Bool.and_false]
  exact if_pos hlive

/-- A run with no instruction in progress ends with 0 where it stands: no burst is to be finished (R339, R343). -/
theorem chEnd_zero (hlive : (s.ch n).live = true) (hcur : (s.ch n).cur = none) :
    s.chEnd n 0 =
      s.setCh n { s.ch n with cur := none, wait := none, run := (s.ch n).run.map fun r => { r with ended := some 0 } } := by
  simp [State.chEnd, hlive, Chan.inBurst, hcur]

theorem haltBody_ends (pc : Nat) (hword : chFields w [] = true) : haltBody n s w pc = s.chEnd n 0 := by simp [haltBody, hword]

/-- The instruction in progress of a MOVE `w` without RING (R323). -/
def State.moveCur (s : State) (n w : Nat) : Cur :=
  let x (lo : Nat) := s.chX n (fld w lo 3)
  let rows := fld w 5 16 + 1
  { movx := false, tr := bitAt w 55, src := x 52, dst := x 49, sstr := x 46, dstr := x 43, len := fld w 21 20, rows := rows,
    ring := false, commit := false, space := true,
    incs := (if bitAt w 42 then [(fld w 52 3, rows * x 46)] else []) ++
      (if bitAt w 41 then [(fld w 49 3, if bitAt w 55 then 4 * rows else rows * x 43)] else []) }

theorem moveBody_begins (pc : Nat) (hzero : fld w 0 5 = 0) (hlen : fld w 21 20 ≠ 0) (hcommit : bitAt w 56 = false)
    (hring : bitAt w 57 = false) (hsstr : s.chX n (fld w 46 3) % 64 = 0) (hdstr : s.chX n (fld w 43 3) % 64 = 0)
    (haligned : [s.chX n (fld w 52 3), s.chX n (fld w 49 3), fld w 21 20].any
      (fun v => v % (if bitAt w 55 then 4 else 64) != 0) = false) :
    moveBody n s w pc = (s.wr (Reg.MOV_CH_RESIDUE n) ((fld w 5 16 + 1) * fld w 21 20)).setCh n
      { s.ch n with cur := some (s.moveCur n w) } := by
  simp only [moveBody, State.moveCur, hzero, beq_false_of_ne hlen, hcommit, hring, hsstr, hdstr, haligned, bne_self_eq_false, Bool.or_self,
    Bool.false_and, Bool.false_eq_true, if_false, ne_eq, not_true_eq_false, or_self, Bool.not_false, Bool.true_or, if_true, Nat.zero_add]

/-- The instruction in progress of a MOVX `w` (R325). -/
def State.movxCur (s : State) (n w : Nat) : Cur :=
  let x (lo : Nat) := s.chX n (fld w lo 3)
  let rows := fld w 5 16 + 1
  { movx := true, src := x 52, dst := x 49, tbl := x 46, lim := x 43, len := fld w 21 20, rows := rows, scat := bitAt w 57,
    skipEn := bitAt w 56, incs := if bitAt w 42 then [(fld w 46 3, 4 * rows)] else [] }

theorem movxBody_begins (pc : Nat) (hzero : fld w 0 5 = 0) (hlen : fld w 21 20 ≠ 0) (h55 : bitAt w 55 = false) (h41 : bitAt w 41 = false)
    (htable : s.chX n (fld w 46 3) % 4 = 0)
    (haligned : [s.chX n (fld w 52 3), s.chX n (fld w 49 3), fld w 21 20].any (fun v => v % 64 != 0) = false) :
    movxBody n s w pc = (s.wr (Reg.MOV_CH_RESIDUE n) ((fld w 5 16 + 1) * fld w 21 20)).setCh n
      { s.ch n with cur := some (s.movxCur n w) } := by
  simp only [movxBody, h55, h41, hzero, beq_false_of_ne hlen, htable, haligned, bne_self_eq_false, Bool.or_self, Bool.false_eq_true,
    if_false]
  rfl

end Bodies

/-- Settles O28: each clause is `next_chStep` or `next_chStep_of_move` at what the body of its instruction does. -/
theorem moverPrograms : Obligations.MoverPrograms := by
  refine ⟨?setv, ?loop, ?endl, ?wait, ?signal, ?halt, ?move, ?movx, ?unknown⟩
  case setv =>
    intro ch w s hissues hop hword
    have hX := movX_ne_movPc ch (fld w 55 3)
    have hR := movX_ne_movResidue ch (fld w 55 3)
    have hP := movResidue_ne_movPc ch
    refine ⟨_, next_chStep hissues hop rfl (by decide) (setvBody_sets _ hword), ?_, rdN_wr_same _ _ _, ?_, ?_,
      regs_only_trans (regs_only_trans (wr_regs_only s _ _) (wr_regs_only _ _ _)) (wr_regs_only _ _ _)⟩
    · rw [rdN_wr_ne _ _ hX, State.setChX, rdN_wr_same, Nat.mod_mod]
      exact congrArg (· % 2 ^ 64) (by simp [State.setvValue])
    · rw [rdN_wr_ne _ _ hP, State.setChX, rdN_wr_ne _ _ hR.symm]
      exact rdN_wr_same s _ 0
    · intro b hbX hbP hbR
      rw [rd_wr_ne _ _ hbP, State.setChX, rd_wr_ne _ _ hbX]
      exact rd_wr_ne s 0 hbR
  case loop =>
    rintro ch w _ s hissues hop hword hform hroom rfl
    have hbody := loopBody_enters (s := s.wr (Reg.MOV_CH_RESIDUE ch) 0) (s.rdN (Reg.MOV_CH_PC ch)) hword hform (by rwa [ch_wr])
    rw [State.loopCount, chX_wr_residue, ch_wr] at hbody
    exact next_chStep hissues hop rfl (by decide) hbody
  case endl =>
    intro ch w body k rest s hissues hop hword hloops
    have hbody := endlBody_loops (s := s.wr (Reg.MOV_CH_RESIDUE ch) 0) (s.rdN (Reg.MOV_CH_PC ch)) hword (by rwa [ch_wr])
    rw [ch_wr] at hbody
    exact next_chStep hissues hop rfl (by decide) hbody
  case wait =>
    intro ch w i s s1 hissues hop hflag hword hwait
    have hbody := chWaitBody_waits (s := s.wr (Reg.MOV_CH_RESIDUE ch) 0) (by rwa [chFlag_wr_residue]) hword
      (by rwa [chPt_wr, chValue_wr_residue])
    rw [chValue_wr_residue] at hbody
    exact next_chStep hissues hop rfl (by decide) hbody
  case signal =>
    rintro ch w i s _ hissues hop hflag hword hlocal hvalue howns rfl hlive
    have hbody := chSignalBody_releases (s := s.wr (Reg.MOV_CH_RESIDUE ch) 0) (s.rdN (Reg.MOV_CH_PC ch)) (by rwa [chFlag_wr_residue])
      hword hlocal (by rwa [chValue_wr_residue]) (by rwa [chPt_wr, owns_wr]) (by rwa [signalled_wr_residue])
    rw [signalled_wr_residue] at hbody
    exact next_chStep hissues hop rfl (by decide) hbody
  case halt =>
    intro ch w s hissues hop hword
    obtain ⟨hlive, _, hcur, _⟩ := chIssues_iff.mp hissues
    have hend := chEnd_zero (s := s.wr (Reg.MOV_CH_RESIDUE ch) 0) (n := ch) (by rwa [ch_wr]) (by rwa [ch_wr])
    rw [ch_wr] at hend
    exact next_chStep hissues hop rfl (by decide) ((haltBody_ends _ hword).trans hend)
  case move =>
    rintro ch w _ _ s _ hissues hop rfl rfl rfl hzero hlen hcommit hring hsstr hdstr haligned
    exact next_chStep_of_move hissues hop rfl (by decide) (moveBody_begins _ hzero hlen hcommit hring hsstr hdstr haligned)
  case movx =>
    rintro ch w _ _ s _ hissues hop rfl rfl rfl hzero hlen h55 h41 htable haligned
    exact next_chStep_of_move hissues hop rfl (by decide) (movxBody_begins _ hzero hlen h55 h41 htable haligned)
  case unknown => exact fun ch w op body s hissues hunknown => chStep_unknown op body hissues hunknown

/-! ### Starts, aborts, resumes and ring resets (R319, R336, R343, R345) -/

section Runs

variable {ch : Fin 64} {s : State}

theorem exec_movStart_accepted (hfree : (s.ch ch).held = none) (hcode : s.startCode ch (s.rdN (Reg.MOV_CH_PROG ch)) = 0)
    (halive : s.rdB Reg.REL_STATUS 0 = false) :
    exec (.movStart ch) s = .next
      (s.chBegin ch (s.rdN (Reg.MOV_CH_PROG ch)) ((List.range 4).map fun i => s.rdN (Reg.MOV_CH_ARG ch i)) none).crzDrain := by
  change execMovStart ch s = _
  simp only [execMovStart, State.movStart, hfree, hcode, halive, Option.isSome_none, Bool.false_eq_true, if_false, ne_eq,
    not_true_eq_false]

theorem exec_movStart_refused (hcode : s.startCode ch (s.rdN (Reg.MOV_CH_PROG ch)) ≠ 0) (hfree : (s.ch ch).held = none) :
    exec (.movStart ch) s = .next (s.chErr ch (s.startCode ch (s.rdN (Reg.MOV_CH_PROG ch)))).crzDrain := by
  change execMovStart ch s = _
  simp only [execMovStart, State.movStart, hfree, Option.isSome_none, Bool.false_eq_true, if_false, if_pos hcode]

/-- A run that neither waits nor has failed beats is marked as aborted and ended as it stands (R343). -/
theorem exec_movAbort_running (hlive : (s.ch ch).live = true) (hstate : s.chState ch = 1) (hok : (s.ch ch).failed = false) :
    exec (.movAbort ch) s = .next ((((s.event (uCh ch) 0x04 (s.chPt ch) 0x0806 (s.rdN (Reg.MOV_CH_RUNS ch)) 0).setChRun ch
      fun r => { r with aborted := true, wasHalted := false }).chErr ch 0x0806).chEnd ch 0x0806).crzDrain := by
  change execMovAbort ch s = _
  simp [execMovAbort, State.chAbort, hlive, hstate, hok]

/-- The channel with its failed beats queued again: the reads to be issued, the writes before those that are ready (R345). -/
def Chan.redoFailed (c : Chan) : Chan :=
  { c with failed := false, redo := c.failedR, ready := c.failedW ++ c.ready, failedR := [], failedW := [] }

theorem exec_movResume_halted (hlive : (s.ch ch).live = true) (hstate : s.chState ch = 3) :
    exec (.movResume ch) s = .next (((s.setCh ch (s.ch ch).redoFailed).setChState ch 1).chRetire ch) := by
  change execMovResume ch s = _
  simp [execMovResume, hlive, hstate, Chan.redoFailed]

theorem exec_movResume_elsewhere (hstate : s.chState ch ≠ 3) : exec (.movResume ch) s = .next (s.chErr ch 0x0809) :=
  if_pos (.inl hstate)

theorem chPt_of_ownerOf {n p : Nat} (howner : s.ownerOf 0x21 n = some p) : s.chPt n = p := by simp [State.chPt, howner]

/-- The release that sets flag `i` of partition `p` to 0 for channel `n` (R336). -/
def ringFlagClear (n p i : Nat) : FlagOp := { isSet := true, flag := i, n := 0, pt := p, agent := uCh n }

theorem exec_movRingReset_idle {p : Nat} (hstate : s.chState ch = 0) (howner : s.ownerOf 0x21 ch = some p) :
    exec (.movRingReset ch) s = .next ((((s.wr (Reg.MOV_CH_RING_TAIL ch) 0).setCh ch { s.ch ch with slotOpen := false }).flagPush
      (ringFlagClear ch p (fld (s.rdN (Reg.MOV_CH_RING_FLAGS ch)) 0 15))).flagPush
      (ringFlagClear ch p (fld (s.rdN (Reg.MOV_CH_RING_FLAGS ch)) 16 15))) := by
  change execMovRingReset ch s = _
  simp [execMovRingReset, hstate, howner, chPt_of_ownerOf howner, ringFlagClear]

end Runs

/-! ### Beats (R330 to R333, R344) -/

section Beats

variable {s : State}

/-- The channels of mover `m` that have a beat ready in a direction. -/
def State.beatsReady (s : State) (m : Nat) (write : Bool) : List Nat :=
  ((List.range 16).map (m * 16 + ·)).filter fun n => s.beatReady n write

/-- TAG_STALL counts for the channels of `r` with no tag free, one for each slot (R331; row 53 of the assumption log). -/
def State.countTagStalls (s : State) (r : List Nat) (write : Bool) : State :=
  (r.filter fun n => !s.tagFree n write).foldl (fun s n => s.bump (Reg.MOV_CH_TAG_STALL n) 1) s

/-- PREEMPTED counts for the channels of `r` whose priority in `s` is below that of channel `n`, one for each slot (R333; row 53). -/
def State.countPreempted (t s : State) (r : List Nat) (n : Nat) : State :=
  (r.filter fun k => s.rdF (Reg.MOV_CH_PRIO k) 0 3 < s.rdF (Reg.MOV_CH_PRIO n) 0 3).foldl
    (fun t k => t.bump (Reg.MOV_CH_PREEMPTED k) 1) t

/-- The slot of mover `m` in a direction has gone to channel `n`: the round-robin starts after it next time. -/
def State.slotWon (s : State) (m : Nat) (write : Bool) (n : Nat) : State :=
  { s with movRR := s.movRR.put (m * 2 + write.toNat) (n % 16) }

theorem beatIssue_winner {m n : Nat} {write : Bool} (hwinner : s.beatWinner m write = some n) :
    let r := s.beatsReady m write
    let t := ((((s.countTagStalls r write).progress (s.chPt n)).countPreempted s r n).slotWon m write n)
    s.beatIssue m write = if write then t.chWriteBeat n else t.chReadBeat n := by
  unfold State.beatIssue
  rw [hwinner]
  rfl

theorem chHaltCheck_of_not_failed {n : Nat} (hok : (s.ch n).failed = false) : s.chHaltCheck n = s := by simp [State.chHaltCheck, hok]

theorem chRetire_of_no_cur {n : Nat} (hcur : (s.ch n).cur = none) : s.chRetire n = s := by simp [State.chRetire, hcur]

theorem chReleases_of_no_rels {n fuel : Nat} (hrels : (s.ch n).rels = []) : s.chReleases n fuel = s := by
  cases fuel <;> simp [State.chReleases, hrels]

/-- With no release waiting, a write that becomes visible leaves the drains alone that wait for it. -/
theorem chVisible_of_no_rels {n : Nat} (id : Nat) (hrels : (s.ch n).rels = []) :
    s.chVisible n id = s.setCh n { s.ch n with drains := (s.ch n).drains.map fun d => d.filter (· != id) } := by
  unfold State.chVisible
  dsimp only
  rw [chReleases_of_no_rels (by simp [hrels])]
  simp only [hrels, List.map_nil]

variable {ch : Fin 64} {b : Beat} {bs : List Beat}

theorem exec_moverReadReturn_good (hreads : (s.ch ch).reads = b :: bs) (hhere : s.remotePending 2 ch b.pa = false)
    (hgood : s.poisonedPA b.pa b.len = false) (hwrites : ((s.ch ch).run.map (·.noWrite)).getD false = false)
    (hok : (s.ch ch).failed = false) :
    exec (.moverReadReturn ch) s = .next (s.setCh ch
      { s.ch ch with reads := bs, ready := (s.ch ch).ready ++ [{ b with data := s.readPA b.pa b.len, bad := false }] }) := by
  change execMoverReadReturn ch s = _
  simp only [execMoverReadReturn, State.chReadReturn, hreads, hhere, hgood, hwrites, Bool.false_and, Bool.false_eq_true, if_false]
  rw [chHaltCheck_of_not_failed (by simpa using hok)]

/-- The channel once its oldest write, of tag `id`, is visible and the writes `bs` are left (R331). -/
def Chan.writeVisible (c : Chan) (id : Nat) (bs : List Beat) : Chan :=
  { c with writes := bs, drains := c.drains.map fun d => d.filter (· != id) }

theorem exec_moverWriteAck_visible (hwrites : (s.ch ch).writes = b :: bs) (hhere : s.remotePending 1 ch b.pa = false)
    (hrels : (s.ch ch).rels = []) (hcur : (s.ch ch).cur = none) (hok : (s.ch ch).failed = false) :
    exec (.moverWriteAck ch) s = .next ((s.setCh ch { s.ch ch with writes := bs }).setCh ch ((s.ch ch).writeVisible b.id bs)) := by
  change execMoverWriteAck ch s = _
  simp only [execMoverWriteAck, State.chWriteAck, hwrites, hhere, Bool.false_eq_true, if_false]
  rw [chVisible_of_no_rels _ (by simpa using hrels), chRetire_of_no_cur (by simpa using hcur),
    chHaltCheck_of_not_failed (by simpa using hok), ch_setCh, if_pos rfl]
  rfl

/-- The oldest read is the beat that fails. -/
theorem exec_moverBusError_read (hreads : (s.ch ch).reads = b :: bs) :
    exec (.moverBusError ch false) s = .next ((s.setCh ch { s.ch ch with reads := bs }).chBeatFailed ch b false) := by
  change execMoverBusError ch false s = _
  simp [execMoverBusError, State.chBus, hreads]

end Beats

/-! ### The end of a run, and drains (R339, R341, R393) -/

section Ends

variable {ch : Fin 64} {s : State}

/-- Channel `n` with its run over, IDLE with the run's code (R339). -/
def State.chIdle (s : State) (n code : Nat) : State :=
  (s.setCh n { s.ch n with run := none, cur := none, line := none, redo := [], failedR := [], failedW := [], failed := false }).wr
    (Reg.MOV_CH_STATE n) ((s.ch n).loops.length * 16 + code * 65536)

/-- The interrupt of an ended run to the channel's partition `p`, when the channel's IRQ register asks for it: bit 0 for code 0, bit 1 for
an error (R339). -/
def State.chEndIrq (s : State) (n p code : Nat) : State :=
  if s.rdB (Reg.MOV_CH_IRQ n) (if code = 0 then 0 else 1) then s.irqReg p (Reg.QM_CH_IVEC n) else s

/-- The release of the run's end, which DONE_FLAG and the node wait for, and the event of it. -/
def State.chDone (s : State) (n p code : Nat) (r : ChRun) : State :=
  (s.setCh n { s.ch n with rels := (s.ch n).rels ++
    [{ needs := (s.ch n).writes.map (·.id), act := .done (s.rdN (Reg.MOV_CH_DONE_FLAG n)) r.node code }] }).event (uCh n) 0x02
      p code (s.rdN (Reg.MOV_CH_RUNS n)) r.bytes

theorem exec_moverRunComplete_over {r : ChRun} (hrun : (s.ch ch).run = some r) (hover : (s.ch ch).runOver = true) :
    let code := r.ended.getD 0
    exec (.moverRunComplete ch) s =
      .next ((((s.chIdle ch code).chEndIrq ch (s.chPt ch) code).chWriteRecord ch r code).chDone ch (s.chPt ch) code r).crzDrain := by
  change execMoverRunComplete ch s = _
  simp only [execMoverRunComplete, State.chRunComplete, hrun, hover, Bool.not_true, Bool.false_eq_true, if_false]
  rfl

/-- The end of a run of no node, once its writes are visible, signals DONE_FLAG when that is enabled. -/
theorem exec_chDoneSignal_visible {flagReg code : Nat} {rs : List ChRel}
    (hrels : (s.ch ch).rels = { needs := [], act := .done flagReg none code } :: rs) :
    exec (.chDoneSignal ch) s = .next (((if bitAt flagReg 31 then
        (s.setCh ch { s.ch ch with rels := rs }).flagPush
          { isSet := false, flag := fld flagReg 0 15, n := 1, pt := s.chPt ch, agent := uCh ch }
      else s.setCh ch { s.ch ch with rels := rs }).chReleases ch (rs.length + 1)).crzDrain) := by
  change execChDoneSignal ch s = _
  simp [execChDoneSignal, hrels]

theorem exec_chDrainReturn_visible {ds : List (List Nat)} (hdrains : (s.ch ch).drains = [] :: ds) :
    exec (.chDrainReturn ch) s =
      .next ((s.setCh ch { s.ch ch with drains := ds }).emit (.readData (s.rdN (Reg.MOV_CH_RUNS ch) % 2 ^ 48))) := by
  change execChDrainReturn ch s = _
  simp only [execChDrainReturn, hdrains]

/-- The bits below bit 63 are a free value (row 54 of the assumption log). -/
theorem exec_drainTimeout_channel {d : List Nat} {ds : List (List Nat)} (hdrains : (s.ch ch).drains = d :: ds) :
    exec (.drainTimeout true ch) s =
      .next ((s.fresh.2.setCh ch { s.ch ch with drains := ds }).emit (.readData (2 ^ 63 + s.fresh.1 % 2 ^ 63))) := by
  change execDrainTimeout true ch s = _
  simp only [execDrainTimeout, hdrains, if_true]

theorem exec_drainTimeout_partition {p : Fin 64} (hdrain : s.qm.drainReads.contains p.val = true) :
    exec (.drainTimeout false p) s =
      .next { s with qm := { s.qm with drainReads := s.qm.drainReads.erase p.val }, out := s.out ++ [.readData (2 ^ 63)] } := by
  change execDrainTimeout false p s = _
  simp only [execDrainTimeout, hdrain, Bool.false_eq_true, if_false, if_true]

end Ends

/-! ### The spore path (R337, R338) -/

section Spores

variable {ch : Fin 64} {s : State}

/-- The inline request that SPORE_CTL `ctl` makes of the operand registers as they are now (R337). -/
def State.inlineSpore (s : State) (n ctl : Nat) : Spore :=
  let len := fld ctl 0 8 + 1
  { inline := some (((List.range 4).flatMap fun i => leBytes 8 (s.rdN (Reg.MOV_CH_SPORE_DATA n i))).take len),
    src := s.rdN (Reg.MOV_CH_SPORE_SRC n), dst := s.rdN (Reg.MOV_CH_SPORE_DST n), len := len,
    flag := if bitAt ctl 24 then some (fld ctl 9 15) else none }

theorem exec_sporeSubmit_inline {value : BitVec 32} (hroom : (s.ch ch).spores.length < 16) (howned : (s.ownerOf 0x21 ch).isSome = true)
    (halive : s.rdB Reg.REL_STATUS 0 = false) (hinline : bitAt value.toNat 8 = true) (hlen : fld value.toNat 0 8 + 1 ≤ 32)
    (hpage : s.rdN (Reg.MOV_CH_SPORE_DST ch) % 4096 + (fld value.toNat 0 8 + 1) ≤ 4096) :
    exec (.sporeSubmit ch value) s =
      .next ((s.setCh ch { s.ch ch with spores := (s.ch ch).spores ++ [s.inlineSpore ch value.toNat] }).wrF
        (Reg.MOV_CH_SPORE_STATUS ch) 0 5 ((s.ch ch).spores.length + 1)) := by
  have hunowned : (s.ownerOf 0x21 ch).isNone = false := by simpa using howned
  change execSporeSubmit ch value s = _
  simp only [execSporeSubmit, State.sporeSubmit, decide_eq_false (Nat.not_le.mpr hroom), hunowned, halive, hinline,
    decide_eq_false (Nat.not_lt.mpr hlen), decide_eq_false (Nat.not_lt.mpr hpage), Bool.not_true, Bool.and_false, Bool.false_and,
    Bool.or_self, Bool.false_eq_true, if_false, if_true]
  rfl

/-- An inline request to memory in the package is stored and finished in one step (row 52 of the assumption log). -/
theorem exec_sporeComplete_inline {x : Spore} {xs : List Spore} {bs : List Byte} {pa : Nat} (hspores : (s.ch ch).spores = x :: xs)
    (hpa : s.xlate (s.chPt ch) x.dst x.len .write = .ok pa) (hwrote : x.wrote = false) (hinline : x.inline = some bs)
    (htarget : targetOf pa = .inPackage) :
    exec (.sporeComplete ch) s = .next ((s.sporeStore ch 0 true pa (bs.length + 1) bs).sporeFinish ch x) := by
  change execSporeComplete ch s = _
  simp [execSporeComplete, State.sporeStep, State.sporeMove, hspores, hpa, hwrote, hinline, htarget]

end Spores

/-- Settles O29: each clause is the lemma of its command. That TAG_STALL and PREEMPTED count once for each slot and that a spore request is
done in one step are choices of the model (rows 53 and 52 of the assumption log); that the other bits of a drain's time-out are free
rests on row 54. -/
theorem moverCommands : Obligations.MoverCommands := by
  refine ⟨?start, ?startRefused, ?abort, ?resume, ?resumeRefused, ?ringReset, ?beatIssue, ?readReturn, ?writeAck, ?busError, ?runComplete,
    ?doneSignal, ?drainRead, ?drainReturn, ?drainTimeout, ?partitionTimeout, ?sporeSubmit, ?sporeComplete⟩
  case start => exact fun ch s hfree hcode halive => exec_movStart_accepted hfree hcode halive
  case startRefused => exact fun ch s hcode hfree => exec_movStart_refused hcode hfree
  case abort => exact fun ch s hlive hstate hok => exec_movAbort_running hlive hstate hok
  case resume => exact fun ch s hlive hstate => exec_movResume_halted hlive hstate
  case resumeRefused => exact fun ch s hstate => exec_movResume_elsewhere hstate
  case ringReset =>
    rintro ch p _ s hstate howner rfl
    exact exec_movRingReset_idle hstate howner
  case beatIssue =>
    rintro m write n _ s _ _ hwinner rfl rfl rfl
    exact congrArg Host.Outcome.next (beatIssue_winner hwinner)
  case readReturn => exact fun ch b bs s hreads hhere hgood hwrites hok => exec_moverReadReturn_good hreads hhere hgood hwrites hok
  case writeAck =>
    intro ch b bs s hwrites hhere hrels hcur hok
    refine ⟨_, exec_moverWriteAck_visible hwrites hhere hrels hcur hok, ?_, ?_, rfl⟩
    · simp [Chan.writeVisible]
    · intro m hm
      simp [hm]
  case busError => exact fun ch b bs s hreads => exec_moverBusError_read hreads
  case runComplete =>
    rintro ch r _ s _ _ hrun hover rfl rfl rfl
    exact exec_moverRunComplete_over hrun hover
  case doneSignal =>
    rintro ch flagReg code rs s _ hrels rfl
    exact exec_chDoneSignal_visible hrels
  case drainRead => exact fun ch s => rfl
  case drainReturn => exact fun ch ds s hdrains => exec_chDrainReturn_visible hdrains
  case drainTimeout => exact fun ch d ds s hdrains => ⟨_, exec_drainTimeout_channel hdrains⟩
  case partitionTimeout => exact fun p s hdrain => exec_drainTimeout_partition hdrain
  case sporeSubmit =>
    rintro ch value _ s rfl hroom howned halive hinline hlen hpage
    exact exec_sporeSubmit_inline hroom howned halive hinline hlen hpage
  case sporeComplete =>
    exact fun ch x xs bs pa s hspores hpa hwrote hinline htarget =>
      exec_sporeComplete_inline hspores (eq_ok_of_toOption_eq_some hpa) hwrote hinline htarget

end Sys2Proof.Machine
end

section
/-! PROOFS of the statements about the state and its steps (O1, O2, O4, O5, O7, O24): what a step takes off the queue and what every
step keeps (R398, R421, R524), the invariant at reset (R567), physical memory (R350, R368), and what counting can change (R537 to R541). -/

namespace Sys2Proof.Machine

/-! ### Steps -/

theorem step_of_pending_nil {s : State} (h : s.pending = []) : step s = .next s.tick := by rw [step, h]

theorem step_of_pending_cons {s : State} {c : Instr} {rest : List Instr} (h : s.pending = c :: rest) :
    step s = exec c { s with pending := rest } := by rw [step, h]

/-- Settles O1: the front of the queue is what a step matches on. -/
theorem stepRunsFrontCommand : Obligations.StepRunsFrontCommand := fun _ _ _ => step_of_pending_cons rfl

/-- Settles O2: with an empty queue a step is a tick (row 41 of the assumption log), which moves device time alone. -/
theorem idleStepTicksDeviceTime : Obligations.IdleStepTicksDeviceTime :=
  fun s h => ⟨s.tick, step_of_pending_nil h, rfl, rfl⟩

/-- Settles O5: what every command keeps (`keepsR_exec`), of a step that runs the front of the queue. The outputs as one list and the
counter of free values are rows 2 and 4 of the assumption log; that the counter does not go back is all that is said of free values. -/
theorem everyStepTakesOneCommandAndKeepsOutputs : Obligations.EveryStepTakesOneCommandAndKeepsOutputs := by
  intro c rest s t hqueue hstep
  rw [step_of_pending_cons hqueue] at hstep
  have hkeeps := keepsR_exec c _ t hstep
  exact ⟨hkeeps.pending, hkeeps.out, hkeeps.freeCtr⟩

/-- Settles O4: after cold reset every table is empty but the registers that read other than their reset values, which stand in rising
order. -/
theorem resetMeetsTheInvariant : Obligations.ResetMeetsTheInvariant :=
  ⟨⟨by decide +kernel, rfl, rfl⟩, fun _ hflag => nomatch hflag⟩

/-! ### Physical memory -/

theorem wf_storePA {s : State} (a : Nat) (bs : List Byte) (bad : Bool) (h : Memory.wf s.mem = true) :
    Memory.wf (s.storePA a bs bad).mem = true := by
  unfold State.storePA
  split
  · exact h
  · exact Memory.wf_writeAll a bs h

/-- Settles O7: a store writes its bytes one after the other (`readByte_storePA`), each into a canonical table. -/
theorem memoryReadsAsLastWritten : Obligations.MemoryReadsAsLastWritten :=
  ⟨readByte_storePA, fun _ a bs bad => wf_storePA a bs bad⟩

/-! ### Counting -/

/-- A maximum is a register, written or not. -/
theorem CountsOnly.rcMax (s : State) (a v : Nat) : CountsOnly s (s.rcMax a v) := by
  unfold State.rcMax
  split
  · exact CountsOnly.rfl' s
  · exact CountsOnly.wr s a v

/-- Settles O24: what counters and interrupts write are registers, outputs, event rings and the queue manager's record of interrupts. -/
theorem countingLeavesTheRest : Obligations.CountingLeavesTheRest :=
  ⟨CountsOnly.bump, CountsOnly.irq, CountsOnly.rcMax⟩

end Sys2Proof.Machine
end

section
/-! PROOFS of the family 14_memory_system_cache (O30, O47): the cache and translation commands and the windows of the memory block
(R356, R364 to R373), and the chunk check of every access (R383). -/

namespace Sys2Proof.Machine

/-! ### Commands that run until their completion (R365, R373) -/

section Started
variable {p op result : Nat} {s : State}

/-- A cache command is refused while one runs. -/
theorem cacheStart_busy (hbusy : s.rdB (Reg.MEM_PT_CACHE_STATUS p) 0 = true) : s.cacheStart p op result = s.err p uMem 0x0906 := by
  simp [State.cacheStart, hbusy]

/-- A cache command that starts sets BUSY and holds the command with its result. -/
theorem cacheStart_idle (hidle : s.rdB (Reg.MEM_PT_CACHE_STATUS p) 0 = false) :
    s.cacheStart p op result =
      { s.wrF (Reg.MEM_PT_CACHE_STATUS p) 0 1 1 with memx := { s.memx with cacheRun := s.memx.cacheRun.put p (op, result) } } := by
  simp [State.cacheStart, hidle]

theorem xlatStart_busy (hbusy : s.rdB (Reg.MEM_PT_XLAT_STATUS p) 0 = true) : s.xlatStart p op = s.err p uMem 0x0906 := by
  simp [State.xlatStart, hbusy]

theorem xlatStart_idle (hidle : s.rdB (Reg.MEM_PT_XLAT_STATUS p) 0 = false) :
    s.xlatStart p op =
      { s.wrF (Reg.MEM_PT_XLAT_STATUS p) 0 1 1 with memx := { s.memx with xlatRun := s.memx.xlatRun.put p op } } := by
  simp [State.xlatStart, hidle]

end Started

section CacheCommands
variable {p : Fin 16} {c : Instr} {op result : Nat} {s : State}

/-- The four cache commands are one operation, with an opcode and a result. -/
theorem exec_cacheCommand
    (hc : (c, op, result) ∈ [(Instr.cleanRange p, 1, s.cacheResult p), (.flushRange p, 2, s.cacheResult p), (.flushAll p, 3, 0),
      (.releaseRetained p, 4, 0)]) :
    exec c s = .next (s.cacheStart p op result) := by
  simp only [List.mem_cons, Prod.mk.injEq, List.not_mem_nil, or_false] at hc
  rcases hc with ⟨rfl, rfl, rfl⟩ | ⟨rfl, rfl, rfl⟩ | ⟨rfl, rfl, rfl⟩ | ⟨rfl, rfl, rfl⟩ <;> rfl

theorem exec_cacheCommand_busy (hc : c ∈ [Instr.cleanRange p, .flushRange p, .flushAll p, .releaseRetained p])
    (hbusy : s.rdB (Reg.MEM_PT_CACHE_STATUS p) 0 = true) : exec c s = .next (s.err p uMem 0x0906) := by
  obtain ⟨op, result, hcmd⟩ : ∃ op result, exec c s = .next (s.cacheStart p op result) := by
    simp only [List.mem_cons, List.not_mem_nil, or_false] at hc
    rcases hc with rfl | rfl | rfl | rfl <;> exact ⟨_, _, rfl⟩
  rw [hcmd, cacheStart_busy hbusy]

theorem exec_cacheCommand_idle
    (hc : (c, op, result) ∈ [(Instr.cleanRange p, 1, s.cacheResult p), (.flushRange p, 2, s.cacheResult p), (.flushAll p, 3, 0),
      (.releaseRetained p, 4, 0)])
    (hidle : s.rdB (Reg.MEM_PT_CACHE_STATUS p) 0 = false) :
    ∃ t, exec c s = .next t ∧ t.rdF (Reg.MEM_PT_CACHE_STATUS p) 0 1 = 1 ∧ Tab.get? t.memx.cacheRun p = some (op, result) ∧
      (∀ b, b ≠ Reg.MEM_PT_CACHE_STATUS p → t.rd b = s.rd b) ∧
      t = { s with regs := t.regs, memx := { s.memx with cacheRun := t.memx.cacheRun } } := by
  refine ⟨_, (exec_cacheCommand hc).trans (congrArg _ (cacheStart_idle hidle)), ?busy, ?held, ?others, rfl⟩
  case busy => exact rdF_wrF_same s _ 1 (by omega)
  case held => simp [Tab.get?_put]
  case others => exact fun _ hb => rd_wrF_ne s 0 1 1 hb

/-- A completion writes RESULT and clears BUSY; FLUSH_ALL and RELEASE_RETAINED leave nothing retained. -/
theorem exec_cacheCmdComplete_ok (hrun : Tab.get? s.memx.cacheRun p = some (op, 0)) :
    ∃ t, exec (.cacheCmdComplete p) s = .next t ∧ t.rdN (Reg.MEM_PT_CACHE_STATUS p) = 0 ∧ Tab.get? t.memx.cacheRun p = none ∧
      t.rdN (Reg.MEM_PT_RETAINED p) = (if 3 ≤ op then 0 else s.rdN (Reg.MEM_PT_RETAINED p)) ∧
      (∀ b, b ≠ Reg.MEM_PT_CACHE_STATUS p → b ≠ Reg.MEM_PT_RETAINED p → t.rd b = s.rd b) ∧
      t = { s with regs := t.regs, memx := { s.memx with cacheRun := t.memx.cacheRun } } := by
  have hne : Reg.MEM_PT_RETAINED p ≠ Reg.MEM_PT_CACHE_STATUS p := by simp only [Reg.MEM_PT_RETAINED, Reg.MEM_PT_CACHE_STATUS]; omega
  have hexec : exec (.cacheCmdComplete p) s = .next
      (let s1 := { s.wr (Reg.MEM_PT_CACHE_STATUS p) 0 with memx := { s.memx with cacheRun := s.memx.cacheRun.del p } }
       if 3 ≤ op then s1.wr (Reg.MEM_PT_RETAINED p) 0 else s1) := by
    change execCacheCmdComplete p s = _
    simp [execCacheCmdComplete, hrun]
  refine ⟨_, hexec, ?_⟩
  by_cases hop : 3 ≤ op
  · simp only [hop, if_true]
    refine ⟨?_, ?_, ?_, ?_, rfl⟩
    · exact (rdN_wr_ne _ 0 hne.symm).trans (rdN_wr_same s _ 0)
    · simp [Tab.get?_del]
    · exact rdN_wr_same _ _ 0
    · exact fun b hb hb' => (rd_wr_ne _ 0 hb').trans (rd_wr_ne s 0 hb)
  · simp only [hop, if_false]
    refine ⟨?_, ?_, ?_, ?_, rfl⟩
    · exact rdN_wr_same s _ 0
    · simp [Tab.get?_del]
    · exact rdN_wr_ne s 0 hne
    · exact fun b hb _ => rd_wr_ne s 0 hb

/-- A range command that skipped a page ends with 0x0503. -/
theorem exec_cacheCmdComplete_skipped (hrun : Tab.get? s.memx.cacheRun p = some (op, 0x0503)) (hop : op < 3) :
    exec (.cacheCmdComplete p) s = .next (({ s.wr (Reg.MEM_PT_CACHE_STATUS p) (0x0503 * 2 ^ 16) with
      memx := { s.memx with cacheRun := s.memx.cacheRun.del p } }).err p uMem 0x0503 (s.rdN (Reg.MEM_PT_CACHE_ADDR p))) := by
  change execCacheCmdComplete p s = _
  simp [execCacheCmdComplete, hrun, Nat.not_le.mpr hop]

end CacheCommands

section Invalidations
variable {p : Fin 16} {c : Instr} {op : Nat} {s : State}

/-- The four invalidations are one operation, with an opcode. -/
theorem exec_invalidation (hc : (c, op) ∈ [(Instr.s1All p, 1), (.s1Range p, 2), (.s2All 0 p, 3), (.s2Range 0 p, 4)]) :
    exec c s = .next (s.xlatStart p op) := by
  simp only [List.mem_cons, Prod.mk.injEq, List.not_mem_nil, or_false] at hc
  rcases hc with ⟨rfl, rfl⟩ | ⟨rfl, rfl⟩ | ⟨rfl, rfl⟩ | ⟨rfl, rfl⟩ <;> rfl

theorem exec_invalidation_busy (hc : c ∈ [Instr.s1All p, .s1Range p, .s2All 0 p, .s2Range 0 p])
    (hbusy : s.rdB (Reg.MEM_PT_XLAT_STATUS p) 0 = true) : exec c s = .next (s.err p uMem 0x0906) := by
  obtain ⟨op, hcmd⟩ : ∃ op, exec c s = .next (s.xlatStart p op) := by
    simp only [List.mem_cons, List.not_mem_nil, or_false] at hc
    rcases hc with rfl | rfl | rfl | rfl <;> exact ⟨_, rfl⟩
  rw [hcmd, xlatStart_busy hbusy]

theorem exec_invalidation_idle (hc : (c, op) ∈ [(Instr.s1All p, 1), (.s1Range p, 2), (.s2All 0 p, 3), (.s2Range 0 p, 4)])
    (hidle : s.rdB (Reg.MEM_PT_XLAT_STATUS p) 0 = false) :
    ∃ t, exec c s = .next t ∧ t.rdF (Reg.MEM_PT_XLAT_STATUS p) 0 1 = 1 ∧ Tab.get? t.memx.xlatRun p = some op ∧
      (∀ b, b ≠ Reg.MEM_PT_XLAT_STATUS p → t.rd b = s.rd b) ∧
      t = { s with regs := t.regs, memx := { s.memx with xlatRun := t.memx.xlatRun } } := by
  refine ⟨_, (exec_invalidation hc).trans (congrArg _ (xlatStart_idle hidle)), ?busy, ?held, ?others, rfl⟩
  case busy => exact rdF_wrF_same s _ 1 (by omega)
  case held => simp [Tab.get?_put]
  case others => exact fun _ hb => rd_wrF_ne s 0 1 1 hb

/-- A stage-2 operation from a VF. -/
theorem xlatStart2_vf {fn : Fin 16} (op : Nat) (hfn : fn ≠ 0) : s.xlatStart2 fn p op = s.err fn uMem 0x0906 :=
  if_neg fun h => hfn (Fin.ext h)

theorem exec_xlatCmdComplete (hrun : Tab.get? s.memx.xlatRun p = some op) :
    ∃ t, exec (.xlatCmdComplete p) s = .next t ∧ t.rdN (Reg.MEM_PT_XLAT_STATUS p) = 0 ∧ Tab.get? t.memx.xlatRun p = none ∧
      (∀ b, b ≠ Reg.MEM_PT_XLAT_STATUS p → t.rd b = s.rd b) ∧
      t = { s with regs := t.regs, memx := { s.memx with xlatRun := t.memx.xlatRun } } := by
  have hexec : exec (.xlatCmdComplete p) s = .next
      { s.wr (Reg.MEM_PT_XLAT_STATUS p) 0 with memx := { s.memx with xlatRun := s.memx.xlatRun.del p } } := by
    change execXlatCmdComplete p s = _
    simp [execXlatCmdComplete, hrun]
  exact ⟨_, hexec, rdN_wr_same s _ 0, by simp [Tab.get?_del], fun _ hb => rd_wr_ne s 0 hb, rfl⟩

end Invalidations

/-! ### Ways, fills, windows and polls (R356, R364, R366, R369) -/

theorem exec_waysWrite (fn p : Fin 16) (value : BitVec 32) (s : State) :
    exec (.waysWrite fn p value) s = .next
      (if fn ≠ 0 then s
       else if s.waysClash p (value.toNat &&& 0x7FFF7FFF) then s.err 0 uMem 0x0906
       else s.wr (Reg.MEM_PT_WAYS p) (value.toNat &&& 0x7FFF7FFF)) := by
  change execWaysWrite fn p value s = _
  by_cases hfn : fn = 0
  · subst hfn
    simp only [execWaysWrite, ne_eq, Fin.val_zero, not_true_eq_false, if_false]
    split <;> rfl
  · have hval : fn.val ≠ 0 := fun h => hfn (Fin.ext h)
    simp only [execWaysWrite, ne_eq, hfn, hval, not_false_eq_true, if_true]

section Fills
variable {p : Fin 16} {reader : AgentClass} {inst : Fin 256} {pa : BitVec 48} {s : State}

/-- What every fill counts. -/
def State.fillCounts (s : State) (p pa : Nat) : State :=
  ((s.bump (Reg.MEM_CH_RD_BYTES (s.channelOf pa)) 64).bump (Reg.MEM_PT_BYTES p) 64).bump (Reg.MEM_PT_MISSES p) 1

theorem exec_cacheFill_good (htarget : targetOf pa.toNat = .inPackage) (htag : s.granBad (pa.toNat / 64) = false) :
    exec (.cacheFill p reader inst pa .good) s = .next (s.fillCounts p pa.toNat) := by
  change execCacheFill p reader inst pa .good s = _
  simp [execCacheFill, htarget, htag, State.fillCounts]

theorem exec_cacheFill_uncorrectable (htarget : targetOf pa.toNat = .inPackage) :
    exec (.cacheFill p reader inst pa .uncorrectable) s = .next (((s.fillCounts p pa.toNat).poisonGran (pa.toNat / 64)).fillError
      pa.toNat 0x0901 Reg.MEM_UE_COUNT p (s.channelOf pa.toNat) ⟨agentCode reader, inst⟩) := by
  change execCacheFill p reader inst pa .uncorrectable s = _
  simp [execCacheFill, htarget, State.fillCounts]

theorem exec_cacheFill_mismatch (htarget : targetOf pa.toNat = .inPackage)
    (hclean : s.memx.poison.contains (pa.toNat / 64) = false) :
    exec (.cacheFill p reader inst pa .mismatch) s = .next (({ s.fillCounts p pa.toNat with memx := { (s.fillCounts p pa.toNat).memx with
      badTag := insSorted (pa.toNat / 64) (s.fillCounts p pa.toNat).memx.badTag } }).fillError pa.toNat 0x0902 Reg.MEM_TAG_FAIL p
      (s.channelOf pa.toNat) ⟨agentCode reader, inst⟩) := by
  change execCacheFill p reader inst pa .mismatch s = _
  have hmem : pa.toNat / 64 ∉ s.memx.poison := by simpa using hclean
  simp [execCacheFill, htarget, hmem, State.fillCounts]

end Fills

section Windows
variable {total busyCount : Nat} {busiest : Fin 32} {pt : Fin 16} {s : State}

/-- The ratio and the busiest channel that a window leaves. -/
def State.imbRatio (s : State) (total busyCount : Nat) (busiest : Fin 32) (pt : Fin 16) : State :=
  (s.wr Reg.MEM_IMB_RATIO (if total = 0 then 0 else min 0xFFFF (busyCount * 32 * 256 / total))).wr Reg.MEM_IMB_STATUS
    (busiest.val + pt.val * 256 + s.rdF Reg.MEM_IMB_STATUS 16 16 * 65536)

/-- A window below the threshold or the ratio ends a run. -/
theorem exec_imbalanceWindow_below (hbelow : total * 64 < 61440000 ∨ busyCount * 32 ≤ total * 4) :
    exec (.imbalanceWindow total busiest busyCount pt) s = .next
      (let s2 := ((s.imbRatio total busyCount busiest pt).wrF Reg.MEM_IMB_STATUS 16 16 0).wrF Reg.MEM_STATUS 4 1 0
       { s2 with memx := { s2.memx with imbRaised := false } }) := by
  change execImbalanceWindow total busiest busyCount pt s = _
  have hnot : ¬(61440000 ≤ total * 64 ∧ total * 4 < busyCount * 32) := by omega
  simp only [execImbalanceWindow, if_neg hnot]
  rfl

/-- A window that qualifies in a run of fewer than 1,000 is only counted. -/
theorem exec_imbalanceWindow_run (hbytes : 61440000 ≤ total * 64) (hratio : total * 4 < busyCount * 32)
    (hrun : min 0xFFFF (s.rdF Reg.MEM_IMB_STATUS 16 16 + 1) < 1000) :
    exec (.imbalanceWindow total busiest busyCount pt) s = .next
      ((((s.imbRatio total busyCount busiest pt).wrF Reg.MEM_IMB_STATUS 16 16 (min 0xFFFF (s.rdF Reg.MEM_IMB_STATUS 16 16 + 1))).wrF
        Reg.MEM_STATUS 4 1 1).bump Reg.MEM_IMB_WINDOWS 1) := by
  change execImbalanceWindow total busiest busyCount pt s = _
  simp only [execImbalanceWindow, if_pos (And.intro hbytes hratio)]
  rw [if_neg (by rintro ⟨h, -⟩; omega)]
  rfl

end Windows

section Polls
variable (tempC : Fin 256) (channel : Fin 32) (s : State)

/-- The refresh row and the bandwidth cap that a temperature gives. -/
theorem exec_mr4Poll (s1 : State)
    (hs1 : s1 = ((s.wr Reg.MEM_TEMP (tempC.val + channel.val * 256)).wrF Reg.MEM_STATUS 1 2 (refreshRow tempC)).wrF Reg.MEM_STATUS 3 1
      (if 105 < tempC.val then 1 else if tempC.val ≤ 100 then 0 else (s.rdB Reg.MEM_STATUS 3).toNat)) :
    exec (.mr4Poll tempC channel) s = .next
      (if 105 < tempC.val ∧ s.rdB Reg.MEM_STATUS 3 = false then
        s1.report 0 { code := 0x0905, subj := ⟨0x2A, channel⟩, info := tempC, event := true }
       else s1) := by
  subst hs1
  change execMr4Poll tempC channel s = _
  by_cases hhot : 105 < tempC.val
  · cases hwas : s.rdB Reg.MEM_STATUS 3 <;> simp [execMr4Poll, hhot, hwas]
  · by_cases hcool : tempC.val ≤ 100
    · simp [execMr4Poll, hhot, hcool]
    · cases hwas : s.rdB Reg.MEM_STATUS 3 <;> simp [execMr4Poll, hhot, hcool, hwas]

end Polls

/-- Settles O30: each clause is the lemma of its command. Cache contents are not modelled (row 15 of the assumption log): the model
counts each fill as a miss and writes RETAINED at FLUSH_ALL and RELEASE_RETAINED alone. -/
theorem memoryCommands : Obligations.MemoryCommands := by
  refine ⟨?started, ?refused, ?completed, ?skipped, ?invalidates, ?stage2, ?invalidationRefused, ?invalidated, exec_waysWrite, ?pasr,
    ?good, ?uncorrectable, ?mismatch, ?below, ?run, ?poll⟩
  case started => exact fun _ _ _ _ _ => exec_cacheCommand_idle
  case refused => exact fun _ _ _ => exec_cacheCommand_busy
  case completed => exact fun _ _ _ => exec_cacheCmdComplete_ok
  case skipped => exact fun _ _ _ => exec_cacheCmdComplete_skipped
  case invalidates => exact fun _ _ _ _ => exec_invalidation_idle
  case stage2 => exact fun _ _ _ hfn => ⟨congrArg _ (xlatStart2_vf 3 hfn), congrArg _ (xlatStart2_vf 4 hfn)⟩
  case invalidationRefused => exact fun _ _ _ => exec_invalidation_busy
  case invalidated => exact fun _ _ _ => exec_xlatCmdComplete
  case pasr => exact fun _ _ => rfl
  case good => exact fun _ _ _ _ _ htarget htag _ => exec_cacheFill_good htarget htag
  case uncorrectable => exact fun _ _ _ _ _ => exec_cacheFill_uncorrectable
  case mismatch => rintro p reader inst pa s _ htarget hclean rfl; exact exec_cacheFill_mismatch htarget hclean
  case below => rintro total busyCount busiest pt s _ _ hbelow rfl rfl; exact exec_imbalanceWindow_below hbelow
  case run => rintro total busyCount _ busiest pt s _ hbytes hratio rfl rfl hrun; exact exec_imbalanceWindow_run hbytes hratio hrun
  case poll => exact fun tempC channel s s1 => exec_mr4Poll tempC channel s s1

/-! ### The chunk check (R35, R383) -/

theorem pages_zero (fuel dva : Nat) : pages fuel dva 0 = [] := by
  cases fuel <;> simp [pages]

/-- Bytes within one page are one piece. -/
theorem pieces_within_page {dva n : Nat} (hpos : 0 < n) (hpage : n ≤ 4096 - dva % 4096) : pieces dva n = [(dva, n)] := by
  rw [pieces, pages, if_neg (Nat.ne_of_gt hpos), Nat.min_eq_left hpage]
  simp only [Nat.sub_self, pages_zero]

section ChunkCheck
variable {p dva n ia pa : Nat} {acc : Access} {ring : Bool} {s : State}

/-- Past stage 1 and stage 2 what is left of R35 is the chunk check, the host check of R453 and the region check. -/
theorem xlate_of_stage2 (hdva : dva < 2 ^ 48) (hwalk : s.walk1 p acc 4 (s.rdN (Reg.MEM_PT_S1_BASE p)) dva = .ok ia)
    (hstage2 : s.stage2 p ia (some acc) = .ok pa) :
    s.xlate p dva n acc ring =
      if targetOf pa == .inPackage && s.chunkOwner pa != some p then .error ⟨5, false⟩
      else if targetOf pa == .host && s.isConf p && !ring then .error ⟨5, false⟩
      else if s.regionCovers p dva n acc then .ok pa
      else .error ⟨6, false⟩ := by
  rw [State.xlate, if_neg (Nat.not_le.mpr hdva)]
  simp only [hwalk, hstage2]

theorem xlate_foreign_chunk (hdva : dva < 2 ^ 48) (hwalk : s.walk1 p acc 4 (s.rdN (Reg.MEM_PT_S1_BASE p)) dva = .ok ia)
    (hstage2 : s.stage2 p ia (some acc) = .ok pa) (htarget : targetOf pa = .inPackage) (hchunk : s.chunkOwner pa ≠ some p) :
    s.xlate p dva n acc ring = .error ⟨5, false⟩ := by
  simp [xlate_of_stage2 hdva hwalk hstage2, htarget, hchunk]

/-- Stage 2 gave the address that passes, and its chunk was checked. -/
theorem chunkOwner_of_xlate (hok : s.xlate p dva n acc ring = .ok pa) (htarget : targetOf pa = .inPackage) :
    s.chunkOwner pa = some p := by
  unfold State.xlate at hok
  split at hok
  · cases hok
  · split at hok
    · cases hok
    · split at hok
      · cases hok
      · next pa' _ =>
        by_cases hchunk : (targetOf pa' == .inPackage && s.chunkOwner pa' != some p) = true
        · rw [if_pos hchunk] at hok
          cases hok
        · rw [if_neg hchunk] at hok
          have hpa : pa' = pa := by
            split at hok
            · cases hok
            · split at hok <;> cases hok
              rfl
          subst hpa
          simpa [htarget] using hchunk

theorem readDva_xlate_error {f : XFault} (hpos : 0 < n) (hpage : n ≤ 4096 - dva % 4096)
    (herr : s.xlate p dva n acc ring = .error f) : s.readDva p dva n acc ring = .refused f dva := by
  simp only [State.readDva, pieces_within_page hpos hpage, State.xlateAll, herr]

theorem writeDva_xlate_error {f : XFault} {u : UnitId} {b : List Byte} (hpos : 0 < b.length) (hpage : b.length ≤ 4096 - dva % 4096)
    (herr : s.xlate p dva b.length .write (u == ⟨0, 1⟩) = .error f) : s.writeDva p u dva b = .refused f dva := by
  simp only [State.writeDva, pieces_within_page hpos hpage, State.xlateAll, herr]

/-- Only an in-package address is checked against chunks. -/
theorem xlate_outside_package (hdva : dva < 2 ^ 48) (hwalk : s.walk1 p acc 4 (s.rdN (Reg.MEM_PT_S1_BASE p)) dva = .ok ia)
    (hstage2 : s.stage2 p ia (some acc) = .ok pa) (htarget : targetOf pa = .host ∨ targetOf pa = .link) :
    s.xlate p dva n acc ring = (if targetOf pa = .host ∧ s.isConf p = true ∧ ring = false then .error ⟨5, false⟩
      else if s.regionCovers p dva n acc then .ok pa else .error ⟨6, false⟩) := by
  rw [xlate_of_stage2 hdva hwalk hstage2]
  rcases htarget with htarget | htarget
  · cases hconf : s.isConf p <;> cases ring <;> simp [htarget]
  · simp [htarget]

end ChunkCheck

/-- Settles O47: R383's check stands between stage 2 and the checks that follow it (`xlate_of_stage2`). -/
theorem inPackageMemoryPassesOnlyInOwnChunks : Obligations.InPackageMemoryPassesOnlyInOwnChunks := by
  refine ⟨?foreign, ?passes, ?outside⟩
  case foreign =>
    intro p dva n ia pa acc ring u b s hdva hwalk hstage2 htarget hchunk
    refine ⟨xlate_foreign_chunk hdva hwalk hstage2 htarget hchunk, fun hpos hpage => ?_, ?_⟩
    · exact readDva_xlate_error hpos hpage (xlate_foreign_chunk hdva hwalk hstage2 htarget hchunk)
    · rintro rfl hpos hpage
      exact writeDva_xlate_error hpos hpage (xlate_foreign_chunk hdva hwalk hstage2 htarget hchunk)
  case passes => exact fun _ _ _ _ _ _ _ => chunkOwner_of_xlate
  case outside => exact fun _ _ _ _ _ _ _ _ => xlate_outside_package

end Sys2Proof.Machine
end

section
/-! PROOFS of the family 15_host_partitions_queues (O31, O32): the commands that assign units and memory, modes, vectors and quality of
service (R381 to R384, R393, R398, R402, R405, R406), and doorbells, rings and submission items (R385 to R402). -/

namespace Sys2Proof.Machine

/-! ### Units (R381) -/

section Assign
variable {p : Fin 16} {c : Instr} {assign : Bool} {s : State}

/-- ASSIGN and RELEASE are one operation. -/
theorem exec_assignOrRelease (hc : (c, assign) ∈ [(Instr.unitAssign p, true), (.unitRelease p, false)]) :
    exec c s = .next (s.assignCmd assign p) := by
  simp only [List.mem_cons, Prod.mk.injEq, List.not_mem_nil, or_false] at hc
  rcases hc with ⟨rfl, rfl⟩ | ⟨rfl, rfl⟩ <;> rfl

/-- A command that is not refused changes the owners, once for the capability table, and runs. -/
theorem exec_assignOrRelease_accepted {cls first n : Nat} (hc : (c, assign) ∈ [(Instr.unitAssign p, true), (.unitRelease p, false)])
    (hidle : s.rdB Reg.QM_ASSIGN_STATUS 0 = false) (hcls : cls = s.rdN Reg.QM_ASSIGN_CLASS)
    (hfirst : first = s.rdN Reg.QM_ASSIGN_FIRST) (hn : n = s.rdN Reg.QM_ASSIGN_COUNT)
    (hok : s.assignRefusal assign cls first n p = 0) :
    exec c s = .next
      (let s0 := (s.assignApply assign cls first n p).capChange
       let s1 := if cls = 0x01 then s0.rejudgeAll p else s0
       { s1.wr Reg.QM_ASSIGN_STATUS 1 with qm := { s1.qm with assignRun := some (if assign then 1 else 2, cls, first, n, p.val) } }) := by
  subst hcls hfirst hn
  rw [exec_assignOrRelease hc, State.assignCmd]
  simp only [hidle, hok, Bool.false_eq_true, if_false, ne_eq, not_true_eq_false]

theorem exec_assignOrRelease_refused {code : Nat} (hc : (c, assign) ∈ [(Instr.unitAssign p, true), (.unitRelease p, false)])
    (hidle : s.rdB Reg.QM_ASSIGN_STATUS 0 = false)
    (hcode : code = s.assignRefusal assign (s.rdN Reg.QM_ASSIGN_CLASS) (s.rdN Reg.QM_ASSIGN_FIRST) (s.rdN Reg.QM_ASSIGN_COUNT) p)
    (hne : code ≠ 0) : exec c s = .next ((s.wr Reg.QM_ASSIGN_STATUS (code * 2 ^ 16)).qmErr 0 code) := by
  subst hcode
  rw [exec_assignOrRelease hc, State.assignCmd]
  simp only [hidle, hne, Bool.false_eq_true, if_false, ne_eq, not_false_eq_true, if_true]

/-- A release of Fronds waits for their zeroing; every other command ends. -/
theorem exec_assignComplete {op cls first n p : Nat} (hrun : s.qm.assignRun = some (op, cls, first, n, p))
    (hzeroed : ¬(op = 2 ∧ cls = 0x01 ∧ (List.range n).any (fun k => s.frondZeroing (first + k)) = true)) :
    exec .assignComplete s = .next { s.wr Reg.QM_ASSIGN_STATUS 0 with qm := { s.qm with assignRun := none } } := by
  change execAssignComplete s = _
  simp only [execAssignComplete, hrun, if_neg hzeroed]

end Assign

/-! ### Chunks (R382) -/

section Chunks
variable {p : Fin 16} {first n : Nat} {s : State}

theorem exec_chunkGrant_accepted (hidle : s.rdB Reg.QM_GRANT_STATUS 0 = false) (hready : s.ptReady p = true)
    (hfirst : first = s.rdN Reg.QM_GRANT_FIRST) (hn : n = s.rdN Reg.QM_GRANT_COUNT)
    (hok : ¬(n = 0 ∨ chunkCount < first + n ∨ s.isConf p = true ∨
      s.chunks.any (fun e => first ≤ e.1 && e.1 < first + n) = true)) :
    exec (.chunkGrant p) s =
      .next { s.wr Reg.QM_GRANT_STATUS 1 with qm := { s.qm with grantRun := some (1, first, first + n, p.val) } } := by
  subst hfirst hn
  change execGrant p s = _
  simp only [execGrant, hidle, hready, if_neg hok, Bool.not_true, Bool.false_eq_true, if_false]

/-- Each fill zeroes and grants the next chunk; the last one ends the command. -/
theorem exec_chunkFillComplete {next last p : Nat} (hrun : s.qm.grantRun = some (1, next, last, p)) :
    exec .chunkFillComplete s = .next
      (let s1 := ({ s.zeroChunk next with chunks := (s.zeroChunk next).chunks.put next p }).countChunks p
       if next + 1 < last then { s1 with qm := { s1.qm with grantRun := some (1, next + 1, last, p) } }
       else { s1.wr Reg.QM_GRANT_STATUS 0 with qm := { s1.qm with grantRun := none } }) := by
  change execChunkFillComplete s = _
  simp only [execChunkFillComplete, hrun]
  split <;> rfl

theorem exec_chunkRelease_accepted (hidle : s.rdB Reg.QM_GRANT_STATUS 0 = false) (hready : s.ptReady p = true)
    (hfirst : first = s.rdN Reg.QM_GRANT_FIRST) (hn : n = s.rdN Reg.QM_GRANT_COUNT)
    (hok : ¬(n = 0 ∨ chunkCount < first + n ∨ s.isConf p = true ∨
      (s.chunks.filter fun e => first ≤ e.1 && e.1 < first + n && e.2 == p.val).length ≠ n)) :
    exec (.chunkRelease p) s = .next
      (let s1 := s.freeChunks first n p
       { s1.wr Reg.QM_GRANT_STATUS 1 with qm := { s1.qm with grantRun := some (2, first, first + n, p.val) } }) := by
  subst hfirst hn
  change execChunkRelease p s = _
  simp only [execChunkRelease, hidle, hready, if_neg hok, Bool.not_true, Bool.false_eq_true, if_false]

theorem exec_chunkReleaseComplete {first last p : Nat} (hrun : s.qm.grantRun = some (2, first, last, p)) :
    exec .chunkReleaseComplete s = .next { s.wr Reg.QM_GRANT_STATUS 0 with qm := { s.qm with grantRun := none } } := by
  change execChunkReleaseComplete s = _
  simp only [execChunkReleaseComplete, hrun]

/-- A partition that is not READY takes and gives no chunks. -/
theorem exec_chunkCommand_not_ready {c : Instr} (hc : c = .chunkGrant p ∨ c = .chunkRelease p)
    (hidle : s.rdB Reg.QM_GRANT_STATUS 0 = false) (hready : s.ptReady p = false) : exec c s = .next (s.grantRefuse 0x0A0B) := by
  rcases hc with rfl | rfl
  · change execGrant p s = _
    simp only [execGrant, hidle, hready, Bool.not_false, Bool.false_eq_true, if_false, if_true]
  · change execChunkRelease p s = _
    simp only [execChunkRelease, hidle, hready, Bool.not_false, Bool.false_eq_true, if_false, if_true]

end Chunks

/-! ### Modes, vectors and shares (R384, R398, R405, R406) -/

theorem exec_modeWrite (fn p : Fin 16) (value : BitVec 32) (s : State) :
    exec (.modeWrite fn p value) s = .next (if fn ≠ 0 then s
      else if s.isConf p = true ∨ s.workPresent p = true ∨ s.ptReady p = false then s.qmErr 0 0x0A0B
      else s.wr (Reg.QM_PT_MODE p) (value.getLsbD 0).toNat) := by
  change execModeWrite fn p value s = _
  simp only [execModeWrite, Fin.val_ne_zero_iff, Bool.not_eq_true', apply_ite Host.Outcome.next]

theorem exec_vmapWrite (fn p : Fin 16) (i : Fin 256) (value : BitVec 32) (s : State) :
    exec (.vmapWrite fn p i value) s = .next (if fn ≠ 0 then s
      else if (p ≠ 0 ∧ 128 ≤ i.val) ∨ (value.getLsbD 31 = true ∧ s.owns p 0x32 (value.toNat % 2048) = false) then s.qmErr 0 0x0A09 i
      else s.wr (Reg.QM_PT_VMAP p i) (value.toNat % 2048 + (value.getLsbD 31).toNat * 2 ^ 31)) := by
  change execVmapWrite fn p i value s = _
  simp only [execVmapWrite, Fin.val_ne_zero_iff, Bool.not_eq_true', apply_ite Host.Outcome.next]

theorem exec_qosMemWrite (fn p : Fin 16) (value : BitVec 32) (s : State) :
    exec (.qosMemWrite fn p value) s = .next (if fn ≠ 0 then s
      else if 8125 < s.minSum Reg.QOS_PT_MEM 16 p + fld value.toNat 0 16 ∨
        (fld value.toNat 16 16 ≠ 0 ∧ fld value.toNat 16 16 < fld value.toNat 0 16) then s.qmErr 0 0x0A0A p
      else s.wr (Reg.QOS_PT_MEM p) value.toNat) := by
  change execQosMemWrite fn p value s = _
  simp only [execQosMemWrite, Fin.val_ne_zero_iff, apply_ite Host.Outcome.next]

theorem exec_qosLinkWrite (fn p : Fin 16) (value : BitVec 32) (v : Nat) (hv : v = value.toNat &&& 0x0FFF0FFF) (s : State) :
    exec (.qosLinkWrite fn p value) s = .next (if fn ≠ 0 then s
      else if 350 < s.minSum Reg.QOS_PT_LINK 12 p + fld v 0 12 ∨ (fld v 16 12 ≠ 0 ∧ fld v 16 12 < fld v 0 12) then s.qmErr 0 0x0A0A p
      else s.wr (Reg.QOS_PT_LINK p) v) := by
  subst hv
  change execQosLinkWrite fn p value s = _
  simp only [execQosLinkWrite, Fin.val_ne_zero_iff, apply_ite Host.Outcome.next]

/-- A drain read that waits is answered with 0. -/
theorem exec_ptDrainReturn {p : Fin 16} {s : State} (hwaits : s.qm.drainReads.contains p.val = true) :
    exec (.ptDrainReturn p) s =
      .next { s with qm := { s.qm with drainReads := s.qm.drainReads.erase p.val }, out := s.out ++ [.readData 0] } := by
  change execPtDrainReturn p s = _
  simp only [execPtDrainReturn, hwaits, if_true]

/-- Settles O31: each clause is the lemma of its command. That setting a function's MSI-X Enable sends what its unmasked vectors have
pending is the model's reading (row 38 of the assumption log), and that an interval counts only the partitions that reached their MAX
share is row 69. -/
theorem assignmentCommands : Obligations.AssignmentCommands := by
  refine ⟨?accepted, ?fronds, ?refused, ?complete, ?grant, ?fill, ?release, ?released, ?notReady, exec_modeWrite, exec_vmapWrite, ?mem,
    ?link, ?interval, ?drainRead, ?drainReturn, ?unexpected, ?msix⟩
  case accepted =>
    rintro p c assign cls first n s _ hc hidle hcls hfirst hn hok hne rfl
    exact (exec_assignOrRelease_accepted hc hidle hcls hfirst hn hok).trans (by simp only [if_neg hne])
  case fronds =>
    rintro p c assign first n s _ hc hidle hcls hfirst hn hok rfl
    exact (exec_assignOrRelease_accepted hc hidle hcls.symm hfirst hn hok).trans (by simp only [if_true])
  case refused => exact fun _ _ _ _ _ => exec_assignOrRelease_refused
  case complete => exact fun _ _ _ _ _ _ => exec_assignComplete
  case grant => exact fun _ _ _ _ => exec_chunkGrant_accepted
  case fill => rintro next last p s _ hrun rfl; exact exec_chunkFillComplete hrun
  case release =>
    rintro p first n s _ hidle hready hfirst hn hok rfl
    exact exec_chunkRelease_accepted hidle hready hfirst hn hok
  case released => exact fun _ _ _ _ => exec_chunkReleaseComplete
  case notReady => exact fun _ _ _ => exec_chunkCommand_not_ready
  case mem => rintro fn p value _ _ s rfl rfl; exact exec_qosMemWrite fn p value s
  case link => rintro fn p value v _ _ s hv rfl rfl; exact exec_qosLinkWrite fn p value v hv s
  case interval => rintro s _ rfl; rfl
  case drainRead => exact fun _ _ => rfl
  case drainReturn => exact fun _ _ => exec_ptDrainReturn
  case unexpected => exact fun _ _ => rfl
  case msix => rintro fn s _ rfl; rfl

/-! ### Doorbells and arrivals (R387 to R389, R402) -/

section Doorbells
variable {p : Fin 16} {malformed : Bool} {ring : Fin 8192} {epoch : BitVec 16} {value : BitVec 32} {s : State}

theorem exec_doorbellTail_fits (hready : s.ptReady p = true) (hok : s.doorbellCheck p malformed ring 0 epoch.toNat = none)
    (hfits : (value.toNat + 2 ^ 32 - s.rdN (Reg.RING_TAIL ring)) % 2 ^ 32 ≤ s.ringSize ring - s.ringUsed ring) :
    exec (.doorbellTail p malformed ring epoch value) s = .next (s.wr (Reg.RING_TAIL_RAW ring) value.toNat) := by
  change execDoorbellTail p malformed ring epoch value s = _
  simp only [execDoorbellTail, hready, hok, if_pos hfits, Bool.not_true, Bool.false_eq_true, if_false]

theorem exec_doorbellHead_fits (hready : s.ptReady p = true) (hok : s.doorbellCheck p malformed ring 1 epoch.toNat = none)
    (hfits : (value.toNat + 2 ^ 32 - s.rdN (Reg.RING_HEAD ring)) % 2 ^ 32 ≤ s.ringUsed ring) :
    exec (.doorbellHead p malformed ring epoch value) s = .next (s.wr (Reg.RING_HEAD ring) value.toNat) := by
  change execDoorbellHead p malformed ring epoch value s = _
  simp only [execDoorbellHead, hready, hok, if_pos hfits, Bool.not_true, Bool.false_eq_true, if_false]

/-- A code that the checks give, other than that of an access to what is not owned. -/
theorem exec_doorbellTail_refused {code : Nat} (hready : s.ptReady p = true) (hcode : code ≠ 0x0503)
    (hrefused : s.doorbellCheck p malformed ring 0 epoch.toNat = some code) :
    exec (.doorbellTail p malformed ring epoch value) s = .next (s.qmErr p code ring) := by
  change execDoorbellTail p malformed ring epoch value s = _
  simp only [execDoorbellTail, hready, hrefused, Bool.not_true, Bool.false_eq_true, if_false]

theorem exec_doorbellHead_refused {code : Nat} (hready : s.ptReady p = true) (hcode : code ≠ 0x0503)
    (hrefused : s.doorbellCheck p malformed ring 1 epoch.toNat = some code) :
    exec (.doorbellHead p malformed ring epoch value) s = .next (s.qmErr p code ring) := by
  change execDoorbellHead p malformed ring epoch value s = _
  simp only [execDoorbellHead, hready, hrefused, Bool.not_true, Bool.false_eq_true, if_false]

/-- A doorbell of a partition that is not READY is discarded. -/
theorem exec_doorbell_not_ready (hready : s.ptReady p = false) :
    exec (.doorbellTail p malformed ring epoch value) s = .next s ∧ exec (.doorbellHead p malformed ring epoch value) s = .next s := by
  constructor
  · change execDoorbellTail p malformed ring epoch value s = _
    simp only [execDoorbellTail, hready, Bool.not_false, if_true]
  · change execDoorbellHead p malformed ring epoch value s = _
    simp only [execDoorbellHead, hready, Bool.not_false, if_true]

end Doorbells

/-! ### Submission items (R394, R395) -/

section Items
variable {ring : Fin 8192} {p code : Nat} {i : Item} {s s1 s2 : State}

theorem exec_itemLaunch (htake : s.takeItem ring 0x01 = some (s1, p, i))
    (hdone : (s2, code) = s1.launch p (getLE i.bytes 8 4) (getLE i.bytes 0x10 8)) :
    exec (.itemLaunch ring) s = .next (s2.itemEnd p i code).crzDrain := by
  change execItemLaunch ring s = _
  simp only [execItemLaunch, htake, ← hdone]

theorem exec_itemSignal (htake : s.takeItem ring 0x02 = some (s1, p, i))
    (hdone : (s2, code) = s1.flagSignal p (getLE i.bytes 8 2) (getLE i.bytes 0x0C 4) ⟨0x30, p⟩) :
    exec (.itemSignal ring) s = .next (s2.itemEnd p i code).crzDrain := by
  change execItemSignal ring s = _
  simp only [execItemSignal, htake, ← hdone]

theorem exec_itemSet (htake : s.takeItem ring 0x03 = some (s1, p, i))
    (hdone : (s2, code) = s1.flagSet p (getLE i.bytes 8 2) (getLE i.bytes 0x0C 4) ⟨0x30, p⟩) :
    exec (.itemSet ring) s = .next (s2.itemEnd p i code).crzDrain := by
  change execItemSet ring s = _
  simp only [execItemSet, htake, ← hdone]

theorem exec_itemTrigger (htake : s.takeItem ring 0x04 = some (s1, p, i)) :
    exec (.itemTrigger ring) s = .next
      (if s1.owns p 0x19 (getLE i.bytes 8 1) then
        ((if s1.rdF (Reg.CRZ_GR_CFG (getLE i.bytes 8 1)) 4 4 = 0 then s1.crzFire (getLE i.bytes 8 1) else s1).itemEnd p i 0).crzDrain
       else (s1.notOwned p uQm (getLE i.bytes 8 1)).itemEnd p i 0x0503) := by
  change execItemTrigger ring s = _
  simp only [execItemTrigger, htake, apply_ite Host.Outcome.next]

theorem exec_itemMstart_owned (htake : s.takeItem ring 0x05 = some (s1, p, i)) (howns : s1.owns p 0x21 (getLE i.bytes 8 1) = true)
    (hdone : (s2, code) = s1.movStart (getLE i.bytes 8 1)
      (some (getLE i.bytes 0x10 8, (List.range 4).map fun k => getLE i.bytes (0x18 + 8 * k) 8)) none) :
    exec (.itemMstart ring) s = .next (s2.itemEnd p i code).crzDrain := by
  change execItemMstart ring s = _
  simp only [execItemMstart, htake, howns, if_true, ← hdone]

theorem exec_itemMstart_not_owned (htake : s.takeItem ring 0x05 = some (s1, p, i))
    (howns : s1.owns p 0x21 (getLE i.bytes 8 1) = false) :
    exec (.itemMstart ring) s = .next ((s1.notOwned p uQm (getLE i.bytes 8 1)).itemEnd p i 0x0503) := by
  change execItemMstart ring s = _
  simp only [execItemMstart, htake, howns, Bool.false_eq_true, if_false]

/-- A descriptor command takes its image from the item. -/
theorem exec_itemDsc (htake : s.takeItem ring 0x06 = some (s1, p, i)) (hidle : s1.dscBusy p = false)
    (hdone : (s2, code) = s1.dscRun p (getLE i.bytes 8 2) (getLE i.bytes 0x0A 1) (.ok (i.bytes.drop 64))) :
    exec (.itemDsc ring) s = .next
      (let s3 := { s2 with qm := { s2.qm with handed := s2.qm.handed ++ [i.handed] } }
       (s3.dscStart p (getLE i.bytes 8 2) (getLE i.bytes 0x0A 1) code (some (i.ring * 2 ^ 32 + i.index))).refuseInvalid p i.ring
         (s3.qm.items.length + 1)) := by
  change execItemDsc ring s = _
  simp only [execItemDsc, htake, hidle, ← hdone, Bool.false_eq_true, if_false]

theorem exec_itemNop (htake : s.takeItem ring 0x07 = some (s1, p, i)) : exec (.itemNop ring) s = .next (s1.itemEnd p i 0) := by
  change execItemNop ring s = _
  simp only [execItemNop, htake]

end Items

/-! ### Completion rings, flushes and configuration (R385, R390 to R392, R400) -/

section Completion
variable {ring : Fin 8192} {x : Post} {s : State}

/-- With room the oldest item is written before TAIL passes it. -/
theorem exec_completionPost_room {n tail : Nat} {s1 : State} (hfind : s.qm.posts.find? (fun x => x.ring == ring.val) = some x)
    (hn : n = x.bytes.length / 64) (htail : tail = s.rdN (Reg.RING_TAIL ring))
    (hroom : ¬((!s.rdB (Reg.RING_CFG ring) 0) = true ∨ (!s.rdB (Reg.RING_CFG ring) 1) = true ∨
      s.ringSize ring < s.ringUsed ring + n))
    (hwrite : s.writeEntries x.pt ring n tail x.bytes = .done s1) :
    exec (.completionPost ring) s = .next
      (let t := (tail + n) % 2 ^ 32
       let s2 := ((({ s1 with qm := { s1.qm with posts := s1.qm.posts.erase x } }).wrF (Reg.RING_STATUS ring) 5 1 0).wr
         (Reg.RING_TAIL ring) t).bump (Reg.RING_ITEMS ring) 1
       ((((s2.ringWriteBack x.pt ring t).ringIrq x.pt ring).postAct x.act).gsSettle x.pt).crzDrain) := by
  subst hn htail
  change execCompletionPost ring s = _
  simp only [execCompletionPost, hfind, if_neg hroom, hwrite]

theorem exec_completionPost_full (hfind : s.qm.posts.find? (fun x => x.ring == ring.val) = some x)
    (hfull : s.ringSize ring < s.ringUsed ring + x.bytes.length / 64) :
    exec (.completionPost ring) s = .next (s.wrF (Reg.RING_STATUS ring) 5 1 1) := by
  change execCompletionPost ring s = _
  simp only [execCompletionPost, hfind, hfull, or_true, if_true]

theorem exec_holdoffExpiry {h : Holdoff} {p : Nat} (hheld : Tab.get? s.qm.holdoff ring = some h)
    (howner : s.ownerOf 0x31 ring = some p) :
    exec (.holdoffExpiry ring) s = .next
      (let s1 := { s with qm := { s.qm with holdoff := s.qm.holdoff.del ring } }
       if h.due then s1.ringIrq p ring else s1) := by
  change execHoldoffExpiry ring s = _
  simp only [execHoldoffExpiry, hheld, howner]

theorem exec_qmRingFlush (ring : Fin 8192) (s : State) :
    exec (.qmRingFlush ring) s = .next (if s.rdB (Reg.RING_CFG ring) 1 then s.epochUp ring
      else (s.wr (Reg.RING_TAIL_RAW ring) (s.rdN (Reg.RING_TAIL ring))).epochUp ring) := by
  change execQmRingFlush ring s = _
  rw [execQmRingFlush, apply_ite (State.epochUp · ring.val)]

/-- A flush of a submission ring discards the items not yet handed on. -/
theorem exec_qmRingFlushAll_submission (hkind : s.rdB (Reg.RING_CFG ring) 1 = false) :
    exec (.qmRingFlushAll ring) s = .next
      (let s1 := (s.wr (Reg.RING_HEAD ring) (s.rdN (Reg.RING_TAIL ring))).wr (Reg.RING_TAIL_RAW ring) (s.rdN (Reg.RING_TAIL ring))
       ({ s1 with qm := { s1.qm with items := s1.qm.items.filter fun i => i.ring != ring.val } }).epochUp ring) := by
  change Host.Outcome.next (s.ringFlushAll ring) = _
  rw [State.ringFlushAll]
  simp only [hkind, Bool.false_eq_true, if_false]
  rfl

theorem exec_qmRingFlushAll_completion (hkind : s.rdB (Reg.RING_CFG ring) 1 = true) :
    exec (.qmRingFlushAll ring) s = .next ((s.wr (Reg.RING_HEAD ring) (s.rdN (Reg.RING_TAIL ring))).epochUp ring) := by
  change Host.Outcome.next (s.ringFlushAll ring) = _
  simp only [State.ringFlushAll, hkind, if_true]

theorem exec_qmRingReset_disabled (hen : s.rdB (Reg.RING_CFG ring) 0 = false) :
    exec (.qmRingReset ring) s = .next
      (let s1 := ((s.wr (Reg.RING_HEAD ring) 0).wr (Reg.RING_TAIL ring) 0).wr (Reg.RING_TAIL_RAW ring) 0
       ({ s1 with qm := { s1.qm with items := s1.qm.items.filter fun i => i.ring != ring.val } }).epochUp ring) := by
  change execQmRingReset ring s = _
  simp only [execQmRingReset, hen, Bool.false_eq_true, if_false]

theorem exec_qmRingReset_enabled (hen : s.rdB (Reg.RING_CFG ring) 0 = true) :
    exec (.qmRingReset ring) s = .next (s.qmErr ((s.ownerOf 0x31 ring).getD 0) 0x0A02 ring) := by
  change execQmRingReset ring s = _
  simp only [execQmRingReset, hen, if_true]

/-- While EN is 1 only EN, IRQ_EN and HOLDOFF change; setting EN checks the ring. -/
theorem exec_ringCfgWrite {value : BitVec 32} {v cur : Nat} (hv : v = value.toNat % 2 ^ 25) (hcur : cur = s.rdN (Reg.RING_CFG ring)) :
    exec (.ringCfgWrite ring value) s = .next
      (if (if bitAt cur 0 = true then fld v 1 7 = fld cur 1 7 ∧ fld v 9 8 = fld cur 9 8 else bitAt v 0 = true → s.ringEnOk ring v = true)
       then s.wr (Reg.RING_CFG ring) v
       else (s.wrF (Reg.RING_STATUS ring) 16 16 0x0A02).qmErr ((s.ownerOf 0x31 ring).getD 0) 0x0A02 ring) := by
  change execRingCfgWrite ring value s = _
  rw [execRingCfgWrite, ← hv, ← hcur]
  by_cases hen : bitAt cur 0 = true
  · simp only [hen, if_true, apply_ite Host.Outcome.next]
  · by_cases hset : bitAt v 0 = true
    · cases s.ringEnOk ring v <;> simp [hen, hset]
    · simp [hen, hset]

end Completion

/-- Settles O32: each clause is the lemma of its command. -/
theorem ringCommands : Obligations.RingCommands := by
  refine ⟨?tail, ?head, ?refused, ?notReady, ?arrive, ?poisoned, ?items, ?notOwned, ?dsc, ?nop, ?post, ?full, ?holdoff,
    exec_qmRingFlush, ?flushSubmission, ?flushCompletion, ?reset, ?resetRefused, ?cfg⟩
  case tail => exact fun _ _ _ _ _ => exec_doorbellTail_fits
  case head => exact fun _ _ _ _ _ => exec_doorbellHead_fits
  case refused =>
    exact fun _ _ _ _ _ _ _ hready hcode => ⟨exec_doorbellTail_refused hready hcode, exec_doorbellHead_refused hready hcode⟩
  case notReady => exact fun _ _ _ _ _ _ => exec_doorbell_not_ready
  case arrive =>
    rintro ring hostData bs hostBad p _ _ _ s _ howner rfl rfl hlive hread rfl rfl
    change execRingEntriesArrive ring hostData hostBad s = _
    simp only [execRingEntriesArrive, howner, if_neg hlive, hread, Bool.false_eq_true, if_false]
  case poisoned =>
    rintro ring hostData bs hostBad p _ _ s howner rfl rfl hlive hread
    change execRingEntriesArrive ring hostData hostBad s = _
    simp only [execRingEntriesArrive, howner, if_neg hlive, hread, if_true]
  case items =>
    rintro ring c opc p i s s1 s2 code htake (⟨rfl, rfl, hdone⟩ | ⟨rfl, rfl, hdone⟩ | ⟨rfl, rfl, hdone⟩ |
      ⟨rfl, rfl, howns, rfl, rfl⟩ | ⟨rfl, rfl, howns, hdone⟩)
    · exact exec_itemLaunch htake hdone
    · exact exec_itemSignal htake hdone
    · exact exec_itemSet htake hdone
    · exact (exec_itemTrigger htake).trans (congrArg _ (if_pos howns))
    · exact exec_itemMstart_owned htake howns hdone
  case notOwned =>
    refine fun ring p i s s1 => ⟨fun htake howns => ?_, exec_itemMstart_not_owned⟩
    exact (exec_itemTrigger htake).trans (congrArg _ (if_neg (Bool.not_eq_true _ ▸ howns)))
  case dsc => rintro ring p code i s s1 s2 _ htake hidle hdone rfl; exact exec_itemDsc htake hidle hdone
  case nop => exact fun _ _ _ _ _ => exec_itemNop
  case post =>
    rintro ring x n tail _ s s1 _ hfind hn htail hroom hwrite rfl rfl
    exact exec_completionPost_room hfind hn htail hroom hwrite
  case full => exact fun _ _ _ => exec_completionPost_full
  case holdoff => rintro ring h p s _ hheld howner rfl; exact exec_holdoffExpiry hheld howner
  case flushSubmission => rintro ring _ s _ hkind rfl rfl; exact exec_qmRingFlushAll_submission hkind
  case flushCompletion => exact fun _ _ => exec_qmRingFlushAll_completion
  case reset => rintro ring s _ hen rfl; exact exec_qmRingReset_disabled hen
  case resetRefused => exact fun _ _ => exec_qmRingReset_enabled
  case cfg => exact fun _ _ _ _ _ => exec_ringCfgWrite

end Sys2Proof.Machine
end

section
/-! PROOFS of the family 16_silair_multi_device (O38, O39): ports, flits and the requests of other devices (R411 to R417, R423 to R425),
and heartbeats, mastership, time, bindings and checkpoints of the link (R420 to R437). -/

namespace Sys2Proof.Machine

/-! ### Ports, flits and requests (R411 to R425) -/

theorem exec_lnkCtrlWrite (n : Fin 8) (value : BitVec 32) (s s1 : State) (hs1 : s1 = s.wr (Reg.LNK_PORT_CTRL n) (value.getLsbD 0).toNat) :
    exec (.lnkCtrlWrite n value) s = .next (if value.getLsbD 0 = true ∧ s.rdB (Reg.LNK_PORT_CTRL n) 0 = false ∧ s.portState n = 0 ∧
      s.lnk.strapRole ≠ .standalone then s1.wrF (Reg.LNK_PORT_STATUS n) 0 2 1 else s1) := by
  subst hs1
  change execLnkCtrlWrite n value s = _
  simp only [execLnkCtrlWrite, Bool.and_eq_true, Bool.not_eq_true', beq_iff_eq, bne_iff_ne, and_assoc]

theorem exec_trainingComplete_retraining (n : Fin 8) (neighbour : Fin 128) (nrole : Role) (authOk joining : Bool) (peerNow : Nat)
    (s : State) (hstate : s.portState n = 3) :
    exec (.trainingComplete n neighbour nrole authOk joining peerNow) s = .next (s.wrF (Reg.LNK_PORT_STATUS n) 0 2 2) := by
  change execTrainingComplete n neighbour nrole authOk joining peerNow s = _
  simp [execTrainingComplete, hstate]

/-- A training port whose neighbour agrees and is genuine comes up. -/
theorem exec_trainingComplete_admitted (n : Fin 8) (neighbour : Fin 128) (nrole : Role) (joining : Bool) (peerNow : Nat)
    (s s1 s2 s3 : State) (hstate : s.portState n = 1)
    (hs1 : s1 = (s.wr (Reg.LNK_PORT_STATUS n) (2 + neighbour.val * 16)).setPort n
      { s.port n with rxSeq := 255, nakRun := 0, lastFlit := s.now })
    (hagree : ¬(neighbour.val = s.devId ∨ (nrole = .master ∧ s.lnk.role = .master) ∨ (nrole = .standby ∧ s.lnk.role = .standby)))
    (hs2 : s2 = (s1.wrF (Reg.LNK_PORT_STATUS n) 2 1 1).rejoin neighbour)
    (hs3 : s3 = { s2 with
        lnk := { s2.lnk with
          seqTop := (s2.lnk.seqTop.del (neighbour * 2)).del (neighbour * 2 + 1), seqSeen := (s2.lnk.seqSeen.del (neighbour * 2)).del
            (neighbour * 2 + 1), alive := s2.lnk.alive.put neighbour s.now, devices := insSorted neighbour s2.lnk.devices } }) :
    exec (.trainingComplete n neighbour nrole true joining peerNow) s = .next
      ((if nrole = .master then s3.wrF Reg.LNK_STATUS 16 7 neighbour else s3).admitTime joining peerNow) := by
  subst hs3 hs2 hs1
  change execTrainingComplete n neighbour nrole true joining peerNow s = _
  rw [execTrainingComplete, if_neg (by omega), if_pos hstate]
  simp only [if_neg hagree, Bool.not_true, Bool.false_eq_true, if_false]

theorem exec_trainingComplete_rejected (n : Fin 8) (neighbour : Fin 128) (nrole : Role) (authOk joining conflict : Bool) (peerNow : Nat)
    (s s1 : State) (hstate : s.portState n = 1)
    (hs1 : s1 = (s.wr (Reg.LNK_PORT_STATUS n) (2 + neighbour.val * 16)).setPort n
      { s.port n with rxSeq := 255, nakRun := 0, lastFlit := s.now })
    (hconflict : conflict = decide (neighbour.val = s.devId ∨ (nrole = .master ∧ s.lnk.role = .master) ∨
      (nrole = .standby ∧ s.lnk.role = .standby))) (hrejected : (conflict || !authOk) = true) :
    exec (.trainingComplete n neighbour nrole authOk joining peerNow) s = .next
      (s1.linkErr (uPort n) (if conflict then 0x0B22 else 0x0B21) neighbour) := by
  subst hs1
  change execTrainingComplete n neighbour nrole authOk joining peerNow s = _
  rw [execTrainingComplete, if_neg (by omega), if_pos hstate]
  cases conflict with
  | true => simp only [if_pos (of_decide_eq_true hconflict.symm), if_true]
  | false =>
    have hauth : authOk = false := by simpa using hrejected
    simp only [if_neg (of_decide_eq_false hconflict.symm), hauth, Bool.not_false, Bool.false_eq_true, if_true, if_false]

theorem exec_trainingFailure (n : Fin 8) (s s1 : State) (hstate : s.portState n = 1 ∨ s.portState n = 3)
    (hs1 : s1 = (s.wr (Reg.LNK_PORT_STATUS n) 0).setPort n { s.port n with lastFail := s.now, nakRun := 0 }) :
    exec (.trainingFailure n) s = .next (((if s.portState n = 3 then s1.bump (Reg.LNK_PORT_DOWNS n) 1 else s1).emit (.flit n 3 0)).linkErr
      (uPort n) 0x0B20) := by
  subst hs1
  change execTrainingFailure n s = _
  simp only [execTrainingFailure, if_pos hstate]

theorem exec_trainingRetry (n : Fin 8) (s : State) (hdown : s.portState n = 0) (hen : s.rdB (Reg.LNK_PORT_CTRL n) 0 = true)
    (hstrap : s.lnk.strapRole ≠ .standalone) :
    exec (.trainingRetry n) s = .next (s.wrF (Reg.LNK_PORT_STATUS n) 0 2 1) := by
  change execTrainingRetry n s = _
  simp [execTrainingRetry, hdown, hen, hstrap]

/-- A good flit in sequence is taken with its credits, and a data flit with its packets. -/
theorem exec_flitReceive_good (n : Fin 8) (check : FlitCheck) (kind : FlitKind) (seq : Fin 256) (creditVc : Fin 4) (credits : Fin 4096)
    (packets : List Packet) (s s0 s1 : State) (hup : s.portState n = 2) (hcrc : check ≠ .crcFail)
    (hseq : seq.val = ((s.port n).rxSeq + 1) % 256) (hs0 : s0 = if check = .corrected then s.bump (Reg.LNK_PORT_FEC_CE n) 1 else s)
    (hs1 : s1 = s0.setPort n { s.port n with
        rxSeq := seq, lastFlit := s.now, credits := (s.port n).credits.modify creditVc (· + credits.val) }) :
    exec (.flitReceive n check kind seq creditVc credits packets) s = .next (if kind = .data then packets.foldl
      (fun s pk => s.takePacket n pk) (if packets.any (fun pk => pk.type != 7) then s1.wake 1 else s1) else s1) := by
  subst hs1 hs0
  change execFlitReceive n check kind seq creditVc credits packets s = _
  have hgood : ¬(check = .crcFail ∨ seq.val ≠ ((s.port n).rxSeq + 1) % 256) := not_or.mpr ⟨hcrc, not_not.mpr hseq⟩
  rw [execFlitReceive, if_neg (not_not.mpr hup)]
  simp only [if_neg hgood]
  by_cases hdata : kind = .data <;> simp [hdata]

theorem exec_flitReceive_bad (n : Fin 8) (check : FlitCheck) (kind : FlitKind) (seq : Fin 256) (creditVc : Fin 4) (credits : Fin 4096)
    (packets : List Packet) (s s0 : State) (hup : s.portState n = 2) (hbad : check = .crcFail ∨ seq.val ≠ ((s.port n).rxSeq + 1) % 256)
    (hs0 : s0 = if check = .corrected then s.bump (Reg.LNK_PORT_FEC_CE n) 1 else s) :
    exec (.flitReceive n check kind seq creditVc credits packets) s = .next (s0.emit (.flit n 2 (s.port n).rxSeq)) := by
  subst hs0
  change execFlitReceive n check kind seq creditVc credits packets s = _
  rw [execFlitReceive, if_neg (not_not.mpr hup)]
  simp only [if_pos hbad]

theorem exec_nakReceive (n : Fin 8) (lastGood : Fin 256) (run : Nat) (s : State) (hup : s.portState n = 2)
    (hrun : run = if (s.port n).nakRun ≠ 0 ∧ (s.port n).nakSeq = lastGood.val then (s.port n).nakRun + 1 else 1) :
    exec (.nakReceive n lastGood) s = .next (((s.setPort n { s.port n with nakSeq := lastGood, nakRun := run }).bump
      (Reg.LNK_PORT_RETRIES n) 1).emit (.flit n 4 lastGood)) := by
  subst hrun
  change execNakReceive n lastGood s = _
  rw [execNakReceive, if_neg (not_not.mpr hup)]

/-- Sixteen NAKs in a row, or silence, start retraining. -/
theorem exec_nakLimit_flitTimeout (n : Fin 8) (s : State) (hup : s.portState n = 2) :
    (16 ≤ (s.port n).nakRun → exec (.nakLimit n) s = .next ((s.wrF (Reg.LNK_PORT_STATUS n) 0 2 3).setPort n
      { s.port n with nakRun := 0 })) ∧ exec (.flitTimeout n) s = .next (s.wrF (Reg.LNK_PORT_STATUS n) 0 2 3) := by
  refine ⟨fun hrun => ?_, congrArg _ (if_pos hup)⟩
  exact congrArg _ (if_pos ⟨hup, hrun⟩)

theorem exec_linkWrite_bound (pk : Packet) (p dva : Nat) (ps : List (Nat × Nat)) (s s1 : State) (hs1 : s1 = s.consume pk)
    (hbind : s1.bindFor pk true = some (p, dva)) (hpages : (s1.xlateAll p .write false (pieces dva (pk.len * 64))).toOption = some ps)
    (hdecoded : ps.any (fun e => targetOf e.1 == .undecoded) = false) :
    exec (.linkWrite pk) s = .next ((s1.writeGranules p dva pk.poison pk.len pk.payload 0).emit (.link pk.src 4 [pk.tag, 0] [])) := by
  subst hs1
  change execLinkWrite pk s = _
  simp only [execLinkWrite, hbind, eq_ok_of_toOption_eq_some hpages, hdecoded, Bool.false_eq_true, if_false]

theorem exec_linkRead_bound (pk : Packet) (p dva : Nat) (bs : List Byte) (bad : Bool) (s s1 : State) (hs1 : s1 = s.consume pk)
    (hbind : s1.bindFor pk false = some (p, dva)) (hread : s1.readDva p dva (pk.len * 64) = .data bs bad) :
    exec (.linkRead pk) s = .next ((s1.txBytes pk.src s1.devId p pk.tag bs.length).emit
      (.link pk.src 3 [pk.tag, 0, s1.poisonBits p dva pk.len] bs)) := by
  subst hs1
  change execLinkRead pk s = _
  simp only [execLinkRead, hbind, hread]

/-- A request without a binding is refused and counted. -/
theorem exec_request_unbound (pk : Packet) (s s1 : State) (hs1 : s1 = s.consume pk) :
    (s1.bindFor pk true = none → exec (.linkWrite pk) s = .next (s1.refuseRequest pk 4)) ∧
      (s1.bindFor pk false = none → exec (.linkRead pk) s = .next (s1.refuseRequest pk 3)) ∧ (s1.lnk.bindings.find?
      (fun e => e.2.srcDev == pk.src && e.2.srcPt == pk.pt && e.2.sig) = none → exec (.linkSignal pk) s = .next (s1.refuseRequest pk 6)) := by
  subst hs1
  refine ⟨fun hbind => ?write, fun hbind => ?read, fun hbind => ?signal⟩
  case write =>
    change execLinkWrite pk s = _
    simp only [execLinkWrite, hbind]
  case read =>
    change execLinkRead pk s = _
    simp only [execLinkRead, hbind]
  case signal =>
    change execLinkSignal pk s = _
    simp only [execLinkSignal, hbind]

theorem exec_linkSignal_bound (pk : Packet) (sel flag n code : Nat) (b : Binding) (s s0 s1 : State) (hs0 : s0 = s.consume pk)
    (hflag : flag = fld (getLE pk.payload 0 8) 0 15) (hn : n = fld (getLE pk.payload 0 8) 32 32)
    (hbind : s0.lnk.bindings.find? (fun e => e.2.srcDev == pk.src && e.2.srcPt == pk.pt && e.2.sig) = some (sel, b))
    (howns : s0.owns b.localPt 0x33 flag = true) (hready : s0.ptReady b.localPt = true)
    (hdone : (s1, code) = s0.flagSignal b.localPt flag n ⟨0x38, pk.src⟩ 0 8) :
    exec (.linkSignal pk) s = .next (((if code = 0 then { s1.wr (Reg.SYN_PT_REMOTE_IN b.localPt)
                                                            ((s1.rdN (Reg.SYN_PT_REMOTE_IN b.localPt) + 1) % 2 ^ 32) with
        gs := { s1.gs with remoteAt := s1.gs.remoteAt.put b.localPt s0.now } } else s1).emit (.link pk.src 6 [pk.tag, code] [])).crzDrain) := by
  subst hs0 hflag hn
  change execLinkSignal pk s = _
  simp only [execLinkSignal, hbind, howns, hready, ← hdone, Bool.not_true, Bool.or_self, Bool.false_eq_true, if_false]

/-- Status 0 ends the request. -/
theorem exec_response_ok (tag : Fin 65536) (poison : Fin 16) (data : List Byte) (r : Remote) (s : State) :
    (s.remoteOf 2 tag = some r → exec (.readResp tag 0 poison data) s = .next ((List.range ((r.len + 63) / 64)).foldl
      (fun s i => s.storePA (r.addr + 64 * i) ((data.drop (64 * i)).take (min 64 (r.len - 64 * i))) (bitAt poison i)) (s.forget r))) ∧
      (s.remoteOf 1 tag = some r → exec (.writeAck tag 0) s = .next (s.forget r)) ∧
      (s.remoteOf 5 tag = some r → exec (.signalAck tag 0) s = .next (s.forget r)) := by
  refine ⟨fun hr => ?read, fun hr => ?write, fun hr => ?signal⟩
  case read =>
    change execReadResp tag 0 poison data s = _
    simp [execReadResp, hr]
  case write =>
    change execWriteAck tag 0 s = _
    simp [execWriteAck, hr]
  case signal =>
    change execSignalAck tag 0 s = _
    simp [execSignalAck, hr]

/-- Another status, or silence, fails it. -/
theorem exec_response_failed (tag status : Fin 65536) (poison : Fin 16) (data : List Byte) (r : Remote) (s : State)
    (hstatus : status ≠ 0) :
    (s.remoteOf 2 tag = some r → exec (.readResp tag status poison data) s = .next (s.remoteRefused r status)) ∧
      (s.remoteOf 1 tag = some r → exec (.writeAck tag status) s = .next (s.remoteRefused r status)) ∧
      (s.remoteOf 5 tag = some r → exec (.signalAck tag status) s = .next (s.remoteRefused r status)) ∧
      (s.lnk.outstanding.find? (fun r => r.tag == tag.val) = some r → exec (.respTimeout tag) s = .next (s.failRemote r)) := by
  refine ⟨fun hr => ?read, fun hr => ?write, fun hr => ?signal, fun hr => ?timeout⟩
  case read =>
    change execReadResp tag status poison data s = _
    simp [execReadResp, hr, hstatus]
  case write =>
    change execWriteAck tag status s = _
    simp [execWriteAck, hr, hstatus]
  case signal =>
    change execSignalAck tag status s = _
    simp [execSignalAck, hr, hstatus]
  case timeout =>
    change execRespTimeout tag s = _
    simp only [execRespTimeout, hr]

/-- Settles O38: each clause is the lemma of its command. A failed training raises 0x0B20 (row 222 of the assumption log); the kinds of
the flits and packets emitted, and that no flit is held for replay, are the model's own (rows 13 and 226). -/
theorem linkTransport : Obligations.LinkTransport :=
  ⟨exec_lnkCtrlWrite, exec_trainingComplete_retraining, exec_trainingComplete_admitted, exec_trainingComplete_rejected,
    exec_trainingFailure, exec_trainingRetry, exec_flitReceive_good, exec_flitReceive_bad, exec_nakReceive, exec_nakLimit_flitTimeout,
    exec_linkWrite_bound, exec_linkRead_bound, exec_request_unbound, exec_linkSignal_bound, exec_response_ok, exec_response_failed⟩

/-! ### The system of devices (R420 to R437) -/

theorem exec_heartbeatBroadcast_master (s : State) (hmaster : s.lnk.role = .master) :
    exec .heartbeatBroadcast s = .next (s.emit (.link everyDevice kHeartbeat [s.rdN Reg.LNK_MEPOCH, s.rdN Reg.LNK_SYS_GEN] [])) :=
  congrArg _ (if_pos hmaster)

theorem exec_lnkHeartbeat_followed (src : Fin 128) (mepoch sysGen : BitVec 32) (s s1 s2 : State)
    (hepoch : mepoch.toNat = s.rdN Reg.LNK_MEPOCH) (hrole : s.lnk.role ≠ .master) (hs1 : s1 = s.wrF Reg.LNK_STATUS 16 7 src)
    (hs2 : s2 = { s1.wr Reg.LNK_SYS_GEN sysGen.toNat with lnk := { s1.lnk with beat := s.now } }) :
    exec (.lnkHeartbeat src mepoch sysGen) s = .next (s2.emit (.link src kAnswer [] [])) := by
  subst hs2 hs1
  change execHeartbeat src mepoch sysGen s = _
  have hheard : ¬(mepoch.toNat < s.rdN Reg.LNK_MEPOCH ∨ (s.lnk.role = .master ∧ mepoch.toNat = s.rdN Reg.LNK_MEPOCH)) := by
    rw [hepoch]
    simp [hrole]
  rw [execHeartbeat, if_neg hheard]
  simp only [if_pos hepoch]

/-- A beat with a higher MEPOCH makes its sender the master. -/
theorem exec_lnkHeartbeat_higher (src : Fin 128) (mepoch sysGen : BitVec 32) (s s1 s2 : State)
    (hepoch : s.rdN Reg.LNK_MEPOCH < mepoch.toNat) (hs1 : s1 = s.acceptMaster src mepoch.toNat)
    (hs2 : s2 = { s1.wr Reg.LNK_SYS_GEN sysGen.toNat with lnk := { s1.lnk with beat := s.now } }) :
    exec (.lnkHeartbeat src mepoch sysGen) s = .next (s2.emit (.link src kAnswer [] [])) := by
  subst hs2 hs1
  change execHeartbeat src mepoch sysGen s = _
  have hne : mepoch.toNat ≠ s.rdN Reg.LNK_MEPOCH := by omega
  have hheard : ¬(mepoch.toNat < s.rdN Reg.LNK_MEPOCH ∨ (s.lnk.role = .master ∧ mepoch.toNat = s.rdN Reg.LNK_MEPOCH)) := by omega
  rw [execHeartbeat, if_neg hheard]
  simp only [if_neg hne]

theorem exec_heartbeatAnswer_master (src : Fin 128) (s : State) (hmaster : s.lnk.role = .master) :
    exec (.heartbeatAnswer src) s = .next { s with
        lnk := { s.lnk with alive := s.lnk.alive.put src s.now, devices := insSorted src s.lnk.devices } } :=
  congrArg _ (if_pos hmaster)

theorem exec_lossTimeout_master (dev : Fin 128) (s : State) (hmaster : s.lnk.role = .master)
    (hreachable : bitAt (s.rdN (Reg.LNK_UNREACH (dev / 64))) (dev % 64) = false) :
    exec (.lossTimeout dev) s = .next (s.declareLost dev) := by
  change execLossTimeout dev s = _
  simp [execLossTimeout, hmaster, hreachable]

theorem exec_lossNotice (dev : Fin 128) (sysGen : BitVec 32) (s : State) :
    exec (.lossNotice dev sysGen) s = .next (((s.wake 1).wr Reg.LNK_SYS_GEN sysGen.toNat).markLost dev) := rfl

/-- The standby promotes itself. -/
theorem exec_masterTimeout_standby (e : Nat) (s s1 : State) (hstandby : s.lnk.role = .standby)
    (he : e = (s.rdN Reg.LNK_MEPOCH + 1) % 2 ^ 32)
    (hs1 : s1 = ((((s.wr Reg.LNK_MEPOCH e).setRole .master).wrF Reg.LNK_STATUS 16 7 s.devId).wr Reg.LNK_STANDBY 0).emit
      (.link everyDevice kMaster [s.devId, e] [])) :
    exec .masterTimeout s = .next (((if s.lnk.ckpt.openEpoch.isSome then s1.discardEpoch.evt 0 0x0B2B else s1).declareLost s.masterId).evt
      0 0x0B27 s.devId) := by
  subst hs1 he
  change execMasterTimeout s = _
  rw [execMasterTimeout, if_neg (not_not.mpr hstandby)]

theorem exec_masterNotice_higher (src : Fin 128) (mepoch : BitVec 32) (s s1 : State) (hs1 : s1 = s.wake 1)
    (hepoch : s1.rdN Reg.LNK_MEPOCH < mepoch.toNat) :
    exec (.masterNotice src mepoch) s = .next (s1.acceptMaster src mepoch.toNat) := by
  subst hs1
  change execMasterNotice src mepoch s = _
  have hnew : ¬(mepoch.toNat < (s.wake 1).rdN Reg.LNK_MEPOCH ∨
      (mepoch.toNat = (s.wake 1).rdN Reg.LNK_MEPOCH ∧ (s.wake 1).masterId = src)) := by omega
  exact congrArg _ (if_neg hnew)

theorem exec_standbyWrite (value : BitVec 32) (v : Nat) (s : State) (hv : v = value.toNat % 128 + (value.getLsbD 31).toNat * 2 ^ 31) :
    exec (.standbyWrite value) s = .next (if s.lnk.role = .master then (s.wr Reg.LNK_STANDBY v).emit (.link everyDevice kStandby [v] [])
      else s.linkErr ⟨0, 0⟩ 0x0B2D) := by
  subst hv
  change execStandbyWrite value s = _
  by_cases hmaster : s.lnk.role = .master <;> simp [execStandbyWrite, hmaster]

theorem exec_standbyNotice (value : BitVec 32) (v : Nat) (s : State) (hv : v = value.toNat % 128 + (value.getLsbD 31).toNat * 2 ^ 31) :
    exec (.standbyNotice value) s = .next (((s.wake 1).wr Reg.LNK_STANDBY v).takeStandby v) := by
  subst hv
  rfl

/-- Sixteen exchanges within 20 ns lock the time, and four above lose the lock. -/
theorem exec_timeExchange (errNs : Int) (s s1 : State) (hmaster : s.lnk.role ≠ .master) (halone : s.lnk.role ≠ .standalone)
    (hs1 : s1 = (s.fresh.2.wr Reg.LNK_TIME_ERR (codeOf 32 errNs)).wr Reg.DT_RATE
      (nominalRate - nominalRate / 10000 + s.fresh.1 % (2 * (nominalRate / 10000) + 1))) :
    (errNs.natAbs ≤ 20 → s.lnk.goodRun + 1 < 16 → exec (.timeExchange errNs) s = .next
      { s1 with lnk := { s1.lnk with goodRun := s.lnk.goodRun + 1, badRun := 0 } }) ∧ (errNs.natAbs ≤ 20 → 16 ≤ s.lnk.goodRun + 1 → exec
      (.timeExchange errNs) s = .next (({ s1 with lnk := { s1.lnk with goodRun := s.lnk.goodRun + 1, badRun := 0 } }).wrF Reg.LNK_STATUS 9
      1 1)) ∧ (20 < errNs.natAbs → s.lnk.badRun + 1 < 4 → exec (.timeExchange errNs) s = .next
      { s1 with lnk := { s1.lnk with goodRun := 0, badRun := s.lnk.badRun + 1 } }) ∧ (20 < errNs.natAbs → 4 ≤ s.lnk.badRun + 1 → s.rdB
      Reg.LNK_STATUS 9 = true → exec (.timeExchange errNs) s = .next
      ((({ s1 with lnk := { s1.lnk with goodRun := 0, badRun := s.lnk.badRun + 1 } }).wrF Reg.LNK_STATUS 9 1 0).evt 0 0x0B28)) := by
  subst hs1
  rw [show exec (.timeExchange errNs) s = execTimeExchange errNs s from rfl, execTimeExchange,
    if_neg (not_or.mpr ⟨hmaster, halone⟩)]
  refine ⟨fun herr hrun => ?good, fun herr hrun => ?locks, fun herr hrun => ?bad, fun herr hrun hlocked => ?loses⟩
  case good => simp only [if_pos herr, if_neg (Nat.not_le.mpr hrun)]
  case locks => simp only [if_pos herr, if_pos hrun]
  case bad => simp only [if_neg (Nat.not_le.mpr herr), if_neg (fun h : 4 ≤ s.lnk.badRun + 1 ∧ _ => Nat.not_le.mpr hrun h.1)]
  case loses => simp only [if_neg (Nat.not_le.mpr herr), if_pos (And.intro hrun hlocked)]

theorem exec_timeStepNotice (ns : Nat) (s : State) :
    exec (.timeStepNotice ns) s = .next ((if (s.wake 1).rdB Reg.LNK_STATUS 9 then (s.wake 1).stepTime ns else s.wake 1).evt 0 0x0B2F ns) := rfl

/-- The first report of a code and device is latched. -/
theorem exec_errorReport_first (src : Fin 128) (code : BitVec 16) (subjClass subjInst : Fin 256) (info time : BitVec 64) (k : Nat)
    (s s0 s1 : State) (hs0 : s0 = s.wake 1) (hmaster : s0.lnk.role = .master) (hk : k = code.toNat * 128 + src) (hcode : code ≠ 0x0D0B#16)
    (hnew : Tab.get? s0.lnk.storms k = none)
    (hs1 : s1 = { s0 with lnk := { s0.lnk with storms := s0.lnk.storms.put k ⟨src, time.toNat, s0.now⟩ } }) :
    exec (.errorReport src code subjClass subjInst info time) s = .next
      (s1.report 0 { code := code.toNat, subj := ⟨subjClass, subjInst⟩, dev := src, info := info.toNat, remote := true }) := by
  subst hs1 hk hs0
  change execErrorReport src code subjClass subjInst info time s = _
  rw [execErrorReport]
  simp only [if_neg (not_not.mpr hmaster), hnew, hcode, false_and, if_false]

theorem exec_freezePacket_new (n : Fin 8) (originator : Fin 128) (seq : Fin 65536) (s s0 s1 s2 : State) (hs0 : s0 = s.wake 1)
    (hnew : s0.dbg.seen.contains (originator.val, seq.val) = false)
    (hs1 : s1 = { s0 with dbg := { s0.dbg with seen := (originator.val, seq.val) :: s0.dbg.seen } }) (hrunning : s0.isFrozen = false)
    (hs2 : s2 = ((List.range 8).filter fun k => k != n.val && s0.portState k == 2).foldl
      (fun s k => s.emit (.flit k 5 (originator.val * 65536 + seq.val))) s1) :
    exec (.freezePacket n originator seq) s = .next (if s0.rdB Reg.DBG_FRZ_CFG 1 then s2.freezeBy 2 originator seq false else s2) := by
  subst hs2 hs1 hs0
  change execFreezePacket n originator seq s = _
  simp only [execFreezePacket, hnew, State.isFrozen, Bool.false_eq_true, if_false]
  rw [if_neg (by simpa [State.isFrozen] using hrunning)]

/-- A binding command that is not refused runs. -/
theorem exec_bindWrite_bindClear (sel : Nat) (s s1 : State) (hsel : sel = s.rdF Reg.LNK_BIND_SEL 0 10) (hidle : s.bindBusy = false)
    (hs1 : s1 = s.wr Reg.LNK_BIND_STATUS 1) :
    (s.bindBad sel s.stagedBinding = false → exec .bindWrite s = .next { s1 with lnk := { s.lnk with bindRun := some 1 } }) ∧
      (Tab.get? s.lnk.bindings sel = none → exec .bindClear s = .next { s1 with lnk := { s.lnk with bindRun := some 3 } }) ∧
      (s.bindBad sel s.stagedBinding = true → exec .bindWrite s = .next s.bindRefuse) := by
  subst hs1 hsel
  refine ⟨fun hok => ?write, fun hnone => ?clear, fun hbad => ?refused⟩
  case write =>
    change execBindWrite s = _
    simp only [execBindWrite, hidle, hok, or_self, Bool.false_eq_true, if_false]
  case clear =>
    change execBindClear s = _
    simp only [execBindClear, hidle, hnone, or_self, Bool.false_eq_true, if_false]
  case refused =>
    change execBindWrite s = _
    simp only [execBindWrite, hbad, or_true, if_true]

theorem exec_bindRead_valid (b : Binding) (s : State) (hidle : s.bindBusy = false)
    (hvalid : Tab.get? s.lnk.bindings (s.rdF Reg.LNK_BIND_SEL 0 10) = some b) :
    exec .bindRead s = .next ((((s.wr Reg.LNK_BIND_BASE b.base).wr Reg.LNK_BIND_SIZE b.size).wr Reg.LNK_BIND_ATTR (b.srcDev + b.srcPt * 2
      ^ 8 + b.index * 2 ^ 12 + b.localPt * 2 ^ 16 + b.r.toNat * 2 ^ 20 + b.w.toNat * 2 ^ 21 + b.sig.toNat * 2 ^ 22 + 2 ^ 31)).wr
      Reg.LNK_BIND_STATUS 0) := by
  change execBindRead s = _
  simp only [execBindRead, hidle, hvalid, Bool.false_eq_true, if_false]

theorem exec_bindCmdComplete_running (c sel : Nat) (s s1 : State) (hrun : s.lnk.bindRun = some c)
    (hsel : sel = s.rdF Reg.LNK_BIND_SEL 0 10) (hs1 : s1 = s.wr Reg.LNK_BIND_STATUS 0) :
    exec .bindCmdComplete s = .next { s1 with
        lnk := { s.lnk with
          bindings := if c = 1 ∧ s.rdB Reg.LNK_BIND_ATTR 31 = true then s.lnk.bindings.put sel s.stagedBinding else s.lnk.bindings.del
            sel, bindRun := none } } := by
  subst hs1 hsel
  change execBindCmdComplete s = _
  simp only [execBindCmdComplete, hrun]

theorem exec_aliasWrite (d : Fin 128) (value : BitVec 32) (s : State) :
    ∃ t, exec (.aliasWrite d value) s = .next t ∧ t.rdN (Reg.LNK_ALIAS d) = value.toNat % 128 + (value.getLsbD 31).toNat * 2 ^ 31 ∧
      (∀ b, b ≠ Reg.LNK_ALIAS d → t.rd b = s.rd b) ∧ t = { s with regs := t.regs } := by
  refine ⟨_, rfl, ?_, fun b hb => rd_wr_ne s _ hb, rfl⟩
  rw [rdN_wr_same, Nat.mod_eq_of_lt]
  have := Bool.toNat_le (value.getLsbD 31)
  omega

theorem exec_ckptEnable_disabled (value : BitVec 32) (v : Nat) (s s1 : State)
    (hv : v = value.toNat % 65536 / 16 * 16 + (value.getLsbD 0).toNat) (hdisabled : s.rdB Reg.LNK_CKPT_CFG 0 = false)
    (hs1 : s1 = (s.wr Reg.LNK_CKPT_CFG v).wr Reg.LNK_CKPT_EPOCH 0) :
    exec (.ckptEnable value) s = .next (if bitAt v 0 = false then s.wr Reg.LNK_CKPT_CFG v else if s.ckptOk (fld v 4 4) (fld v 8 8) then
      { s1 with lnk := { s.lnk with ckpt := {} } } else s.linkErr ⟨0, 0⟩ 0x0B2D) := by
  subst hs1
  change execCkptEnable value s = _
  rw [execCkptEnable, ← hv, if_neg (by simpa [State.rdB] using hdisabled)]
  cases hen : bitAt v 0 <;> simp [apply_ite Host.Outcome.next]

theorem exec_ckptRequest_due (s s1 : State) (hmaster : s.lnk.role = .master) (hen : s.rdB Reg.LNK_CKPT_CFG 0 = true)
    (hwaiting : s.lnk.ckpt.waiting = false) (hacked : s.lnk.ckpt.acked = true)
    (hs1 : s1 = s.wr Reg.LNK_CKPT_EPOCH (s.rdN Reg.LNK_CKPT_EPOCH + 1)) :
    exec .ckptRequest s = .next (({ s1 with
        lnk := { s1.lnk with ckpt := { s1.lnk.ckpt with waiting := true, acked := false, reqTime := s.now } } }).ckptSignal
      (s.rdF Reg.LNK_CKPT_FLAGS_A 0 15)) := by
  subst hs1
  change execCkptRequest s = _
  simp [execCkptRequest, hmaster, hen, hwaiting, hacked]

/-- With READY at the epoch the regions go to a reachable standby. -/
theorem exec_ckptSnapshot_sent (e sb : Nat) (bs : List Byte) (s s1 : State) (he : e = s.rdN Reg.LNK_CKPT_EPOCH)
    (hsb : sb = s.rdF Reg.LNK_STANDBY 0 7) (hwaiting : s.lnk.ckpt.waiting = true)
    (hready : e ≤ (s.flag (s.rdF Reg.LNK_CKPT_FLAGS_A 16 15)).value)
    (hdata : (s.ckptList s.ckptPt (s.rdN Reg.LNK_CKPT_LIST) (s.rdF Reg.LNK_CKPT_CFG 8 8)).bind (s.ckptBytes s.ckptPt) = some bs)
    (hstandby : s.rdB Reg.LNK_STANDBY 31 = true) (hreachable : s.reachable sb = true)
    (hs1 : s1 = { s with
        lnk := { s.lnk with ckpt := { s.lnk.ckpt with waiting := false, prevSnap := s.lnk.ckpt.snapTime, snapTime := s.now } } }) :
    exec .ckptSnapshot s = .next ((((s1.txBytes sb s1.devId s1.ckptPt 0 bs.length).emit (.link sb kBegin [e, bs.length] [])).emit
      (.link sb kData [e] bs)).emit (.link sb kCommit [e, crc64 bs, s.now] [])) := by
  subst hs1 hsb he
  change execCkptSnapshot s = _
  have hnow : ¬((!s.lnk.ckpt.waiting) = true ∨ (s.flag (s.rdF Reg.LNK_CKPT_FLAGS_A 16 15)).value < s.rdN Reg.LNK_CKPT_EPOCH) := by
    simp [hwaiting, hready]
  rw [execCkptSnapshot]
  simp only [if_neg hnow, hdata, hstandby, hreachable, and_self, if_true]

theorem exec_ckptBegin_opens (epoch total : BitVec 64) (s s1 : State) (hstandby : s.lnk.role = .standby)
    (hen : s.rdB Reg.LNK_CKPT_CFG 0 = true) (hnew : s.rdN Reg.LNK_CKPT_COMMITTED < epoch.toNat)
    (hfits : total.toNat ≤ s.rdN Reg.LNK_CKPT_SLOT_SIZE)
    (hs1 : s1 = (s.discardEpoch.wrF Reg.LNK_CKPT_STATUS 16 1 1).wr Reg.LNK_CKPT_EPOCH epoch.toNat) :
    exec (.ckptBegin epoch total) s = .next { s1 with
        lnk := { s1.lnk with ckpt := { s1.lnk.ckpt with openEpoch := some epoch.toNat, total := total.toNat, got := [] } } } := by
  subst hs1
  change execCkptBegin epoch total s = _
  have hlistens : ¬(s.lnk.role ≠ .standby ∨ (!s.rdB Reg.LNK_CKPT_CFG 0) = true) := by simp [hstandby, hen]
  simp only [execCkptBegin, if_neg hlistens, if_neg (Nat.not_le.mpr hnew), if_neg (Nat.not_lt.mpr hfits)]

theorem exec_ckptData_written (epoch : BitVec 64) (data : List Byte) (s s1 : State) (hstandby : s.lnk.role = .standby)
    (hopen : s.lnk.ckpt.openEpoch = some epoch.toNat)
    (hwrite : s.writeDva s.ckptPt (uPort 0) (s.slotBase s.openSlot + s.lnk.ckpt.got.length) data = .done s1) :
    exec (.ckptData epoch data) s = .next { s1 with lnk := { s1.lnk with ckpt := { s1.lnk.ckpt with got := s.lnk.ckpt.got ++ data } } } := by
  change execCkptData epoch data s = _
  have hlistens : ¬(s.lnk.role ≠ .standby ∨ s.lnk.ckpt.openEpoch ≠ some epoch.toNat) := by simp [hstandby, hopen]
  rw [execCkptData]
  simp only [if_neg hlistens, hwrite]

/-- An epoch with every byte and an equal CRC commits. -/
theorem exec_ckptCommit_commits (epoch crc snap : BitVec 64) (s s1 s2 : State) (hstandby : s.lnk.role = .standby)
    (hopen : s.lnk.ckpt.openEpoch = some epoch.toNat) (hlen : s.lnk.ckpt.got.length = s.lnk.ckpt.total)
    (hcrc : crc64 s.lnk.ckpt.got = crc.toNat)
    (hs1 : s1 = ((s.wr Reg.LNK_CKPT_COMMITTED epoch.toNat).wr Reg.LNK_CKPT_SNAP_TIME snap.toNat).wr Reg.LNK_CKPT_STATUS
      (s.openSlot * 2 ^ 17))
    (hs2 : s2 = { s1 with lnk := { s1.lnk with ckpt := { s1.lnk.ckpt with openEpoch := none, total := 0, got := [] } } }) :
    exec (.ckptCommit epoch crc snap) s = .next ((s2.ckptSignal (s.rdF Reg.LNK_CKPT_FLAGS_B 16 15)).emit
      (.link s.masterId kAck [epoch.toNat, 0] [])) := by
  subst hs2 hs1
  change execCkptCommit epoch crc snap s = _
  have hlistens : ¬(s.lnk.role ≠ .standby ∨ s.lnk.ckpt.openEpoch ≠ some epoch.toNat) := by simp [hstandby, hopen]
  rw [execCkptCommit]
  simp only [if_neg hlistens, if_pos (And.intro hlen hcrc)]

theorem exec_ckptCommit_discards (epoch crc snap : BitVec 64) (s : State) (hstandby : s.lnk.role = .standby)
    (hopen : s.lnk.ckpt.openEpoch = some epoch.toNat)
    (hbad : s.lnk.ckpt.got.length ≠ s.lnk.ckpt.total ∨ crc64 s.lnk.ckpt.got ≠ crc.toNat) :
    exec (.ckptCommit epoch crc snap) s = .next (s.ckptDrop epoch.toNat 0x0B29) := by
  change execCkptCommit epoch crc snap s = _
  have hlistens : ¬(s.lnk.role ≠ .standby ∨ s.lnk.ckpt.openEpoch ≠ some epoch.toNat) := by simp [hstandby, hopen]
  rw [execCkptCommit]
  simp only [if_neg hlistens, if_neg (not_and_or.mpr hbad)]

theorem exec_ckptAck_master (epoch : BitVec 64) (code : BitVec 16) (s s1 : State) (hmaster : s.lnk.role = .master)
    (hepoch : epoch.toNat = s.rdN Reg.LNK_CKPT_EPOCH) (hacked : s.lnk.ckpt.acked = false) (hwaiting : s.lnk.ckpt.waiting = false)
    (hs1 : s1 = { s with
        lnk := { s.lnk with
          ckpt := { s.lnk.ckpt with
            lastD := s.now - s.lnk.ckpt.reqTime, nextReq := max s.now
              (s.lnk.ckpt.snapTime + s.rdN Reg.LNK_CKPT_INTERVAL * 1000 - (s.now - s.lnk.ckpt.reqTime)) } } }) :
    exec (.ckptAck epoch code) s = .next (if code.toNat ≠ 0 then (s.evt 0 code.toNat (s.rdN Reg.LNK_CKPT_EPOCH)).ckptDone code.toNat else
      (if 1 < s.rdN Reg.LNK_CKPT_EPOCH ∧ s.lnk.ckpt.prevSnap + s.rdN Reg.LNK_CKPT_INTERVAL * 1000 < s.now then
      (s1.bump Reg.LNK_CKPT_LATE 1).evt 0 0x0B2A (s.rdN Reg.LNK_CKPT_EPOCH) else s1).ckptDone 0) := by
  subst hs1
  change execCkptAck epoch code s = _
  have hcurrent : ¬(s.lnk.role ≠ .master ∨ epoch.toNat ≠ s.rdN Reg.LNK_CKPT_EPOCH ∨ s.lnk.ckpt.acked = true ∨ s.lnk.ckpt.waiting = true) := by
    simp [hmaster, hepoch, hacked, hwaiting]
  rw [execCkptAck]
  simp only [if_neg hcurrent, apply_ite Host.Outcome.next]

/-- Settles O39: each clause is the lemma of its command. The free correction of the rate within 100 ppm is rows 183 and 223 of the
assumption log, that a storm is keyed by the report's code row 224, and the kinds of the packets row 226. -/
theorem linkSystem : Obligations.LinkSystem :=
  ⟨exec_heartbeatBroadcast_master, exec_lnkHeartbeat_followed, exec_lnkHeartbeat_higher, exec_heartbeatAnswer_master,
    exec_lossTimeout_master, exec_lossNotice, exec_masterTimeout_standby, exec_masterNotice_higher, exec_standbyWrite, exec_standbyNotice,
    exec_timeExchange, exec_timeStepNotice, exec_errorReport_first, exec_freezePacket_new, exec_bindWrite_bindClear, exec_bindRead_valid,
    exec_bindCmdComplete_running, exec_aliasWrite, exec_ckptEnable_disabled, exec_ckptRequest_due, exec_ckptSnapshot_sent,
    exec_ckptBegin_opens, exec_ckptData_written, exec_ckptCommit_commits, exec_ckptCommit_discards, exec_ckptAck_master⟩

end Sys2Proof.Machine
end

section
/-! PROOFS of the family 17_security (O40): the commands of the security block, debug authentication and the random source (R443 to
R467). -/

namespace Sys2Proof.Machine

/-! ### Security commands and debug authentication (R443 to R467) -/

/-- While a command runs, every other one is refused. -/
theorem exec_secCommand_busy (p : Fin 16) (c : Instr) (s : State)
    (hc : c ∈ [Instr.secAttest p, .secChain p, .secSession p, .secImport p, .secExport p, .confEnable p, .confDisable p, .confGrant p,
      .confRelease p, .confMode p, .svnCommit p]) (hbusy : s.sec.cmd.isSome = true) :
    exec c s = .next ((s.bump Reg.SEC_REFUSED 1).secErr p 0x0C0A) := by
  have hrefused (op : Nat) (rng : Bool) (f : State → SecRes) :
      s.secBegin op p rng f = (s.bump Reg.SEC_REFUSED 1).secErr p 0x0C0A := if_pos hbusy
  simp only [List.mem_cons, List.not_mem_nil, or_false] at hc
  rcases hc with rfl | rfl | rfl | rfl | rfl | rfl | rfl | rfl | rfl | rfl | rfl <;> exact congrArg _ (hrefused _ _ _)

theorem exec_secSession_runs (p : Fin 16) (d : Nat) (s s1 : State) (hidle : s.sec.cmd = none) (hrng : s.sec.rngBad = false)
    (hfresh : (d, s1) = s.freshPriv) :
    exec (.secSession p) s = .next (s.secEnds 3 p ({ s1 with
        sec := { s1.sec with sess := s1.sec.sess.put p { priv := d, pub := ecPub d } } }, 0, 0)) := by
  change execSecSession p s = _
  rw [execSecSession, secBegin_runs (rng := true) hidle hrng]
  simp only [← hfresh]

theorem exec_confEnable_runs (p : Fin 16) (c : Nat) (s s1 s2 : State) (hidle : s.sec.cmd = none) (hc : c = s.secArg 1) (hp : p ≠ 0)
    (hready : s.ptReady p = true) (howns : s.ownsNothing p = true) (hchunk : c < chunkCount) (hfree : Tab.get? s.chunks c = none)
    (hs1 : s1 = { s.zeroChunk c with chunks := (s.zeroChunk c).chunks.put c p })
    (hs2 : s2 = (s1.countChunks p).wr (Reg.MEM_PT_S2_BASE p) (c * 0x200000)) :
    exec (.confEnable p) s = .next (s.secEnds 6 p (((s2.dropMeasures p).wrF (Reg.QM_PT_STATE p) 8 1 1).wr Reg.SEC_CONF
      (setFld (s2.rdN Reg.SEC_CONF) p 1 1), 0, 0)) := by
  subst hs2 hs1 hc
  have hok : ¬(p.val = 0 ∨ (!s.ptReady p) = true ∨ (!s.ownsNothing p) = true ∨ chunkCount ≤ s.secArg 1 ∨
      (Tab.get? s.chunks (s.secArg 1)).isSome = true) := by
    simp [hp, hready, howns, hchunk, hfree]
  change execConfEnable p s = _
  rw [execConfEnable, secBegin_runs hidle rfl]
  simp only [if_neg hok]

theorem exec_confCommand_runs (p : Fin 16) (s : State) (hidle : s.sec.cmd = none) (hconf : s.isConf p = true) :
    exec (.confDisable p) s = .next (s.secEnds 7 p (s.resetPartition p, 0, 0)) ∧
      (s.confRange p false = 0 → exec (.confRelease p) s = .next (s.secEnds 9 p (s.freeChunks (s.secArg 1) (s.secArg 3) p, 0, 0))) ∧
      (s.workPresent p = false → exec (.confMode p) s = .next (s.secEnds 0x0C p (s.wr (Reg.QM_PT_MODE p) (s.secArg 0 % 2), 0, 0))) := by
  refine ⟨?disable, fun hrange => ?release, fun hwork => ?mode⟩
  case disable =>
    change execConfDisable p s = _
    rw [execConfDisable, secBegin_runs hidle rfl]
    simp only [hconf, Bool.not_true, Bool.false_eq_true, if_false]
  case release =>
    change execConfRelease p s = _
    rw [execConfRelease, secBegin_runs hidle rfl]
    simp only [hrange, ne_eq, not_true_eq_false, if_false]
  case mode =>
    change execConfMode p s = _
    rw [execConfMode, secBegin_runs hidle rfl]
    simp only [hconf, hwork, Bool.not_true, Bool.false_eq_true, or_self, if_false]

theorem exec_confGrant_runs (p : Fin 16) (s s1 : State) (hidle : s.sec.cmd = none) (hrange : s.confRange p true = 0)
    (hs1 : s1 = (List.range (s.secArg 3)).foldl (fun s k => { s.zeroChunk (s.secArg 1 + k) with
        chunks := (s.zeroChunk (s.secArg 1 + k)).chunks.put (s.secArg 1 + k) p }) s) :
    exec (.confGrant p) s = .next (s.secEnds 8 p (s1.countChunks p, 0, 0)) := by
  subst hs1
  change execConfGrant p s = _
  rw [execConfGrant, secBegin_runs hidle rfl]
  simp only [hrange, ne_eq, not_true_eq_false, if_false]

theorem exec_svnCommit_runs (p : Fin 16) (i : RunImg) (s : State) (hidle : s.sec.cmd = none)
    (himage : Tab.get? s.sec.imgs (s.rdF (Reg.SEC_ARG 0) 0 2 + 1) = some i) :
    exec (.svnCommit p) s = .next (s.secEnds 0x0B p (if 127 < i.svn then (s, 0x0C09, 0) else (s, 0, 0))) := by
  change execSvnCommit p s = _
  rw [execSvnCommit, secBegin_runs hidle rfl]
  simp only [himage]

/-- A command ends, but a CONF_DISABLE only when its partition is READY. -/
theorem exec_secCmdComplete_ends (c : SecCmd) (s s0 s1 : State) (hrun : s.sec.cmd = some c)
    (hready : ¬(c.op = 7 ∧ c.code = 0 ∧ s.ptReady c.pt = false))
    (hs0 : s0 = if c.op = 7 ∧ c.code = 0 then s.confRelease c.pt else if c.op = 0x0B ∧ c.code = 0 then
      { s with sec := { s.sec with floor := s.sec.floor.put c.arg (max (s.svnFloor c.arg) (s.imgSvn c.arg)) } } else s)
    (hs1 : s1 = ((({ s0 with sec := { s0.sec with cmd := none } }).wr Reg.SEC_CMD_STATUS (c.code * 2 ^ 16)).wr Reg.SEC_CMD_LEN c.len).bump
      (if c.code = 0 then Reg.SEC_CMDS else Reg.SEC_REFUSED) 1) :
    exec .secCmdComplete s = .next (s1.flagReg c.pt Reg.SEC_FLAG 1 uSec) := by
  subst hs1 hs0
  change execSecCmdComplete s = _
  have hdone : ¬(c.op = 7 ∧ c.code = 0 ∧ (!s.ptReady c.pt) = true) := by simpa using hready
  simp only [execSecCmdComplete, hrun, if_neg hdone]

theorem exec_debugChallenge_fresh (x c : List Byte) (s s1 : State) (hlocked : s.sec.locked = false) (hrng : s.sec.rngBad = false)
    (hfresh : (x, s1) = s.freshBytes 32) (hc : c = x ++ sha384 s.idkPub) :
    exec .debugChallenge s = .next { s1 with sec := { s1.sec with challenge := some c }, out := s1.out ++ [.readData (ofLE c)] } := by
  subst hc
  change execDebugChallenge s = _
  simp only [execDebugChallenge, hlocked, hrng, ← hfresh, Bool.false_eq_true, if_false]

theorem exec_debug_locked (s : State) (hlocked : s.sec.locked = true) :
    exec .debugChallenge s = .next (s.secErr 0 0x0C05) ∧ ∀ a, exec (.debugResponse a) s = .next (s.secErr 0 0x0C05) :=
  ⟨if_pos hlocked, fun _ => if_pos hlocked⟩

theorem exec_debugResponse_good (answer : List Byte) (s s1 : State) (hlocked : s.sec.locked = false) (hok : s.debugOk answer = true)
    (hs1 : s1 = { s with sec := { s.sec with challenge := none } }) :
    exec (.debugResponse answer) s = .next (if getLE answer 0 1 = 3 then (List.range 16).foldl (fun s p => s.resetPartition p)
      { s1 with sec := { s1.sec with entering := true } } else { s1 with sec := { s1.sec with level := getLE answer 0 1 } }) := by
  subst hs1
  change execDebugResponse answer s = _
  simp only [execDebugResponse, hlocked, hok, Bool.false_eq_true, if_false, if_true, apply_ite Host.Outcome.next]

/-- The third bad response locks the interface. -/
theorem exec_debugResponse_bad (answer : List Byte) (n : Nat) (s s0 s1 : State) (hlocked : s.sec.locked = false)
    (hbad : s.debugOk answer = false) (hn : n = s.rdN Reg.SEC_DBG_FAILS + 1) (hs0 : s0 = s.wr Reg.SEC_DBG_FAILS n)
    (hs1 : s1 = { s0 with sec := { s.sec with challenge := none, locked := decide (3 ≤ n) } }) :
    exec (.debugResponse answer) s = .next (if 3 ≤ n then s1.secErr 0 0x0C05 else s1) := by
  subst hs1 hs0 hn
  change execDebugResponse answer s = _
  simp only [execDebugResponse, hlocked, hbad, Bool.false_eq_true, if_false]

theorem exec_debugLevelLower (level : Fin 3) (s : State) :
    exec (.debugLevelLower level) s = .next (if level.val < s.sec.level then { s with sec := { s.sec with level := level } } else s) := by
  change execDebugLevelLower level s = _
  simp only [execDebugLevelLower, apply_ite Host.Outcome.next]

theorem exec_rngHealthFail_first (s s1 : State) (hrng : s.sec.rngBad = false)
    (hs1 : s1 = { s with sec := { s.sec with rngBad := true, rngFails := 1 } }) :
    exec .rngHealthFail s = .next (s1.secErr 0 0x0C0B) := by
  subst hs1
  change execRngHealthFail s = _
  simp only [execRngHealthFail, hrng, Bool.false_eq_true, if_false]

theorem exec_rngRetry_bad (s s1 : State) (hrng : s.sec.rngBad = true)
    (hs1 : s1 = { s with sec := { s.sec with rngFails := s.sec.rngFails + 1 } }) :
    exec (.rngRetry true) s = .next { s with sec := { s.sec with rngBad := false, rngFails := 0 } } ∧ exec (.rngRetry false) s = .next
      (if s.sec.rngFails + 1 = 100 then (s1.deviceFatal 0x0C0B ⟨0, 0⟩).crzDrain else s1) := by
  subst hs1
  constructor
  · change execRngRetry true s = _
    simp only [execRngRetry, hrng, Bool.not_true, Bool.false_eq_true, if_false, if_true]
  · change execRngRetry false s = _
    simp only [execRngRetry, hrng, Bool.not_true, Bool.false_eq_true, if_false]

/-- The bytes that EXPORT writes (R452): a header of KIND 4 with the next SEQ, the ciphertext and its tag. -/
def exportBundle (x : Session) (key dest data : List Byte) : List Byte :=
  let iv := leBytes 12 ((x.exports + 1) % 2 ^ 32)
  let h := leBytes 2 0xB0D1 ++ leBytes 1 4 ++ leBytes 1 1 ++ leBytes 4 ((x.exports + 1) % 2 ^ 32) ++ dest ++ leBytes 4 data.length ++
    iv ++ x.owner
  h ++ gcmCrypt key iv data ++ gcmTag key iv h (gcmCrypt key iv data)

/-- Settles O40: each clause is the lemma of its command; past the refusals a command is its own part (`secBegin_runs`). Of the assumption
log it rests on row 23 (certificates), 169 (the cut of CHAIN), 172 (0x0C08 of UPDATE), 175 (effects when the command is taken) and 176
(DEST and SEQ of EXPORT). -/
theorem securityCommands : Obligations.SecurityCommands := by
  refine ⟨exec_secCommand_busy, ?attest, ?chain, exec_secSession_runs, ?importBundle, ?exportBundle, exec_confEnable_runs,
    exec_confCommand_runs, exec_confGrant_runs, ?update, exec_svnCommit_runs, exec_secCmdComplete_ends, exec_debugChallenge_fresh,
    exec_debug_locked, exec_debugResponse_good, exec_debugResponse_bad, exec_debugLevelLower, exec_rngHealthFail_first, exec_rngRetry_bad⟩
  case attest =>
    intro p _ body k s s1 hidle halign hnonce hfresh hbody
    change execSecAttest p s = _
    rw [execSecAttest, secBegin_runs hidle rfl]
    cases hwrite : s1.secWrite 0 (s.secArg 1) (body ++ ecdsaSign s1.sec.ak k body) <;>
      simp only [halign, eq_ok_of_toOption_eq_some hnonce, ← hfresh, ← hbody, hwrite, ne_eq, not_true_eq_false, if_false]
  case chain =>
    intro p b s hidle hb
    change execSecChain p s = _
    rw [execSecChain, secBegin_runs hidle rfl]
    cases hwrite : s.secWrite 0 (s.secArg 1) b <;> simp only [← hb, hwrite]
  case importBundle =>
    intro p h _ _ x s hidle hheader hsession hok hbundle hct
    change execSecImport p s = _
    rw [execSecImport, secBegin_runs hidle rfl]
    cases hkey : sessionKey x "IMPORT" ((h.drop 0x20).take 96) <;>
      simp only [eq_ok_of_toOption_eq_some hheader, hsession, hkey, hok, eq_ok_of_toOption_eq_some hbundle, ← hct, Bool.not_true,
        Bool.false_eq_true, if_false]
  case exportBundle =>
    intro p data dest x s s1 hidle hsession howner hdata hfresh
    change execSecExport p s = _
    rw [execSecExport, secBegin_runs hidle rfl]
    cases hkey : sessionKey x "EXPORT" x.owner with
    | none => simp only [hsession, howner, hkey, Bool.false_eq_true, if_false]
    | some key =>
      cases hwrite : s1.secWrite 0 (s.secArg 2) (exportBundle x key dest data) <;>
        simp only [exportBundle] at hwrite <;>
        simp only [hsession, howner, hkey, eq_ok_of_toOption_eq_some hdata, ← hfresh, hwrite, Bool.false_eq_true, if_false]
  case update =>
    intro p _ _ _ _ s hnone hidle hheader hsize hbody hb ht
    change execSecUpdate p s = _
    rw [execSecUpdate, if_neg (by simp [hnone]), secBegin_runs hidle rfl]
    rcases s.bootDir with _ | ⟨d, inCopy2⟩ <;>
      simp only [eq_ok_of_toOption_eq_some hheader, if_neg (Nat.not_lt.mpr hsize), eq_ok_of_toOption_eq_some hbody, ← hb, ← ht]

end Sys2Proof.Machine
end

section
/-! PROOFS of the family 18_reliability (O35): known-answer slices, fences and re-admission, and the latches of the error aggregator
(R472 to R481). -/

namespace Sys2Proof.Machine

/-! ### Fields of a register -/

/-- A field below the one that is set keeps its value. -/
theorem fld_setFld_below {v lo w x a b : Nat} (h : a + b ≤ lo) : fld (setFld v lo w x) a b = fld v a b := by
  obtain ⟨d, rfl⟩ := Nat.exists_eq_add_of_le h
  obtain ⟨q, hq⟩ : ∃ q, setFld v (a + b + d) w x = v % 2 ^ (a + b + d) + 2 ^ (a + b + d) * q :=
    ⟨x % 2 ^ w + v / 2 ^ (a + b + d + w) * 2 ^ w, by simp only [setFld, Nat.pow_add]; ring⟩
  have hmod (u : Nat) : fld u a b = u % 2 ^ (a + b) / 2 ^ a := by rw [fld, Nat.pow_add, Nat.mod_mul_right_div_self]
  rw [hmod, hmod, hq, Nat.pow_add _ (a + b) d, Nat.mul_assoc, Nat.add_mul_mod_self_left, Nat.mod_mul_right_mod]

theorem rdF_wrF_below (s : State) (r : Nat) {lo w x a b : Nat} (h : a + b ≤ lo) (h64 : a + b ≤ 64) :
    (s.wrF r lo w x).rdF r a b = s.rdF r a b := by
  rw [State.rdF, State.wrF, rdN_wr_same, fld_mod_64 _ h64, fld_setFld_below h, State.rdF]


/-! ### Slices, fences and latches (R472 to R481) -/

theorem exec_kakSliceDue_runs (n : Fin 32) (s : State) (hruns : s.kakRuns = true) (hlive : s.tcLive n = true) :
    exec (.kakSliceDue n) s = .next { s with rel := { s.rel with kakDue := insSorted n s.rel.kakDue } } := by
  change execKakSliceDue n s = _
  simp [execKakSliceDue, hruns, hlive]

/-- The checks of KAK_SLICE_START: a slice is due and the live Frond is free of work, zeroing, aborts and slices. -/
theorem kakSlice_startable {n : Fin 32} {s : State} (hdue : s.rel.kakDue.contains n.val = true) (hlive : s.tcLive n = true)
    (hslot : (s.tc n).slot0.isNone = true)
    (hfree : ((s.tc n).itemWait || (s.tc n).zeroing || (s.tc n).aborting.isSome || (s.tc n).kak.isSome) = false) :
    ¬(!s.rel.kakDue.contains n.val || (s.tc n).slot0.isSome || (s.tc n).itemWait || (s.tc n).zeroing || (s.tc n).aborting.isSome ||
      (s.tc n).kak.isSome || !s.tcLive n) = true := by
  have hslot' : (s.tc n).slot0.isSome = false := by simpa using hslot
  simp only [Bool.or_eq_false_iff] at hfree
  obtain ⟨⟨⟨hwait, hzeroing⟩, haborting⟩, hkak⟩ := hfree
  simp only [hdue, hlive, hslot', hwait, hzeroing, haborting, hkak, Bool.not_true, Bool.or_self, Bool.false_eq_true, not_false_eq_true]

theorem exec_kakSliceStart_first (n : Fin 32) (s s1 s2 : State) (hdue : s.rel.kakDue.contains n.val = true) (hlive : s.tcLive n = true)
    (hslot : (s.tc n).slot0.isNone = true)
    (hfree : ((s.tc n).itemWait || (s.tc n).zeroing || (s.tc n).aborting.isSome || (s.tc n).kak.isSome) = false)
    (hlast : Tab.get? s.rel.kakLast n = none) (hs1 : s1 = s.setTc n { s.tc n with kak := some s.now })
    (hs2 : s2 = { s1 with rel := { s1.rel with kakDue := s1.rel.kakDue.filter (· != n.val), kakLast := s1.rel.kakLast.put n s.now } }) :
    exec (.kakSliceStart n) s = .next s2 := by
  subst hs2 hs1
  change execKakSliceStart n s = _
  rw [execKakSliceStart, if_neg (kakSlice_startable hdue hlive hslot hfree)]
  simp only [hlast, Bool.false_eq_true, if_false]

theorem exec_kakSliceStart_late (n : Fin 32) (t : Nat) (s s1 s2 : State) (hdue : s.rel.kakDue.contains n.val = true)
    (hlive : s.tcLive n = true) (hslot : (s.tc n).slot0.isNone = true)
    (hfree : ((s.tc n).itemWait || (s.tc n).zeroing || (s.tc n).aborting.isSome || (s.tc n).kak.isSome) = false)
    (hlast : Tab.get? s.rel.kakLast n = some t) (hlate : t + 2 * s.rdF Reg.REL_KAK_CFG 8 12 * 1000000 < s.now)
    (hs1 : s1 = s.setTc n { s.tc n with kak := some s.now })
    (hs2 : s2 = { s1 with rel := { s1.rel with kakDue := s1.rel.kakDue.filter (· != n.val), kakLast := s1.rel.kakLast.put n s.now } }) :
    exec (.kakSliceStart n) s = .next ((s2.bump Reg.REL_KAK_LATE 1).report 0 { code := 0x0D0C, subj := uTc n, event := true }) := by
  subst hs2 hs1
  change execKakSliceStart n s = _
  rw [execKakSliceStart, if_neg (kakSlice_startable hdue hlive hslot hfree)]
  simp only [hlast, hlate, decide_true, if_true]

theorem exec_kakSliceEnd_running (n : Fin 32) (t : Nat) (s s1 s2 : State) (hruns : (s.tc n).kak = some t)
    (hs1 : s1 = s.fresh.2.setTc n { s.tc n with
        kak := none, scratch := (Config.kakScratch s.fresh.1).foldl
          (fun (m : Tab Byte) e => Tab.write (fun _ => 0#8) m (e.1 % scratchSize) e.2) (s.tc n).scratch, lineBad := [], s := [], sBad :=
          [], v := [], vBad := [], acc := [], accInt := [], accBad := [] })
    (hs2 : s2 = { s1 with
        rel := { s1.rel with
          kakWait := s1.rel.kakWait ++ [(n.val, t)], kakSlice := s1.rel.kakSlice.put n ((s1.rel.kakSlice.getD n 0 + 1) % 64) } }) :
    exec (.kakSliceEnd n) s = .next (((s2.bump Reg.REL_KAK_SLICES 1).bump (Reg.DBG_TC_KAK n) 1).promote n) := by
  subst hs2 hs1
  change execKakSliceEnd n s = _
  simp only [execKakSliceEnd, hruns]

theorem exec_kakVerdict_awaited (n : Fin 32) (pass : Bool) (e : Nat × Nat) (s s1 : State)
    (hawaited : s.rel.kakWait.find? (fun e => e.1 == n.val) = some e)
    (hs1 : s1 = { s with rel := { s.rel with kakWait := s.rel.kakWait.erase e } }) :
    exec (.kakVerdict n pass) s = .next (if pass then s1 else ((s1.wr (Reg.REL_TC_EXPOSED n) e.2).fenceFrond n 0x0D02).crzDrain) := by
  subst hs1
  change execKakVerdict n pass s = _
  simp only [execKakVerdict, hawaited]

theorem exec_fenceCmd_idle (n : Fin 32) (s : State) (hidle : s.rdB Reg.REL_FENCE_STATUS 0 = false) :
    exec (.fenceCmd n) s = .next (if s.tcLive n then ((s.wr Reg.REL_FENCE_STATUS (1 + n * 256)).fenceFrond n 0x0D04).crzDrain else
      (s.wr Reg.REL_FENCE_STATUS 0).fenceFrond n 0x0D04) := by
  change execFenceCmd n s = _
  simp only [execFenceCmd, hidle, Bool.false_eq_true, if_false, apply_ite Host.Outcome.next]

theorem exec_fence_busy (n : Fin 32) (s : State) (hbusy : s.rdB Reg.REL_FENCE_STATUS 0 = true) :
    exec (.fenceCmd n) s = .next (s.fenceRefuse n) ∧ exec (.readmitFrond n) s = .next (s.fenceRefuse n) := by
  constructor
  · change execFenceCmd n s = _
    simp only [execFenceCmd, hbusy, if_true]
  · change execReadmitFrond n s = _
    simp only [execReadmitFrond, hbusy, true_or, if_true]

theorem exec_readmitFrond_fenced (n : Fin 32) (s s1 : State) (hidle : s.rdB Reg.REL_FENCE_STATUS 0 = false) (hfenced : s.tcLive n = false)
    (hover : (s.tc n).fencing = none) (hcount : s.rdF (Reg.REL_TC_FENCE_INFO n) 16 8 < 3)
    (hs1 : s1 = s.wr Reg.REL_FENCE_STATUS (1 + n.val * 256)) :
    exec (.readmitFrond n) s = .next { s1 with rel := { s.rel with readmit := some n.val } } := by
  subst hs1
  change execReadmitFrond n s = _
  have hok : ¬(s.rdB Reg.REL_FENCE_STATUS 0 = true ∨ s.tcLive n = true ∨ (s.tc n).fencing.isSome = true ∨
      3 ≤ s.rdF (Reg.REL_TC_FENCE_INFO n) 16 8) := by
    simp [hidle, hfenced, hover, hcount]
  simp only [execReadmitFrond, if_neg hok]

/-- The suite ends with the Frond live, or fenced as it was. -/
theorem exec_readmitComplete_running (n : Nat) (s s0 s1 s2 : State) (hruns : s.rel.readmit = some n)
    (hs0 : s0 = { s.wr Reg.REL_FENCE_STATUS 0 with rel := { s.rel with readmit := none } })
    (hs1 : s1 = (s0.wr Reg.REL_FENCED_MAP (setFld (s0.rdN Reg.REL_FENCED_MAP) n 1 0)).setTc n { placed := (s0.tc n).placed })
    (hs2 : s2 = { s1 with rel := { s1.rel with kakSlice := s1.rel.kakSlice.del n } }) :
    exec (.readmitComplete true) s = .next (s2.event (uTc n) 0x05 0x80 0x0D01 n 0).capChange ∧ exec (.readmitComplete false) s = .next
      ((s0.wrF (Reg.REL_TC_FENCE_INFO n) 0 16 0x0D02).fenceRefuse n) := by
  subst hs2 hs1 hs0
  constructor
  · change execReadmitComplete true s = _
    simp only [execReadmitComplete, hruns, if_true]
  · change execReadmitComplete false s = _
    simp only [execReadmitComplete, hruns, Bool.false_eq_true, if_false]

theorem exec_ceWindowBoundary (s : State) :
    exec .ceWindowBoundary s = .next { s with rel := { s.rel with ceCount := [] } } := rfl

theorem exec_clockMonitorFault (row : Fin 10) (s : State) :
    exec (.clockMonitorFault row) s = .next (s.deviceFatal 0x0D0D ⟨0, row⟩).crzDrain := rfl

theorem exec_errIrqTimer_due (p b : Fin 16) (s s1 : State) (hdue : s.rel.irqDue.contains (p.val * 16 + b.val) = true)
    (hs1 : s1 = { s with
        rel := { s.rel with irqDue := s.rel.irqDue.filter (· != p.val * 16 + b.val), irqAt := s.rel.irqAt.put (p.val * 16 + b.val) s.now }
          }) :
    exec (.errIrqTimer p b) s = .next (s1.irqReg p (Reg.QM_PT_ERR_VEC p)) := by
  subst hs1
  change execErrIrqTimer p b s = _
  simp only [execErrIrqTimer, hdue, if_true]

theorem exec_latchClear (p b : Fin 16) (s : State) :
    ∃ t, exec (.latchClear p b) s = .next t ∧ t.rdF (Reg.ERR_PT_B_FIRST p b) 31 1 = 0 ∧ t.rdF (Reg.ERR_PT_B_FIRST p b) 0 31 = s.rdF
      (Reg.ERR_PT_B_FIRST p b) 0 31 ∧ (∀ a, a ≠ Reg.ERR_PT_B_FIRST p b → t.rd a = s.rd a) ∧ t = { s with regs := t.regs } :=
  ⟨_, rfl, rdF_wrF_same s _ 0 (by omega), rdF_wrF_below s _ (by omega) (by omega), fun a ha => rd_wrF_ne s 31 1 0 ha, rfl⟩

/-- Settles O35: each clause is the lemma of its command. That scratch holds free bytes after a slice is the model's choice
(row 146 of the assumption log). -/
theorem reliabilityCommands : Obligations.ReliabilityCommands :=
  ⟨exec_kakSliceDue_runs, exec_kakSliceStart_first, exec_kakSliceStart_late, exec_kakSliceEnd_running, exec_kakVerdict_awaited,
    exec_fenceCmd_idle, exec_fence_busy, exec_readmitFrond_fenced, exec_readmitComplete_running, exec_ceWindowBoundary,
    exec_clockMonitorFault, exec_errIrqTimer_due, exec_latchClear⟩

end Sys2Proof.Machine
end

section
/-! PROOFS of the family 19_functional_safety (O41, O42, O43): how the checker judges runs (R500 to R506), what a failure does (R509,
R510), and the pairs, the hold and the rails of the checker (R491 to R498, R512). -/

namespace Sys2Proof.Machine

/-! ### Judging runs (R500 to R506) -/

section Judgement
variable {e : List Byte} {r : SafeRun} {ended : Option ProgEnd} {s : State}

theorem judgeStep_pass_late (hpass : s.judgeRun e r = .pass) (hlate : s.runOrigin e r + taskLatency e < s.now) :
    s.judgeStep e r ended = s.failRun e r 0x0E05 := by
  simp only [State.judgeStep, hpass, hlate, decide_true, if_true]

theorem judgeStep_pass_timely (hpass : s.judgeRun e r = .pass) (htimely : s.now ≤ s.runOrigin e r + taskLatency e)
    (hroom : s.postRoom e = true) : s.judgeStep e r ended = s.passRun e r [] [] := by
  simp only [State.judgeStep, hpass, decide_eq_false (Nat.not_lt.mpr htimely), hroom, Bool.false_eq_true, if_false, if_true]

theorem judgeStep_fail {c : Nat} (hfail : s.judgeRun e r = .fail c) : s.judgeStep e r ended = s.failRun e r c := by
  simp only [State.judgeStep, hfail]

theorem judgeStep_ask (hask : s.judgeRun e r = .ask) :
    s.judgeStep e r ended = (s.setSafeRun { r with asked := true }).safeSync 0 0 := by
  simp only [State.judgeStep, hask]

theorem judgeStep_waitRec (hwait : s.judgeRun e r = .waitRec) :
    s.judgeStep e r ended = (s.setSafeRun { r with waitRec := true }).safeSync 0 0 := by
  simp only [State.judgeStep, hwait]

/-- The program starts. -/
theorem judgeStep_program_starts (hjudge : s.judgeRun e r = .program) (hprog : r.prog = none) :
    s.judgeStep e r ended = (s.setSafeRun { r with prog := some (s.now, 0) }).safeSync 0 0 := by
  simp only [State.judgeStep, hjudge, hprog]

/-- The program's end: a fault, a reason or lateness fails the run. -/
theorem judgeStep_program_ended {x : ProgEnd} {started : Nat × Nat} (hjudge : s.judgeRun e r = .program)
    (hprog : r.prog = some started) (hroom : s.postRoom e = true) :
    s.judgeStep e r (some x) = if x.fault then s.failRun e r 0x0E08
      else if x.reason ≠ 0#16 then s.failRun e r 0x0E04 x.reason.toNat
      else if s.runOrigin e r + taskLatency e < s.now then s.failRun e r 0x0E05
      else s.passRun e r (x.result.take 16) (x.kept.take 1024) := by
  simp only [State.judgeStep, hjudge, hprog, hroom, decide_eq_true_eq, if_true]

theorem exec_runJudgement {task : Fin 256} {key : Nat} {r1 r2 : SafeRun} {s1 s2 : State} (hrun : s.runOf task key = some (e, r))
    (hkeep : s.keepRecs e r = (s1, r1)) (hresolve : s1.resolveRun e r1 = (s2, r2)) :
    exec (.runJudgement task key ended) s = .next (s2.judgeStep e r2 ended) := by
  change execRunJudgement task key ended s = _
  simp only [execRunJudgement, hrun, hkeep, hresolve]

end Judgement

/-- The oldest message leaves the mailbox. -/
theorem exec_checkerItem_first (p : Nat) (b : List Byte) (rest : List (Nat × List Byte)) (s s1 : State)
    (hfirst : s.safe.mailbox = (p, b) :: rest) (hruns : s.checkerRuns = true)
    (hs1 : s1 = { s with safe := { s.safe with mailbox := rest } }) :
    exec (.checkerItem true) s = .next ((s1.err 0 ⟨0, 0⟩ 0x0E0D).holdAll 0x0E0D) ∧ exec (.checkerItem false) s = .next (if
      s1.safe.restarts.contains p then s1 else if getLE b 0 1 = 0x20 then s1.takeNotice p b else if getLE b 0 1 = 0x21 then
      (s1.takeAnswer b).safeSync 0 0 else (s1.takeItemEnd p b).safeSync 0 0) := by
  subst hs1
  constructor
  · change execCheckerItem true s = _
    simp only [execCheckerItem, hfirst, hruns, Bool.not_true, Bool.false_eq_true, if_false, if_true]
  · change execCheckerItem false s = _
    simp only [execCheckerItem, hfirst, hruns, Bool.not_true, Bool.false_eq_true, if_false, apply_ite Host.Outcome.next]

/-- A run that waits for a record reads it again. -/
theorem exec_recordReread_waiting (task : Fin 256) (key : Nat) (e : List Byte) (r : SafeRun) (l : List (List Byte)) (s : State)
    (hrun : s.runOf task key = some (e, r)) (hwait : r.waitRec = true) :
    (s.runRecs e r = .good l → exec (.recordReread task key) s = .next
      ((s.setSafeRun { r with recs := l, waitRec := false }).safeSync 0 0)) ∧
      (s.runRecs e r = .bad → exec (.recordReread task key) s = .next (s.failRun e r 0x0E07)) := by
  refine ⟨fun hgood => ?_, fun hbad => ?_⟩
  all_goals change execRecordReread task key s = _
  · simp only [execRecordReread, hrun, hwait, hgood, Bool.not_true, Bool.false_eq_true, if_false]
  · simp only [execRecordReread, hrun, hwait, hbad, Bool.not_true, Bool.false_eq_true, if_false]

theorem exec_programRead_data (task : Fin 256) (key t0 n : Nat) (dva : BitVec 64) (length : BitVec 32) (b : List Byte) (e : List Byte)
    (r : SafeRun) (s s1 : State) (hrun : s.runOf task key = some (e, r)) (hprog : r.prog = some (t0, n))
    (hfits : n + length.toNat ≤ taskReadMax e) (hread : s.readDva r.pt dva.toNat length.toNat = .data b false)
    (hs1 : s1 = s.setSafeRun { r with prog := some (t0, n + length.toNat) }) :
    exec (.programRead task key dva length) s = .next { s1 with out := s1.out ++ [.progData task b] } := by
  subst hs1
  change execProgramRead task key dva length s = _
  simp only [execProgramRead, hrun, hprog, if_neg (Nat.not_lt.mpr hfits), hread]

/-- A program that runs too long, or reads too much, fails its run. -/
theorem exec_program_fails (task : Fin 256) (key t0 n : Nat) (e : List Byte) (r : SafeRun) (s : State)
    (hrun : s.runOf task key = some (e, r)) (hprog : r.prog = some (t0, n)) :
    exec (.programTimeout task key) s = .next (s.failRun e r 0x0E08) ∧ ∀ dva (length : BitVec 32), taskReadMax e < n + length.toNat → exec
      (.programRead task key dva length) s = .next (s.failRun e r 0x0E08) := by
  refine ⟨?timeout, fun dva length hlong => ?read⟩
  case timeout =>
    change execProgramTimeout task key s = _
    simp only [execProgramTimeout, hrun, hprog, Option.isSome_some, if_true]
  case read =>
    change execProgramRead task key dva length s = _
    simp only [execProgramRead, hrun, hprog, if_pos hlong]

theorem exec_arrivalTimeout_armed (task : Fin 256) (t : Nat) (e : List Byte) (s : State) (htask : s.task task = some e)
    (harmed : Tab.get? s.safe.armAt task = some t) (hruns : s.checkerRuns = true) :
    exec (.arrivalTimeout task) s = .next (s.failTask task e 0x0E06 0 0 0 false true).crzDrain := by
  change execArrivalTimeout task s = _
  simp only [execArrivalTimeout, htask, harmed, hruns, Bool.not_true, Bool.false_eq_true, if_false]

/-- Settles O41: each clause is the lemma of its command, and what a judgement does are the equations of `judgeStep`. That the steps of
R503 govern at the time-outs, that a flagged item fails a run before copy 1 arrives, and that INFO of 0x0E04 holds the reason are rows
151, 152 and 154 of the assumption log. -/
theorem checkerRuns : Obligations.CheckerRuns := by
  refine ⟨exec_checkerItem_first, ?judged, ?ended, ?starts, exec_recordReread_waiting, exec_programRead_data, exec_program_fails,
    ?copyTimeout, ?latencyTimeout, exec_arrivalTimeout_armed⟩
  case judged =>
    intro _ _ _ _ _ _ _ _ _ _ hrun hkeep hresolve
    rw [exec_runJudgement hrun hkeep hresolve]
    exact ⟨rfl, judgeStep_pass_late, judgeStep_pass_timely, fun _ => judgeStep_fail, judgeStep_ask, judgeStep_waitRec⟩
  case ended =>
    intro _ _ _ _ _ _ _ _ _ _ _ _ hrun hkeep hresolve hjudge hprog hroom
    rw [exec_runJudgement hrun hkeep hresolve, judgeStep_program_ended hjudge hprog hroom]
  case starts =>
    intro _ _ _ _ _ _ _ _ _ _ hrun hkeep hresolve hjudge hprog
    rw [exec_runJudgement hrun hkeep hresolve, judgeStep_program_starts hjudge hprog]
  case copyTimeout =>
    intro task key e r s hrun hredundant hmissing
    have hcopies : ¬((!taskMode e 0) = true ∨ ((Tab.get? r.items 0).isSome = true ∧ (Tab.get? r.items 1).isSome = true)) := by
      rcases hmissing with hmissing | hmissing <;> simp [hredundant, hmissing]
    change execCopyTimeout task key s = _
    cases hjudge : s.judgeRun e r <;> simp only [execCopyTimeout, hrun, if_neg hcopies, hjudge]
  case latencyTimeout =>
    intro task key e r s hrun
    change execLatencyTimeout task key s = _
    cases hjudge : s.judgeRun e r <;> simp only [execLatencyTimeout, hrun, hjudge]

/-! ### Failed tasks and safety restarts (R509, R510) -/

theorem failTask_eq (t : Nat) (e : List Byte) (code run digest fs : Nat) (resolved timer : Bool) (s s1 s2 s3 s4 : State)
    (hs1 : s1 = (s.enterHold t code).safeSync code t) (hs2 : s2 = s1.postReject t e code run digest fs resolved (s.safe.hold.contains t))
    (hs3 : s3 = ((s2.bump Reg.SAFE_REJECTED 1).bump (Reg.SAFE_TASK_REJECTS t) 1).taskErr (taskPt e) t code run)
    (hs4 : s4 = { s3 with safe := { s3.safe with armAt := s3.safe.armAt.put t s.now } }) :
    s.failTask t e code run digest fs resolved timer = (if taskMode e 6 = true ∨ (timer = true ∧ t ∈ s.safe.hold) ∨ code = 0x0E0F then s4
      else s4.safetyRestart (taskPt e) code t) := by
  subst hs4 hs3 hs2 hs1
  have hstays : (taskMode e 6 || (timer && s.safe.hold.contains t) || code == 0x0E0F) = true ↔
      taskMode e 6 = true ∨ (timer = true ∧ t ∈ s.safe.hold) ∨ code = 0x0E0F := by simp [or_assoc]
  exact if_congr hstays rfl rfl

theorem safetyRestart_ready (p code t : Nat) (s s1 : State) (hnone : s.safe.restarts.contains p = false) (hready : s.ptReady p = true)
    (hentry : s.pwr.entry = none)
    (hs1 : s1 = { ((s.wrF (Reg.QM_PT_STATE p) 0 3 5).wr (Reg.SAFE_PT_RESTART_CODE p) (code + t * 2 ^ 16)) with
        safe := { s.safe with restarts := insSorted p s.safe.restarts } }) :
    s.safetyRestart p code t = (((s1.errAll (if p = 0 then [0] else [0, p]) { code := 0x0E09, event := true, info := t }).abortWork
      p).safeSync code t) := by
  subst hs1
  simp only [State.safetyRestart, hnone, hready, hentry, Bool.not_true, Bool.or_self, Bool.false_eq_true, if_false]

theorem safetyRestart_not_ready (p code t : Nat) (s : State) (hnot : s.safe.restarts.contains p = true ∨ s.ptReady p = false) :
    s.safetyRestart p code t = s := by
  rw [State.safetyRestart, if_pos]
  rcases hnot with hrestarts | hready
  · rw [hrestarts, Bool.true_or]
  · simp [hready]

/-- Settles O42: what a failure and a restart do are the equations of `failTask` and `safetyRestart`. That a task's code goes to PT_0 and
to its partition is row 155 of the assumption log, and that a reload extends no measurement row 166. -/
theorem failedTasks : Obligations.FailedTasks := by
  refine ⟨failTask_eq, safetyRestart_ready, safetyRestart_not_ready, ?accessesDone, ?reloadComplete⟩
  case accessesDone =>
    intro _ _ _ _ hmem hs1 hs2
    subst hs2 hs1
    exact if_neg (by simp [hmem])
  case reloadComplete =>
    intro _ _ _ _ _ _ hmem hs1 hs2 hs3 hs4
    subst hs4 hs3 hs2 hs1
    exact if_neg (by simp [hmem])

/-! ### Pairs, the hold and the safe rail (R491 to R498, R512) -/

theorem exec_dutySwap_idle (deferred : BitVec 32) (s s1 : State) (hruns : s.checkerRuns = true) (hboth : s.degraded = false)
    (hidle : s.dutyBusy = false)
    (hs1 : s1 = ({ s with safe := { s.safe with dutyB := !s.safe.dutyB } }.bump Reg.SAFE_SWAPS 1).rcMax Reg.SAFE_SWAP_DEFER_MAX
      deferred.toNat) :
    exec (.dutySwap deferred) s = .next (((s1.updTakes (1 - s.safe.dutyB.toNat)).updLoad s.safe.dutyB.toNat).safeSync 0 0) := by
  subst hs1
  exact if_neg (by simp [hruns, hboth, hidle])

theorem exec_selftestComplete_no_update (pass : Bool) (k : Nat) (s s1 : State) (hruns : s.checkerRuns = true) (hboth : s.degraded = false)
    (hupd : s.sec.upd = none) (hk : k = 1 - s.safe.dutyB.toNat) (hs1 : s1 = s.wrF Reg.SAFE_SELFTEST (16 + k) 1 pass.toNat) :
    exec (.selftestComplete pass) s = .next (if pass then s1 else (s1.wrF Reg.SAFE_SELFTEST 0 16 0x0E0B).retirePair k 0x0E0B) := by
  subst hs1 hk
  change execSelftestComplete pass s = _
  rw [execSelftestComplete, if_neg (by simp [hruns, hboth])]
  cases pass <;> simp only [State.wrF, sec_wr, hupd, Bool.false_eq_true, if_false, if_true]

theorem retirePair_both_working (k code : Nat) (s s1 : State) (hboth : s.degraded = false)
    (hs1 : s1 = { s with
        safe := { s.safe with
          retA := s.safe.retA || k == 0, retB := s.safe.retB || k == 1, dutyB := if s.safe.dutyB.toNat = k then !s.safe.dutyB else
            s.safe.dutyB } }) :
    s.retirePair k code = ((s1.err 0 ⟨0, 0⟩ code).updSurvive (1 - k)).safeSync code 0 := by
  subst hs1
  simp only [State.retirePair, hboth, Bool.false_eq_true, if_false, Bool.not_false, and_true]

/-- A mismatch of the duty pair retires it; one of the other pair is a failed self-test. -/
theorem exec_lockstepMismatch_working (pairB : Bool) (s s1 : State) (hruns : s.checkerRuns = true)
    (hworks : (if pairB then s.safe.retB else s.safe.retA) = false)
    (hs1 : s1 = { s with safe := { s.safe with runs := s.safe.runs.map (fun (r : SafeRun) => { r with prog := none }) } }) :
    (pairB = s.safe.dutyB → exec (.lockstepMismatch pairB) s = .next ((s1.retirePair pairB.toNat 0x0E0A).holdAll 0x0E0A)) ∧
      (pairB ≠ s.safe.dutyB → exec (.lockstepMismatch pairB) s = exec (.selftestComplete false) s) := by
  subst hs1
  have hok : ¬((!s.checkerRuns) = true ∨ (if pairB then s.safe.retB else s.safe.retA) = true) := by simp [hruns, hworks]
  refine ⟨fun hduty => ?_, fun hduty => ?_⟩
  all_goals change execLockstepMismatch pairB s = _
  · simp only [execLockstepMismatch, if_neg hok, if_pos hduty]
  · rw [execLockstepMismatch]
    simp only [if_neg hok, if_neg hduty]
    rfl

theorem exec_watchdogExpiry_running (s s1 : State) (hruns : s.checkerRuns = true)
    (hs1 : s1 = { s.beatStops with
        safe := { s.beatStops.safe with
          down := true, runs := [], notices := [], judged := [], pers := [], seq := [], armAt := [], heldBack := [] } }) :
    exec .watchdogExpiry s = .next ((s1.err 0 ⟨0, 0⟩ 0x0E0C).holdAll 0x0E0C) := by
  subst hs1
  exact if_neg (by simp [hruns])

theorem exec_checkerRestartComplete_down (s : State) (hdown : s.safe.down = true) :
    exec .checkerRestartComplete s = .next ({ s with
        safe := { s.safe with down := false, armAt := s.safe.table.map (fun (e : Nat × List Byte) => (e.1, s.now)) } }.safeSync 0 0) :=
  if_neg (by simp [hdown])

theorem exec_degradedLimit_reached (s s1 : State) (hdegraded : s.degraded = true) (hlimit : s.safe.limit = false)
    (hs1 : s1 = { s with safe := { s.safe with limit := true } }) :
    exec .degradedLimit s = .next ((s1.err 0 ⟨0, 0⟩ 0x0E0B).safeSync 0x0E0B 0) := by
  subst hs1
  exact if_neg (by simp [hdegraded, hlimit])

theorem exec_heartbeatToggle (s : State) :
    exec .heartbeatToggle s = .next (if s.checkerRuns then { s with safe := { s.safe with beat := !s.safe.beat } } else s) := by
  change execHeartbeatToggle s = _
  cases hruns : s.checkerRuns <;> simp [execHeartbeatToggle, hruns]

theorem exec_holdTest_holdTestEnd (s : State) :
    exec .holdTest s = .next ({ s with safe := { s.safe with holdTest := some s.now } }.safeSync 0 0) ∧
      (s.safe.holdTest.isSome = true → exec .holdTestEnd s = .next ({ s with safe := { s.safe with holdTest := none } }.safeSync 0 0)) :=
  ⟨rfl, fun htest => if_neg (by simpa [Option.isSome_iff_ne_none] using htest)⟩

theorem exec_vddSafe (s s1 s2 : State)
    (hs1 : s1 = { s.beatStops with
        safe := { s.beatStops.safe with
          vddBad := true, mailbox := [], runs := [], notices := [], judged := [], pers := [], seq := [], armAt := [], heldBack := [],
            holdTest := none } })
    (hs2 : s2 = { s with
        safe := { s.safe with vddBad := false, down := false, armAt := s.safe.table.map (fun (e : Nat × List Byte) => (e.1, s.now)) } }) :
    exec .vddSafeFault s = .next (s1.safeSync 0 0) ∧ (s.safe.vddBad = true → exec .vddSafeReturn s = .next (s2.holdAll 0)) := by
  subst hs2 hs1
  exact ⟨rfl, fun hbad => if_neg (by simp [hbad])⟩

theorem exec_safeClock (s s1 s2 : State) (hs1 : s1 = { s with safe := { s.safe with clkBad := true } })
    (hs2 : s2 = { s with safe := { s.safe with clkBad := false } }) :
    exec .safeClockFault s = .next ((s1.err 0 ⟨0, 0⟩ 0x0E10).safeSync 0x0E10 0) ∧
      (s.safe.clkBad = true → exec .safeClockRecovery s = .next (s2.safeSync 0 0)) := by
  subst hs2 hs1
  exact ⟨rfl, fun hbad => if_neg (by simp [hbad])⟩

/-- Settles O43: each clause is the lemma of its command. What the surviving pair does with an update that runs (`updSurvive`) is row 157
of the assumption log, and the cause that SAFE_HOLD_CAUSE keeps row 158. -/
theorem checkerPairs : Obligations.CheckerPairs :=
  ⟨exec_dutySwap_idle, exec_selftestComplete_no_update, retirePair_both_working, exec_lockstepMismatch_working,
    exec_watchdogExpiry_running, exec_checkerRestartComplete_down, exec_degradedLimit_reached, exec_heartbeatToggle,
    exec_holdTest_holdTestEnd, exec_vddSafe, exec_safeClock⟩

end Sys2Proof.Machine
end

section
/-! PROOFS of the family 20_power_clocks_rhizoid (O44, O45): the power ladder and throttling (R516 to R521, R530 to R533), the PPS input,
the audio ring and the keyword detector (R525 to R531). -/

namespace Sys2Proof.Machine

/-! ### The ladder and throttling (R516 to R521, R532, R533) -/

theorem exec_p1Entry_idle (s : State) (hrung : s.rung = 0) (hentry : s.pwr.entry = none) (hexiting : s.pwr.exiting = false)
    (hidle : s.idleNow = true) :
    exec .p1Entry s = .next ((s.setRung 1).bump (Reg.PWR_ENTRIES 1) 1) :=
  if_pos (by simp [hrung, hentry, hexiting, hidle])

theorem exec_rungRequests (s : State) (hsteady : s.mgt.switching = false) :
    exec .pwrCmdP2 s = .next (s.rungRequest 2).1 ∧ exec .pwrCmdP3 s = .next (s.rungRequest 3).1 ∧ exec .pwrCmdP4 s = .next
      (s.rungRequest 4).1 ∧ (s.rdB Reg.PWR_CFG 0 = true → s.rung = 1 → exec .autoP2Request s = .next (s.rungRequest 2).1) := by
  have hasked (k : Nat) : s.askRung k = (s.rungRequest k).1 := if_neg (by simp [hsteady])
  refine ⟨congrArg _ (hasked 2), congrArg _ (hasked 3), congrArg _ (hasked 4), fun hauto hrung => ?_⟩
  exact (if_pos ⟨hauto, hrung⟩).trans (congrArg _ (hasked 2))

theorem rungRequest_eq (k : Nat) (s : State) :
    (s.rungOk k = true → s.rungRequest k = ({ s.wrF Reg.PWR_STATUS 3 1 1 with
        pwr := { s.pwr with entry := some (k, s.now), late := false } }.checkerSleep, true)) ∧
      (s.rungOk k = false → s.rungRequest k = (s.pwrErr 0x0F01 k, false)) :=
  ⟨fun hok => if_pos hok, fun hno => if_neg (by simp [hno])⟩

/-- Requests wait for the end of a CFW switch. -/
theorem exec_rungRequests_switching (s : State) (hswitching : s.mgt.switching = true) :
    exec .pwrCmdP2 s = .next { s with pwr := { s.pwr with asked := s.pwr.asked ++ [2] } } ∧ exec .pwrCmdP3 s = .next
      { s with pwr := { s.pwr with asked := s.pwr.asked ++ [3] } } ∧ exec .pwrCmdP4 s = .next
      { s with pwr := { s.pwr with asked := s.pwr.asked ++ [4] } } := by
  have hwaits (k : Nat) : s.askRung k = { s with pwr := { s.pwr with asked := s.pwr.asked ++ [k] } } := if_pos hswitching
  exact ⟨congrArg _ (hwaits 2), congrArg _ (hwaits 3), congrArg _ (hwaits 4)⟩

theorem exec_rungEntryComplete_entered (k t : Nat) (s s1 : State) (hentry : s.pwr.entry = some (k, t))
    (hs1 : s1 = ((s.wrF Reg.PWR_STATUS 3 1 0).setRung k).bump (Reg.PWR_ENTRIES k) 1) :
    exec .rungEntryComplete s = .next { s1 with
        pwr := { s1.pwr with entry := none, exiting := s1.pwr.late, late := false }, mgt :=
          { s1.mgt with kept := if s.mainUp then s.mainValues else s.mgt.kept }, boot :=
          { s1.boot with linkUp := s1.boot.linkUp && k != 4, inL1 := if k = 4 then false else s1.boot.inL1 || k == 3 } } := by
  subst hs1
  change execRungEntryComplete s = _
  simp only [execRungEntryComplete, hentry]

theorem exec_rungExitComplete_exiting (s s1 s2 s3 s4 : State) (hexiting : s.pwr.exiting = true)
    (hs1 : s1 = { s.setRung 1 with pwr := { (s.setRung 1).pwr with exiting := false } })
    (hs2 : s2 = if 3 ≤ s.rung then s1.wakeFronds else s1) (hs3 : s3 = (if s.rung = 4 then s2.losePasr else s2).checkerWake)
    (hs4 : s4 = s3.pwr.kwWait.foldl (fun s b => s.kwDeliver b) { s3 with pwr := { s3.pwr with kwWait := [] } }) :
    exec .rungExitComplete s = .next s4.servePorts := by
  subst hs4 hs3 hs2 hs1
  exact if_neg (by simp [hexiting])

theorem exec_thermalSample (tj : Fin 256) (sensor : Fin 24) (s s1 s2 s3 s4 : State)
    (hs1 : s1 = (s.wr Reg.PWR_TJ (tj + sensor * 256)).rcMax Reg.PWR_TJ_MAX tj)
    (hs2 : s2 = if s.rdF Reg.PWR_TJ_THR 0 8 ≤ tj then s1 else { s1 with pwr := { s1.pwr with heatSteps := false } })
    (hs3 : s3 = if 105 ≤ tj.val then { (if s.rdF Reg.PWR_TJ 0 8 < 105 then s2.thermalEvent 0x0F04 tj else s2) with
        pwr := { s2.pwr with kHeat := 4 } } else s2)
    (hs4 : s4 = if 115 ≤ tj.val && !s3.pwr.stopped then { (s3.wrF Reg.PWR_STATUS 14 1 1).thermalEvent 0x0F05 tj with
        pwr := { s3.pwr with stopped := true } } else s3) :
    exec (.thermalSample tj sensor) s = .next s4.kSync := by
  subst hs4 hs3 hs2 hs1
  rfl

/-- A device begins to be throttled when k falls below the cap. -/
theorem kSync_of_not_throttled (s : State) (hnone : s.pwr.throttledAt = none) :
    (s.kNow < s.rdF Reg.PWR_CFG 24 5 → s.kSync.pwr = { s.pwr with throttledAt := some s.now }) ∧
      (s.rdF Reg.PWR_CFG 24 5 ≤ s.kNow → s.kSync.pwr = s.pwr) ∧ s.kNow = min (min s.pwr.kHeat s.pwr.kPower) (s.rdF Reg.PWR_CFG 24 5) := by
  have hstays (v w : Nat) : ((s.wrF Reg.PWR_STATUS 4 5 v).wrF Reg.PWR_STATUS 9 5 w).pwr.throttledAt = none := hnone
  refine ⟨fun hbelow => ?below, fun hcap => ?cap, rfl⟩
  case below => simp only [State.kSync, hstays, decide_eq_true hbelow]; rfl
  case cap => simp only [State.kSync, hstays, decide_eq_false (Nat.not_lt.mpr hcap)]; rfl

theorem exec_throttleStep_thermal (tj thr : Nat) (s s1 : State) (htj : tj = s.rdF Reg.PWR_TJ 0 8) (hthr : thr = s.rdF Reg.PWR_TJ_THR 0 8)
    (hs1 : s1 = if s.pwr.heatSteps then s else s.evt 0 0x0F03 tj) :
    exec (.throttleStep false) s = .next (if thr ≤ tj then State.kSync
      { s1 with pwr := { s1.pwr with kHeat := s.stepDown s.pwr.kHeat, heatSteps := true } } else if tj + 3 ≤ thr then State.kSync
      { s with pwr := { s.pwr with kHeat := min 16 (s.pwr.kHeat + 1) } } else s) := by
  subst hs1 hthr htj
  change execThrottleStep false s = _
  simp only [execThrottleStep, Bool.false_eq_true, if_false, apply_ite Host.Outcome.next]

theorem exec_throttleStep_power (s : State) :
    exec (.throttleStep true) s = .next (if s.rdN Reg.PWR_PKG_MW * 100 ≤ s.rdF Reg.PWR_LIMIT 0 7 * 95000 then State.kSync
      { s with pwr := { s.pwr with kPower := min 16 (s.pwr.kPower + 1) } } else s) := by
  change execThrottleStep true s = _
  simp only [execThrottleStep, if_true, apply_ite Host.Outcome.next]

theorem exec_powerSample (mw : BitVec 32) (s s1 s2 : State) (hs1 : s1 = s.wr Reg.PWR_PKG_MW mw.toNat)
    (hs2 : s2 = if s1.pwr.powerSteps then s1 else s1.evt 0 0x0F06 mw.toNat) :
    exec (.powerSample mw) s = .next (if s.rdF Reg.PWR_LIMIT 0 7 * 1000 < mw.toNat then State.kSync
      { s2 with pwr := { s2.pwr with kPower := s.stepDown s.pwr.kPower, powerSteps := true } } else
      { s1 with pwr := { s1.pwr with powerSteps := false } }) := by
  subst hs2 hs1
  change execPowerSample mw s = _
  simp only [execPowerSample, apply_ite Host.Outcome.next]

/-- Settles O44: each clause is the lemma of its command. That P2 to P4 can be entered from P0, where steps of k start and end, and when
0x0F04 is raised are rows 180, 181 and 182 of the assumption log. -/
theorem powerLadder : Obligations.PowerLadder :=
  ⟨exec_p1Entry_idle, exec_rungRequests, rungRequest_eq, exec_rungRequests_switching, exec_rungEntryComplete_entered,
    exec_rungExitComplete_exiting, exec_thermalSample, kSync_of_not_throttled, exec_throttleStep_thermal, exec_throttleStep_power,
    exec_powerSample⟩

/-! ### Time and audio (R525 to R531) -/

theorem exec_ppsEdge (jitter : Fin 9) (t : Nat) (d e : Int) (s s1 s2 s3 : State) (ht : t = s.now + jitter.val - 4)
    (hs1 : s1 = if (s.wr Reg.PPS_LAST t).rdB Reg.PPS_CFG 1 then (s.wr Reg.PPS_LAST t).wake 5 else s.wr Reg.PPS_LAST t)
    (hd : d = (t : Int) - s1.rdN Reg.PPS_OFFSET) (he : e = d - (d + 500000000) / 1000000000 * 1000000000)
    (hs2 : s2 = (s1.wr Reg.PPS_ERR (codeOf 32 e)).wrF Reg.PPS_STATUS 1 1 0)
    (hs3 : s3 = if s2.pwr.ppsFirst = true ∧ e < 0 then s2.stepTime e.natAbs else s2.ppsSlew) :
    exec (.ppsEdge jitter) s = .next (if s1.ppsActive then State.ppsLock { s3 with pwr := { s3.pwr with ppsFirst := false } } e else s1) := by
  have hmoved : (if (s2.pwr.ppsFirst && decide (e < 0)) = true then s2.stepTime e.natAbs else s2.ppsSlew) = s3 := by
    simp only [hs3, Bool.and_eq_true, decide_eq_true_eq]
  have hexec : exec (.ppsEdge jitter) s = if (!s1.ppsActive) = true then .next s1
      else .next (State.ppsLock { s3 with pwr := { s3.pwr with ppsFirst := false } } e) := by
    rw [← hmoved]
    subst hs2 he hd hs1 ht
    rfl
  rw [hexec]
  cases s1.ppsActive <;> rfl

theorem exec_ppsTimeout (s : State) :
    exec .ppsTimeout s = .next (if s.ppsActive = true ∧ s.rdB Reg.PPS_STATUS 1 = false then (s.wrF Reg.PPS_STATUS 1 1 1).evt 0 0x0F07 else
      s) := by
  change execPpsTimeout s = _
  simp only [execPpsTimeout, Bool.and_eq_true, Bool.not_eq_true', apply_ite Host.Outcome.next]

theorem exec_audioSample_enabled (samples : List (BitVec 16)) (n : Nat) (x : List Nat) (s s1 s2 : State)
    (hen : s.rdB Reg.AUD_CFG 0 = true) (hn : n = s.rdN Reg.AUD_NEXT)
    (hx : x = (List.range 8).map (fun m => if s.rdB Reg.AUD_CFG (8 + m) then (samples.getD m 0#16).toNat else 0))
    (hs1 : s1 = if n = 0 then s.wr Reg.AUD_T0 s.now else s)
    (hs2 : s2 = s1.wr Reg.AUD_T0_ERR (codeOf 32 ((s.now : Int) - (s1.rdN Reg.AUD_T0 + n * 62500 : Nat)))) :
    exec (.audioSample samples) s = .next { s2.wr Reg.AUD_NEXT ((n + 1) % 2 ^ 48) with
        pwr := { s2.pwr with audio := if audioDepth ≤ n then (s2.pwr.audio.put n x).del (n - audioDepth) else s2.pwr.audio.put n x } } := by
  subst hs2 hs1 hx hn
  exact if_neg (by simp [hen])

theorem exec_audCopy_idle (first n dst : Nat) (s : State) (hfirst : first = s.rdN Reg.AUD_FIRST) (hn : n = s.rdN Reg.AUD_COUNT)
    (hdst : dst = s.rdN Reg.AUD_DST) (hidle : s.pwr.copying = none) :
    exec .audCopy s = .next (if s.rung ≤ 1 ∧ 1 ≤ n ∧ n ≤ audioDepth ∧ dst % 64 = 0 ∧ s.audioHas first n = true then
      { s.wr Reg.AUD_STATUS 1 with pwr := { s.pwr with copying := some (first, n, dst) } } else
      (s.wr Reg.AUD_STATUS (0x0F0A * 65536)).pwrErr 0x0F0A) := by
  subst hdst hn hfirst
  change execAudCopy s = _
  simp only [execAudCopy, hidle, Option.isSome_none, Bool.false_eq_true, if_false, apply_ite Host.Outcome.next]

theorem exec_audCopyComplete_written (first n dst : Nat) (bytes : List Byte) (s s0 s1 : State)
    (hcopying : s.pwr.copying = some (first, n, dst)) (hheld : s.audioHas first n = true)
    (hs0 : s0 = { s with pwr := { s.pwr with copying := none } })
    (hbytes : bytes = (List.range n).flatMap (fun k => (s.pwr.audio.getD (first + k) []).flatMap (leBytes 2)))
    (hwrite : s0.writeDva 0 ⟨0, 0⟩ dst bytes = .done s1) :
    exec .audCopyComplete s = .next (s1.wr Reg.AUD_STATUS 0) := by
  subst hbytes hs0
  change execAudCopyComplete s = _
  simp only [execAudCopyComplete, hcopying, hheld, hwrite, Bool.not_true, Bool.false_eq_true, if_false]

/-- Samples that have left the ring end the copy with 0x0F0A. -/
theorem exec_audCopyComplete_lost (first n dst : Nat) (s s0 : State) (hcopying : s.pwr.copying = some (first, n, dst))
    (hgone : s.audioHas first n = false) (hs0 : s0 = { s with pwr := { s.pwr with copying := none } }) :
    exec .audCopyComplete s = .next ((s0.wr Reg.AUD_STATUS (0x0F0A * 65536)).pwrErr 0x0F0A) := by
  subst hs0
  change execAudCopyComplete s = _
  simp only [execAudCopyComplete, hcopying, hgone, Bool.not_false, if_true]

theorem exec_kwsFrameEnd_due (n : Nat) (win : List (Option Int)) (row : List Nat) (s : State) (hn : n = s.rdN Reg.AUD_NEXT)
    (hkws : s.rdB Reg.KWS_CFG 0 = true) (haud : s.rdB Reg.AUD_CFG 0 = true) (hframe : n ≠ 0 ∧ n % 160 = 0)
    (hwin : win = (List.range 400).map (fun i => if n + i < 400 then none else some
      (signedOf 16 ((s.pwr.audio.getD (n + i - 400) []).getD (s.rdF Reg.KWS_CFG 1 3) 0))))
    (hrow : row = (List.range 40).map (fun j => codeOf 8 (max (-128) (min 127 (Config.kwsFeature win j))))) :
    exec .kwsFrameEnd s = .next { s with
        pwr := { s.pwr with feats := (row :: s.pwr.feats).take kwsFrames, frame := some (n / 160 - 1, s.rung) } } := by
  subst hrow hwin hn
  exact if_neg (by simp [hkws, haud, hframe.1, hframe.2])

theorem exec_kwsPop (s : State) :
    exec .kwsPop s = .next { s with pwr := { s.pwr with fifo := s.pwr.fifo.drop 1 } } := rfl

theorem exec_kwsModelData_disabled (value : BitVec 32) (a : Nat) (m : Tab Byte) (s : State) (hoff : s.rdB Reg.KWS_CFG 0 = false)
    (ha : a = s.rdF Reg.KWS_MODEL_ADDR 0 16)
    (hm : m = (List.range 4).foldl (fun (t : Tab Byte) i => Tab.write (fun _ => 0#8) t (a + i) (BitVec.ofNat 8 (value.toNat / 256 ^ i)))
      s.pwr.model) :
    exec (.kwsModelData value) s = .next { s.wr Reg.KWS_MODEL_ADDR ((a + 4) % 65536) with pwr := { s.pwr with model := m } } := by
  subst hm ha
  exact if_neg (by simp [hoff])

theorem exec_kwsModelData_enabled (value : BitVec 32) (s : State) (hon : s.rdB Reg.KWS_CFG 0 = true) :
    exec (.kwsModelData value) s = .next (s.pwrErr 0x0F02) :=
  if_pos hon

/-- Settles O45: each clause is the lemma of its command. The nearest target of a PPS edge, AUD_T0 and its error, the border of the
features and the first frame are rows 184 to 187 of the assumption log. -/
theorem timeAndAudio : Obligations.TimeAndAudio := by
  refine ⟨exec_ppsEdge, exec_ppsTimeout, exec_audioSample_enabled, exec_audCopy_idle, exec_audCopyComplete_written,
    exec_audCopyComplete_lost, exec_kwsFrameEnd_due, ?evaluation, exec_kwsPop, exec_kwsModelData_disabled, exec_kwsModelData_enabled⟩
  case evaluation =>
    intro _ _ _ _ s _ hframe hnk hnow hs1
    subst hs1 hnow hnk
    change execKwsEvaluationComplete s = _
    simp only [execKwsEvaluationComplete, hframe]
    refine congrArg _ (List.foldl_ext _ _ _ fun st k _ => ?_)
    cases s.pwr.scores[k]? with
    | none => rfl
    | some a =>
      split
      · next b hb =>
        cases hheld : Tab.get? st.pwr.hold k <;> simp [*, and_assoc]
      · simp [*]

end Sys2Proof.Machine
end

section
/-! PROOFS of the family 21_debug_counters (O34, O48): clearing counters, freezing and thawing, and copies of event rings (R537 to R551). -/

namespace Sys2Proof.Machine

/-! ### Fields above the one that is set, and increments below the limit -/

/-- A field above the one that is set keeps its value. -/
theorem fld_setFld_above {v lo w x a b : Nat} (h : lo + w ≤ a) : fld (setFld v lo w x) a b = fld v a b := by
  obtain ⟨d, rfl⟩ := Nat.exists_eq_add_of_le h
  have hlow : v % 2 ^ lo + x % 2 ^ w * 2 ^ lo < 2 ^ (lo + w) := by
    rw [Nat.pow_add, Nat.mul_comm (2 ^ lo)]
    calc v % 2 ^ lo + x % 2 ^ w * 2 ^ lo < 2 ^ lo + x % 2 ^ w * 2 ^ lo := Nat.add_lt_add_right (Nat.mod_lt _ (Nat.two_pow_pos lo)) _
      _ = (x % 2 ^ w + 1) * 2 ^ lo := by ring
      _ ≤ 2 ^ w * 2 ^ lo := Nat.mul_le_mul_right _ (Nat.mod_lt _ (Nat.two_pow_pos w))
  have hdiv : setFld v lo w x / 2 ^ (lo + w) = v / 2 ^ (lo + w) := by
    rw [setFld, Nat.add_mul_div_right _ _ (Nat.two_pow_pos _), Nat.div_eq_of_lt hlow, Nat.zero_add]
  rw [fld, fld, Nat.pow_add _ (lo + w) d, ← Nat.div_div_eq_div_mul, ← Nat.div_div_eq_div_mul, hdiv]

theorem rdF_wrF_above (s : State) (r : Nat) {lo w x a b : Nat} (h : lo + w ≤ a) (h64 : a + b ≤ 64) :
    (s.wrF r lo w x).rdF r a b = s.rdF r a b := by
  rw [State.rdF, State.wrF, rdN_wr_same, fld_mod_64 _ h64, fld_setFld_above h, State.rdF]

/-- An increment that stays below the limit of a counter that is not frozen is added to its value (R537). -/
theorem rdN_bump_below_limit {s : State} {a k : Nat} (hrun : s.groupFrozen (counterGroup a) = false) (h : s.rdN a + k < cntMax) :
    (s.bump a k).rdN a = s.rdN a + k := by
  simp only [cntMax] at h
  have hmod : s.rdN a % 2 ^ 48 = s.rdN a := Nat.mod_eq_of_lt (by omega)
  have hfar : ¬ cntMax ≤ s.rdN a + k := by simp only [cntMax]; omega
  have hsum : cntAdd (s.rdN a) k = s.rdN a + k := by rw [cntAdd, hmod, if_pos (by simp only [cntMax]; omega)]
  have hcount : s.bump a k = s.count a k := by
    simp only [State.bump, hrun, hmod, hfar, decide_false, Bool.and_false, Bool.false_and, Bool.false_eq_true, if_false]
  rw [hcount, State.count, rdN_wr_same, hsum, Nat.mod_eq_of_lt (by omega)]

/-! ### The debug commands (R538, R543, R547, R548, R551) -/

theorem exec_dbgClear_eq (mask : BitVec 16) (s : State) :
    exec (.dbgClear mask) s = .next (s.clearRegs fun a => isCounter a && mask.getLsbD (counterGroup a)) := rfl

theorem exec_ptCounterClear_eq (p : Fin 16) (s : State) :
    exec (.ptCounterClear p) s = .next (s.clearRegs fun a => decide (Reg.DBG_PT_TRACE_DROP p ≤ a ∧ a < Reg.DBG_PT_CLEAR p)) := rfl

theorem exec_dbgThaw_eq (s : State) : exec .dbgThaw s = .next (s.wrF Reg.DBG_STATUS 0 1 0) := rfl

theorem exec_dbgFreeze_eq (s : State) :
    exec .dbgFreeze s = .next (s.freezeBy 1 s.devId ((s.rdN Reg.DBG_FREEZE_SEQ + 1) % 65536) true) := rfl

theorem exec_dbgDump_starts (pf : Bool) (p : Fin 16) (s s1 : State) (hidle : Tab.get? s.dbg.dump (dumpKey pf p) = none)
    (haligned : s.rdN (dumpDst pf p) % 64 = 0) (hs1 : s1 = s.wr (dumpStatus pf p) 1) :
    exec (.dbgDump pf p) s = .next { s1 with
        dbg := { s.dbg with dump := s.dbg.dump.put (dumpKey pf p) (s.rdN (dumpSel pf p), s.rdN (dumpDst pf p)) } } := by
  subst hs1
  change execDbgDump pf p s = _
  simp only [execDbgDump, hidle, haligned, Option.isSome_none, Bool.false_eq_true, if_false, ne_eq, not_true_eq_false]

theorem exec_dbgDump_refused (pf : Bool) (p : Fin 16) (s : State) :
    (Tab.get? s.dbg.dump (dumpKey pf p) ≠ none → exec (.dbgDump pf p) s = .next (s.err (dumpPt pf p) ⟨0, 0⟩ 0x0B06)) ∧ (Tab.get?
      s.dbg.dump (dumpKey pf p) = none → s.rdN (dumpDst pf p) % 64 ≠ 0 → exec (.dbgDump pf p) s = .next
      ((s.wr (dumpStatus pf p) (0x0B06 * 65536)).err (dumpPt pf p) ⟨0, 0⟩ 0x0B06)) := by
  change (_ → execDbgDump pf p s = _) ∧ (_ → _ → execDbgDump pf p s = _)
  constructor
  · intro hrunning
    rw [execDbgDump, if_pos (Option.isSome_iff_ne_none.mpr hrunning)]
  · intro hidle hmisaligned
    simp only [execDbgDump, hidle, Option.isSome_none, Bool.false_eq_true, if_false, if_pos hmisaligned]

theorem exec_dumpComplete_writes (pf : Bool) (p : Fin 16) (sel dst code : Nat) (s s0 s1 : State)
    (hdump : Tab.get? s.dbg.dump (dumpKey pf p) = some (sel, dst))
    (hs0 : s0 = { s with dbg := { s.dbg with dump := s.dbg.dump.del (dumpKey pf p) } })
    (hrecs : (s1, code) = s0.dumpRecs (dumpPt pf p) dst (s0.selRing pf p sel).recs.reverse) :
    exec (.dumpComplete pf p) s = .next (s1.wr (dumpStatus pf p) (code * 65536)) := by
  subst hs0
  change execDumpComplete pf p s = _
  simp only [execDumpComplete, hdump, ← hrecs]

/-- Settles O34: each command's function of the model, unfolded under the clause's premises; what a clear and a thaw leave as they were
follows from the laws of register reads. That a DUMP while one runs is reported to the reader's partition is the model's choice
(row 192 of the assumption log; R543 does not say). -/
theorem debugCommands : Obligations.DebugCommands := by
  refine ⟨?dbgClear, ?ptCounterClear, exec_dbgFreeze_eq, ?dbgThaw, exec_dbgDump_starts, exec_dbgDump_refused, exec_dumpComplete_writes⟩
  case dbgClear =>
    exact fun mask s => ⟨_, exec_dbgClear_eq mask s, fun a => rd_clearRegs s _ a, rfl⟩
  case ptCounterClear =>
    exact fun p s => ⟨_, exec_ptCounterClear_eq p s, fun a => by simp only [rd_clearRegs, decide_eq_true_eq], rfl⟩
  case dbgThaw =>
    exact fun s => ⟨_, exec_dbgThaw_eq s, rdF_wrF_same s _ 0 (by decide), rdF_wrF_above s _ (by decide) (by decide),
      fun b hb => rd_wrF_ne s 0 1 0 hb, rfl⟩

/-! ### Thaw (R548) -/

theorem isFrozen_thaw (s : State) : (s.wrF Reg.DBG_STATUS 0 1 0).isFrozen = false := by
  have hbit : (s.wrF Reg.DBG_STATUS 0 1 0).rdF Reg.DBG_STATUS 0 1 = 0 := rdF_wrF_same s _ 0 (by decide)
  simpa [State.isFrozen, State.rdB, bitAt, State.rdF, fld] using hbit

theorem groupFrozen_thaw (s : State) (g : Nat) : (s.wrF Reg.DBG_STATUS 0 1 0).groupFrozen g = false := by
  rw [State.groupFrozen, isFrozen_thaw, Bool.false_and]

theorem rdN_bump_thaw (s : State) (a k : Nat) (ha : a ≠ Reg.DBG_STATUS) (h : s.rdN a + k < cntMax) :
    ((s.wrF Reg.DBG_STATUS 0 1 0).bump a k).rdN a = s.rdN a + k := by
  have hsame : (s.wrF Reg.DBG_STATUS 0 1 0).rdN a = s.rdN a := rdN_wr_ne s _ ha
  rw [← hsame]
  exact rdN_bump_below_limit (groupFrozen_thaw s _) (by rwa [hsame])

/-- Settles O48: a thaw writes bit 0 of DBG_STATUS alone, so that every other register reads as before and an increment goes on from
the value that the counter had. -/
theorem thawEndsTheFreeze : Obligations.ThawEndsTheFreeze := fun s =>
  ⟨_, exec_dbgThaw_eq s, isFrozen_thaw s, groupFrozen_thaw s, fun b hb => rd_wrF_ne s 0 1 0 hb,
    fun p => rd_wrF_ne s 0 1 0 (by simp only [Reg.DBG_PT_TRACE_CFG, Reg.DBG_STATUS]; omega), rdN_bump_thaw s, rfl, rfl⟩

end Sys2Proof.Machine
end

section
/-! PROOFS of the family 22_management_port (O37, O49): the side-band management port (R553 to R563). -/

namespace Sys2Proof.Machine

/-! ### Running an accepted request (R557 to R562) -/

/-- An accepted request whose command does not refuse its authentication is answered with the command's status and payload (R557,
R561). -/
theorem mgtRun_answers {s s1 : State} {cmd code : Nat} {dead : Bool} {r pl : List Byte} {sel : List Byte → Bool}
    {f : State → List Byte → MgtRes} (hacc : s.mgtAccepts cmd dead r = true) (hsel : sel (frPayload r) = true)
    (hf : f (s.mgtStarts cmd r) (frPayload r) = (s1, code, pl)) (hcode : code ≠ 0x0F25) :
    s.mgtRun cmd sel dead f = (s1.answer r code pl).mgtEnds cmd r := by
  rw [mgtRun_accepts hacc hsel, hf, if_neg hcode]

/-- A command that is open to every manager leaves the session as it is (R559, R561). -/
theorem mgtRun_answers_open {s s1 : State} {cmd code : Nat} {dead : Bool} {r pl : List Byte} {sel : List Byte → Bool}
    {f : State → List Byte → MgtRes} (hacc : s.mgtAccepts cmd dead r = true) (hsel : sel (frPayload r) = true)
    (hopen : cmdAuth cmd = false) (hf : f s (frPayload r) = (s1, code, pl)) (hcode : code ≠ 0x0F25) :
    s.mgtRun cmd sel dead f = s1.answer r code pl := by
  have hstarts : s.mgtStarts cmd r = s := by simp [State.mgtStarts, hopen]
  rw [mgtRun_answers hacc hsel (hstarts ▸ hf) hcode, State.mgtEnds, hopen, Bool.false_and, if_neg Bool.false_ne_true]

/-- A refusal of AUTH_OPEN or AUTH_FINISH is counted (R561). -/
theorem mgtRun_refuses_open {s s1 : State} {cmd : Nat} {dead : Bool} {r pl : List Byte} {sel : List Byte → Bool}
    {f : State → List Byte → MgtRes} (hacc : s.mgtAccepts cmd dead r = true) (hsel : sel (frPayload r) = true)
    (hopen : cmdAuth cmd = false) (hf : f s (frPayload r) = (s1, 0x0F25, pl)) :
    s.mgtRun cmd sel dead f = s1.authRefuse r 0x0F25 := by
  have hstarts : s.mgtStarts cmd r = s := by simp [State.mgtStarts, hopen]
  rw [mgtRun_accepts hacc hsel, hstarts, hf, if_pos rfl, State.mgtEnds, hopen, Bool.false_and, if_neg Bool.false_ne_true]

/-! ### The response (R555) -/

theorem answer_request (s : State) (r payload : List Byte) (code : Nat) : (s.answer r code payload).mgt.request = none := rfl

/-- A response carries its STATUS at byte 6. -/
theorem answer_response_status (s : State) (r payload : List Byte) {code : Nat} (hcode : code < 65536) :
    ∃ b, (s.answer r code payload).mgt.response = some b ∧ getLE b 6 2 = code := by
  refine ⟨_, rfl, ?_⟩
  change ofLE (leBytes 2 code) = code
  rw [ofLE_leBytes, Nat.mod_eq_of_lt (by simpa using hcode)]

theorem mgtEnds_request (s : State) (cmd : Nat) (r : List Byte) : (s.mgtEnds cmd r).mgt.request = s.mgt.request := by
  rw [State.mgtEnds]; split <;> rfl

theorem mgtEnds_response (s : State) (cmd : Nat) (r : List Byte) : (s.mgtEnds cmd r).mgt.response = s.mgt.response := by
  rw [State.mgtEnds]; split <;> rfl

theorem request_of_mgtAccepts {s : State} {cmd : Nat} {dead : Bool} {r : List Byte} (h : s.mgtAccepts cmd dead r = true) :
    s.mgt.request = some r := by
  simp only [State.mgtAccepts, Bool.and_eq_true, beq_iff_eq] at h
  obtain ⟨⟨⟨⟨⟨hreq, -⟩, -⟩, -⟩, -⟩, -⟩ := h
  exact hreq

/-! ### The commands (R554 to R562) -/

theorem exec_frameWrite_accepted (frame r : List Byte) (n : Nat) (s s1 s2 : State)
    (hn : n = 12 + frLen frame + (if frAuth frame then 16 else 0))
    (hwhole : ¬(frame.length < 8 ∨ (frLen frame ≤ 1024 ∧ frame.length < n))) (hidle : s.mgt.request = none) (hstage : s.stage ≠ 0xF)
    (hgood : frameGood frame = true) (hsteady : s.mgt.switching = false) (hr : r = frame.take (n - 4))
    (hpayload : payloadOk (frCmd r) (frPayload r) = true) (hs1 : s1 = s.bump Reg.MGT_FRAMES 1)
    (hs2 : s2 = { s1 with mgt := { s1.mgt with request := some r, reqAt := s.now, response := none } }) :
    exec (.frameWrite frame) s = .next (if cmdMain (frCmd r) && (!cmdAuth (frCmd r) || s.tagOk r) && !s.mgt.mainGone && !s.pwr.stopped
      then s2.wake 2 else s2) := by
  subst hs2 hs1 hr hn
  change execFrameWrite frame s = _
  rw [execFrameWrite, if_neg hwhole]
  simp only [hidle, Option.isSome_none, Bool.false_eq_true, if_false, hstage, hgood, Bool.not_true, hsteady, hpayload]

theorem exec_frameWrite_refused (frame : List Byte) (s : State)
    (hwhole : ¬(frame.length < 8 ∨ (frLen frame ≤ 1024 ∧ frame.length < 12 + frLen frame + (if frAuth frame then 16 else 0)))) :
    (s.mgt.request ≠ none → exec (.frameWrite frame) s = .next { s with mgt := { s.mgt with overrun := true } }) ∧ (s.mgt.request = none →
      s.stage ≠ 0xF → frameGood frame = false → exec (.frameWrite frame) s = .next
      ((s.bump Reg.MGT_CRC_FAIL 1).answer (leBytes 8 0) 0x0F20 [])) := by
  change (_ → execFrameWrite frame s = _) ∧ (_ → _ → _ → execFrameWrite frame s = _)
  rw [execFrameWrite, if_neg hwhole]
  constructor
  · intro hbusy
    rw [if_pos (Option.isSome_iff_ne_none.mpr hbusy)]
  · intro hidle hstage hbad
    simp only [hidle, Option.isSome_none, Bool.false_eq_true, if_false, hstage, hbad, Bool.not_false, if_true]

theorem exec_statusRead_and_responseRead (whole : Bool) (s : State) :
    exec .statusRead s = .next { s with out := s.out ++ [.mgmt (leBytes 4 s.statusWord)], mgt := { s.mgt with overrun := false } } ∧ exec
      (.responseRead whole) s = .next { s with
        out := s.out ++ [.mgmt (s.mgt.response.getD [])], mgt := { s.mgt with response := if whole then none else s.mgt.response } } :=
  ⟨rfl, rfl⟩

theorem exec_getInfo_accepted (r : List Byte) (s : State) (hacc : s.mgtAccepts 0x01 false r = true) :
    exec .getInfo s = .next (s.answer r 0 (leBytes 1 (s.rdN Reg.CAP_VARIANT) ++ leBytes 1 s.devId ++ leBytes 1 (roleCode s.lnk.role) ++
      leBytes 1 0 ++ ((List.range 4).flatMap fun i => leBytes 1 (s.imgSvn (i + 1))) ++ leBytes 4
      (((Tab.get? s.sec.imgs 2).map (·.build)).getD 0) ++ leBytes 1 1 ++ leBytes 3 0)) := by
  change execGetInfo s = _
  rw [execGetInfo, mgtRun_answers_open hacc rfl rfl rfl (by decide)]
  cases Tab.get? s.sec.imgs 2 <;> rfl

theorem exec_getStatus_accepted (r : List Byte) (s : State) (hacc : s.mgtAccepts 0x02 false r = true) :
    exec .getStatus s = .next (s.answer r 0 (leBytes 4 s.statusWord ++ (if s.mainUp then s.mainValues else s.mgt.kept) ++ leBytes 2
      (s.rdF Reg.PWR_WAKE_CAUSE 0 6) ++ leBytes 2 s.mgt.events.length ++ leBytes 4 0)) := by
  change execGetStatus s = _
  rw [execGetStatus, mgtRun_answers_open hacc rfl rfl rfl (by decide)]

theorem exec_getEvent_delivers (r : List Byte) (e : MgtEv) (es : List MgtEv) (s s1 : State) (hacc : s.mgtAccepts 0x03 false r = true)
    (hevents : s.mgt.events = e :: es) (hwaiting : s.mgt.waiting = []) (hs1 : s1 = { s with mgt := { s.mgt with events := es } }) :
    exec .getEvent s = .next (s1.answer r 0 (leBytes 1 e.cls ++ leBytes 1 e.lost.toNat ++ leBytes 2 e.body.length ++ leBytes 4 e.seq ++
      e.body)) := by
  change execGetEvent s = _
  rw [execGetEvent, mgtRun_answers_open (s1 := s1) (code := 0) hacc rfl rfl ?_ (by decide)]
  simp only [hevents, hwaiting, hs1]

theorem exec_getEvent_empty (r : List Byte) (s : State) (hacc : s.mgtAccepts 0x03 false r = true) (hempty : s.mgt.events = []) :
    exec .getEvent s = .next (s.answer r 0 []) := by
  change execGetEvent s = _
  rw [execGetEvent, mgtRun_answers_open (s1 := s) (pl := []) (code := 0) hacc rfl rfl ?_ (by decide)]
  simp only [hempty]

theorem exec_getTime_accepted (r : List Byte) (s : State) (hacc : s.mgtAccepts 0x04 false r = true) :
    exec .getTime s = .next (s.answer r 0 (leBytes 8 s.mgt.reqAt)) := by
  change execGetTime s = _
  rw [execGetTime, mgtRun_answers_open hacc rfl rfl rfl (by decide)]

theorem exec_getErrors_accepted (r : List Byte) (s : State) (hacc : s.mgtAccepts 0x05 false r = true) :
    exec .getErrors s = .next (s.answer r 0 ((List.range 15).flatMap fun b => leBytes 4 (s.rdN (Reg.ERR_PT_B_FIRST 0 (b + 1))) ++ leBytes
      4 (s.rdN (Reg.ERR_PT_B_SUBJECT 0 (b + 1))) ++ leBytes 8 (s.rdN (Reg.ERR_PT_B_TIME 0 (b + 1))))) := by
  change execGetErrors s = _
  rw [execGetErrors, mgtRun_answers_open hacc rfl rfl rfl (by decide)]

theorem exec_getAttest_accepted (r body : List Byte) (k : Nat) (s s1 : State) (hacc : s.mgtAccepts 0x06 false r = true)
    (hrng : s.sec.rngBad = false) (hk : (k, s1) = s.freshPriv) (hbody : body = s1.attestBody 0 (frPayload r)) :
    exec .getAttest s = .next (s1.answer r 0 (body ++ ecdsaSign s1.sec.ak k body)) := by
  change execGetAttest s = _
  rw [execGetAttest, mgtRun_answers_open (s1 := s1) (code := 0) hacc rfl rfl ?_ (by decide)]
  simp only [hrng, Bool.false_eq_true, if_false, ← hk, ← hbody]

theorem exec_authOpen_challenges (r n : List Byte) (d : Nat) (s s1 s2 : State) (hacc : s.mgtAccepts 0x10 false r = true)
    (hopen : s.mgt.lockedOut = false) (hrng : s.sec.rngBad = false) (hn : (n, s1) = s.freshBytes 32) (hd : (d, s2) = s1.freshPriv) :
    exec .authOpen s = .next (({ s2 with
        mgt := { s2.mgt with challenge := some (n, d, ecPub d), refusals := if s2.mgt.key.isNone then 0 else s2.mgt.refusals } }).answer r
      0 (n ++ ecPub d)) := by
  change execAuthOpen s = _
  rw [execAuthOpen, mgtRun_answers_open (code := 0) hacc rfl rfl ?_ (by decide)]
  simp only [hopen, hrng, Bool.false_eq_true, if_false, ← hn, ← hd]

theorem exec_authOpen_lockedOut (r : List Byte) (s : State) (hacc : s.mgtAccepts 0x10 false r = true) (hlocked : s.mgt.lockedOut = true) :
    exec .authOpen s = .next (s.authRefuse r 0x0F25) := by
  change execAuthOpen s = _
  rw [execAuthOpen, mgtRun_refuses_open (s1 := s) (pl := []) hacc rfl rfl ?_]
  simp only [hlocked, if_true]

theorem exec_authFinish_accepted (r n dpub epub pub b : List Byte) (d k : Nat) (s s1 : State) (hacc : s.mgtAccepts 0x11 false r = true)
    (hchallenge : s.mgt.challenge = some (n, d, dpub)) (hb : b = frPayload r) (hk : k = getLE b 0 1) (hepub : epub = (b.drop 4).take 96)
    (hpub : pub = (b.drop 100).take 96) (hs1 : s1 = { s with mgt := { s.mgt with challenge := none } }) :
    exec .authFinish s = .next (if 4 ≤ k ∨ s1.keyOk (4 + k) pub = false ∨ ecdsaOk pub (n ++ dpub ++ epub ++ leBytes 1 k)
      ((b.drop 196).take 96) = false ∨ ecdh d epub = none then s1.authRefuse r 0x0F25 else ({ s1 with
        mgt := { s1.mgt with key := some (kdf ((ecdh d epub).getD []) "MGMT" (n ++ dpub ++ epub)), lastSeq := none, refusals := 0 }
          }).answer r 0 []) := by
  change execAuthFinish s = _
  have hkey : s1.keyOk (4 + k) pub = s.keyOk (4 + k) pub := by rw [hs1]; rfl
  rw [hkey]
  split
  case isTrue hbad =>
    rw [execAuthFinish, mgtRun_refuses_open (s1 := s1) (pl := []) hacc rfl rfl]
    simp only [hchallenge, ← hb, ← hk, ← hepub, ← hpub, ← hs1]
    split
    · rfl
    · next hok =>
      simp only [Bool.or_eq_true, decide_eq_true_eq, Bool.not_eq_true', not_or] at hok
      obtain ⟨⟨hindex, hkeyOk⟩, hsig⟩ := hok
      rw [(by tauto : ecdh d epub = none)]
  case isFalse hgood =>
    simp only [not_or, Bool.not_eq_false] at hgood
    obtain ⟨hindex, hkeyOk, hsig, hshared⟩ := hgood
    obtain ⟨z, hz⟩ := Option.ne_none_iff_exists'.mp hshared
    rw [execAuthFinish, mgtRun_answers_open (code := 0) hacc rfl rfl ?_ (by decide)]
    simp only [hchallenge, ← hb, ← hk, ← hepub, ← hpub, hindex, hkeyOk, hsig, hz, hs1, decide_false, Bool.not_true, Bool.or_self,
      Bool.false_eq_true, if_false, Option.getD_some]

theorem exec_authClose_accepted (r : List Byte) (s : State) (hacc : s.mgtAccepts 0x12 false r = true) :
    exec .authClose s = .next ((s.mgtStarts 0x12 r).answer r 0 []).sessionEnd := by
  change execAuthClose s = _
  rw [execAuthClose, mgtRun_answers hacc rfl rfl (by decide), State.mgtEnds, if_pos (by simp [cmdAuth])]

theorem exec_authLockoutEnd_eq (s : State) :
    exec .authLockoutEnd s = .next { s with mgt := { s.mgt with lockedOut := false } } := rfl

theorem exec_setRung_accepted (r : List Byte) (k : Nat) (ok : Bool) (s s1 : State) (hsteady : s.mgt.switching = false)
    (hacc : s.mgtAccepts 0x20 false r = true) (hk : k = getLE (frPayload r) 0 1)
    (hrung : (s1, ok) = if k = 1 then ((s.mgtStarts 0x20 r).wakeNow 2, true) else (s.mgtStarts 0x20 r).rungRequest k) :
    exec .setRung s = .next ((if ok then s1.answer r 0 [] else s1.answer r 0x0F26 (leBytes 2 0x0F01)).mgtEnds 0x20 r) := by
  change execSetRung s = _
  rw [execSetRung, hsteady, if_neg Bool.false_ne_true]
  by_cases hwake : k = 1
  · obtain ⟨hs1, hok⟩ := Prod.mk.injEq .. ▸ hrung.trans (if_pos hwake)
    rw [mgtRun_answers (s1 := s1) (code := 0) (pl := []) hacc rfl ?_ (by decide), hok, if_pos rfl]
    simp only [← hk, hwake, if_true, hs1]
  · rw [if_neg hwake] at hrung
    cases ok
    · rw [mgtRun_answers (s1 := s1) (code := 0x0F26) hacc rfl ?_ (by decide), if_neg Bool.false_ne_true]
      simp only [← hk, hwake, ← hrung, Bool.false_eq_true, if_false, targetRefused]
    · rw [mgtRun_answers (s1 := s1) (code := 0) (pl := []) hacc rfl ?_ (by decide), if_pos rfl]
      simp only [← hk, hwake, ← hrung, if_false, if_true]

theorem exec_settings_accepted (r : List Byte) (s : State) :
    (s.mgtAccepts 0x21 false r = true → exec .setPowerLimit s = .next
      ((((s.mgtStarts 0x21 r).wr Reg.PWR_LIMIT (getLE (frPayload r) 0 1)).answer r 0 []).mgtEnds 0x21 r)) ∧ (s.mgtAccepts 0x22 false r =
      true → exec .setAlertMask s = .next ((((s.mgtStarts 0x22 r).wr Reg.MGT_ALERT_MASK (getLE (frPayload r) 0 2)).answer r 0 []).mgtEnds
      0x22 r)) ∧ (s.mgtAccepts 0x24 true r = true → exec .mgmtHoldTest s = .next
      (((s.mgtStarts 0x24 r).startHoldTest.answer r 0 []).mgtEnds 0x24 r)) := by
  change (_ → execSetPowerLimit s = _) ∧ (_ → execSetAlertMask s = _) ∧ (_ → execMgmtHoldTest s = _)
  refine ⟨fun hacc => ?_, fun hacc => ?_, fun hacc => ?_⟩
  · rw [execSetPowerLimit, mgtRun_answers hacc rfl rfl (by decide)]
  · rw [execSetAlertMask, mgtRun_answers hacc rfl rfl (by decide)]
  · rw [execMgmtHoldTest, mgtRun_answers hacc rfl rfl (by decide)]

theorem exec_mgmtResetPartition_accepted (r : List Byte) (p : Nat) (s s0 : State) (hacc : s.mgtAccepts 0x23 true r = true)
    (hkind : getLE (frPayload r) 0 1 = 1) (hp : p = getLE (frPayload r) 1 1) (hs0 : s0 = s.mgtStarts 0x23 r) :
    exec .mgmtResetPartition s = .next ((if s0.resetting p then s0.answer r 0x0F26 (leBytes 2 0x0A0B) else (s0.resetPartition p).answer r
      0 []).mgtEnds 0x23 r) := by
  subst hs0 hp
  change execMgmtResetPartition s = _
  rw [execMgmtResetPartition]
  split
  · next hresets =>
    rw [mgtRun_answers (sel := fun b => getLE b 0 1 == 1) (code := 0x0F26) hacc (beq_iff_eq.mpr hkind) (if_pos hresets) (by decide)]
  · next hfree =>
    rw [mgtRun_answers (sel := fun b => getLE b 0 1 == 1) (code := 0) hacc (beq_iff_eq.mpr hkind) (if_neg hfree) (by decide)]

theorem exec_mgmtResetDevice_accepted (straps : BitVec 12) (r : List Byte) (s s1 : State) (hacc : s.mgtAccepts 0x23 false r = true)
    (hkind : getLE (frPayload r) 0 1 = 2) (hs1 : s1 = ((s.mgtStarts 0x23 r).answer r 0 []).mgtEnds 0x23 r) :
    exec (.mgmtResetDevice straps) s = .next (s1.restart 3 straps.toNat) := by
  change execMgmtResetDevice straps s = _
  have hanswered : s1.mgt.request = none := by rw [hs1, mgtEnds_request, answer_request]
  obtain ⟨b, hb, hstatus⟩ : ∃ b, s1.mgt.response = some b ∧ getLE b 6 2 = 0 := by
    rw [hs1, mgtEnds_response]
    exact answer_response_status _ r [] (by decide)
  rw [execMgmtResetDevice, mgtRun_answers (sel := fun b => getLE b 0 1 == 2) hacc (beq_iff_eq.mpr hkind) rfl (by decide), ← hs1]
  simp only [request_of_mgtAccepts hacc, hb, hanswered, hkind, hstatus, Option.isNone_none, beq_self_eq_true, Bool.and_self, if_true]

/-- Settles O37: an accepted request runs its command's function (mgtRun_accepts), and each clause is that function under its premises.
The model's choices in it: the order of the status codes and 0x0A0B for a partition that is resetting (row 204 of the assumption log), the
wake by SET_RUNG 1 and by commands of the main side with a good tag only (row 206), and the time from which the port is served (row 207).
-/
theorem managementPort : Obligations.ManagementPort :=
  ⟨exec_frameWrite_accepted, exec_frameWrite_refused, exec_statusRead_and_responseRead, exec_getInfo_accepted, exec_getStatus_accepted,
    exec_getEvent_delivers, exec_getEvent_empty, exec_getTime_accepted, exec_getErrors_accepted, exec_getAttest_accepted,
    exec_authOpen_challenges, exec_authOpen_lockedOut, exec_authFinish_accepted, exec_authClose_accepted, exec_authLockoutEnd_eq,
    exec_setRung_accepted, exec_settings_accepted, exec_mgmtResetPartition_accepted, exec_mgmtResetDevice_accepted⟩

/-! ### The status word, and one request at a time (R554, R557) -/

theorem bitAt_eq_of_mod {v i : Nat} {b : Bool} (h : v / 2 ^ i % 2 = b.toNat) : bitAt v i = b := by
  cases b <;> simp [bitAt, h]

/-- The low bits of the status word, each apart from the others and from what stands above them (R554). -/
theorem statusWord_low_bits (s : State) :
    ∃ waits up high, waits ≤ 1 ∧ up ≤ 1 ∧ s.statusWord =
      s.mgt.response.isSome.toNat + s.mgt.request.isSome.toNat * 2 + waits * 4 + up * 8 + s.mgt.overrun.toNat * 16 + high * 32 := by
  refine ⟨(!s.mgt.events.isEmpty).toNat, s.mainUp.toNat, s.mgt.key.isSome.toNat + (s.rdB Reg.REL_STATUS 0).toNat * 2 + s.rung * 8 +
    (s.mgt.response.map frSeq).getD 0 * 2048, Bool.toNat_le _, Bool.toNat_le _, ?_⟩
  rw [State.statusWord]
  cases s.mgt.response <;> simp only [Option.map_none, Option.map_some, Option.getD_none, Option.getD_some] <;> ring

/-- BUSY, RESP_READY and OVERRUN of the status word (R554, R557). -/
theorem statusWord_flags (s : State) :
    bitAt s.statusWord 0 = s.mgt.response.isSome ∧ bitAt s.statusWord 1 = s.mgt.request.isSome ∧ bitAt s.statusWord 4 = s.mgt.overrun := by
  obtain ⟨waits, up, high, hwaits, hup, hword⟩ := statusWord_low_bits s
  have hready : s.mgt.response.isSome.toNat ≤ 1 := Bool.toNat_le _
  have hbusy : s.mgt.request.isSome.toNat ≤ 1 := Bool.toNat_le _
  have hover : s.mgt.overrun.toNat ≤ 1 := Bool.toNat_le _
  refine ⟨bitAt_eq_of_mod ?_, bitAt_eq_of_mod ?_, bitAt_eq_of_mod ?_⟩ <;> rw [hword] <;> norm_num only <;> omega

theorem mgt_wakeNow (s : State) (i : Nat) : (s.wakeNow i).mgt = s.mgt := by
  rw [State.wakeNow]
  cases s.pwr.entry with
  | none => dsimp only; split_ifs <;> rfl
  | some e => dsimp only; split_ifs <;> rfl

theorem mgt_wake (s : State) (i : Nat) : (s.wake i).mgt = s.mgt := by
  rw [State.wake]
  split
  · rfl
  · exact mgt_wakeNow s i

theorem exec_frameWrite_replaces_response (frame r : List Byte) (n : Nat) (s : State)
    (hn : n = 12 + frLen frame + (if frAuth frame then 16 else 0))
    (hwhole : ¬(frame.length < 8 ∨ (frLen frame ≤ 1024 ∧ frame.length < n))) (hidle : s.mgt.request = none) (hstage : s.stage ≠ 0xF)
    (hgood : frameGood frame = true) (hsteady : s.mgt.switching = false) (hr : r = frame.take (n - 4))
    (hpayload : payloadOk (frCmd r) (frPayload r) = true) :
    ∃ t, exec (.frameWrite frame) s = .next t ∧ t.mgt.response = none ∧ t.mgt.request = some r := by
  refine ⟨_, exec_frameWrite_accepted frame r n s _ _ hn hwhole hidle hstage hgood hsteady hr hpayload rfl rfl, ?_⟩
  split
  · rw [mgt_wake]
    exact ⟨rfl, rfl⟩
  · exact ⟨rfl, rfl⟩

/-- Settles O49: the status word's bits 0, 1 and 4 are apart from its other fields, and a frame or a read changes the request and the
response as execFrameWrite and execResponseRead say. -/
theorem portTakesOneRequestAtATime : Obligations.PortTakesOneRequestAtATime := by
  refine ⟨?statusBits, ?busy, exec_frameWrite_replaces_response, ?reads⟩
  case statusBits =>
    exact statusWord_flags
  case busy =>
    intro frame s hbusy hwhole
    have hrequest : s.mgt.request ≠ none := by
      obtain ⟨-, hword, -⟩ := statusWord_flags s
      rw [hword] at hbusy
      exact Option.isSome_iff_ne_none.mp hbusy
    exact (exec_frameWrite_refused frame s hwhole).1 hrequest
  case reads =>
    intro s
    refine ⟨⟨_, (exec_statusRead_and_responseRead true s).2, ?_⟩, ⟨_, (exec_statusRead_and_responseRead false s).2, rfl, rfl⟩⟩
    obtain ⟨hready, -, -⟩ := statusWord_flags
      { s with out := s.out ++ [.mgmt (s.mgt.response.getD [])], mgt := { s.mgt with response := none } }
    exact hready

end Sys2Proof.Machine
end

section
/-! PROOFS of the family 23_boot_reset (O36): resets, the boot sequence, rail faults, PCIe events and pins (R567 to R590). -/

namespace Sys2Proof.Machine

/-! ### The state after a reset (R568) -/

/-- Without a security command in progress no fuse is being written, and a cold reset leaves the fuses, the flash and what is outside the
device (R568). -/
theorem coldState_eq {s : State} (hidle : s.sec.cmd = none) (porst : Bool) :
    s.coldState porst = { State.reset with
      pending := s.pending, mem := s.hostMem, memx := s.hostPoison, freeCtr := s.freeCtr, out := s.out, sec := s.fuses
      boot := { flash := s.boot.flash, perst := s.boot.perst, porst := porst } } := by
  have hloss : s.fuseLoss = s := by simp only [State.fuseLoss, hidle]
  simp only [State.coldState, hloss]

/-- A register of a table of which the addresses that `keep` names are kept. -/
theorem rd_of_regs_filter {s t : State} {keep : Nat → Bool} (h : t.regs = s.regs.filter fun e => keep e.1) (a : Nat) :
    t.rd a = if keep a then s.rd a else Reg.resetOf a := by
  simp only [State.rd, Tab.getD, h, get?_filter]
  cases keep a <;> simp

/-! ### The commands (R567 to R593) -/

theorem exec_coldReset_and_vddAonFault (s : State) (hidle : s.sec.cmd = none) :
    exec .coldReset s = .next { State.reset with
        pending := s.pending, mem := s.hostMem, memx := s.hostPoison, freeCtr := s.freeCtr, out := s.out, sec := s.fuses, boot :=
          { flash := s.boot.flash, perst := s.boot.perst, porst := true } } ∧ exec .vddAonFault s = .next { State.reset with
        pending := s.pending, mem := s.hostMem, memx := s.hostPoison, freeCtr := s.freeCtr, out := s.out, sec := s.fuses, boot :=
          { flash := s.boot.flash, perst := s.boot.perst, porst := false } } :=
  ⟨congrArg Host.Outcome.next (coldState_eq hidle true), congrArg Host.Outcome.next (coldState_eq hidle false)⟩

theorem exec_porstRelease_asserted (straps : BitVec 12) (s s1 : State) (hporst : s.boot.porst = true)
    (hs1 : s1 = { s with boot := { s.boot with porst := false, testHold := false } }) :
    exec (.porstRelease straps false) s = .next (s1.startBoot straps.toNat) ∧ exec (.porstRelease straps true) s = .next
      { s1 with boot := { s1.boot with testHold := true } } := by
  subst hs1
  change execPorstRelease straps false s = _ ∧ execPorstRelease straps true s = _
  simp only [execPorstRelease, hporst, Bool.not_true, Bool.false_eq_true, if_false, if_true, and_self]

theorem exec_testModeFall_held (straps : BitVec 12) (s s1 : State) (hheld : s.boot.testHold = true)
    (hs1 : s1 = { s with boot := { s.boot with testHold := false } }) :
    exec (.testModeFall straps) s = .next (s1.startBoot straps.toNat) := by
  subst hs1
  change execTestModeFall straps s = _
  simp only [execTestModeFall, hheld, Bool.not_true, Bool.false_eq_true, if_false]

theorem exec_bootImageLoaded_serves (t : Nat) (d : List Byte) (two pref : Bool) (s s1 : State) (ht : t = s.boot.next) (hlow : 1 ≤ t)
    (hhigh : t ≤ 4) (hdir : s.bootDir = none ∨ s.bootDir = some (d, two)) (hpref : pref = bitAt (getLE d 8 4) (t - 1))
    (hs1 : s1 = s.wrF Reg.GLB_BOOT_STATUS 16 16 (s.bootCode t (s.slotImage d t pref))) :
    exec .bootImageLoaded s = .next (if s.bootDir = none then s.halt 0 else if s.bootCode t (s.slotImage d t pref) = 0 then s.imageServed
      t (s.slotImage d t pref) pref else if s.bootCode t (s.slotImage d t (!pref)) = 0 then s1.imageServed t (s.slotImage d t (!pref))
      (!pref) else (s1.wrF Reg.GLB_BOOT_STATUS 16 16 (s.bootCode t (s.slotImage d t (!pref)))).imageMissing t) := by
  subst hs1
  change execBootImageLoaded s = _
  have hserving : ¬(s.boot.next = 0 ∨ 4 < s.boot.next) := by omega
  rw [execBootImageLoaded, if_neg hserving, ← ht]
  rcases hdir with hnone | hsome
  · simp only [hnone, if_true]
  · simp only [hsome, ← hpref, apply_ite Host.Outcome.next, reduceCtorEq, if_false]

theorem exec_memoryTrainingComplete_draws (s : State) (hbooting : s.boot.next ≠ 0) (huntrained : s.rdB Reg.MEM_STATUS 0 = false) :
    ∃ k t, exec .memoryTrainingComplete s = .next t ∧ t.rdF Reg.MEM_STATUS 0 1 = 1 ∧ t.memx = { s.memx with hashKey := k } ∧
      (∀ b, b ≠ Reg.MEM_STATUS → t.rd b = s.rd b) ∧ t = { s.fresh.2 with regs := t.regs, memx := t.memx } := by
  have hstarts : ¬(s.boot.next = 0 ∨ s.rdB Reg.MEM_STATUS 0 = true) := by simp [hbooting, huntrained]
  refine ⟨s.fresh.1, _, (if_neg hstarts : execMemoryTrainingComplete s = _), ?_, rfl, fun b hb => ?_, rfl⟩
  · exact rdF_wrF_same s.fresh.2 _ 1 (by decide)
  · exact rd_wrF_ne s.fresh.2 0 1 1 hb

theorem exec_bootReady_without_checker (failed : BitVec 32) (s s1 s2 s3 : State) (hstage : s.stage = 4)
    (htrained : s.rdB Reg.MEM_STATUS 0 = true)
    (hs1 : s1 = ((((List.range 32).filter fun n => failed.getLsbD n).foldl (fun s n => s.bootFence n) s).bootConfig).kSync)
    (hs2 : s2 = (s1.wrF Reg.GLB_BOOT_STATUS 0 4 6).wr Reg.GLB_BOOT_TIME s.now) (himgs : Tab.get? s1.sec.imgs 3 = none)
    (hs3 : s3 = { s2 with boot := { s2.boot with next := 0 } }) :
    exec (.bootReady failed) s = .next (s3.safeSync 0 0).debugEnter := by
  subst hs3
  have himgs2 : Tab.get? s2.sec.imgs 3 = none := by rw [hs2]; exact himgs
  change execBootReady failed s = _
  rw [execBootReady, if_neg (by simp [hstage, htrained])]
  simp only [← hs1, ← hs2, himgs2, Option.isSome_none, Bool.false_eq_true, if_false]

theorem exec_wholeDeviceRestart_eq (value : BitVec 32) (straps : BitVec 12) (s : State) :
    exec (.wholeDeviceRestart value straps) s = .next (if value = 0xD1E5#32 then s.restart 2 straps.toNat else s) :=
  (apply_ite Host.Outcome.next _ _ _).symm

theorem restart_from_ready (source straps : Nat) (s s1 s2 : State) (hready : s.stage = 6) (hmain : s.mgt.mainGone = false)
    (hs1 : s1 = ((if s.safe.heldSince.isNone then s.mgtEvent 5 (leBytes 8 0 ++ leBytes 8 s.now) else s).setRung 0).clearMain)
    (hs2 : s2 = (s1.wr Reg.GLB_RESTARTS (min 0xFFFF (s1.rdN Reg.GLB_RESTARTS + 1))).wr Reg.GLB_RESET_CAUSE (2 + source * 16)) :
    s.restart source straps = s2.startBoot straps := by
  subst hs2 hs1
  rw [State.restart, if_neg (by simp [hready, hmain])]

theorem exec_fatalRestartTimer_enabled (straps : BitVec 12) (s : State) (hfatal : s.boot.fatalAt.isSome = true)
    (henabled : s.rdB Reg.GLB_CFG 0 = true) :
    exec (.fatalRestartTimer straps) s = .next (s.restart 4 straps.toNat) := by
  change execFatalRestartTimer straps s = _
  rw [execFatalRestartTimer, hfatal, henabled]
  rfl

theorem exec_hostReset_partitions (how : HostResetBy) (straps : BitVec 12) (s s1 s2 : State)
    (hs1 : s1 = { s with boot := { s.boot with linkUp := false, inL1 := false, perst := s.boot.perst || how == .perst } })
    (hready : s1.stage = 6) (hnorestart : (how == .perst && s1.rdB Reg.GLB_CFG 1) = false) (hs2 : s2 = (s1.resetPartition 0).vfClear) :
    exec (.hostReset how straps) s = .next { s2 with qm := { s2.qm with msixEn := [], fnMask := [], d3hot := [] } } := by
  subst hs2
  change execHostReset how straps s = _
  simp only [execHostReset, ← hs1, hready, hnorestart, ne_eq, not_true_eq_false, Bool.false_eq_true, if_false]

theorem exec_hostReset_perst_restarts (straps : BitVec 12) (s s1 : State)
    (hs1 : s1 = { s with boot := { s.boot with linkUp := false, inL1 := false, perst := true } }) (hready : s1.stage = 6)
    (henabled : s1.rdB Reg.GLB_CFG 1 = true) :
    exec (.hostReset .perst straps) s = .next (s1.restart 5 straps.toNat) := by
  have hboot : { s with
      boot := { s.boot with linkUp := false, inL1 := false, perst := s.boot.perst || HostResetBy.perst == .perst } } = s1 := by
    rw [hs1, show (HostResetBy.perst == .perst) = true from rfl, Bool.or_true]
  change execHostReset .perst straps s = _
  simp only [execHostReset, hboot, hready, henabled, ne_eq, not_true_eq_false, if_false]
  rfl

theorem exec_mainRailFault_keeps_island (s : State) (hpowered : s.mgt.mainGone = false) :
    ∃ t, exec .mainRailFault s = .next t ∧ t.safe = s.safe ∧ t.mgt.mainGone = true ∧ t.mgt.events = s.mgt.events ∧ t.time = s.time ∧
      (∀ a, t.rd a = if restartKeeps a || decide (0x1B00000 ≤ a ∧ a < 0x1D00000) then s.rd a else Reg.resetOf a) ∧ t.chan = [] ∧ t.frond =
      [] ∧ t.chunks = [] ∧ t.own = [] := by
  have hruns : ¬s.mgt.mainGone = true := by simp [hpowered]
  refine ⟨_, (if_neg hruns : execMainRailFault s = _), rfl, rfl, rfl, rfl, fun a => ?_, rfl, rfl, rfl, rfl⟩
  exact rd_of_regs_filter (keep := fun a => restartKeeps a || decide (0x1B00000 ≤ a ∧ a < 0x1D00000)) rfl a

theorem exec_perstRelease_eq (s : State) :
    exec .perstRelease s = .next { s with boot := { s.boot with perst := false } } := rfl

theorem exec_pcieLinkUp_powered (s : State) (hporst : s.boot.porst = false) (hperst : s.boot.perst = false) (hrung : s.rung ≠ 4) :
    exec .pcieLinkUp s = .next { s with boot := { s.boot with linkUp := true } } :=
  if_neg (by simp [hporst, hperst, hrung])

theorem exec_pcieL1Exit_wakes (s s1 : State) (hs1 : s1 = { s with boot := { s.boot with inL1 := false } }) :
    exec .pcieL1Exit s = .next (s1.wake 0) :=
  hs1 ▸ rfl

theorem exec_cfwSwitchComplete_runs (u : Update) (s s1 : State) (hupd : s.sec.upd = some u) (htype : u.type = 2)
    (hs1 : s1 = { s with mgt := { s.mgt with switching := false }, pwr := { s.pwr with asked := [] } }) :
    exec .cfwSwitchComplete s = .next (s.pwr.asked.foldl (fun s k => s.askRung k) ((s1.updRun u).updDone u)) := by
  subst hs1
  change execCfwSwitchComplete s = _
  simp only [execCfwSwitchComplete, hupd, htype, ne_eq, not_true_eq_false, if_false]

theorem exec_tapExtest_eq (s : State) :
    exec .tapExtest s = .next (if s.sec.level = 0 then s else s.clearMain) :=
  (apply_ite Host.Outcome.next _ _ _).symm

theorem exec_aon32kStable_eq (s : State) :
    exec .aon32kStable s = .next { s with boot := { s.boot with xtal32k := true } } := rfl

/-- Settles O36: each command's function of the model, unfolded under the clause's premises. The model's choices in it: what a restart
keeps and that the rung becomes P0 (row 211 of the assumption log), a hot reset as a host reset (row 212), EXTEST as the reset that a cold
reset ends (row 213), what the two rail faults leave (row 214), the code 0 of a directory failure (row 215) and the floor that an
interrupted SVN_COMMIT leaves (row 217). -/
theorem bootAndResets : Obligations.BootAndResets :=
  ⟨exec_coldReset_and_vddAonFault, exec_porstRelease_asserted, exec_testModeFall_held, exec_bootImageLoaded_serves,
    exec_memoryTrainingComplete_draws, exec_bootReady_without_checker, exec_wholeDeviceRestart_eq, restart_from_ready,
    exec_fatalRestartTimer_enabled, exec_hostReset_partitions, exec_hostReset_perst_restarts, exec_mainRailFault_keeps_island,
    exec_perstRelease_eq, exec_pcieLinkUp_powered, exec_pcieL1Exit_wakes, exec_cfwSwitchComplete_runs, exec_tapExtest_eq,
    exec_aon32kStable_eq⟩

end Sys2Proof.Machine
end
